-- ==== Sys2Proof/Word.lean ====
section
/-! DEFINITION. The word types of the model and their plainest arithmetic (R3, R5: every register is 32 bits,
every multi-byte value is little-endian). -/

namespace Sys2Proof

/-- A register word, an instruction word or a general register (R5, R120, R125). -/
abbrev Word := BitVec 32

/-- One byte of memory. -/
abbrev Byte := BitVec 8

/-- A hook register: 128 bits, four lanes of 32 bits, lane 0 the least significant (R135). -/
abbrev HWord := BitVec 128

end Sys2Proof
end

