-- ==== Sys2Proof/Syntax.lean ====
section
/-! DEFINITION. The commands of the block: one constructor of `Instr` per row of spec/opcode_table.json, in the
table's order, with the row's operands. A needle instruction carries the strand to which an issue slot is offered
(device-wide index, course × 104 + needle × 8 + strand) and every bit of its word that its opcode does not fix, so
that every word of the opcode is one command. -/

namespace Sys2Proof

/-- Format R (R121): guard, rd, rs1 and rs2; the minor is the opcode's. -/
structure RFmt where
  g : BitVec 4
  rd : BitVec 5
  rs1 : BitVec 5
  rs2 : BitVec 5
  deriving DecidableEq, Repr

/-- Format R of LDX and STX (R128): shift [6:5], size [4:2] and mode [1:0] are operands. -/
structure XRFmt where
  g : BitVec 4
  rd : BitVec 5
  rs1 : BitVec 5
  rs2 : BitVec 5
  sh : BitVec 2
  size : BitVec 3
  mode : BitVec 2
  deriving DecidableEq, Repr

/-- Format I (R121). -/
structure IFmt where
  g : BitVec 4
  rd : BitVec 5
  rs1 : BitVec 5
  imm : BitVec 12
  deriving DecidableEq, Repr

/-- Format I of the BF instructions (R126): pos [9:5] and width − 1 [4:0]; the op [11:10] is the opcode's. -/
structure BfFmt where
  g : BitVec 4
  rd : BitVec 5
  rs1 : BitVec 5
  pos : BitVec 5
  w : BitVec 5
  deriving DecidableEq, Repr

/-- Format I of LDPI and STPI (R128): size [11:9] and the signed increment [8:0]. -/
structure PiFmt where
  g : BitVec 4
  rd : BitVec 5
  rs1 : BitVec 5
  size : BitVec 3
  inc : BitVec 9
  deriving DecidableEq, Repr

/-- Format W (R121): bit 16 is reserved. -/
structure WFmt where
  g : BitVec 4
  rd : BitVec 5
  rsv : BitVec 1
  imm : BitVec 16
  deriving DecidableEq, Repr

/-- Format P with register operands (R121, R127): [21:20] reserved, pd, rs1, rs2. -/
structure PRFmt where
  g : BitVec 4
  rsv : BitVec 2
  pd : BitVec 3
  rs1 : BitVec 5
  rs2 : BitVec 5
  deriving DecidableEq, Repr

/-- Format P with an immediate (R127). -/
structure PIFmt where
  g : BitVec 4
  rsv : BitVec 2
  pd : BitVec 3
  rs1 : BitVec 5
  imm : BitVec 12
  deriving DecidableEq, Repr

/-- Format P of PLOG (R127): [21:20], [16:15] and [11:10] reserved; pd, ps1 [14:12], ps2 [9:7]. -/
structure PLFmt where
  g : BitVec 4
  rsv : BitVec 2
  pd : BitVec 3
  rsv1 : BitVec 2
  ps1 : BitVec 3
  rsv2 : BitVec 2
  ps2 : BitVec 3
  deriving DecidableEq, Repr

/-- Format J (R121). -/
structure JFmt where
  g : BitVec 4
  off : BitVec 22
  deriving DecidableEq, Repr

/-- Format H (R121): FUNC is the opcode's. -/
structure HFmt where
  g : BitVec 4
  hd : BitVec 4
  ha : BitVec 4
  hb : BitVec 4
  md : BitVec 4
  deriving DecidableEq, Repr

/-- Format S of the SYS instructions (R137): the minor is the opcode's. -/
structure SysFmt where
  g : BitVec 4
  rd : BitVec 5
  rs1 : BitVec 5
  deriving DecidableEq, Repr

/-- Format S of MFSR and MTSR (R141). -/
structure SrFmt where
  g : BitVec 4
  rd : BitVec 5
  rs1 : BitVec 5
  sr : BitVec 12
  deriving DecidableEq, Repr

/-- Format X (R121). -/
structure XFmt where
  g : BitVec 4
  code : BitVec 22
  deriving DecidableEq, Repr

/-- Who writes a register (R7, R406). -/
inductive Writer where
  | host | selvage
  deriving DecidableEq, Repr

/-- A register word write as it reaches a block's write port: the writer, the address, the bytes accessed, the value,
and a write by the other party that reaches the same register in the same cycle (R7). -/
structure RegAcc where
  who : Writer
  addr : Nat
  size : Nat
  val : Word
  rival : Option Word
  deriving DecidableEq, Repr

/-- A write of the word that a row of the table names: who writes it, and a write by the other party that reaches the same register
in the same cycle (R7). -/
structure WrIn where
  who : Writer
  rival : Option Word
  deriving DecidableEq, Repr

/-- What a domain source observes (R22, R23). -/
inductive Obs where
  | gptp (ns : Nat) (ppb : Int) (slave asCapable : Bool)
  | quad (fwd : Bool)
  | index
  | hall (st : BitVec 3)
  | resolver (angle : BitVec 24) (amp : Nat)
  | mains (amp : Nat)
  | pulse
  deriving DecidableEq, Repr

/-- The outcomes of a LIN frame (R63); codes 0x07–0xFF are never produced. -/
inductive LinStatus where
  | ok | noResponse | partialResponse | checksumErr | parityErr | bitErr | syncErr
  deriving DecidableEq, Repr

/-- A frame on an external port: an Ethernet frame without its FCS, a CAN frame (KIND as R64; `rtr` is RTR or RRS, `id` the
identifier or PRIO, `len` the data length code or LEN), or a LIN frame with its outcome (R63). -/
inductive RxData where
  | eth (bytes : List Byte)
  | can (kind : Nat) (ide rtr sec : Bool) (id : Nat) (brs esi : Bool) (sdt vcid af len : Nat) (data : List Byte)
  | lin (status : LinStatus) (fid : Nat) (enhanced own : Bool) (data : List Byte)
  deriving DecidableEq, Repr

/-- A received frame: its port, T1S opportunity and validity, and MACsec check. -/
structure RxFrame where
  port : Nat
  data : RxData
  opp : Nat          -- T1S: the transmit opportunity in which it arrived
  oppOk : Bool       -- T1S: the opportunity was that of the node
  sec : Option Nat   -- MACsec: the association that authenticated it
  deriving DecidableEq, Repr

/-- A command ring entry (R310) less its opcode: header bits, sequence number, tag, payload (48 bytes) and extension
(64 bytes, LONG). -/
structure CmdIn where
  ring : Nat
  fence : Bool
  long : Bool
  rsv : BitVec 6
  list : BitVec 10
  rsv2 : BitVec 6
  seq : Word
  tag : BitVec 64
  payload : List Byte
  ext : List Byte
  deriving DecidableEq, Repr

/-- A Selvage request (R322, R323) less its OP: LEN, ADDR and the payload words received, and whether its assertion ends before the
response has been sent. -/
structure SvReq where
  len : BitVec 6
  addr : BitVec 20
  payload : List Word
  early : Bool
  deriving DecidableEq, Repr

/-- Register selector of a debug operation (R328), with its strand (device-wide index) and bank. -/
structure DbgSel where
  t : Nat
  bank : Bool
  sel : Nat
  deriving DecidableEq, Repr

/-- A Selvage request as it stands in the row of NOP (R324): with its OP. -/
structure SvOp where
  req : SvReq
  op : BitVec 6
  deriving DecidableEq, Repr

/-- A Selvage WR (R324), with the host's writes that collide with its words (R7). -/
structure SvWrite where
  req : SvReq
  rivals : List (Option Word)
  deriving DecidableEq, Repr

/-- A command ring entry as it stands in the row of NOP (R314): with its OPCODE. -/
structure OpCmd where
  cmd : CmdIn
  op : BitVec 8
  deriving DecidableEq, Repr

/-- A REG_WRITE (R314), with the Selvage writes that collide with its words (R7). -/
structure RegCmd where
  cmd : CmdIn
  rivals : List (Option Word)
  deriving DecidableEq, Repr

/-- A Register Access Frame that writes (R319), with the Selvage writes that collide with its words (R7). -/
structure RafIn where
  frame : RxFrame
  rivals : List (Option Word)
  deriving DecidableEq, Repr

/-- A port that can start a frame (R250); on a T1S segment, whether a new opportunity of its own has begun (R59). -/
structure TxSlot where
  port : Nat
  newOpp : Bool
  deriving DecidableEq, Repr

/-- The response of a remote LIN node (R62): its data bytes, and its checksum byte if it came so far. -/
structure LinRsp where
  data : List Byte
  checksum : Option Byte
  deriving DecidableEq, Repr

/-- A panel that is lost other than by its inputs or a Selvage command (R370): by its supply, or by its reference. -/
structure PanelFail where
  panel : Nat
  refclk : Bool
  deriving DecidableEq, Repr

/-- Which port input a signal belongs to, for the wake detectors (R341). -/
inductive WakeSrc where
  | can (port us : Nat) | lin (port us : Nat) | t1s (segment : Nat) | tio (pin ns : Nat) | selvage
  deriving DecidableEq, Repr

/-- A detected error (R357–R359): its severity as detected (R358), the unit, how it was detected (R374), and what it
damaged: for severity 1 the item by lifeline key, and whether the damage is in its frame's bytes or descriptor cell; for a
unit the failed row, column, bucket or lane. -/
structure ErrIn where
  panel : Nat
  unit : Nat
  index : Nat
  sev : Nat
  detect : Nat
  item : Option Nat
  frameData : Bool
  addr : Nat
  col : Bool
  deriving DecidableEq, Repr

/-- A panel's inputs (R335). -/
inductive PanelPin where
  | pg (v : Bool) | rst (v : Bool) | refclk (v : Bool)
  deriving DecidableEq, Repr

/-- The item whose bind-off timeout is judged (R114): one that holds a lifeline, or a first pass that waits in a list, by its
panel, ordering domain and marker. -/
inductive TimedItem where
  | held (panel llid : Nat) | listed (panel odom marker : Nat)
  deriving DecidableEq, Repr

/-- Opcodes of a command entry that R314 lists. -/
def ringOps : List Nat := [0, 1, 2, 3, 4, 0x10, 0x11, 0x12, 0x13, 0x14, 0x20, 0x21, 0x22, 0x23, 0x24, 0x30, 0x40, 0x41]

/-- Operations of a Selvage request that R324 lists: 0 to 0x0E. -/
def svOps : List Nat := List.range 15

/-- What comes of an RDMA READ of the device (R302): the data, a NAK, or nothing yet. -/
inductive ReadRsp where
  | data | nak | lost
  deriving DecidableEq, Repr

/-- What comes of an RDMA READ (R302), and whether the answer is marked with CE (R304). -/
structure ReadAns where
  rsp : ReadRsp
  ce : Bool
  deriving DecidableEq, Repr

/-- What comes of the RDMA READ of a TX_FRAME (R306), the bytes read, and whether the answer is marked with CE (R304). -/
structure FrameAns where
  rsp : ReadRsp
  frame : List Byte
  ce : Bool
  deriving DecidableEq, Repr

/-- The commands of the block (spec/opcode_table.json). -/
inductive Instr where
  /-- REGISTER_WRITE (R407): A write of a register word that has no row of its own is checked in order and either takes effect or is discarded and recorded. -/
  | registerWrite (a : RegAcc)
  /-- DOMAIN_ENABLE (R32): A DOM_CTL write with EN 1 checks the sources and puts the domain in FAULT with epoch 0. -/
  | domainEnable (w : WrIn) (n : Nat) (val : Word)
  /-- DOMAIN_DISABLE (R45): A DOM_CTL write with EN 0 disables the domain and cancels its pending events with CANCELLED_DISABLED. -/
  | domainDisable (w : WrIn) (n : Nat) (val : Word)
  /-- PRIMARY_RESUME (R47): A CONFIG rewrite of DOM_CTL that keeps EN, KIND and HOME updates AUTO_SWITCH and RELOCK, and resumes the primary source with an epoch increment. -/
  | primaryResume (w : WrIn) (n : Nat) (val : Word)
  /-- SOURCE_OBSERVATION (R35): An observation of a domain source is checked for rate and plausibility and is applied to the estimate, which may change the domain state. -/
  | sourceObservation (n : Nat) (secondary : Bool) (x : Obs)
  /-- SOURCE_LOST (R32): With no observation within LOSS_TO, a LOCKED copy moves to COAST with cause SOURCE_LOST. -/
  | sourceLost (panel n : Nat)
  /-- EDGE_OVERDUE (R33): When an edge is overdue, the overdue rule moves the copy to STOPPED or to COAST. -/
  | edgeOverdue (panel n : Nat)
  /-- UNC_LIMIT (R32): When the COAST uncertainty bound exceeds FAULT_UNC, the copy moves to FAULT. -/
  | uncLimit (panel n : Nat)
  /-- COAST_LIMIT (R32): When COAST lasts longer than MAXCOAST, the copy moves to FAULT. -/
  | coastLimit (panel n : Nat)
  /-- EVENT_FIRE (R45): In the tick in which a pending event's crossing is found, the event fires and its action and completion follow. -/
  | eventFire (i : Nat)
  /-- FRAME_RECEIVE (R426): A frame received on an external port is checked in order and is dropped, intercepted or passed to parsing. -/
  | frameReceive (f : RxFrame)
  /-- PORT_LINK_DOWN (R49): A port loses link or meets its DOWN condition, goes DOWN and drops its queued frames as LINK_DOWN. -/
  | portLinkDown (port : Nat)
  /-- PORT_LINK_UP (R49): A DOWN port regains link and returns to UP. -/
  | portLinkUp (port rate : Nat)
  /-- LIN_DOMINANT_TIMEOUT (R49): A LIN bus that stays dominant for more than 100 ms takes its port DOWN. -/
  | linDominantTimeout (port : Nat)
  /-- LIN_RECESSIVE_RECOVERY (R49): A LIN bus that stays recessive for 10 ms returns its port to UP. -/
  | linRecessiveRecovery (port : Nat)
  /-- CAN_BUSOFF_RECOVERY (R49): After 128 occurrences of 11 recessive bits, a bus-off CAN port recovers and returns to UP. -/
  | canBusoffRecovery (port : Nat)
  /-- EGRESS_TRANSMIT (R250): When a port can start a frame, the scheduler picks an eligible class and transmits its head frame. -/
  | egressTransmit (x : TxSlot)
  /-- TX_ABANDON (R61): A CAN frame still unsent 2 ms after its first attempt, or whose port goes down, is dropped. -/
  | txAbandon (port : Nat)
  /-- LIN_HEADER_RECEIVE (R62): A LIN port receives a header and answers it from a loaded response, or receives the response of a remote node. -/
  | linHeaderReceive (port : Nat) (fid : BitVec 6) (response : LinRsp)
  /-- LIN_SLOT_START (R282): At the start of each schedule slot, a commander LIN port sends the header of the slot's FID. -/
  | linSlotStart (port : Nat)
  /-- CAN_SCHEDULE_ENTRY (R281): At an entry's offset in the CAN cycle, its class becomes eligible until its head frame starts. -/
  | canScheduleEntry (panel entry : Nat)
  /-- PARSE_PASS (R76): A parser runs one pass over a frame through the chart graph and extracts its key area and layer table. -/
  | parsePass (panel parser : Nat)
  /-- CHART_COMMIT (R92): A CHR_VCOMMIT write is checked and, if accepted, rotates the bank roles and opens a new STAGING bank. -/
  | chartCommit (w : WrIn) (val : Word)
  /-- CHART_ABORT (R94): A CHR_VABORT write discards the staged changes by queuing a copy pass. -/
  | chartAbort (w : WrIn) (val : Word)
  /-- SWEEP_PASS_END (R94): A sweep pass ends, which starts the next queued pass or sets STAGE_READY. -/
  | sweepPassEnd
  /-- GENERATION_RETIRE (R95): When the DRAINING count reaches zero on every powered panel, the generation retires and a retire pass is queued. -/
  | generationRetire
  /-- HOLD_QUEUE_RETRY (R104): When a list gains room, the items held for it in the hold queue move on in first-in first-out order. -/
  | holdQueueRetry (panel : Nat)
  /-- SPILL_RETURN (R104): When a list's on-chip count falls below DEPTH, its oldest spilled items move back on chip. -/
  | spillReturn (list : Nat)
  /-- DISPATCH (R105): A course's Carriage slice dispatches the eligible head item of a list to an idle or pre-emptable strand. -/
  | dispatch (course : Nat)
  /-- RELEASE_TURN (R113): A DONE item reaches its release turn, and bind-off checks it and commits, frogs or drops it. -/
  | releaseTurn (panel llid : Nat)
  /-- BIND_TIMEOUT (R114): When the bind-off timeout expires for an item that is not DONE, the item is released as a drop. -/
  | bindTimeout (x : TimedItem)
  /-- LOCK_GRANT (R116): A serial read waiting on a context lock acquires the lock when it is freed. -/
  | lockGrant (t : Nat)
  /-- RESERVED_MAJOR (R124): A word with a reserved major opcode raises EMU_MAJOR at decode. -/
  | reservedMajor (t : Nat) (w : Word)
  /-- ADD (R125): rd := rs1 + rs2. -/
  | add (t : Nat) (f : RFmt)
  /-- SUB (R125): rd := rs1 − rs2. -/
  | sub (t : Nat) (f : RFmt)
  /-- AND (R125): rd := rs1 and rs2. -/
  | andR (t : Nat) (f : RFmt)
  /-- OR (R125): rd := rs1 or rs2. -/
  | orR (t : Nat) (f : RFmt)
  /-- XOR (R125): rd := rs1 xor rs2. -/
  | xorR (t : Nat) (f : RFmt)
  /-- ANDN (R125): rd := rs1 and not rs2. -/
  | andn (t : Nat) (f : RFmt)
  /-- SLL (R125): Shifts rs1 left by the amount in rs2. -/
  | sll (t : Nat) (f : RFmt)
  /-- SRL (R125): Shifts rs1 right with zero fill. -/
  | srl (t : Nat) (f : RFmt)
  /-- SRA (R125): Shifts rs1 right with sign fill. -/
  | sra (t : Nat) (f : RFmt)
  /-- ROR (R125): Rotates rs1 right. -/
  | ror (t : Nat) (f : RFmt)
  /-- MUL (R125): rd := the low 32 bits of the product. -/
  | mul (t : Nat) (f : RFmt)
  /-- MULHU (R125): rd := the high 32 bits of the unsigned product. -/
  | mulhu (t : Nat) (f : RFmt)
  /-- MULHS (R125): rd := the high 32 bits of the signed product. -/
  | mulhs (t : Nat) (f : RFmt)
  /-- MIN (R125): rd := the signed minimum. -/
  | minS (t : Nat) (f : RFmt)
  /-- MAX (R125): rd := the signed maximum. -/
  | maxS (t : Nat) (f : RFmt)
  /-- MINU (R125): rd := the unsigned minimum. -/
  | minu (t : Nat) (f : RFmt)
  /-- MAXU (R125): rd := the unsigned maximum. -/
  | maxu (t : Nat) (f : RFmt)
  /-- CLZ (R125): rd := the count of leading zeros of rs1. -/
  | clz (t : Nat) (f : RFmt)
  /-- CTZ (R125): rd := the count of trailing zeros of rs1. -/
  | ctz (t : Nat) (f : RFmt)
  /-- POPC (R125): rd := the count of set bits of rs1. -/
  | popc (t : Nat) (f : RFmt)
  /-- BSWAP (R125): rd := rs1 with its bytes reversed. -/
  | bswap (t : Nat) (f : RFmt)
  /-- ADDD (R125): Adds two 64-bit register pairs. -/
  | addd (t : Nat) (f : RFmt)
  /-- SUBD (R125): Subtracts two 64-bit register pairs. -/
  | subd (t : Nat) (f : RFmt)
  /-- ADDI (R126): rd := rs1 + sext(imm12). -/
  | addi (t : Nat) (f : IFmt)
  /-- ANDI (R126): rd := rs1 and zext(imm12). -/
  | andi (t : Nat) (f : IFmt)
  /-- ORI (R126): rd := rs1 or zext(imm12). -/
  | ori (t : Nat) (f : IFmt)
  /-- XORI (R126): rd := rs1 xor zext(imm12). -/
  | xori (t : Nat) (f : IFmt)
  /-- SHI (R126): Shifts or rotates by an immediate of the selected kind. -/
  | shi (t : Nat) (f : IFmt)
  /-- MOVL (R126): rd := zext(imm16). -/
  | movl (t : Nat) (f : WFmt)
  /-- MOVH (R126): Sets the upper half of rd to imm16 and keeps the lower half. -/
  | movh (t : Nat) (f : WFmt)
  /-- EXTU (R126): Extracts a bit field of rs1 with zero extension. -/
  | extu (t : Nat) (f : BfFmt)
  /-- EXTS (R126): Extracts a bit field of rs1 with sign extension. -/
  | exts (t : Nat) (f : BfFmt)
  /-- INS (R126): Inserts the low bits of rs1 into a bit field of rd. -/
  | ins (t : Nat) (f : BfFmt)
  /-- EQ (R127): pd := (rs1 = rs2). -/
  | eq (t : Nat) (f : PRFmt)
  /-- NE (R127): pd := (rs1 ≠ rs2). -/
  | ne (t : Nat) (f : PRFmt)
  /-- LT (R127): pd := signed rs1 < rs2. -/
  | lt (t : Nat) (f : PRFmt)
  /-- GE (R127): pd := signed rs1 ≥ rs2. -/
  | ge (t : Nat) (f : PRFmt)
  /-- LTU (R127): pd := unsigned rs1 < rs2. -/
  | ltu (t : Nat) (f : PRFmt)
  /-- GEU (R127): pd := unsigned rs1 ≥ rs2. -/
  | geu (t : Nat) (f : PRFmt)
  /-- TST (R127): pd := (rs1 and rs2) ≠ 0. -/
  | tst (t : Nat) (f : PRFmt)
  /-- CMPEQI (R127): pd := (rs1 = sext(imm12)). -/
  | cmpeqi (t : Nat) (f : PIFmt)
  /-- CMPLTI (R127): pd := signed rs1 < sext(imm12). -/
  | cmplti (t : Nat) (f : PIFmt)
  /-- CMPLTUI (R127): pd := unsigned rs1 < zext(imm12). -/
  | cmpltui (t : Nat) (f : PIFmt)
  /-- PAND (R127): pd := ps1 and ps2. -/
  | pand (t : Nat) (f : PLFmt)
  /-- POR (R127): pd := ps1 or ps2. -/
  | por (t : Nat) (f : PLFmt)
  /-- PXOR (R127): pd := ps1 xor ps2. -/
  | pxor (t : Nat) (f : PLFmt)
  /-- PANDN (R127): pd := ps1 and not ps2. -/
  | pandn (t : Nat) (f : PLFmt)
  /-- PNOT (R127): pd := not ps1. -/
  | pnot (t : Nat) (f : PLFmt)
  /-- LDB (R128): Loads a sign-extended byte. -/
  | ldb (t : Nat) (f : IFmt)
  /-- LDBU (R128): Loads a zero-extended byte. -/
  | ldbu (t : Nat) (f : IFmt)
  /-- LDH (R128): Loads a sign-extended half-word. -/
  | ldh (t : Nat) (f : IFmt)
  /-- LDHU (R128): Loads a zero-extended half-word. -/
  | ldhu (t : Nat) (f : IFmt)
  /-- LDW (R128): Loads a word. -/
  | ldw (t : Nat) (f : IFmt)
  /-- LDD (R128): Loads a double word into a register pair. -/
  | ldd (t : Nat) (f : IFmt)
  /-- STB (R128): Stores a byte. -/
  | stb (t : Nat) (f : IFmt)
  /-- STH (R128): Stores a half-word. -/
  | sth (t : Nat) (f : IFmt)
  /-- STW (R128): Stores a word. -/
  | stw (t : Nat) (f : IFmt)
  /-- STD (R128): Stores a register pair. -/
  | std (t : Nat) (f : IFmt)
  /-- LDX (R128): Loads with an indexed, post-increment or pre-decrement address. -/
  | ldx (t : Nat) (f : XRFmt)
  /-- STX (R128): Stores with an indexed, post-increment or pre-decrement address. -/
  | stx (t : Nat) (f : XRFmt)
  /-- LDPI (R128): Loads and post-increments the base by an immediate. -/
  | ldpi (t : Nat) (f : PiFmt)
  /-- STPI (R128): Stores and post-increments the base by an immediate. -/
  | stpi (t : Nat) (f : PiFmt)
  /-- AMO_SWAP (R131): Atomically swaps a word with rs2. -/
  | amoSwap (t : Nat) (f : RFmt)
  /-- AMO_ADD (R131): Atomically adds rs2 to a word. -/
  | amoAdd (t : Nat) (f : RFmt)
  /-- AMO_AND (R131): Atomically ANDs rs2 into a word. -/
  | amoAnd (t : Nat) (f : RFmt)
  /-- AMO_OR (R131): Atomically ORs rs2 into a word. -/
  | amoOr (t : Nat) (f : RFmt)
  /-- AMO_XOR (R131): Atomically XORs rs2 into a word. -/
  | amoXor (t : Nat) (f : RFmt)
  /-- AMO_MINU (R131): Atomically takes the unsigned minimum of a word and rs2. -/
  | amoMinu (t : Nat) (f : RFmt)
  /-- AMO_MAXU (R131): Atomically takes the unsigned maximum of a word and rs2. -/
  | amoMaxu (t : Nat) (f : RFmt)
  /-- AMO_CAS (R131): Atomically compares a word with rd and swaps in rs2 if they are equal. -/
  | amoCas (t : Nat) (f : RFmt)
  /-- B (R133): Branches by a signed word offset. -/
  | b (t : Nat) (f : JFmt)
  /-- BL (R133): Branches and writes the link register g31. -/
  | bl (t : Nat) (f : JFmt)
  /-- JALR (R133): Jumps to rs1 + imm12 and links into rd. -/
  | jalr (t : Nat) (f : IFmt)
  /-- YPUT (R134): Stages a word in the outbox. -/
  | yput (t : Nat) (f : RFmt)
  /-- YSEND (R134): Publishes the staged outbox words as one message on a yarn, or blocks while the FIFO is full. -/
  | ysend (t : Nat) (f : RFmt)
  /-- YRECV (R134): Takes one message into the inbox, or blocks while the FIFO is empty. -/
  | yrecv (t : Nat) (f : RFmt)
  /-- YGET (R134): Reads an inbox word into rd. -/
  | yget (t : Nat) (f : RFmt)
  /-- YDROP (R134): Clears the outbox. -/
  | ydrop (t : Nat) (f : RFmt)
  /-- YARN_WAIT_SERVE (R159): A blocked YSEND or YRECV completes when room or data appears. -/
  | yarnWaitServe (t : Nat)
  /-- YARN_TIMEOUT (R159): A blocked yarn operation completes with TIMEOUT when its timeout expires. -/
  | yarnTimeout (t : Nat)
  /-- YARN_MESSAGE_ARRIVE (R159): A published message in transit reaches the FIFO at the receive end. -/
  | yarnMessageArrive (course yarn : Nat)
  /-- MTH (R135): Moves a general register into a hook register lane. -/
  | mth (t : Nat) (f : RFmt)
  /-- MFH (R135): Moves a hook register lane into a general register. -/
  | mfh (t : Nat) (f : RFmt)
  /-- MTHD (R135): Moves a general register pair into two hook register lanes. -/
  | mthd (t : Nat) (f : RFmt)
  /-- HCLR (R135): Clears a hook register. -/
  | hclr (t : Nat) (f : RFmt)
  /-- HCPY (R135): Copies one hook register to another. -/
  | hcpy (t : Nat) (f : RFmt)
  /-- HOOK7 (R136): A hook 7 word raises EMU_HOOK_ABSENT. -/
  | hook7 (t : Nat) (g : BitVec 4) (w : BitVec 22)
  /-- BREAK (R143): Raises the BREAK trap. -/
  | brk (t : Nat) (f : XFmt)
  /-- ERET (R146): Returns from a trap to epc, clears EXL and lets a deferred pre-emption take place. -/
  | eret (t : Nat) (f : SysFmt)
  /-- WAITD (R138): Ends any held item and resumes the pre-empted item, or leaves the strand idle. -/
  | waitd (t : Nat) (f : SysFmt)
  /-- BINDOFF (R138): Ends the current item: the lifeline goes DONE, or a TIMED_OUT lifeline is freed. -/
  | bindoff (t : Nat) (f : SysFmt)
  /-- HALT (R145): Stops the strand as HALTED_INSTR. -/
  | halt (t : Nat) (f : SysFmt)
  /-- FENCE (R132): Waits until every earlier access of the strand is complete and visible. -/
  | fence (t : Nat) (f : SysFmt)
  /-- HSYNC (R137): Waits until every hook operation of the strand has completed or been killed. -/
  | hsync (t : Nat) (f : SysFmt)
  /-- MFSR (R141): Reads a special register into rd. -/
  | mfsr (t : Nat) (f : SrFmt)
  /-- MTSR (R141): Writes a special register from rs1. -/
  | mtsr (t : Nat) (f : SrFmt)
  /-- MEMORY_RESULT_ARRIVE (R132): The result of a variable-latency load, AMO or yarn operation arrives in its register. -/
  | memoryResultArrive (t : Nat) (bank : Bool) (i : Nat)
  /-- HOOK_RESULT_ARRIVE (R174): A hook operation completes and its result reaches the hook register. -/
  | hookResultArrive (t i : Nat)
  /-- HOOK_BUSY_TIMEOUT (R173): A decode that waits on a busy unit for BUSYMAX cycles is refused with BUSY. -/
  | hookBusyTimeout (t : Nat)
  /-- KNOT (R165): After a course has been knotted for the knot window, KNOT is raised, latched and posted to the host. -/
  | knot (course : Nat)
  /-- KNOT_TRAP (R147): A pending KNOT is taken on the supervisor at its next boundary at which EXL is 0. -/
  | knotTrap (t : Nat)
  /-- NDL_RST (R145): A write of NDL_RST releases the items of the strand it names, clears its state and leaves it idle. -/
  | ndlRst (w : WrIn) (panel : Nat) (val : Word)
  /-- DEBUG_HALT (R166): A debugger stops a strand at its next instruction boundary. -/
  | debugHalt (t : Nat)
  /-- DEBUG_RESUME (R166): A debugger resumes a halted strand. -/
  | debugResume (t : Nat)
  /-- DEBUG_STEP (R166): A debugger runs a halted strand for one instruction. -/
  | debugStep (t : Nat)
  /-- DEBUG_READ (R166): A debugger reads a register, outbox word or inbox word of a halted strand. -/
  | debugRead (d : DbgSel)
  /-- DEBUG_WRITE (R166): A debugger writes a register, outbox word or inbox word of a halted strand. -/
  | debugWrite (d : DbgSel) (val : Word)
  /-- DEBUG_TINK (R166): A debugger discards the staged outbox message of a halted strand. -/
  | debugTink (t : Nat) (bank : Bool)
  /-- ENDPOINT_DELIVERY (R161): A strand endpoint copies a frame into a buffer and sends its descriptor on a course yarn. -/
  | endpointDelivery (e : Nat)
  /-- CTX_INIT (R178): Sets the crypto context mode, key and IV. -/
  | ctxInit (t : Nat) (f : HFmt)
  /-- AAD (R178): Absorbs GCM additional data. -/
  | aad (t : Nat) (f : HFmt)
  /-- ENC (R178): Encrypts bytes under GCM. -/
  | enc (t : Nat) (f : HFmt)
  /-- DEC (R178): Decrypts bytes under GCM. -/
  | dec (t : Nat) (f : HFmt)
  /-- MAC (R178): Absorbs bytes into a CMAC. -/
  | mac (t : Nat) (f : HFmt)
  /-- TAG (R178): Produces the 16-byte GCM or CMAC tag. -/
  | tag (t : Nat) (f : HFmt)
  /-- TAGCHK (R178): Compares the computed tag with a given tag in constant time. -/
  | tagchk (t : Nat) (f : HFmt)
  /-- ABSORB (R178): Absorbs bytes into a Keccak context. -/
  | absorb (t : Nat) (f : HFmt)
  /-- SQUEEZE (R178): Squeezes 16 output bytes from a Keccak context. -/
  | squeeze (t : Nat) (f : HFmt)
  /-- AES_ENC (R178): Encrypts one AES block under a key slot. -/
  | aesEnc (t : Nat) (f : HFmt)
  /-- AES_DEC (R178): Decrypts one AES block under a key slot. -/
  | aesDec (t : Nat) (f : HFmt)
  /-- LAT_NTT (R178): Transforms a lattice polynomial in place. -/
  | latNtt (t : Nat) (f : HFmt)
  /-- LAT_PMUL (R178): Multiplies two lattice polynomials pointwise mod q. -/
  | latPmul (t : Nat) (f : HFmt)
  /-- LAT_PADD (R178): Adds or subtracts two lattice polynomials mod q. -/
  | latPadd (t : Nat) (f : HFmt)
  /-- LAT_EXPAND (R178): Fills a lattice polynomial by rejection sampling from SHAKE128. -/
  | latExpand (t : Nat) (f : HFmt)
  /-- EM_LOOKUP (R180): Performs an exact-match lookup. -/
  | emLookup (t : Nat) (f : HFmt)
  /-- LPM_LOOKUP (R180): Performs a longest-prefix-match lookup. -/
  | lpmLookup (t : Nat) (f : HFmt)
  /-- L2_LOOKUP (R180): Performs an L2 database lookup. -/
  | l2Lookup (t : Nat) (f : HFmt)
  /-- FLOW_FIND (R180): Finds a flow record index without reading the record. -/
  | flowFind (t : Nat) (f : HFmt)
  /-- CSUM (R181): Updates a ones'-complement sum. -/
  | csum (t : Nat) (f : HFmt)
  /-- CRC32C (R181): Updates a CRC-32C. -/
  | crc32c (t : Nat) (f : HFmt)
  /-- CRC32 (R181): Updates an IEEE CRC-32. -/
  | crc32 (t : Nat) (f : HFmt)
  /-- CRC8 (R181): Updates a CRC-8. -/
  | crc8 (t : Nat) (f : HFmt)
  /-- CRC16 (R181): Updates a CRC-16. -/
  | crc16 (t : Nat) (f : HFmt)
  /-- CSUM_PKT (R181): Computes a ones'-complement sum over frame bytes. -/
  | csumPkt (t : Nat) (f : HFmt)
  /-- HASH64 (R181): Computes SipHash-2-4. -/
  | hash64 (t : Nat) (f : HFmt)
  /-- FLOW_READ (R182): Reads a flow context by key and adds a read-set entry. -/
  | flowRead (t : Nat) (f : HFmt)
  /-- FLOW_READX (R182): Reads a flow context by record index. -/
  | flowReadx (t : Nat) (f : HFmt)
  /-- FLOW_GET (R182): Returns 12 state bytes of a context in the item's view. -/
  | flowGet (t : Nat) (f : HFmt)
  /-- FLOW_ADD (R182): Stages an addition to a state field. -/
  | flowAdd (t : Nat) (f : HFmt)
  /-- FLOW_SET (R182): Stages a write of a state field. -/
  | flowSet (t : Nat) (f : HFmt)
  /-- FLOW_CAS (R182): Stages a compare-and-set of a state field. -/
  | flowCas (t : Nat) (f : HFmt)
  /-- FLOW_INSERT (R223): Stages the creation of a record and reserves an index entry and a record index. -/
  | flowInsert (t : Nat) (f : HFmt)
  /-- FLOW_DELETE (R182): Stages the deletion of a record. -/
  | flowDelete (t : Nat) (f : HFmt)
  /-- POS_READ (R184): Reads the stamp of a domain's estimate. -/
  | posRead (t : Nat) (f : HFmt)
  /-- POS_ADD (R184): Adds a signed offset to a position. -/
  | posAdd (t : Nat) (f : HFmt)
  /-- POS_CMP (R184): Compares two stamps. -/
  | posCmp (t : Nat) (f : HFmt)
  /-- EVT_SCHED (R40): Checks an event descriptor and schedules it or returns an outcome. -/
  | evtSched (t : Nat) (f : HFmt)
  /-- EVT_CANCEL (R184): Cancels the strand's pending events that carry a given tag. -/
  | evtCancel (t : Nat) (f : HFmt)
  /-- EVT_POLL (R184): Removes the oldest event completion from the strand's queue. -/
  | evtPoll (t : Nat) (f : HFmt)
  /-- ALLOC (R233): Allocates a buffer from a pool group. -/
  | alloc (t : Nat) (f : HFmt)
  /-- FREE (R236): Stages the free of a buffer. -/
  | freeBuf (t : Nat) (f : HFmt)
  /-- PKT_RD (R187): Reads frame bytes. -/
  | pktRd (t : Nat) (f : HFmt)
  /-- PKT_WR (R187): Writes frame bytes. -/
  | pktWr (t : Nat) (f : HFmt)
  /-- PKT_INS (R187): Opens bytes in the frame. -/
  | pktIns (t : Nat) (f : HFmt)
  /-- PKT_STRIP (R187): Removes bytes from the frame. -/
  | pktStrip (t : Nat) (f : HFmt)
  /-- PKT_MOVE (R187): Moves bytes within the frame. -/
  | pktMove (t : Nat) (f : HFmt)
  /-- ACF_PACK (R67): Converts an envelope into an AVTP PDU of ACF messages. -/
  | acfPack (t : Nat) (f : HFmt)
  /-- ACF_UNPACK (R69): Converts an ACF message into an envelope in a buffer. -/
  | acfUnpack (t : Nat) (f : HFmt)
  /-- LEARN (R204): The learn engine handles one request: it inserts, refreshes, holds or moves the L2 entry, or refuses the move. -/
  | learn (panel : Nat)
  /-- ACTIVITY_UPDATE (R197): A hit update posted over the bridge is applied to the activity word at the home panel. -/
  | activityUpdate (panel : Nat)
  /-- REMOTE_COPY_WRITE (R190): The home panel writes the other panel's copy of an entry. -/
  | remoteCopyWrite (panel : Nat)
  /-- SCAN_PASS (R207): The scan engine starts a pass, clears HIT bits and reports idle candidates. -/
  | scanPass (panel : Nat)
  /-- SCAN_RESUME (R207): A scan pass that was paused by a full event ring resumes when the ring has room. -/
  | scanResume (panel : Nat)
  /-- CDELETE_DECIDE (R210): After the marker's earlier updates have been applied, the conditional delete is checked and the entry is freed. -/
  | cdeleteDecide (panel : Nat)
  /-- MISS_QUEUE_ADMIT (R221): A read that is waiting is admitted to the miss queue when an entry frees. -/
  | missQueueAdmit (panel : Nat)
  /-- MISS_SERVE (R221): A queued miss fetches the index and the record into a FILLING context. -/
  | missServe (panel : Nat)
  /-- ADOPT_CONFLICT (R227): A background scan frees adopted mirror copies of keys that the survivor's stash also holds. -/
  | adoptConflict (panel : Nat)
  /-- RESEQUENCE_TIMEOUT (R243): A missing cell not seen within RSEQ_TO is skipped, and its frames are dropped as FAB_LOSS. -/
  | resequenceTimeout (panel stream : Nat)
  /-- EGRESS_ADMISSION (R247): When its first cell leaves the resequencer, a frame is checked and queued on (port, TC) or dropped. -/
  | egressAdmission (panel : Nat)
  /-- FRER_RESET (R256): With no frame passed for RESET_TO, the recovery state resets. -/
  | frerReset (panel entry : Nat)
  /-- PIN_TRANSITION (R264): A raw level change on a timed input starts the glitch filter, or discards a pulse that is too short. -/
  | pinTransition (pin : Nat) (level : Bool)
  /-- PIN_EDGE_ACCEPT (R264): A level that holds through the glitch filter is accepted as an edge, stamped and delivered. -/
  | pinEdgeAccept (pin : Nat)
  /-- SAFE_CLEAR (R262): A W1C write of TIO_PSTAT.SAFE clears it unless the owner is still lost. -/
  | safeClear (w : WrIn) (pin : Nat) (val : Word)
  /-- DEAD_TIME_EXPIRE (R271): The delayed edge of a PWM pair fires after the dead time. -/
  | deadTimeExpire (panel pair : Nat)
  /-- SENT_FRAME (R274): A SENT receiver decodes a whole frame and writes a SENT record: the pulse of the status nibble, if it came, those of
  the data nibbles, and what comes after them. -/
  | sentFrame (receiver : Nat) (sync : Nat) (status : Option Nat) (data tail : List Nat) (sinceNs : Nat)
  /-- SOURCE_SAMPLE (R275): A converter samples a MAINS or RESOLVER source input every 4 µs. -/
  | sourceSample (input : Nat) (a b : Nat)
  /-- SAR_CONVERSION (R275): A converter runs a queued trigger sequence and writes SAR records. -/
  | sarConversion (converter : Nat) (codes : List Nat)
  /-- SDM_OUTPUT (R279): The sinc3 filter produces an output and, with FREE set, writes an SDM record. -/
  | sdmOutput (input : Nat) (bitstream : List Bool)
  /-- DRAM_COMMAND_ISSUE (R293): A channel issues its next command from the highest non-empty priority level. -/
  | dramCommandIssue (panel channel : Nat)
  /-- DRAM_READ_COMPLETE (R296): A DRAM read completes, and its data is corrected, re-read or poisoned. -/
  | dramReadComplete (panel channel : Nat) (err : Nat)
  /-- REFRESH_DUE (R294): A per-bank refresh falls due, or is postponed under PANIC. -/
  | refreshDue (panel channel : Nat)
  /-- MR4_READ (R294): The controller reads MR4 every 16 ms to set the refresh rate. -/
  | mr4Read (panel channel rate : Nat) (rfm : Bool)
  /-- RETRAIN (R297): A retraining trigger starts the retraining of a channel. -/
  | retrain (panel channel trigger : Nat) (temp : Int)
  /-- RETRAIN_COMPLETE (R297): A retraining ends, and the channel returns to service or a widened search starts. -/
  | retrainComplete (panel channel : Nat) (pass : Bool) (temp : Int)
  /-- WIDE_SEARCH_COMPLETE (R297): A widened search ends, and the channel returns to service or is fenced. -/
  | wideSearchComplete (panel channel : Nat) (pass : Bool) (temp : Int)
  /-- RESYNC_COMPLETE (R287): The mirror rewrite ends, RESYNC is cleared and MSYNC is set. -/
  | resyncComplete
  /-- DOORBELL (R308): An 8-byte RDMA WRITE to the doorbell region updates a ring index, or is discarded as DB_BAD. -/
  | doorbell (qp psn : Nat) (rkey : Word) (off : Nat) (bytes : List Byte) (ce : Bool)
  /-- RDMA_WRITE (R303): A host RDMA WRITE to a memory window is applied or NAKed. -/
  | rdmaWrite (qp psn : Nat) (rkey : Word) (va : Nat) (bytes : List Byte) (ce : Bool)
  /-- RDMA_READ (R303): A host RDMA READ of a memory window is answered or NAKed. -/
  | rdmaRead (qp psn : Nat) (rkey : Word) (va len : Nat) (ce : Bool)
  /-- ACK_RECEIVE (R302): An acknowledgement or NAK from the peer advances the QP or causes a retransmission. -/
  | ackReceive (qp psn : Nat) (syndrome : BitVec 8) (ce : Bool)
  /-- ACK_TIMEOUT (R302): With no acknowledgement within the timeout, the QP retransmits or enters ERROR. -/
  | ackTimeout (qp : Nat)
  /-- RNR_RETRY (R302): After an RNR NAK, the QP retries every 10 µs until it succeeds or enters ERROR. -/
  | rnrRetry (qp : Nat)
  /-- CNP_RECEIVE (R304): A congestion notification packet cuts the QP's rate. -/
  | cnpReceive (qp : Nat)
  /-- RATE_INCREASE (R304): Every 55 µs without a CNP acted on, the QP raises its rate. -/
  | rateIncrease (qp : Nat)
  /-- COMMAND_FETCH (R309): The device fetches a batch of command entries by RDMA READ. -/
  | commandFetch (ring : Nat) (ans : ReadAns)
  /-- QP_STATE_WRITE (R302): A write of HST_QPCTL.STATE resets a QP or starts it in RTS. -/
  | qpStateWrite (w : WrIn) (qp : Nat) (val : Word)
  /-- RING_ENABLE (R307): A write of HST_RING.EN enables a ring and resets its indices. -/
  | ringEnable (w : WrIn) (ring : Nat) (val : Word)
  /-- FAILBACK (R305): A FAILBACK write returns the QPs to port 0. -/
  | failback (w : WrIn) (val : Word)
  /-- FAILOVER (R305): The engine on Panel B takes over the QPs on port 2. -/
  | failover
  /-- NOP (R314): Completes with OK. `x.op` is the entry's OPCODE: 0, or a reserved one, which R9 completes with RESERVED_FIELD and which has no
  row of its own (log entry 86). -/
  | nop (x : OpCmd)
  /-- STAGED_INSERT (R91): Inserts an entry valid in the STAGING version. -/
  | stagedInsert (c : CmdIn)
  /-- UNVERSIONED_INSERT (R91): Inserts an entry valid in every version. -/
  | unversionedInsert (c : CmdIn)
  /-- STAGED_DELETE (R91): Removes an entry from the STAGING version. -/
  | stagedDelete (c : CmdIn)
  /-- UNVERSIONED_DELETE (R196): Frees an unversioned entry. -/
  | unversionedDelete (c : CmdIn)
  /-- STAGED_MODIFY (R91): Replaces an entry's record in the STAGING version. -/
  | stagedModify (c : CmdIn)
  /-- UNVERSIONED_MODIFY (R196): Replaces the data word of an unversioned entry. -/
  | unversionedModify (c : CmdIn)
  /-- TBL_CDELETE (R209): Deletes an entry only if its HITGEN is unchanged. -/
  | tblCdelete (c : CmdIn)
  /-- HOST_FLOW_INSERT (R224): The host inserts a flow record. -/
  | hostFlowInsert (c : CmdIn)
  /-- HOST_FLOW_DELETE (R224): The host deletes a flow record. -/
  | hostFlowDelete (c : CmdIn)
  /-- FLOW_WRITE (R224): The host writes state bytes of a flow record. -/
  | flowWrite (c : CmdIn)
  /-- HOST_FLOW_READ (R224): The host reads the committed state bytes of a flow record. -/
  | hostFlowRead (c : CmdIn)
  /-- FLOW_SETMS (R226): The host sets or clears MS, which allocates or frees the record's mirror. -/
  | flowSetms (c : CmdIn)
  /-- BIND_SET (R57): Writes the source-address slots of a node-port. -/
  | bindSet (c : CmdIn)
  /-- STATS (R411): Reads counters, and clears them when CLEAR is set. -/
  | stats (c : CmdIn)
  /-- REG_READ (R314): Reads up to 8 register words. -/
  | regRead (c : CmdIn)
  /-- REG_WRITE (R314): Writes up to 8 register words. `x.rivals` are the Selvage writes that reach the words' registers in the same cycles
  (R7). -/
  | regWrite (x : RegCmd)
  /-- MODE (R333): A host command that requests a mode transition. -/
  | modeCmd (c : CmdIn)
  /-- KEY_LOAD (R354): Loads a hook 0 key slot or a MACsec SA. -/
  | keyLoad (c : CmdIn)
  /-- KEY_ERASE (R354): Erases a hook 0 key slot or a MACsec SA. -/
  | keyErase (c : CmdIn)
  /-- WORK (R314): Makes a HOST work item that completes when its lifeline is freed. -/
  | work (c : CmdIn)
  /-- TX_FRAME (R306): Reads a frame from host memory and injects it into parsing on port 1028 + n. -/
  | txFrame (c : CmdIn) (ans : FrameAns)
  /-- RAF_READ (R319): A Register Access Frame reads registers. -/
  | rafRead (f : RxFrame)
  /-- RAF_WRITE (R319): A Register Access Frame writes registers, with the Selvage writes that collide with its words (R7). -/
  | rafWrite (x : RafIn)
  /-- SV_NOP (R324): A Selvage NOP completes with OK. `x.op` is the request's OP: 0, or a reserved one, which is answered RESERVED_FIELD
  and has no row of its own (log entry 86). -/
  | svNop (x : SvOp)
  /-- SETPAGE (R324): Sets the Selvage register page. -/
  | setpage (r : SvReq)
  /-- RD (R324): The Selvage master reads register words. -/
  | rdS (r : SvReq)
  /-- WR (R324): The Selvage master writes register words, with the host's writes that collide with them (R7). -/
  | wrS (x : SvWrite)
  /-- MBX_SEND (R327): Enters a frame into parsing on port 1108. -/
  | mbxSend (r : SvReq)
  /-- MBX_RECV (R327): Returns the oldest frame held in the receive mailbox. -/
  | mbxRecv (r : SvReq)
  /-- RESET_A (R335): A Selvage command that resets Panel A. -/
  | resetA (r : SvReq)
  /-- RESET_B (R335): A Selvage command that resets Panel B. -/
  | resetB (r : SvReq)
  /-- SV_LIMP (R333): A Selvage command that requests LIMP. -/
  | svLimp (r : SvReq)
  /-- SV_SLEEP (R333): A Selvage command that requests SLEEP. -/
  | svSleep (r : SvReq)
  /-- SV_WAKE (R341): A Selvage WAKE that wakes the device from SLEEP. -/
  | svWake (r : SvReq)
  /-- REC_READ (R398): Reads Row Counter ring slots. -/
  | recRead (r : SvReq)
  /-- FLASH_RD (R324): Reads 256 bytes of xSPI flash. -/
  | flashRd (r : SvReq)
  /-- FLASH_WR (R324): Programs data within one flash page. -/
  | flashWr (r : SvReq)
  /-- FLASH_ERASE (R324): Erases a 4 KiB flash sector. -/
  | flashErase (r : SvReq)
  /-- ATTEST (R352): Starts building an attestation report. -/
  | attest (r : SvReq)
  /-- ATTEST_COMPLETE (R352): The attestation report is signed and ready, and SV_ATTN.ATTEST is set. -/
  | attestComplete
  /-- ATTEST_RD (R324): Reads a chunk of the attestation report. -/
  | attestRd (r : SvReq)
  /-- RESEND (R322): Returns the kept response. -/
  | resend (r : SvReq)
  /-- FRAME_ABORT (R322): An SPI assertion that ends inside a request discards the request. -/
  | frameAbort
  /-- CRC_ERR (R322): A request with a bad CRC is not executed and is answered with CRC_ERR. -/
  | crcErr
  /-- ATTN_CLEAR (R330): A W1C write of SV_ATTN clears causes and updates SV_ATTN_N and SV_WAKE. -/
  | attnClear (w : WrIn) (val : Word)
  /-- MOD_CMD_WRITE (R333): A write of MOD_CMD requests a transition, and a refused one is recorded as DENIED. -/
  | modCmdWrite (w : WrIn) (val : Word)
  /-- POWER_ON (R333): The release of RST_AON_N with PG_AON high starts BOOT. -/
  | powerOn (fuseOk : Bool)
  /-- POWER_LOSS (R333): VDD_AON leaving its operating range takes the device to OFF. -/
  | powerLoss
  /-- PANEL_BOOT_DONE (R336): A panel finishes its boot sequence and passes or fails, which may enter CONFIG. -/
  | panelBootDone (panel : Nat) (found : List (Nat × Nat)) (repairOk : Bool) (temp : Int)
  /-- PANEL_NOT_POWERED (R337): A panel not released within 1 s of AON boot stays down with NOT_POWERED. -/
  | panelNotPowered (panel : Nat)
  /-- PANEL_RESET (R335): A panel's reset input restarts it or the device, according to the mode. -/
  | panelReset (panel : Nat) (pin : PanelPin)
  /-- SLEEP_ENTRY_COMPLETE (R341): Once the items in flight have drained, SLEEP entry flushes, sets the pins safe and holds the panels in reset. -/
  | sleepEntryComplete
  /-- WAKE_EVENT (R341): A wake event in SLEEP powers the panels and starts BOOT. -/
  | wakeEvent (w : WakeSrc)
  /-- TOKEN_GO (R353): A SEC_TOKCTL.GO write starts verification of a service token. -/
  | tokenGo (w : WrIn) (val : Word)
  /-- TOKEN_VERIFY_COMPLETE (R353): Token verification ends and its grants are accepted or refused. -/
  | tokenVerifyComplete
  /-- ARB_ADVANCE (R353): Burns an anti-rollback record for a class. -/
  | arbAdvance (w : WrIn) (val : Word)
  /-- OWNER_XFER (R353): Burns NEW_OWNER into the next owner slot. -/
  | ownerXfer (w : WrIn) (val : Word)
  /-- ERROR_DETECTED (R358): A detected error is given a severity and recovered, queued, escalated or fenced by the darning controller. -/
  | errorDetected (e : ErrIn)
  /-- RECOVERY_START (R365): A queued error takes a recovery slot when one frees. -/
  | recoveryStart (panel : Nat)
  /-- RECOVERY_RESUME (R366): When a higher recovery closes, a suspended recovery resumes at its next step. -/
  | recoveryResume (panel : Nat)
  /-- RETEST_COMPLETE (R361): The re-test of a fenced unit ends, and the unit is restored or stays fenced. -/
  | retestComplete (panel unit index : Nat) (pass : Bool)
  /-- PANEL_LOSS (R370): A lost panel is isolated and the survivor carries out the recovery steps. -/
  | panelLoss (x : PanelFail)
  /-- BRIDGE_FAILURE (R372): The bridge fails, each panel serves alone and the cross-panel functions stop. -/
  | bridgeFailure
  /-- BRIDGE_RETRAIN (R372): The bridge is retrained every 100 ms, and a pass rejoins the panels in order. -/
  | bridgeRetrain (pass : Bool)
  /-- CRYSTAL_FAIL (R418): When the AON crystal stops or drifts for 20 µs, the domain moves to its internal oscillator and reports a severity-4 error. -/
  | crystalFail (ok : Bool)
  /-- SWATCH_CYCLE_START (R379): A swatch cycle begins every CYCLE seconds. -/
  | swatchCycleStart (panel : Nat)
  /-- SLICE_START (R379): A swatch slice starts at its turn, or is INCOMPLETE because no spare is free. -/
  | sliceStart (panel : Nat)
  /-- SLICE_COMPLETE (R383): A complete slice is judged PASS or FAIL and its result is written. -/
  | sliceComplete (panel : Nat) (pass : Bool) (patterns misr : Word)
  /-- EXTENDED_SELFTEST (R384): A SWT_EXT.GO write runs the extended self-test in SERVICE. -/
  | extendedSelftest (w : WrIn) (panel : Nat) (val : Word) (found : List (Nat × Nat))
  /-- INTERVAL_END (R391): At the end of an interval, the panels build histogram, count and extreme records and clear their accumulators. -/
  | intervalEnd
  /-- LIFE_SAMPLE (R390): Temperature and voltage are sampled each second into the life histograms. -/
  | lifeSample (temps : List Int) (volts : List Nat)
  /-- FLUSH (R394): A flush writes the unflushed ring records to the flash fatal area or log. -/
  | flush (bad : Bool)
  /-- FLUSH_GO (R394): A REC_FLUSH.GO write requests a flush. -/
  | flushGo (w : WrIn) (val : Word)
  /-- REC_FSEL_WRITE (R398): A REC_FSEL write loads the selected flash record into REC_FBUF. -/
  | recFselWrite (w : WrIn) (val : Word)
  /-- LOWRST (R239): A SKN_LOWRST write sets LOWFREE of the named pools to their current FREE. -/
  | lowrst (w : WrIn) (val : Word)
  /-- VID_STEP (R414): A panel changes its core voltage code by one step at most every 20 µs. -/
  | vidStep (panel : Nat) (up : Bool)
  /-- FABRIC_SLOT (R242): In each 20.48 ns cell slot, every station sends one cell through stage one, every intermediate delivers one cell through stage two, and bridge lanes forward cross-panel cells. -/
  | fabricSlot
  /-- PREEMPTION_VERIFICATION (R254): The 802.3br verification of a preemption-capable port succeeds, so preemptable classes start to be preempted, or it fails and is counted as PMAC_VERIFY_FAIL. -/
  | preemptionVerification (port : Nat) (ok : Bool)
  /-- PANEL_START (R335): A panel starts its boot from step 3 of R336 once AON boot is done, PG_x and RST_x_N are high and REFCLK_x has been stable for 100 µs. -/
  | panelStart (panel : Nat)
  /-- RECOVERY_CLOSE (R360): A recovery finishes its last step and closes as DARNED, FENCED or RESTORED, which frees its slot, posts a FAULT event and writes the repair log. -/
  | recoveryClose (panel slot : Nat) (outcome : Nat)
  /-- WAKE_RETRY (R104): A fired WAKE event that its list could not take stays on the wheel and is offered to the Carriage again in each tick until the list takes it. -/
  | wakeRetry (i : Nat)
  deriving DecidableEq, Repr

end Sys2Proof
end

