-- ==== Sys2Proof/Decode.lean ====
section
/-! DEFINITION. The block has no instruction decoder: spec/opcode_table.json gives no row any bits. -/

namespace Sys2Proof

/-- The command a word spells by the table's bits: no row has any, so no word spells one (log entry 1). -/
def decodeTableWord (_nbits _w : Nat) : Option Instr := none

end Sys2Proof
end

