-- ==== Sys2Proof/Machine/SMap.lean ====
section
/-! DEFINITION. Sparse maps: a list of key and value pairs in one canonical form (keys strictly rising, no entry
equal to what an unlisted key reads as). Registers, counters, memories and every table of the block are held so,
and equal contents are equal data. -/

namespace Sys2Proof.Machine

/-- A sparse map from Nat keys. -/
abbrev SMap (β : Type) := List (Nat × β)

/-- The entry at key `k`, if one is listed. -/
def SMap.find {β : Type} : SMap β → Nat → Option β
  | [], _ => none
  | (j, v) :: m, k => if j = k then some v else SMap.find m k

/-- What key `k` reads as: its entry, or `d` where none is listed. -/
def SMap.get {β : Type} (m : SMap β) (d : β) (k : Nat) : β := (SMap.find m k).getD d

/-- Insert or replace the entry at key `k`, keeping the keys rising. -/
def SMap.put {β : Type} : SMap β → Nat → β → SMap β
  | [], k, v => [(k, v)]
  | (j, w) :: m, k, v =>
    if k < j then (k, v) :: (j, w) :: m
    else if j = k then (k, v) :: m
    else (j, w) :: SMap.put m k v

/-- Remove the entry at key `k`. -/
def SMap.del {β : Type} : SMap β → Nat → SMap β
  | [], _ => []
  | (j, w) :: m, k => if j = k then m else (j, w) :: SMap.del m k

/-- Write `v` at key `k` in a map whose unlisted keys read as `d`: an entry equal to `d` is not listed. -/
def SMap.set {β : Type} [DecidableEq β] (m : SMap β) (d : β) (k : Nat) (v : β) : SMap β :=
  if v = d then SMap.del m k else SMap.put m k v

/-- Apply `f` to what key `k` reads as. -/
def SMap.upd {β : Type} [DecidableEq β] (m : SMap β) (d : β) (k : Nat) (f : β → β) : SMap β :=
  SMap.set m d k (f (SMap.get m d k))

/-- Remove every entry whose key and value satisfy `p`. -/
def SMap.drop {β : Type} (m : SMap β) (p : Nat → β → Bool) : SMap β := m.filter fun e => !(p e.1 e.2)

/-- Keys strictly rising. -/
def SMap.sorted {β : Type} : SMap β → Bool
  | [] => true
  | [_] => true
  | (a, _) :: (b, w) :: m => decide (a < b) && SMap.sorted ((b, w) :: m)

/-- The canonical form of a map whose unlisted keys read as `d`. -/
def SMap.wf {β : Type} [DecidableEq β] (m : SMap β) (d : β) : Bool :=
  SMap.sorted m && m.all fun e => decide (e.2 ≠ d)

/-- The smallest key of `[k, k + n)` that is not listed, if there is one. -/
def SMap.firstFree {β : Type} (m : SMap β) : Nat → Nat → Option Nat
  | _, 0 => none
  | k, n + 1 => match SMap.find m k with
    | none => some k
    | some _ => SMap.firstFree m (k + 1) n

end Sys2Proof.Machine
end

