-- ==== Sys2Proof/Machine/Bits.lean ====
section
/-! DEFINITION. Bit fields, sign extension and byte order (R3: little-endian in everything the NZ1024 holds;
network fields keep their standard's big-endian order). -/

namespace Sys2Proof.Machine

/-- Bits `[lo + w - 1 : lo]` of `v`. -/
def bits (v lo w : Nat) : Nat := (v / 2 ^ lo) % 2 ^ w

/-- Bit `i` of `v`. -/
def bit (v i : Nat) : Bool := v.testBit i

/-- `v` with bits `[lo + w - 1 : lo]` replaced by `x`. -/
def setBits (v lo w x : Nat) : Nat :=
  v - (bits v lo w) * 2 ^ lo + (x % 2 ^ w) * 2 ^ lo

/-- `v` with bit `i` set to `b`. -/
def setBit (v i : Nat) (b : Bool) : Nat := setBits v i 1 (if b then 1 else 0)

/-- 1 for true, 0 for false. -/
def b2n (b : Bool) : Nat := if b then 1 else 0

/-- The signed value of the low `w` bits of `v`. -/
def sval (v w : Nat) : Int :=
  if bits v (w - 1) 1 = 1 then (Int.ofNat (v % 2 ^ w)) - Int.ofNat (2 ^ w) else Int.ofNat (v % 2 ^ w)

/-- The low `w` bits of `v`, sign-extended to a word. -/
def sextW (v w : Nat) : Word := BitVec.ofInt 32 (sval v w)

/-- The little-endian value of a list of bytes. -/
def leVal : List Byte → Nat
  | [] => 0
  | b :: bs => b.toNat + 256 * leVal bs

/-- The big-endian value of a list of bytes. -/
def beVal (bs : List Byte) : Nat := bs.foldl (fun a b => a * 256 + b.toNat) 0

/-- The low `n` bytes of `v`, least significant first. -/
def leBytes : Nat → Nat → List Byte
  | 0, _ => []
  | n + 1, v => BitVec.ofNat 8 v :: leBytes n (v / 256)

/-- The low `n` bytes of `v`, most significant first. -/
def beBytes (n v : Nat) : List Byte := (leBytes n v).reverse

/-- `n` bytes of a list from offset `o`; bytes beyond the end read zero. -/
def sliceZ (bs : List Byte) (o n : Nat) : List Byte :=
  ((bs.drop o).take n) ++ List.replicate (n - ((bs.drop o).take n).length) 0#8

/-- Byte `i` of a list, zero beyond the end. -/
def byteAt (bs : List Byte) (i : Nat) : Byte := bs.getD i 0#8

/-- `bs` with the bytes of `v` written from offset `o`, within its length. -/
def overlay (bs v : List Byte) (o : Nat) : List Byte :=
  bs.take o ++ (v.take (bs.length - o)) ++ bs.drop (o + v.length)

/-- The element at index `i` replaced, a list too short being left unchanged. -/
def lset {α : Type} (l : List α) (i : Nat) (v : α) : List α := l.set i v

/-- The indices `[0, n)` that satisfy `p`. -/
def idxs (n : Nat) (p : Nat → Bool) : List Nat := (List.range n).filter p

/-- The first index of `[k, k + n)` that satisfies `p`. -/
def firstFrom : Nat → Nat → (Nat → Bool) → Option Nat
  | 0, _, _ => none
  | n + 1, k, p => if p k then some k else firstFrom n (k + 1) p

/-- The first index of `[0, n)` that satisfies `p`. -/
def firstIdx (n : Nat) (p : Nat → Bool) : Option Nat := firstFrom n 0 p

/-- The number of set bits among the low `n` bits of `v`. -/
def popN (v n : Nat) : Nat := ((List.range n).filter fun i => bit v i).length

/-- A word from a Nat. -/
def w32 (v : Nat) : Word := BitVec.ofNat 32 v

/-- The wrapped difference `a − b` in `w` bits, read as a signed number. -/
def sdiff (a b w : Nat) : Int := sval ((a + 2 ^ w - b % 2 ^ w) % 2 ^ w) w

end Sys2Proof.Machine
end

