-- ==== Sys2Proof/Machine/TyCore.lean ====
section
/-! DEFINITION. The parts of the state around the strands: work items and lifelines (ch. 5), strands and their banks
(ch. 6, 7), hook operations and crypto contexts (ch. 8), flow state (ch. 10), pools (ch. 11) and yarns (ch. 7). -/

namespace Sys2Proof.Machine

/-- The two orderable parts (R1). -/
inductive Part where
  | ag2 | ag1
  deriving DecidableEq, Repr

/-- Work item kinds of R100. -/
inductive ItemKind where
  | frame | wake | host
  deriving DecidableEq, Repr

/-- A work item (R100), with the contents of its descriptor cell and of its frame's cells, which the first pass
carries in the packet buffer, and the WORK command a HOST item belongs to. -/
structure WorkItem where
  kind : ItemKind := .frame
  replay : Bool := false
  list : Nat := 0
  attempt : Nat := 1
  pass : Nat := 0
  marker : Nat := 0
  odom : Nat := 0
  ord : Bool := false
  buf : Nat := 0
  length : Nat := 0
  vgen : Nat := 0
  ingress : Nat := 0
  caston : Nat := 0
  born : Nat := 0            -- the time at which CASTON was taken, to which the bind-off timeout counts
  ll : Option Nat := none    -- lifeline key, panel × 4096 + LLID (LLV = 1)
  panel : Nat := 0
  arg : Nat := 0
  frame : List Byte := []
  keyArea : List Byte := []
  layers : List Byte := []
  action : Nat := 0
  stamp : HWord := 0#128
  work : Option Nat := none  -- HOST: the journal record of its WORK command
  fmeta : List Byte := []    -- HOST: the 48 payload bytes of the WORK command
  rx : Option Nat := none    -- when the frame was received from an external port (R390)
  cellsR : Nat := 0          -- ingress cells the frame holds, from the reserve and the shared pool (R248)
  cellsS : Nat := 0
  dead : Bool := false       -- released by the bind-off timeout while it was queued: discarded at the head
  cells : List Nat := []     -- packet buffer cells of the frame, the descriptor cell first (R100)
  ring : Option Nat := none  -- in spill: its place in the list's slice of the spill region (R104)
  deriving DecidableEq, Repr

/-- Lifeline states of R112. -/
inductive LlState where
  | free | running | done | committing | queued | recirc | timedOut
  deriving DecidableEq, Repr

/-- A read-set entry (R110). `gone` is the model's own: the record it read has been deleted since, so that check 1 of R113 fails
even if its index names another record by then (R224). -/
structure RsEntry where
  ridx : Nat := 0
  ver : Nat := 0
  home : Nat := 0
  absent : Bool := false
  lock : Bool := false
  gone : Bool := false
  deriving DecidableEq, Repr

/-- Stage-log operations of R111. -/
inductive StOp where
  | add | set | cas | insert | delete | bufFree
  deriving DecidableEq, Repr

/-- A stage-log entry (R111). -/
structure StEntry where
  op : StOp
  done : Bool := false
  rsi : Nat := 15
  off : Nat := 0
  width : Nat := 0
  target : Nat := 0
  operand : Nat := 0
  rsvWay : Option Nat := none   -- FLOW_INSERT: the index entry it reserved (R223): way 0–3, or 4 + overflow index
  deriving DecidableEq, Repr

/-- A lifeline (R109). `frame`, `egr` and `fmeta` are the attempt's own; the `0` copies are the pass's start, to which
a frog or a replay returns (R111). -/
structure Lifeline where
  state : LlState := .free
  item : WorkItem := {}
  strand : Option Nat := none       -- the strand that holds the item (HELD)
  lastStrand : Nat := 0             -- STRAND, NEEDLE and COURSE of 0x00C
  frogRsi : Nat := 0
  serial : Bool := false
  replay : Bool := false
  keyArea : List Byte := []
  layers : List Byte := []
  action : Nat := 0
  egr : List Byte := []             -- 8 bytes, the egress descriptor
  fmeta : List Byte := []            -- 48 bytes of firmware metadata
  frame : List Byte := []
  egr0 : List Byte := []
  fmeta0 : List Byte := []
  frame0 : List Byte := []
  rs : List RsEntry := []
  log : List StEntry := []
  tents : List (Nat × Nat) := []    -- the attempt's tentative buffers: address, and the strand charged
  chg : Option Nat := none          -- the strand whose share it is charged to (R155)
  chgC : Option Nat := none         -- the course whose unreserved pool it was taken from (R156)
  deriving DecidableEq, Repr

/-- A marker slot of R99; `cause` is the PANEL counter under which a DROP is counted when HEAD passes it. -/
inductive Slot where
  | empty | pending | done | drop (cause : Option Nat) | released
  deriving DecidableEq, Repr

/-- The marker state of one (panel, ordering domain) (R98, R99). -/
structure Odom where
  head : Nat := 0
  next : Nat := 0
  slots : SMap Slot := []
  gens : SMap Nat := []             -- marker: the generation its frame carries (R95)
  deriving DecidableEq, Repr

/-- The Carriage (R102–R105): on-chip lists and spill rings by list number, the hold queues, the round-robin
places. -/
structure CarState where
  lists : SMap (List WorkItem) := []
  spill : SMap (List WorkItem) := []
  spillNext : SMap Nat := []       -- the place in its slice that the list's next spilled item takes first (R104)
  holdA : List WorkItem := []
  holdB : List WorkItem := []
  castRr : SMap Nat := []          -- panel × 128 + class: course chosen last, plus 1
  recircRr : SMap Nat := []        -- the same for recirculated passes (R118)
  dispRr : SMap Nat := []          -- course × 8 + priority: list served last, plus 1
  deriving DecidableEq, Repr

/-- Crypto context modes of R178. -/
inductive CMode where
  | none | gcm | cmac | sha3 | shake128 | shake256
  deriving DecidableEq, Repr

/-- One crypto context (R178): the mode, the key and the running state. -/
structure CryptoCtx where
  mode : CMode := .none
  key : List Byte := []
  iv : List Byte := []
  started : Bool := false       -- GCM: ENC or DEC has run; Keccak: SQUEEZE has run
  aad : List Byte := []         -- GCM: additional data absorbed
  msg : List Byte := []         -- GCM: ciphertext so far; CMAC and Keccak: bytes absorbed
  outPos : Nat := 0
  deriving DecidableEq, Repr

/-- What an outstanding hook operation still waits for. -/
inductive HookWait where
  | ready                        -- executed; its result may arrive
  | held                         -- kept by its unit until its sources have arrived and earlier ones have executed (R173)
  | miss (panel slot : Nat)      -- the fill of a FILLING context (R221)
  | missFull (panel : Nat)       -- room in the miss queue (R221)
  | lock (panel key : Nat)       -- a context or bucket lock (R116)
  deriving DecidableEq, Repr

/-- An outstanding hook operation of a strand (R173). -/
structure HookOp where
  hook : Nat
  func : Nat := 0
  hd : Option Nat := none
  srcs : List Nat := []
  val : HWord := 0#128
  wait : HookWait := .ready
  key : List Byte := []          -- FLOW_READ: the key; empty for a read by index
  ridx : Nat := 0
  rsi : Nat := 15                -- the read-set entry made
  off : Nat := 0
  bank : Nat := 0
  ll : Option Nat := none        -- the item it acts for: the bank's when it was issued
  home : Nat := 0                -- the panel whose stash it reaches (R215)
  fmt : Option HFmt := none      -- a held operation: the fields of its word
  caps : SMap HWord := []        -- a held operation: the sources that have arrived, as they then were
  deriving DecidableEq, Repr

/-- A general-register result that has not arrived (R132). -/
structure PendG where
  rd : Nat
  vals : List Word
  dram : Bool := false              -- its DRAM read has not completed (R289, R296)
  deriving DecidableEq, Repr

/-- One register bank of a strand (R138): the banked registers, outbox and inbox, banked special registers, item and
outstanding results. Unlisted general and hook registers read zero. -/
structure Bank where
  g : SMap Word := []
  pred : BitVec 8 := 1#8
  h : SMap HWord := []
  hc : SMap HWord := []
  pc : Word := 0#32
  exl : Bool := false
  epc : Word := 0#32
  ecause : Word := 0#32
  einfo : Word := 0#32
  eaddr : Word := 0#32
  escr : SMap Word := []
  wi : List Word := [0#32, 0#32, 0#32, 0#32, 0#32, 0#32, 0#32, 0#32]
  outbox : List (Option Word) := [none, none, none, none]
  inbox : List Word := []
  item : Option Nat := none        -- key of the lifeline the bank's item holds
  hasItem : Bool := false          -- status.ITEM
  pend : List PendG := []
  crypto : CryptoCtx := {}
  cryptoC : CryptoCtx := {}
  watchExempt : Bool := false      -- the first instruction after an ERET (R146)
  deriving DecidableEq, Repr

/-- Halt states of NDL_SSTAT (R149). -/
inductive Halt where
  | running | instr | double | debug
  deriving DecidableEq, Repr

/-- A yarn operation that blocked (R159): its end, its timeout and where its result goes. -/
structure YBlock where
  recv : Bool
  yarn : Nat              -- value of g[rs1], 0–79
  since : Nat
  timeout : Nat           -- in 10 ns units; 0 without limit
  rd : Nat
  deriving DecidableEq, Repr

/-- A hook opcode waiting at decode under case 3 of R173. -/
structure BusyWait where
  hook : Nat
  word : Word
  since : Nat
  deps : List Nat := []   -- the hook registers its refusal depends on
  lookup : Bool := false  -- it waits for one of the panel's lookups in flight to end (R180)
  deriving DecidableEq, Repr

/-- A window access that waits in a DRAM controller (R289): its number, what a trap on it needs (R143), the base register that it updated
with its value before, and how many of its requests have not completed. -/
structure DramAcc where
  id : Nat
  word : Word
  pc : Word
  addr : Word
  bank : Nat
  undo : Option (Nat × Word) := none
  left : Nat
  deriving DecidableEq, Repr

/-- A strand (R138, R141): two banks, the shared special registers, and what it waits for. -/
structure Strand where
  bank0 : Bank := {}
  bank1 : Bank := {}
  inB1 : Bool := false
  restAt : Nat := 0                 -- since when the strand has been idle, blocked or stopped
  idle : Bool := true               -- in WAITD, waiting for a dispatch
  halt : Halt := .running
  tvbase : Word := 0x00200000#32
  wpaddr : Word := 0#32
  wpctl : Word := 0#32
  knotp : Bool := false
  block : Option YBlock := none
  busy : Option BusyWait := none
  stepping : Bool := false          -- a debugger STEP runs until one instruction completes or traps (R166)
  ops : List HookOp := []
  running : Option HookOp := none   -- the held hook operation that executes now; none between commands
  fenceWait : Bool := false
  dram : Option DramAcc := none     -- its window access in DRAM
  dispTime : Nat := 0               -- when the running item was dispatched (R105's tie-break)
  deferred : Option WorkItem := none -- a pre-emption that waits for EXL = 0 (R138)
  shareBase : Nat := 0              -- NDL_SHARE, NDL_WIN and NDL_XMASK as latched at the last dispatch (R149)
  shareSize : Nat := 8
  wins : List Word := [0#32, 0#32, 0#32, 0#32]
  xmask : Nat := 0
  deriving DecidableEq, Repr

/-- A yarn (R158): the FIFO at the receive end and the messages in transit to it. -/
structure Yarn where
  fifo : List (List Word) := []
  dataAt : Nat := 0           -- when the FIFO last ceased to be empty
  roomAt : Nat := 0           -- when it last ceased to be full
  transit : List (List Word) := []
  deriving DecidableEq, Repr

/-- The yarns of every course and the knot detectors (R158–R165). -/
structure YrnState where
  yarns : SMap Yarn := []           -- course × 64 + yarn; 512 + receive course × 16 + slot
  sev : SMap Bool := []             -- severed slots, course × 16 + slot
  order : List Nat := []            -- blocked strands in the order in which they blocked
  stirAt : SMap Nat := []           -- course: the last time at which something but a strand kept it from being knotted (R165)
  knotAt : SMap Nat := []           -- course: time of the last KNOT, plus 1
  epSeq : SMap Nat := []            -- endpoint: frames offered (R161)
  deriving DecidableEq, Repr

/-- Workbasket context states of R220. -/
inductive CtxState where
  | free | filling | clean | dirty | absence
  deriving DecidableEq, Repr

/-- A workbasket context with its tag (R220). -/
structure Ctx where
  state : CtxState := .free
  ridx : Nat := 0x1FFFFFF
  ver : Nat := 0
  data : List Byte := []      -- 128 bytes; an ABSENCE context holds its key in the first 48
  deriving DecidableEq, Repr

/-- An entry of an index: of a stash bucket, the overflow store or a mirror index (R218). -/
structure IdxEntry where
  sig : Nat := 0
  ridx : Nat := 0
  valid : Bool := false
  rsv : Bool := false
  ms : Bool := false
  ver : Nat := 0
  bucket : Nat := 0           -- overflow store: the tag (R217)
  deriving DecidableEq, Repr

/-- A held lock (R116): on a context by record index, or on an index bucket for an absent key. -/
structure Lock where
  onBucket : Bool
  key : Nat
  holder : Nat                -- lifeline key
  deriving DecidableEq, Repr

/-- The flow state of one panel outside the DRAM regions (R215–R227). -/
structure FlwPanel where
  ovf : SMap IdxEntry := []
  ctxs : SMap Ctx := []
  used : SMap Bool := []      -- record indices that hold a record
  rsvd : SMap Bool := []      -- record indices reserved by staged inserts (R223)
  hand : Nat := 0
  missQ : List Nat := []      -- FILLING contexts waiting for service
  served : Nat := 0           -- misses served in the microsecond `servedUs`
  servedUs : Nat := 0
  locks : List Lock := []
  lockWait : List Nat := []   -- strands whose reads wait for a lock, in arrival order
  missWait : List Nat := []   -- strands whose reads found the miss queue full, in that order
  mirSlots : SMap Nat := []   -- mirror slots of this panel's records on the other panel: slot → RIDX + 1
  mirsync : Bool := false
  adopted : Bool := false
  adoptUsed : SMap Bool := [] -- adopted mirror slots still held (R227)
  deriving DecidableEq, Repr

/-- One buffer pool (R231): the free list is the indices from `next` up to COUNT, then `freed`. -/
structure Pool where
  next : Nat := 0
  freed : List Nat := []
  gone : Bool := false        -- lost with its panel (R238)
  deriving DecidableEq, Repr

/-- The skein managers (R230–R239). -/
structure SknState where
  pools : SMap Pool := []
  chg : SMap Nat := []        -- strand (device-wide index): buffers charged
  epChg : SMap Nat := []      -- endpoint: buffers charged to it
  frees : List (Nat × Nat) := []  -- frees queued on a panel during a bridge failure: panel, address
  deriving DecidableEq, Repr

/-- Memory that the spec addresses by bytes: needle scratch (needle × 64 KiB), course shared SRAM (course × 1 MiB)
and device physical memory (R139, R285). Unlisted bytes read as zero (log entry 5). -/
structure MemState where
  scratch : List Host.Cell := []
  sram : List Host.Cell := []
  dev : List Host.Cell := []
  deriving DecidableEq, Repr

end Sys2Proof.Machine
end

