-- ==== Sys2Proof/Machine/TyIo.lean ====
section
/-! DEFINITION. The parts of the state around modes (ch. 17), position domains and events (ch. 2) and timed pins
(ch. 13). -/

namespace Sys2Proof.Machine

/-- The eight modes of R20, with the codes of R332. -/
inductive Mode where
  | off | boot | config | run | degraded | limp | sleep | service
  deriving DecidableEq, Repr

/-- Mode codes of R332. -/
def Mode.code : Mode → Nat
  | .off => 0 | .boot => 1 | .config => 2 | .run => 3 | .degraded => 4 | .limp => 5 | .sleep => 6 | .service => 7

/-- The mode of a code of R332 that a command may name; 8–15 are reserved. -/
def Mode.ofCode : Nat → Option Mode
  | 0 => some .off | 1 => some .boot | 2 => some .config | 3 => some .run | 4 => some .degraded
  | 5 => some .limp | 6 => some .sleep | 7 => some .service | _ => none

/-- Transition causes of R332. -/
inductive MCause where
  | powerOn | bootDone | bootCritical | hostCmd | selvageCmd | error | wake | panelReset
  deriving DecidableEq, Repr

/-- Cause codes of R332. -/
def MCause.code : MCause → Nat
  | .powerOn => 0 | .bootDone => 1 | .bootCritical => 2 | .hostCmd => 3 | .selvageCmd => 4 | .error => 5
  | .wake => 6 | .panelReset => 7

/-- Where a panel stands on its way to service (R335, R336). -/
inductive PanelPhase where
  | off        -- not powered, or not released
  | booting    -- past PANEL_START, from step 3 of R336
  | failed     -- held in reset by a critical failure of R337, or not powered in time
  | up         -- in service
  deriving DecidableEq, Repr

/-- One panel's power, reset and boot state (R335–R337). -/
structure PanelState where
  pg : Bool := false
  rst : Bool := false          -- RST_x_N high (released)
  refclk : Bool := false
  refSince : Nat := 0          -- REFCLK_x stable since
  phase : PanelPhase := .off
  begun : Bool := false        -- it has begun a boot since the AON boot was done (R337)
  bootCause : Nat := 0         -- MOD_BOOT.CAUSE_x
  req : Bool := false          -- PNL_REQ_x
  vid : Nat := 20              -- core voltage code (R414)
  vidAt : Nat := 0             -- time of the last voltage step
  deriving DecidableEq, Repr

/-- The mode controller (R332–R342). -/
structure ModeState where
  mode : Mode := .boot
  prev : Nat := 0
  cause : Nat := 0
  held : Bool := false
  bootDev : Nat := 0
  aonDone : Option Nat := none      -- when the AON boot finished (R337)
  pgAon : Bool := true
  rstAon : Bool := true
  crystalOk : Bool := true          -- the AON domain runs from its crystal (R418)
  wSrc : Nat := 0
  wWhich : Nat := 0
  sleeping : Bool := false          -- SLEEP has been accepted and its entry has not completed (R341)
  sleepAt : Nat := 0
  heldWake : Bool := false
  wakePorts : List Nat := []        -- ports latched as wake sources
  wakeMask : Word := 0#32           -- MOD_WAKE as latched
  selCycle : Option Nat := none     -- AON cycle of the last Selvage mode command (R334)
  a : PanelState := {}
  b : PanelState := {}
  bridge : Bool := true             -- the panels are joined
  retrainAt : Nat := 0              -- when the failed bridge was last retrained (R372)
  surv : SMap Word := []            -- MOD_SURV entries as loaded by the image
  survPins : SMap Bool := []        -- the signed survival pin list (R338)
  deriving DecidableEq, Repr

/-- Domain states of R31. -/
inductive DomSt where
  | locked | coast | stopped | fault
  deriving DecidableEq, Repr

/-- State codes of R31. -/
def DomSt.code : DomSt → Nat
  | .locked => 0 | .coast => 1 | .stopped => 2 | .fault => 3

/-- Causes of DOM_STAT (R47). -/
inductive DomCause where
  | none | notAcquired | sourceLost | overrate | edgeOverdue | secondaryMoving | invalidPattern | implausible
  | uncLimit | coastLimit | split
  deriving DecidableEq, Repr

/-- What one source of a domain copy has delivered (R23, R33, R35). Velocities are in counts per 2^32 time units. -/
structure SrcRec where
  run : Nat := 0                -- consecutive plausible in-rate observations
  lastT : Option Nat := none    -- time of the last accepted observation
  lastV : Option Int := none    -- velocity measured from the last two accepted observations
  pos : Nat := 0                -- the source's own position, in 1/256 counts modulo 2^56
  runV : Option Int := none     -- the velocity at the previous observation of the run
  accepted : Nat := 0           -- accepted observations since the domain was enabled
  need : Nat := 8               -- RELOCK as it stood when the run began
  ref : Bool := false           -- an index pulse has given the source an absolute reference
  pulseT : Option Nat := none   -- time of the last in-rate pulse (R35)
  deriving DecidableEq, Repr

/-- What a stamp of a domain copy takes from it (R27, R29). The estimate at time `t` is `pos + rate × (t − at) / 2^32`, with the
correction `slew` applied at no more than DOM_COAST.SLEW ppm. -/
structure DomEst where
  state : DomSt := .fault
  epoch : Nat := 0
  pos : Nat := 0
  at_ : Nat := 0
  rate : Int := 0
  slew : Int := 0
  unc : Nat := 0xFFFF           -- the published code at `uncAt`
  uncAt : Nat := 0
  origin : Bool := false
  deriving DecidableEq, Repr

/-- One panel's copy of a position domain (R24, R29–R38). -/
structure DomCopy extends DomEst where
  past : List (Nat × DomEst) := []  -- earlier estimates, newest first, each with the time at which it ended
  cause : DomCause := .notAcquired
  secondary : Bool := false     -- ACTIVE_SRC
  auto : Bool := false          -- AUTO_SWITCH as it stood when the copy entered COAST (R47)
  split : Bool := false
  overrate : Bool := false
  lost : Bool := false
  stepped : Bool := false
  prim : SrcRec := {}
  sec : SrcRec := {}
  hallP : Nat := 0              -- last valid Hall state of the primary (0: none yet)
  hallS : Nat := 0
  coastAt : Nat := 0
  step : Nat := 0
  stepEpoch : Nat := 0
  ovr : Nat := 0
  posHi : Word := 0#32          -- DOM_POS_HI as latched
  full : Nat := 0               -- GPTP: the full synchronised time of the last observation, and when it was made
  fullAt : Nat := 0
  deriving DecidableEq, Repr

/-- Event kinds of R39. -/
inductive EvKind where
  | pinEdge | trigger | gate | wake
  deriving DecidableEq, Repr

/-- A pending event (R39, R40): the accepted descriptor, the panel whose wheel or comparators hold it, the strand
that scheduled it, and on which side of TARGET the estimate stood when it was accepted or re-based. -/
structure Ev where
  target : Nat
  epoch : Nat
  domain : Nat
  kind : EvKind
  policy : Nat
  stepRule : Nat
  dir : Nat
  noLate : Bool
  operand : Nat
  tag : Nat
  strand : Nat
  wheel : Nat                  -- panel of the wheel; for PIN_EDGE, of the pin
  copy : Nat                   -- panel of the domain copy it is evaluated on
  before : Bool                -- the estimate stood before TARGET
  here : Bool := false         -- it stood EQUAL to TARGET at acceptance, release or re-base: a crossing for every DIR (R44)
  held : Bool := false         -- kept back by HOLD (R42)
  since : Nat := 0             -- when it was accepted, released from HOLD or re-based
  placed : Bool := false       -- its edge has acted, in the order of placement of its pin (R270)
  fired : Option Nat := none   -- a WAKE that fired with this status and whose list could not take it (R104 row 6)
  deriving DecidableEq, Repr

/-- An event completion (R185). -/
structure EvDone where
  status : Nat
  domain : Nat
  kind : Nat
  tag : Nat
  pos : Nat
  epoch : Nat
  late : Nat
  deriving DecidableEq, Repr

/-- A delayed edge of a PWM pair (R271). -/
structure DeadEdge where
  pin : Nat                    -- the pin that goes high
  due : Nat                    -- DTUNIT 0: time; DTUNIT 1: TARGET + DT
  byPos : Bool
  domain : Nat
  copy : Nat
  deriving DecidableEq, Repr

/-- A timed pin (R260–R265). OUT is 0 LOW, 1 HIGH, 2 HIZ. -/
structure Pin where
  raw : Bool := false
  level : Bool := false
  out : Nat := 2
  safe : Bool := false
  overrate : Bool := false
  glitch : Bool := false
  rawAt : Option Nat := none    -- time of a raw transition that the filter has not accepted
  rawStamp : HWord := 0#128     -- the stamp as it stood at that transition
  lastAcc : Option Nat := none  -- time of the last edge that the filter accepted
  lastDel : Option Nat := none  -- time of the last delivered edge
  deriving DecidableEq, Repr

/-- A queued SAR trigger sequence (R275). -/
structure SarTrig where
  input : Nat
  count : Nat
  stream : Nat
  tag : Nat
  domain : Nat
  panel : Nat
  deriving DecidableEq, Repr

/-- A bus schedule (R280–R282): the epoch its cycles follow, when the cycle in progress began, and the entries that have run
in it. -/
structure Sched where
  epoch : Nat := 0
  start : Nat := 0
  done : List Nat := []
  deriving DecidableEq, Repr

/-- The sinc3 filter of a sigma-delta input (R279): three integrators at the bit rate, three differences at the output rate, all modulo
2^25, and when the last output came. -/
structure SdmFilter where
  i1 : BitVec 25 := 0#25
  i2 : BitVec 25 := 0#25
  i3 : BitVec 25 := 0#25
  d1 : BitVec 25 := 0#25
  d2 : BitVec 25 := 0#25
  d3 : BitVec 25 := 0#25
  at_ : Nat := 0
  deriving DecidableEq, Repr

/-- A capture record that waits to be written (R266): its address and bytes, when it arrived, and how many requests have passed it
(R293). -/
structure CapRec where
  addr : Nat
  bytes : List Byte
  at_ : Nat := 0
  passed : Nat := 0
  deriving DecidableEq, Repr

/-- Measurement and control (R260–R282): pins, delayed edges, receivers, converters, streams, bus schedules. -/
structure TioState where
  pins : SMap Pin := []
  dead : SMap DeadEdge := []          -- panel × 64 + pair
  sentSync : SMap Nat := []           -- receiver 0–31: length of the previous sync pulse, 0.1 µs × 1000 units
  sar : SMap (List SarTrig) := []     -- converter 0–3
  sdmOut : SMap Nat := []             -- sigma-delta input 0–7: the latest filter output, 32 bits
  peak : SMap Nat := []               -- MAINS input 0–31: the half-cycle's peak from mid-scale
  lastX : SMap Nat := []              -- MAINS input 0–31: time of the last crossing, plus 1
  phase : SMap Nat := []              -- MAINS input 0–31: phase of the fundamental as the loop had it last, plus 1
  seq : SMap Nat := []                -- panel × 16 + stream: next SEQ (0: 1)
  storeA : List CapRec := []          -- records waiting to be written
  storeB : List CapRec := []
  canOpen : SMap (List Nat) := []     -- CAN port: schedule entries whose class they have opened, oldest first
  sched : SMap Sched := []            -- CAN schedule of panel 0–1; LIN port
  linBusy : SMap Nat := []            -- LIN port: time at which the frame on the bus ends
  linSlot : SMap Nat := []            -- LIN port: schedule entry whose header it sent last
  sdm : SMap SdmFilter := []          -- sigma-delta input 0–7
  deriving DecidableEq, Repr

end Sys2Proof.Machine
end

