-- ==== Sys2Proof/Machine/TyNet.lean ====
section
/-! DEFINITION. The parts of the state around charts (ch. 4), search tables (ch. 9) and the switch core (ch. 12). -/

namespace Sys2Proof.Machine

/-- A sweep pass (R94): a copy pass, or the retire pass of a slot. -/
inductive Sweep where
  | copy
  | retire (slot : Nat)
  deriving DecidableEq, Repr

/-- The charts and versions (R72, R91–R96). The generation in STAGING is `curGen` + 1. Bank words by slot × 4096 + window
word; unlisted words read as their reset value. -/
structure ChrState where
  words : SMap Word := []
  curGen : Nat := 1                 -- CURRENT generation
  draining : Option Nat := none     -- DRAINING generation
  opened : Bool := false            -- the image load has ended and STAGING is open (R74)
  passes : List Sweep := []         -- the pass that runs, then those queued
  last : Nat := 0                   -- CHR_VSTAT.LAST
  deriving DecidableEq, Repr

/-- An entry of an exact-match or L2 table (R191, R201): the key bytes, VMASK, the data word, and for L2 bytes 24–31. -/
structure TblEntry where
  key : List Byte
  vmask : Nat
  data : Nat
  aux : Nat := 0
  deriving DecidableEq, Repr

/-- An activity word (R197). -/
structure Activity where
  pos : Nat := 0
  epoch : Nat := 0
  hitgen : Nat := 0
  hit : Bool := false
  deriving DecidableEq, Repr

/-- A prefix of an LPM table (R198): its length, its address bits in the high-order end of a number of the kind's
width, and its leaf data. -/
structure Prefix where
  len : Nat
  addr : Nat
  data : Nat
  deriving DecidableEq, Repr

/-- What travels over the bridge from one panel's engine to the other's activity words (R197, R210). -/
inductive ActMsg where
  | hit (handle : Nat) (key : List Byte) (pos epoch : Nat)
  | marker (jrec : Nat)             -- the marker of the conditional delete whose journal record is `jrec`
  deriving DecidableEq, Repr

/-- A write of the other panel's copy of an entry (R190), with the journal record it completes. -/
structure CopyWr where
  handle : Nat
  entry : Option TblEntry
  jrec : Option Nat := none
  result : List Byte := []
  deriving DecidableEq, Repr

/-- A learn request (R202). -/
structure LearnReq where
  key : List Byte
  port : Nat
  deriving DecidableEq, Repr

/-- A conditional delete that waits for its marker (R209, R210). -/
structure CdelReq where
  jrec : Nat
  handle : Nat
  key : List Byte
  hitgen : Nat
  ready : Bool := false             -- every update posted before the marker has been applied
  deriving DecidableEq, Repr

/-- Work of a learn engine in order of arrival (R203, R206): a learn request, or a host command of the L2 table. -/
inductive L2Work where
  | sight (r : LearnReq)
  | insert (jrec : Nat) (key : List Byte) (data : Nat)
  | delete (jrec : Nat) (key : List Byte)
  | modify (jrec : Nat) (key : List Byte) (data : Nat)
  | cdelete (c : CdelReq)
  deriving DecidableEq, Repr

/-- A scan pass (R207): the handles still to be visited and the candidates not yet sent. -/
structure ScanPass where
  todo : List Nat
  cands : List (List Byte) := []
  deriving DecidableEq, Repr

/-- One panel's copy of the search tables and its engines (R189–R211). -/
structure TblPanel where
  ents : SMap TblEntry := []        -- by handle (R195)
  act : SMap Activity := []         -- by handle, of the entries whose home is this panel
  stream : List ActMsg := []        -- posted to the other panel and not yet applied there
  copyQ : List CopyWr := []         -- writes of the other panel's copy
  learnQ : List L2Work := []        -- oldest first
  cdels : List CdelReq := []
  scan : Option ScanPass := none
  scanDue : Option Nat := none      -- when the next pass is due
  deriving DecidableEq, Repr

/-- The search tables. LPM tables are held once: both panels' copies change in one step. -/
structure TblState where
  a : TblPanel := {}
  b : TblPanel := {}
  lpm : SMap (List Prefix) := []    -- table × 4 + slot
  lpmChg : List (Nat × Nat × Nat) := []  -- prefixes changed under STAGING since it was opened: table, length, address
  deriving DecidableEq, Repr

/-- A frame that waits for a parser (R76): received, injected by the host (R306) or the mailbox (R327), or recirculated
(R90), in which case `ll` is its lifeline. -/
structure ParseItem where
  port : Nat                        -- the port it enters from
  ingress : Nat
  frame : List Byte
  stamp : HWord := 0#128
  ll : Option Nat := none
  dead : Bool := false              -- released by the bind-off timeout in recirculation: discarded
  cellsR : Nat := 0                 -- ingress cells held, from the reserve and from the shared pool (R248)
  cellsS : Nat := 0
  cells : List Nat := []            -- packet buffer cells of a first pass, the descriptor cell first (R100)
  work : Option Nat := none         -- the journal record of its TX_FRAME command
  rx : Option Nat := none           -- when it was received from an external port (R390)
  deriving DecidableEq, Repr

/-- A frame, or a copy of one, between hand-off and the end of its transmission (ch. 12). -/
structure FabFrame where
  bytes : List Byte
  port : Nat
  tc : Nat
  dp : Nat
  ingress : Nat
  panel : Nat                       -- panel that handed it off
  ll : Option Nat := none           -- lifeline of a frame in recirculation
  dead : Bool := false
  mirror : Option Nat := none       -- a mirror copy: target, panel × 16 + x
  cellsR : Nat := 0                 -- ingress cells, until its last cell enters the fabric
  cellsS : Nat := 0
  cells : List Nat := []            -- which packet buffer cells those are (R100)
  left : Nat := 0                   -- bytes that its egress station has not received
  lines : List Nat := []            -- 64-byte lines of it that lie in DRAM pool buffers and are fetched ahead (R289)
  asked : Nat := 0                  -- how many of them have been asked for, and how many fetched
  got : Nat := 0
  linesAt : Nat := 0                -- when it was queued, and how many requests have passed the one it waits with
  passed : Nat := 0
  seen : Bool := false              -- its first cell has left the resequencer
  station : Nat := 0                -- input station
  gC : Nat := 0                     -- egress cells within the guarantee, and from the shared pool (R249)
  xC : Nat := 0
  rx : Option Nat := none           -- when it was received from an external port (R390)
  deriving DecidableEq, Repr

/-- A fabric cell (R241): its stream and sequence number, and how many bytes of which frames it carries. -/
structure Cell where
  stream : Nat
  seq : Nat
  parts : List (Nat × Nat)
  deriving DecidableEq, Repr

/-- A stream (R241): the frames whose bytes wait, its next sequence number, and its resequencer (R243) with the cells
that wait for an earlier one, those lost on the way, and since when the next expected cell is missing. -/
structure Stream where
  wait : List (Nat × Nat) := []
  next : Nat := 0
  expect : Nat := 0
  held : List Cell := []
  lost : List Cell := []
  gapAt : Option Nat := none
  deriving DecidableEq, Repr

/-- A transmission in progress (R250, R254): its queue, its egress cells, and when it ends. -/
structure TxRec where
  panel : Nat
  port : Nat
  tc : Nat
  gC : Nat
  xC : Nat
  until_ : Nat                      -- its line is free then
  preemptable : Bool
  fragAt : Nat := 0                 -- when its present fragment started or starts (R254)
  cut : Option Nat := none          -- preempted by a closed gate: the line time it still needs
  deriving DecidableEq, Repr

/-- The DWRR state of a port (R250): deficits by class and the class being visited. -/
structure Dwrr where
  deficit : SMap Nat := []
  cur : Option Nat := none
  last : Nat := 7
  deriving DecidableEq, Repr

/-- A credit-based shaper (R251): its credit in bits × 1.2 × 10^9 as of `at_`, and until when its class transmits. -/
structure Cbs where
  credit : Int := 0
  at_ : Nat := 0
  txFrom : Nat := 0                 -- its class transmits from then
  txEnd : Nat := 0
  deriving DecidableEq, Repr

/-- A meter (R246): how far each bucket is below full, in bytes × 1.5 × 10^8, as of `at_`. -/
structure Meter where
  c : Nat := 0
  e : Nat := 0
  at_ : Nat := 0
  deriving DecidableEq, Repr

/-- A recovery entry (R256): the newest sequence number, the history behind it (bit i: newest − i seen), and when a frame
last passed. -/
structure FrerRec where
  seq : Nat
  hist : Nat
  passed : Nat
  deriving DecidableEq, Repr

/-- A CAN frame whose attempts have begun (R61): its number (it stays at the head of its queue, class `tc`), and the time of
the first attempt. -/
structure CanTx where
  frame : Nat
  tc : Nat
  first : Nat
  deriving DecidableEq, Repr

/-- The ports (ch. 3) and the switch core (ch. 12). -/
structure SwtState where
  link : SMap Bool := []            -- port: its UP condition differs from what it is at reset (R49)
  wentDown : SMap Bool := []        -- port: PRT_STAT.WENT_DOWN
  rate : SMap Nat := []             -- port: PRT_STAT.RATE
  spareIn : SMap Bool := []         -- port: PRT_STAT.SPARE_IN
  bound : SMap Nat := []            -- T1S source slots: port × 2 + slot: address + 1
  spoofAt : SMap Nat := []          -- node-port: time of its last SPOOF event, plus 1
  parseQ : SMap (List ParseItem) := []  -- panel
  frames : SMap FabFrame := []      -- frames in the fabric and in egress queues, by number in hand-off order
  nextFrame : Nat := 0
  streams : SMap Stream := []       -- input station × 128 + output station × 8 + class
  inter : SMap (List Cell) := []    -- intermediate 0–15
  lanes : SMap (List Cell) := []    -- bridge lane in front of station 0–15
  slotA : Nat := 0                  -- slots counted by each panel (R242)
  slotB : Nat := 0
  adm : SMap (List Nat) := []       -- panel: frames whose first cell has left the resequencer
  qs : SMap (List Nat) := []        -- (panel × 1152 + port) × 8 + class: frames queued
  tx : SMap (List TxRec) := []      -- medium (port, or segment port): transmissions in progress
  dwrr : SMap Dwrr := []            -- panel × 1152 + port
  cbs : SMap Cbs := []              -- panel × 256 + shaper
  meters : SMap Meter := []         -- panel × 256 + meter
  blocked : SMap Bool := []         -- panel × 256 + filter: BLOCK has latched (R245)
  frerSeq : SMap Nat := []          -- panel × 256 + entry: next sequence number to generate
  frer : SMap FrerRec := []         -- panel × 256 + entry: recovery state; unlisted before the first frame
  verified : SMap Bool := []        -- port: preemption verification has succeeded
  t1sBurst : SMap Nat := []            -- segment: frames it may still start in its opportunity
  t1sLast : SMap Nat := []          -- segment × 8 + class: node-port served last, plus 1
  canTx : SMap CanTx := []          -- CAN port: the frame whose attempts have begun
  linResp : SMap (List Byte) := []  -- LIN port × 64 + FID: loaded response, with CHK before it
  mboxRx : List (List Byte) := []   -- frames released to the mailbox, port 1108 (R327)
  gates : SMap Nat := []            -- port: gate state (R252), 0xFF where unlisted
  deriving DecidableEq, Repr

end Sys2Proof.Machine
end

