-- ==== Sys2Proof/Machine/TySys.lean ====
section
/-! DEFINITION. The parts of the state around faults and recovery (ch. 19). -/

namespace Sys2Proof.Machine

/-- A recovery (R365, R366), in a slot or waiting in the queue: its error, how far it has come, and what it does. -/
structure Recov where
  sev : Nat
  unit : Nat
  index : Nat
  detect : Nat
  step : Nat := 1
  susp : Bool := false
  waits : Bool := false         -- on a re-test, on link training or on a DRAM search: it does not stop
  queued : Bool := false
  darn : Bool := false          -- a spare takes over; otherwise the unit is fenced, or its item replayed
  fenced : Bool := false        -- the unit has been fenced
  replayed : Nat := 0
  stamp : HWord := 0#128
  recseq : Nat := 0
  item : Option Nat := none     -- severity 1: the item, by lifeline key
  frameData : Bool := false
  addr : Nat := 0               -- failed row, column, bucket or lane
  col : Bool := false
  deriving DecidableEq, Repr

/-- An entry of the repair log (R376). -/
structure RepEntry where
  unit : Nat
  panel : Nat
  index : Nat
  kind : Nat
  addr : Nat
  spare : Nat
  seq : Nat
  deriving DecidableEq, Repr

/-- Fault handling (R358–R377). Spares are listed once they are spent. -/
structure FltState where
  fenced : SMap Bool := []      -- fenced units by unit key
  moving : SMap Bool := []      -- needles (0–103) whose strands are on their way to another position (R362)
  slots : SMap Recov := []      -- panel × 8 + slot
  queue : SMap (List Recov) := []  -- panel: waiting errors, highest severity first
  needleSpare : SMap Bool := []    -- course
  laneSpare : SMap Bool := []      -- station
  sdSpare : SMap Bool := []        -- 100 Gbit/s port 0–3
  rows : SMap Nat := []            -- spare rows used, panel × 4096 + INDEX
  cols : SMap Nat := []            -- spare columns used
  restartAt : SMap Nat := []       -- unit key: time of the last lockstep mismatch or Carriage fault, plus 1
  log : List RepEntry := []        -- the repair log
  deriving DecidableEq, Repr

/-- A request to a channel for one line (R289): its port (9 the patrol scrub), arrival, device address, channel address and the panel
that asks; whether it writes, and less than the line; what waits for it: a strand's window access, or a frame's prefetch; and how
many requests have passed it (R293). -/
structure DramReq where
  port : Nat
  at_ : Nat
  addr : Nat
  ca : Nat
  panel : Nat
  write : Bool := false
  short : Bool := false
  who : Option (Nat × Nat) := none
  frame : Option Nat := none
  passed : Nat := 0
  deriving DecidableEq, Repr

/-- The DRAM of the device (R284–R299). `marked` lists the 64 KiB blocks of mirrored DRAM written while the panels
were apart: 1 by Panel A, 2 by Panel B, 3 by both (R287). Channel maps are by channel 0–7. -/
structure DrmState where
  marked : SMap Nat := []
  msync : Bool := false
  resync : Bool := false
  whole : Option Nat := none     -- the panel whose copy is written over the whole of the other
  trainedAt : SMap Nat := []     -- when the channel was last trained
  temp : SMap Int := []          -- temperature at that time, °C
  startAt : SMap Nat := []       -- when the retraining or widened search in progress began
  deferAt : SMap Nat := []       -- since when a periodic or drift trigger is deferred, plus 1
  errTrain : SMap Bool := []     -- the retraining was started by an uncorrectable read (R296)
  reqs : SMap (List DramReq) := []   -- requests that wait, in order of arrival
  reading : SMap (List DramReq) := [] -- reads issued that have not completed, oldest first
  nextId : Nat := 0              -- number of the next window access
  rows : SMap Nat := []          -- channel × 16 + bank: its open row, plus 1
  acts : SMap Nat := []          -- channel × 16 + bank: its rolling activation count (R295)
  bank : SMap Nat := []          -- the bank that is refreshed next
  scrub : SMap Nat := []         -- channel address of the next patrol-scrub read, and when the last was issued
  scrubAt : SMap Nat := []
  nrq : SMap (List (Nat × List Nat)) := []  -- neighbour refreshes queued: bank and rows
  rate : SMap Nat := []          -- refresh rate of the last MR4 read
  mr4At : SMap Nat := []
  refAt : SMap Nat := []         -- when a refresh last fell due
  due : SMap Nat := []           -- refreshes due and not issued
  deriving DecidableEq, Repr

/-- What a main image loads (R336 step 7, R338, R354). The spec gives no format for an image's body; which content a body
spells is `Config.imageOf` (log entry 41). -/
structure Image where
  regs : SMap Word := []           -- register defaults, by address
  sram : List Host.Cell := []      -- needle programs and course shared SRAM (course × 1 MiB)
  chart : SMap Word := []          -- chart generation 1, by window word
  ents : SMap TblEntry := []       -- search-table images
  lpm : SMap (List Prefix) := []
  surv : SMap Word := []           -- survival flow entries (MOD_SURV)
  pins : SMap Bool := []           -- the survival pin list
  bootCfg : List Byte := []        -- the boot configuration
  rafEn : Bool := false
  sci : List Byte := []            -- the host's MACsec SCI
  wrapped : List Byte := []        -- the wrapped SAK
  deriving DecidableEq, Repr, Inhabited

/-- A slot of the Row Counter ring (R393): a 64-byte record and whether a flush has written it to flash. -/
structure RecSlot where
  bytes : List Byte
  sev : Nat
  seq : Nat
  flushed : Bool := false
  deriving DecidableEq, Repr

/-- A MACsec secure association (R52, R354): its key, its channel and the next packet number. -/
structure Sa where
  key : List Byte
  sci : List Byte
  pn : Nat
  salt : List Byte := []            -- XPN suites: salt and short SCI
  ssci : Nat := 0
  deriving DecidableEq, Repr

/-- A held service token (R353). -/
structure Token where
  grants : Nat
  newOwner : List Byte
  meas : List Byte
  deriving DecidableEq, Repr

/-- Root of trust (ch. 18): fuses, keys, the images booted, the token and the configuration digest. -/
structure SecState where
  keys : SMap (List Byte) := []     -- hook 0 key slots, panel × 1024 + slot: 16 or 32 bytes
  rxSa : SMap Sa := []              -- receive associations, port × 4 + AN
  txSa : SMap Sa := []              -- transmit associations, port × 4 + AN
  owners : SMap (List Byte) := []   -- owner slots burned and VALID
  arb : SMap (List Nat) := []       -- class: ARB records burned
  bootOwner : Option (Nat × List Byte) := none  -- the current owner, as read at boot
  cert : List Byte := []            -- the certificate of the attestation key, appended to the report chain (R351)
  seed : Nat := 0                   -- which draw of the random source SEC_CHAL is
  svMeas : List Byte := []          -- measurement of the SV_PATCH booted
  mainA : List Byte := []           -- measurement of the MAIN image each panel booted; empty where none
  mainB : List Byte := []
  svn : SMap Nat := []              -- class: SVN of the image booted this boot
  verifying : Bool := false         -- a token is being verified
  token : Option Token := none
  last : Nat := 0                   -- SEC_TOKSTAT.LAST
  dbg : Bool := false               -- a DEBUG grant has come into force since the last reset
  digest : List Byte := []          -- CFG_DIGEST
  bootCfg : List Byte := []         -- boot configuration of the image loaded
  rafOn : Bool := false             -- it enables Register Access Frames
  rafSci : List Byte := []          -- the SCI it binds to the host role (R318, R354)
  deriving DecidableEq, Repr

/-- The Selvage port (ch. 16): the page, the kept response, and the attestation report. -/
structure SvState where
  page : Nat := 0
  kept : Option (List Word) := none
  nonce : Option (List Byte) := none   -- a report is being built with this nonce
  report : Option (List Byte) := none
  deriving DecidableEq, Repr

/-- A swatch slice that runs (R379): its number, and since when. -/
structure SliceRun where
  slice : Nat
  start : Nat
  deriving DecidableEq, Repr

/-- The swatch (ch. 20), by panel. -/
structure SwaState where
  run : SMap SliceRun := []
  aon : Option SliceRun := none     -- the AON_SRAM slice, which runs alongside Panel A's
  cycleAt : SMap Nat := []          -- when the cycle began
  next : SMap Nat := []             -- next slice of the cycle; 440 when the cycle has ended
  last : SMap Nat := []             -- SWT_STAT.SLICE
  cycles : SMap Nat := []
  results : SMap Word := []         -- (panel × 512 + slice) × 8 + word
  seq : SMap Nat := []
  on : SMap Bool := []              -- the swatch runs (since entry to RUN)
  deriving DecidableEq, Repr

/-- The Row Counter (R387–R400): the ring, the buffer that takes its place when MEM 7 is fenced, the flash partition by
record index (sector × 64 + slot), and the accumulators of the running interval. -/
structure RecState where
  seq : Nat := 1                    -- next SEQ
  reserve : Nat := 16777217         -- SEQ reserve of the newest header (R396)
  ring : SMap RecSlot := []
  newest : Option Nat := none
  buf : List RecSlot := []
  lost : Nat := 0
  lostf : Nat := 0
  flash : SMap (List Byte) := []
  sectorSeq : Nat := 1              -- next sector sequence number
  erases : SMap Nat := []           -- sector: times erased
  bad : SMap Bool := []
  logSector : Option Nat := none    -- sector being written in the log
  logSlot : Nat := 1
  fatSector : Nat := 0              -- sector being written in the fatal area
  fatSlot : Nat := 0
  flushDue : Bool := false
  flushedAt : Nat := 0
  intervalAt : Nat := 0
  hist : SMap Nat := []             -- histogram bins: ((panel × 16 + kind) × 65536 + SRC) × 32 + bin
  counts : SMap Nat := []           -- COUNTS words: (panel × 64 + UNIT) × 8 + word
  ext : SMap (Int × HWord) := []    -- extremes: (panel × 16 + QTY) × 65536 + instance
  deriving DecidableEq, Repr

/-- A message that a QP has sent and its peer has not acknowledged (R302). -/
inductive WqeKind where
  | write | read | send
  deriving DecidableEq, Repr

/-- An outstanding work request of a QP: its first PSN and its number of packets. -/
structure Wqe where
  kind : WqeKind
  psn : Nat
  npkts : Nat
  rkey : Word := 0#32
  va : Nat := 0
  imm : Nat := 0
  len : Nat := 0
  bytes : List Byte := []
  jrec : Option Nat := none        -- the journal record whose completion this writes
  acks : Nat := 0                  -- how many of its packets are acknowledged
  ring : Option Nat := none        -- READ: the command ring whose entries it fetches
  tx : Option Nat := none          -- READ: the journal record of its TX_FRAME command
  deriving DecidableEq, Repr

/-- A queue pair (R302, R304). Rates are exact, in Mbit/s. -/
structure Qp where
  state : Nat := 0                  -- 0 RESET, 1 RTS, 2 ERROR
  spsn : Nat := 0                   -- next PSN to send
  epsn : Nat := 0                   -- expected PSN
  sq : List Wqe := []
  tries : Nat := 0
  sentAt : Nat := 0
  rnr : Bool := false
  rnrTries : Nat := 0
  rnrAt : Nat := 0
  unacked : Nat := 0                -- packets received since the last acknowledgement sent
  rc : Rat := 100000
  rt : Rat := 100000
  alpha : Rat := 1
  n : Nat := 0
  cutAt : Option Nat := none        -- last CNP acted on
  tickAt : Nat := 0
  cnpAt : Option Nat := none        -- last CNP sent
  deriving DecidableEq, Repr

/-- A ring (R307–R309). -/
structure Ring where
  prod : Nat := 0                   -- producer index: host's doorbell on a command ring, the device's own otherwise
  cons : Nat := 0                   -- consumer index: fetched entries on a command ring, host's doorbell otherwise
  expSeq : Option Nat := none       -- expected SEQ
  ready : Nat := 0                  -- entries fetched and not yet started
  inflight : Nat := 0               -- commands from fetch to completion
  started : Nat := 0                -- ring index of the next command to start
  lost : SMap Nat := []             -- EVENT: events of each kind discarded since the last one delivered
  deriving DecidableEq, Repr

/-- Journal states of R315. -/
inductive JState where
  | fetched | started | done
  deriving DecidableEq, Repr

/-- A journal record (R315): the command, how far it has come, and its completion with the slot that takes it. -/
structure JRec where
  ring : Nat
  index : Nat
  seq : Nat
  tag : Nat
  opcode : Nat
  state : JState := .started
  status : Nat := 0
  entry : List Byte := []
  slot : Nat := 0
  list : Nat := 0                   -- WORK: the list and the 48 payload bytes
  payload : List Byte := []
  consumed : Bool := true           -- the command consumed its SEQ (R312)
  deriving DecidableEq, Repr

/-- The host engine (R300–R319). -/
structure HstState where
  qps : SMap Qp := []
  rings : SMap Ring := []
  jrnl : SMap JRec := []            -- journal records by number
  nextRec : Nat := 0
  seqs : SMap Nat := []             -- ring × 2^32 + SEQ: status first given, plus 1, while the journal holds it
  port2 : Bool := false             -- the QPs run on port 2
  rafSeq : Option Nat := none
  rafResp : List Byte := []
  pausedWork : SMap Bool := []      -- rings whose fetch is paused by R104 row 6
  heldWork : List (Nat × WorkItem) := []  -- WORK items that R104 row 6 holds back, with their rings
  deriving DecidableEq, Repr

end Sys2Proof.Machine
end

