-- ==== Sys2Proof/Config.lean ====
section
/-! DEFINITION. What an implementation fixes and the spec leaves open: opaque constants with no body, so that no
proof can see a value of them. `fresh` arguments are the counter `State.fresh`, which every use advances. -/

namespace Sys2Proof

/-- A free 32-bit value, one for each use (log entry 3). -/
opaque Config.freeWord : Nat → Word

/-- A free number, one for each use (log entry 3): a choice among several that the spec leaves open. -/
opaque Config.freeNat : Nat → Nat

/-- A free Boolean, one for each use (log entry 3). -/
opaque Config.freeBool : Nat → Bool

/-- A free list of bytes of the length given, one for each use (log entry 3). -/
opaque Config.freeBytes : Nat → Nat → List Byte

/-- ML-DSA-87 signature verification (R347, R353): does `sig` verify `msg` under the public key? The standard fixes
it; the model does not compute it (log entry 12). -/
opaque Config.mldsaVerify : (key msg sig : List Byte) → Bool

/-- ML-DSA-87 signing under a private key seed (R352). -/
opaque Config.mldsaSign : (seed msg : List Byte) → List Byte

/-- The public key of a private key seed (R351). -/
opaque Config.mldsaPublic : (seed : List Byte) → List Byte

/-- The certificate for a public key that the identity key of a seed signs (R351); the spec gives it no format (log entry 12). -/
opaque Config.certificate : (seed key : List Byte) → List Byte

/-- VENDOR_HASH, burned at test (R344). -/
opaque Config.vendorHash : List Byte

/-- The PUF seed of this device (R350). -/
opaque Config.pufSeed : List Byte

/-- The draw of the hardware random source that SEC_CHAL is, by the number of the boot (R353). -/
opaque Config.challenge : Nat → List Byte

/-- One less than the cells that a bridge lane holds (R242): the spec says that a lane can be full, not of how many (log entry 97). -/
opaque Config.laneCells : Nat

/-- Bank and row of a channel address: the address decoding of the memory, which the spec does not give (R293–R295, log entry 98). -/
opaque Config.dramBank : (ca : Nat) → Nat
/-- Its row. -/
opaque Config.dramRow : (ca : Nat) → Nat
/-- Rows of a bank (R295). -/
opaque Config.dramRows : Nat
/-- One less than the requests a requestor port's queue holds (R289). -/
opaque Config.dramDepth : (port : Nat) → Nat
/-- The interval at which refreshes fall due at an MR4 refresh rate, in time units (R294). -/
opaque Config.refreshInterval : (rate : Nat) → Nat
/-- One less than the activations of a bank after which the memory requires a refresh-management command (R295). -/
opaque Config.rfmThreshold : Nat

/-- What the body of a main image loads; the spec gives no format for it (log entry 41). -/
opaque Config.imageOf : (body : List Byte) → Machine.Image

end Sys2Proof
end

