-- ==== Sys2Proof/Machine/RegTable.lean ====
section
/-! DEFINITION. The register table: every 32-bit register of the block map (R401, R403) with the fields its chapter
gives it (bits, access type of R6, reset value, range, reserved codes). What a field does beyond holding a value is
named by the register's identity `RegId`; Machine/RegRead.lean and Machine/RegWrite.lean give those effects. -/

namespace Sys2Proof.Machine

/-- The register blocks (R403, R408). -/
inductive Blk where
  | sv | mod | sec | svc | rcd | chr | tbl | skn | sep | hst | dom | prt | t1s | can | gw
  | car | ndl | gtb | yrn | hk | flw | egr | tio | drm | flt | swt
  deriving DecidableEq, Repr

/-- Block number of R403 for a block of panel `p` (0 A, 1 B; ignored outside panel space). -/
def Blk.number (b : Blk) (p : Nat) : Nat :=
  match b with
  | .sv => 0 | .mod => 1 | .sec => 2 | .svc => 3 | .rcd => 4
  | .chr => 8 | .tbl => 9 | .skn => 10 | .sep => 11 | .hst => 12 | .dom => 13 | .prt => 14 | .t1s => 15
  | .can => 16 | .gw => 17
  | .car => 32 + 16 * p | .ndl => 33 + 16 * p | .gtb => 34 + 16 * p | .yrn => 35 + 16 * p | .hk => 36 + 16 * p
  | .flw => 37 + 16 * p | .egr => 38 + 16 * p | .tio => 39 + 16 * p | .drm => 40 + 16 * p | .flt => 41 + 16 * p
  | .swt => 42 + 16 * p

/-- Base address of a block, Panel A's where the block is a panel block (R403). -/
def Blk.base : Blk → Nat
  | .sv => 0x00000000 | .mod => 0x00001000 | .sec => 0x00002000 | .svc => 0x00003000 | .rcd => 0x00100000
  | .chr => 0x00800000 | .tbl => 0x00810000 | .skn => 0x00820000 | .sep => 0x00830000 | .hst => 0x00840000
  | .dom => 0x00850000 | .prt => 0x00860000 | .t1s => 0x00870000 | .can => 0x00880000 | .gw => 0x00890000
  | .car => 0x01000000 | .ndl => 0x01010000 | .gtb => 0x01020000 | .yrn => 0x01030000 | .hk => 0x01040000
  | .flw => 0x01050000 | .egr => 0x01060000 | .tio => 0x01070000 | .drm => 0x01080000 | .flt => 0x01090000
  | .swt => 0x010A0000

/-- Extent of a block in bytes (R403). -/
def Blk.extent : Blk → Nat
  | .sv => 0x1000 | .mod => 0x1000 | .sec => 0x1000 | .svc => 0x1000 | .rcd => 0x80000
  | .chr => 0x10000 | .tbl => 0x1000 | .skn => 0x1000 | .sep => 0x1000 | .hst => 0x4000
  | .dom => 0x1000 | .prt => 0x4000 | .t1s => 0x1000 | .can => 0x1000 | .gw => 0x1000
  | .car => 0x8000 | .ndl => 0x2000 | .gtb => 0x2000 | .yrn => 0x1000 | .hk => 0x1000
  | .flw => 0x1000 | .egr => 0x8000 | .tio => 0x2000 | .drm => 0x1000 | .flt => 0x1000
  | .swt => 0x8000

/-- Where a block lives (R401): the AON domain, device-wide (a copy on each panel, R404), or one block per panel. -/
inductive Space where
  | aon | device | panel
  deriving DecidableEq, Repr

/-- The space of a block (R403). -/
def Blk.space : Blk → Space
  | .sv | .mod | .sec | .svc | .rcd => .aon
  | .chr | .tbl | .skn | .sep | .hst | .dom | .prt | .t1s | .can | .gw => .device
  | .car | .ndl | .gtb | .yrn | .hk | .flw | .egr | .tio | .drm | .flt | .swt => .panel

/-- Every block. -/
def Blk.all : List Blk :=
  [.sv, .mod, .sec, .svc, .rcd, .chr, .tbl, .skn, .sep, .hst, .dom, .prt, .t1s, .can, .gw,
   .car, .ndl, .gtb, .yrn, .hk, .flw, .egr, .tio, .drm, .flt, .swt]

/-- Address of byte `o` of the block of panel `p`. -/
def Blk.addr (b : Blk) (p o : Nat) : Nat :=
  b.base + (if b.space = .panel then p * 0x01000000 else 0) + o

/-- Offset of a block's set-up error status. -/
def Blk.serrOff : Blk → Nat
  | .sv => 0x1C | .mod => 0x1C | .sec => 0x70 | .svc => 0x10 | .rcd => 0x2C
  | .chr => 0x10 | .tbl => 0x2A4 | .skn => 0x28C | .sep => 0x100 | .hst => 0x20
  | .dom => 0x400 | .prt => 0x2000 | .t1s => 0xE00 | .can => 0xA00 | .gw => 0x38C
  | .car => 0x7414 | .ndl => 0x864 | .gtb => 0x1D00 | .yrn => 0xB00 | .hk => 0x20
  | .flw => 0x28 | .egr => 0x7654 | .tio => 0x7EC | .drm => 0x64 | .flt => 0x24 | .swt => 0xC

/-- The access types of R6. -/
inductive Acc where
  | rw | ro | w1c | wo | rwl
  deriving DecidableEq, Repr

/-- One field of a register word: place, access, reset, the range a write must keep to (check 5 of R407) and the
number of defined codes (a code at or above `codes` is reserved, check 2). Bits of no field are reserved. -/
structure Fld where
  lo : Nat
  w : Nat
  acc : Acc
  rst : Nat := 0
  mn : Nat := 0
  mx : Nat := 0xFFFFFFFF
  codes : Nat := 0x100000000
  deriving DecidableEq, Repr

/-- An RWL field. -/
def rwl (lo w : Nat) (rst : Nat := 0) : Fld := { lo, w, acc := .rwl, rst }
/-- An RWL field with a range. -/
def rwlR (lo w rst mn mx : Nat) : Fld := { lo, w, acc := .rwl, rst, mn, mx }
/-- An RWL field with `n` defined codes. -/
def rwlC (lo w rst n : Nat) : Fld := { lo, w, acc := .rwl, rst, codes := n }
/-- An RW field. -/
def frw (lo w : Nat) (rst : Nat := 0) : Fld := { lo, w, acc := .rw, rst }
/-- An RO field. -/
def fro (lo w : Nat) (rst : Nat := 0) : Fld := { lo, w, acc := .ro, rst }
/-- A W1C field. -/
def fw1 (lo w : Nat) : Fld := { lo, w, acc := .w1c }
/-- A WO field. -/
def fwo (lo w : Nat) : Fld := { lo, w, acc := .wo }

/-- The identity of a register whose read, write or checks go beyond its fields; `plain` for every other one. -/
inductive RegId where
  | plain | serr
  | svOwn | svAttn | svAen | svPage | svcCtr
  | modStat | modCmd | modBoot | modWcause | modWpin | modSurv
  | secId | secChal | secTokctl | secTokstat | secArbadv | secArb
  | recStat | recSeqLo | recSeqHi | recLost | recLostf | recFlush | recFsel | recFstat | recFbuf | recMon | recRing
  | chrVstat | chrVcommit | chrVabort | chrDrain | chrWin
  | tblCfg | tblSeed | tblOvf
  | sknPcfg | sknPgrp | sknPbase | sknPstat | sknPlow | sknLowrst | sknEaddrLo | sknEaddrHi
  | hstHcfg | hstJrnl | hstQpctl | hstRing0 | hstRing1 | hstMwin0
  | domCtl | domCfg | domStepth | domLimit | domStat | domUnc | domPosLo | domPosHi | domStepLo | domStepHi | domOvr
  | prtCfg | prtStat | npCfg | canNbt | canDbt | canXbt
  | carQcfg | carSub | carSpcfg | carOdstat | carStat
  | ndlShare | ndlTvdef | ndlRst | ndlSstat
  | gtbEnt | gtbCbuf | gtbShl | gtbShb
  | yrnCfg | yrnIcfg | yrnSupv | yrnOccC | yrnOccI
  | hkFence
  | flwCfg | flwSeed | flwIdx | flwRec | flwMir | flwStat | flwFree
  | egrPsf | egrPcfg | egrWgt | egrPsmap | egrProf | egrCbs0 | egrCbs1 | egrFrer0 | egrFrer1 | egrMirt | egrBuf | egrBstat
  | tioPcfg | tioPstat | tioScfg0 | tioScfg1 | tioQcfg | tioCcyc | tioCsch | tioLsch | tioLport
  | drmMap | drmMsz | drmQosWm | drmCstat | drmMstat
  | fltSlot | fltQueue | fltSpare0 | fltSpare1
  | swtStat | swtExt | swtRes
  deriving DecidableEq, Repr

/-- One row of a block's register table: `n1` rows of stride `s1`, each of `n2` words of stride `s2`. -/
structure RegDesc where
  blk : Blk
  off : Nat
  s1 : Nat := 4
  n1 : Nat := 1
  s2 : Nat := 4
  n2 : Nat := 1
  id : RegId := .plain
  flds : List Fld

/-- Address of word `(i, j)` of a register on panel `p`. -/
def RegDesc.addr (d : RegDesc) (p i : Nat) (j : Nat := 0) : Nat := d.blk.addr p (d.off + d.s1 * i + d.s2 * j)

/-- Is the byte offset `o` of the block a word of this row, and which one? -/
def RegDesc.locate (d : RegDesc) (o : Nat) : Option (Nat × Nat) :=
  if o < d.off then none
  else
    let r := o - d.off
    let i := r / d.s1
    let q := r % d.s1
    if i < d.n1 && q / d.s2 < d.n2 && q % d.s2 == 0 then some (i, q / d.s2) else none

/-- The bits that belong to some field. -/
def RegDesc.mask (d : RegDesc) : Nat := d.flds.foldl (fun a f => a ||| ((2 ^ f.w - 1) <<< f.lo)) 0

/-- Reset value of the listed fields. -/
def RegDesc.fldRst (d : RegDesc) : Nat := d.flds.foldl (fun a f => a ||| ((f.rst % 2 ^ f.w) <<< f.lo)) 0

/-- The local port index p′ of R259 as a port of panel `p`. -/
def egrPort (p i : Nat) : Nat :=
  if i < 2 then 2 * p + i
  else if i < 16 then 4 + 14 * p + (i - 2)
  else if i < 400 then 32 + 384 * p + (i - 16)
  else if i < 480 then 800 + 80 * p + (i - 400)
  else 960 + 32 * p + (i - 480)

/-- Reset value of word `(i, j)` on panel `p`: the fields' values, and the few resets that depend on the place
(NDL_SHARE.BASE = 8 × S, R149; EGR_PCFG.EXPRESS, R259; PRT_CFG.MAXFRM, R71; GTB_ENT, R168; CAN timing, R409). -/
def RegDesc.rst (d : RegDesc) (p i _j : Nat) : Word :=
  let v := d.fldRst
  BitVec.ofNat 32 (match d.id with
    | .ndlShare => v ||| 8 * (i % 8)
    | .egrPcfg => if 4 ≤ egrPort p i && egrPort p i ≤ 31 then v ||| (0xFF <<< 12) else v
    | .prtCfg => if i < 800 then v ||| (0x05F2 <<< 1) else v
    | .gtbEnt => 0xFEDCBA98
    | _ => v)

namespace R

/-- The set-up error status layout shared by every block (R407): bits 0–3 W1C, OFFSET in [31:16]. -/
def serr (b : Blk) : RegDesc :=
  { blk := b, off := b.serrOff, id := .serr, flds := [fw1 0 1, fw1 1 1, fw1 2 1, fw1 3 1, fro 16 16] }

/-- A word that is one field. -/
def wordF (a : Acc) (rst : Nat := 0) : List Fld := [{ lo := 0, w := 32, acc := a, rst }]

/-- The owner code of the block in place `b` of an SV_OWN word (R329: code 3 is reserved). -/
def ownF (b : Nat) : Fld := { lo := 2 * b, w := 2, acc := .rw, codes := 3 }

-- SV (R331). The SV_OWN fields of unassigned block numbers are reserved (R403).
def svOwn0 : RegDesc := { blk := .sv, off := 0x00, id := .svOwn, flds := ([0, 1, 2, 3, 4, 8, 9, 10, 11, 12, 13, 14, 15].map ownF) }
def svOwn1 : RegDesc := { blk := .sv, off := 0x04, id := .svOwn, flds := ([0, 1].map ownF) }
def svOwn2 : RegDesc := { blk := .sv, off := 0x08, id := .svOwn, flds := ([0, 1, 2, 3, 4, 5, 6, 7, 8, 9, 10].map ownF) }
def svOwn3 : RegDesc := { blk := .sv, off := 0x0C, id := .svOwn, flds := ([0, 1, 2, 3, 4, 5, 6, 7, 8, 9, 10].map ownF) }
def svAttn : RegDesc := { blk := .sv, off := 0x10, id := .svAttn, flds := [fw1 0 6] }
def svAen : RegDesc := { blk := .sv, off := 0x14, id := .svAen, flds := [frw 0 6 0x3F] }
def svPage : RegDesc := { blk := .sv, off := 0x18, id := .svPage, flds := [fro 0 10] }

-- SVC (R408)
def svcCtr : RegDesc := { blk := .svc, off := 0x00, n1 := 3, id := .svcCtr, flds := wordF .ro }

-- MOD (R343)
def modStat : RegDesc := { blk := .mod, off := 0x00, id := .modStat, flds := [fro 0 4 1, fro 4 4, fro 8 8, fro 16 1, fro 17 1] }
def modCmd : RegDesc := { blk := .mod, off := 0x04, id := .modCmd, flds := [fwo 0 4] }
def modBoot : RegDesc := { blk := .mod, off := 0x08, id := .modBoot, flds := [fro 0 4, fro 4 4, fro 8 4] }
def modWake : RegDesc := { blk := .mod, off := 0x0C, flds := [rwl 0 1, rwl 1 1, rwl 2 1, rwl 3 1, rwl 4 8, rwlR 12 10 5 1 1023] }
def modWpin : RegDesc := { blk := .mod, off := 0x10, n1 := 2, id := .modWpin, flds := [rwl 0 8, rwl 8 8, rwl 16 8, rwl 24 8] }
def modWcause : RegDesc := { blk := .mod, off := 0x18, id := .modWcause, flds := [fro 0 3, fro 3 11] }
def modSurv : RegDesc := { blk := .mod, off := 0x100, n1 := 64, id := .modSurv, flds := [fro 0 11, fro 11 8, fro 19 1] }

-- SEC (R356)
def secId : RegDesc := { blk := .sec, off := 0x00, n1 := 8, id := .secId, flds := wordF .ro }
def secChal : RegDesc := { blk := .sec, off := 0x20, n1 := 8, id := .secChal, flds := wordF .ro }
def secTokctl : RegDesc := { blk := .sec, off := 0x40, id := .secTokctl, flds := [fwo 0 1, rwl 1 1, rwl 2 30] }
def secTokstat : RegDesc := { blk := .sec, off := 0x44, id := .secTokstat, flds := [fro 0 4, fro 4 5, fro 9 2, fro 11 1] }
def secArbadv : RegDesc := { blk := .sec, off := 0x48, id := .secArbadv, flds := [fwo 0 2, fwo 2 1, fwo 3 1] }
def secArb : RegDesc := { blk := .sec, off := 0x50, n1 := 4, s1 := 8, n2 := 2, id := .secArb, flds := wordF .ro }

-- REC (R400)
def recCfg : RegDesc := { blk := .rcd, off := 0x00, flds := [rwlR 0 8 0x0A 1 255, rwlR 8 8 0x0A 1 255, rwl 16 4, rwlR 20 8 0x40 16 255] }
def recStat : RegDesc := { blk := .rcd, off := 0x04, id := .recStat, flds := [fro 0 13, fro 13 1, fro 14 1] }
def recSeqLo : RegDesc := { blk := .rcd, off := 0x08, id := .recSeqLo, flds := wordF .ro }
def recSeqHi : RegDesc := { blk := .rcd, off := 0x0C, id := .recSeqHi, flds := wordF .ro }
def recLost : RegDesc := { blk := .rcd, off := 0x10, id := .recLost, flds := wordF .ro }
def recLostf : RegDesc := { blk := .rcd, off := 0x14, id := .recLostf, flds := wordF .ro }
def recFlush : RegDesc := { blk := .rcd, off := 0x18, id := .recFlush, flds := [fwo 0 1] }
def recFsel : RegDesc := { blk := .rcd, off := 0x1C, id := .recFsel, flds := [frw 0 18] }
def recFstat : RegDesc := { blk := .rcd, off := 0x20, id := .recFstat, flds := [fro 0 1, fro 1 1] }
def recStg : RegDesc := { blk := .rcd, off := 0x24, n1 := 2, flds := [rwl 0 24] }
def recFbuf : RegDesc := { blk := .rcd, off := 0x40, n1 := 16, id := .recFbuf, flds := wordF .ro }
def recMon : RegDesc := { blk := .rcd, off := 0x80, n1 := 128, id := .recMon, flds := [rwlR 0 11 0 0 1023, rwl 11 8, rwl 19 1] }
def recRing : RegDesc := { blk := .rcd, off := 0x10000, n1 := 65536, id := .recRing, flds := wordF .ro }

-- CHR (R96). The three windows are words of the chart banks.
def chrVstat : RegDesc := { blk := .chr, off := 0x00, id := .chrVstat, flds := [fro 0 16 1, fro 16 1, fro 17 1, fro 20 4] }
def chrVcommit : RegDesc := { blk := .chr, off := 0x04, id := .chrVcommit, flds := [fwo 0 16] }
def chrVabort : RegDesc := { blk := .chr, off := 0x08, id := .chrVabort, flds := [fwo 0 1] }
def chrDrain : RegDesc := { blk := .chr, off := 0x0C, id := .chrDrain, flds := [fro 0 13, fro 16 13] }
def chrWin : RegDesc := { blk := .chr, off := 0x4000, s1 := 0x4000, n1 := 3, n2 := 0x1000, id := .chrWin, flds := wordF .rw }

-- TBL (R212)
def tblCfg : RegDesc := { blk := .tbl, off := 0x000, s1 := 8, n1 := 64, id := .tblCfg, flds := [rwl 0 3, rwl 3 2, rwl 5 1, rwl 6 1, rwl 8 5, rwl 16 12] }
def tblSeed : RegDesc := { blk := .tbl, off := 0x004, s1 := 8, n1 := 64, id := .tblSeed, flds := wordF .rwl 0xFFFFFFFF }
def tblGcfg : RegDesc := { blk := .tbl, off := 0x200, flds := [rwl 0 4] }
def tblScan : RegDesc := { blk := .tbl, off := 0x204, flds := [rwl 0 16 0x012C] }
def l2Lcfg0 : RegDesc := { blk := .tbl, off := 0x208, flds := [rwlR 0 12 0x07D 1 4095, rwlR 12 4 5 2 15, rwlR 16 16 0x03E8 1 60000] }
def l2Lcfg1 : RegDesc := { blk := .tbl, off := 0x20C, flds := [rwl 0 6, rwl 6 1, rwl 8 6, rwl 14 1] }
def l2Plrn : RegDesc := { blk := .tbl, off := 0x210, n1 := 32, flds := wordF .rwl }
def tblOvf : RegDesc := { blk := .tbl, off := 0x290, n1 := 5, id := .tblOvf, flds := [fro 0 14, fro 16 14] }

-- SKN (R239)
def sknPcfg : RegDesc := { blk := .skn, off := 0x000, s1 := 16, n1 := 32, id := .sknPcfg, flds := [rwl 0 1, rwl 1 1, rwl 2 1, rwlC 4 4 0 11, rwlR 8 21 1 1 1048576] }
def sknPgrp : RegDesc := { blk := .skn, off := 0x004, s1 := 16, n1 := 32, id := .sknPgrp, flds := [rwl 0 16] }
def sknPbase : RegDesc := { blk := .skn, off := 0x008, s1 := 16, n1 := 32, id := .sknPbase, flds := [rwl 0 24] }
def sknPstat : RegDesc := { blk := .skn, off := 0x00C, s1 := 16, n1 := 32, id := .sknPstat, flds := [fro 0 21, fro 21 1] }
def sknPlow : RegDesc := { blk := .skn, off := 0x200, n1 := 32, id := .sknPlow, flds := [fro 0 21] }
def sknLowrst : RegDesc := { blk := .skn, off := 0x280, id := .sknLowrst, flds := [fwo 0 32] }
def sknEaddrLo : RegDesc := { blk := .skn, off := 0x284, id := .sknEaddrLo, flds := wordF .ro }
def sknEaddrHi : RegDesc := { blk := .skn, off := 0x288, id := .sknEaddrHi, flds := [fro 0 8, fro 8 5, fro 13 2] }

-- SEP (R170)
def sepCfg : RegDesc := { blk := .sep, off := 0, n1 := 43, flds := [rwl 0 1, rwl 1 3, rwl 4 6, rwl 10 4] }

-- HST (R320)
def hstHcfg : RegDesc := { blk := .hst, off := 0x0000, id := .hstHcfg, flds := [rwl 0 1, rwl 1 1, fwo 2 1] }
def hstCc : RegDesc := { blk := .hst, off := 0x0004, flds := [rwlR 0 4 8 4 10, rwlR 4 14 5 1 10000, rwlR 18 10 0x00A 1 1000] }
def hstJrnl : RegDesc := { blk := .hst, off := 0x0008, id := .hstJrnl, flds := [rwl 0 24] }
def hstDbkey : RegDesc := { blk := .hst, off := 0x000C, flds := wordF .rwl }
def hstLaddr : RegDesc := { blk := .hst, off := 0x0010, n1 := 4, flds := wordF .rwl }
def hstMwin0 : RegDesc := { blk := .hst, off := 0x0040, s1 := 16, n1 := 8, id := .hstMwin0, flds := [rwl 0 1, rwl 1 1, rwl 2 5] }
def hstMwin1 : RegDesc := { blk := .hst, off := 0x0044, s1 := 16, n1 := 8, flds := [rwl 0 24] }
def hstMwin2 : RegDesc := { blk := .hst, off := 0x0048, s1 := 16, n1 := 8, flds := wordF .rwl }
def hstMwin3 : RegDesc := { blk := .hst, off := 0x004C, s1 := 16, n1 := 8, flds := [] }
def hstQpctl : RegDesc := { blk := .hst, off := 0x0400, n1 := 64, id := .hstQpctl, flds := [{ lo := 0, w := 2, acc := .rw, codes := 3 }, fro 2 1] }
def hstQp0 : RegDesc := { blk := .hst, off := 0x1000, s1 := 64, n1 := 64, flds := [rwl 0 1, rwlC 1 2 2 3, rwl 3 3 7, rwlR 6 5 0x0E 8 20, rwl 11 6] }
def hstQp1 : RegDesc := { blk := .hst, off := 0x1004, s1 := 64, n1 := 64, n2 := 3, flds := [rwl 0 24] }
def hstRmac0Lo : RegDesc := { blk := .hst, off := 0x1010, s1 := 64, n1 := 64, flds := wordF .rwl }
def hstRmac0Hi : RegDesc := { blk := .hst, off := 0x1014, s1 := 64, n1 := 64, flds := [rwl 0 16] }
def hstRmac2Lo : RegDesc := { blk := .hst, off := 0x1018, s1 := 64, n1 := 64, flds := wordF .rwl }
def hstRmac2Hi : RegDesc := { blk := .hst, off := 0x101C, s1 := 64, n1 := 64, flds := [rwl 0 16] }
def hstRip : RegDesc := { blk := .hst, off := 0x1020, s1 := 64, n1 := 64, n2 := 4, flds := wordF .rwl }
def hstQpRsv : RegDesc := { blk := .hst, off := 0x1030, s1 := 64, n1 := 64, n2 := 4, flds := [] }
def hstRing0 : RegDesc := { blk := .hst, off := 0x2000, s1 := 16, n1 := 256, id := .hstRing0, flds := [frw 0 1, rwlC 1 2 0 3, rwl 3 1, rwl 4 6, rwlR 10 5 4 4 16, rwl 15 8] }
def hstRing1 : RegDesc := { blk := .hst, off := 0x2004, s1 := 16, n1 := 256, id := .hstRing1, flds := wordF .rwl }
def hstRing2 : RegDesc := { blk := .hst, off := 0x2008, s1 := 16, n1 := 256, n2 := 2, flds := wordF .rwl }
def hstRaux : RegDesc := { blk := .hst, off := 0x3000, n1 := 256, flds := [rwl 1 8, rwl 16 5 7, rwl 21 8] }

-- DOM (R47)
def domCtl : RegDesc := { blk := .dom, off := 0x00, s1 := 0x40, n1 := 16, id := .domCtl, flds := [rwl 0 1, rwl 1 1, rwl 2 1, rwl 3 1, rwlR 4 4 8 1 15] }
def domSrc : RegDesc := { blk := .dom, off := 0x04, s1 := 0x40, n1 := 16, id := .domCfg, flds := [rwl 0 3, rwl 3 11, rwl 16 3, rwl 19 11] }
def domInc : RegDesc := { blk := .dom, off := 0x08, s1 := 0x40, n1 := 16, id := .domCfg, flds := wordF .rwl }
def domSinc : RegDesc := { blk := .dom, off := 0x0C, s1 := 0x40, n1 := 16, id := .domCfg, flds := wordF .rwl }
def domPtp : RegDesc := { blk := .dom, off := 0x10, s1 := 0x40, n1 := 16, id := .domCfg, flds := [rwl 0 7, rwl 8 7] }
def domStepth : RegDesc := { blk := .dom, off := 0x14, s1 := 0x40, n1 := 16, id := .domStepth, flds := [rwlR 0 32 0x2710 1 0xFFFFFFFF] }
def domMotion : RegDesc := { blk := .dom, off := 0x18, s1 := 0x40, n1 := 16, id := .domCfg, flds := [rwl 0 16 0x0019, rwl 16 16 0x03E8] }
def domCoast : RegDesc := { blk := .dom, off := 0x1C, s1 := 0x40, n1 := 16, id := .domCfg, flds := [rwlR 0 8 0x60 1 255, rwl 8 8 0x32, rwlR 16 8 0xC8 1 255, rwlR 24 8 0x32 1 255] }
def domLimit : RegDesc := { blk := .dom, off := 0x20, s1 := 0x40, n1 := 16, id := .domLimit, flds := [rwl 0 16 0x661B, rwlR 16 16 0 0 50000] }
def domStat : RegDesc := { blk := .dom, off := 0x24, s1 := 0x40, n1 := 16, id := .domStat, flds := [fro 0 2 3, fro 2 1, fw1 3 1, fw1 4 1, fw1 5 1, fro 6 1, fro 8 4 1, fro 16 16] }
def domUnc : RegDesc := { blk := .dom, off := 0x28, s1 := 0x40, n1 := 16, id := .domUnc, flds := [fro 0 16 0xFFFF] }
def domPosLo : RegDesc := { blk := .dom, off := 0x2C, s1 := 0x40, n1 := 16, id := .domPosLo, flds := wordF .ro }
def domPosHi : RegDesc := { blk := .dom, off := 0x30, s1 := 0x40, n1 := 16, id := .domPosHi, flds := wordF .ro }
def domStepLo : RegDesc := { blk := .dom, off := 0x34, s1 := 0x40, n1 := 16, id := .domStepLo, flds := wordF .ro }
def domStepHi : RegDesc := { blk := .dom, off := 0x38, s1 := 0x40, n1 := 16, id := .domStepHi, flds := wordF .ro }
def domOvr : RegDesc := { blk := .dom, off := 0x3C, s1 := 0x40, n1 := 16, id := .domOvr, flds := wordF .ro }

-- PRT and T1S (R71)
def prtCfg : RegDesc := { blk := .prt, off := 0x0000, n1 := 1024, id := .prtCfg, flds := [rwl 0 1, rwl 1 14, rwl 15 3, rwlC 18 2 0 3, rwl 20 1, rwl 21 4] }
def prtStat : RegDesc := { blk := .prt, off := 0x1000, n1 := 1024, id := .prtStat, flds := [fro 0 2, fw1 2 1, fro 3 3, fro 6 1] }
def t1sPlca : RegDesc := { blk := .t1s, off := 0x000, n1 := 96, flds := [rwlR 0 4 8 1 8, rwlR 4 8 0x20 1 255, rwl 12 3, rwlR 16 8 0x80 1 255] }
def npCfg : RegDesc := { blk := .t1s, off := 0x200, n1 := 768, id := .npCfg, flds := [rwl 0 1, rwlC 1 2 0 3] }

-- CAN (R409) and GW (R410)
def canNbt : RegDesc := { blk := .can, off := 0x0, s1 := 16, n1 := 160, id := .canNbt, flds := [rwl 0 10, rwlR 10 8 0x7F 1 255, rwlR 18 7 0x20 1 127, rwlR 25 7 0x20 1 127] }
def canDbt : RegDesc := { blk := .can, off := 0x4, s1 := 16, n1 := 160, id := .canDbt, flds := [rwl 0 10, rwlR 10 8 0x1D 1 255, rwlR 18 7 0x0A 1 127, rwlR 25 7 0x0A 1 127] }
def canXbt : RegDesc := { blk := .can, off := 0x8, s1 := 16, n1 := 160, id := .canXbt, flds := [rwl 0 10, rwlR 10 8 0x05 1 255, rwlR 18 7 0x02 1 127, rwlR 25 7 0x02 1 127] }
def canTdc : RegDesc := { blk := .can, off := 0xC, s1 := 16, n1 := 160, flds := [rwl 0 1, rwl 1 8] }
def gwBusid : RegDesc := { blk := .gw, off := 0, n1 := 224, flds := [rwl 0 5] }
def gwAcfcfg : RegDesc := { blk := .gw, off := 0x380, flds := [rwl 0 1] }
def gwVsidLo : RegDesc := { blk := .gw, off := 0x384, flds := wordF .rwl }
def gwVsidHi : RegDesc := { blk := .gw, off := 0x388, flds := [rwl 0 16] }

-- CAR (R119)
def carQcfg : RegDesc := { blk := .car, off := 0x0000, n1 := 512, id := .carQcfg, flds := [rwl 0 1, rwlC 1 2 0 3, rwl 3 3, rwl 6 1, rwl 8 8, rwlR 16 16 0x0400 1 32768] }
def carPmap : RegDesc := { blk := .car, off := 0x1000, n1 := 4096, flds := [rwl 0 7] }
def carCls : RegDesc := { blk := .car, off := 0x5000, n1 := 128, flds := [rwl 0 4] }
def carSub : RegDesc := { blk := .car, off := 0x5200, s1 := 16, n1 := 416, n2 := 4, id := .carSub, flds := wordF .rw }
def carScfg : RegDesc := { blk := .car, off := 0x6C00, n1 := 416, flds := [rwl 0 1] }
def carBcfg : RegDesc := { blk := .car, off := 0x7400, flds := [rwlR 0 10 0x032 1 1000] }
def carSpcfg : RegDesc := { blk := .car, off := 0x7404, id := .carSpcfg, flds := [rwl 0 1, rwl 1 3, rwl 8 24] }
def carOdsel : RegDesc := { blk := .car, off := 0x7408, flds := [frw 0 14] }
def carOdstat : RegDesc := { blk := .car, off := 0x740C, id := .carOdstat, flds := [fro 0 16, fro 16 16] }
def carStat : RegDesc := { blk := .car, off := 0x7410, id := .carStat, flds := [fro 0 13, fro 16 16] }

-- NDL (R149)
def ndlShare : RegDesc := { blk := .ndl, off := 0x0000, n1 := 416, id := .ndlShare, flds := [rwl 0 6, rwlR 6 7 8 0 64] }
def ndlWin : RegDesc := { blk := .ndl, off := 0x0800, s1 := 16, n1 := 4, n2 := 4, flds := [rwl 0 1, rwl 1 1, rwl 4 12] }
def ndlXmask : RegDesc := { blk := .ndl, off := 0x0840, n1 := 4, flds := [rwl 0 16] }
def ndlTvdef : RegDesc := { blk := .ndl, off := 0x0850, n1 := 4, id := .ndlTvdef, flds := wordF .rwl 0x00200000 }
def ndlRst : RegDesc := { blk := .ndl, off := 0x0860, id := .ndlRst, flds := [{ lo := 0, w := 9, acc := .wo, mx := 415 }] }
def ndlSstat : RegDesc := { blk := .ndl, off := 0x0A00, n1 := 416, id := .ndlSstat, flds := [fro 0 2, fro 2 1] }

-- GTB (R168)
def gtbEnt : RegDesc := { blk := .gtb, off := 0x0000, s1 := 0x40, n1 := 52, n2 := 16, id := .gtbEnt, flds := wordF .rwl }
def gtbBest : RegDesc := { blk := .gtb, off := 0x0D00, n1 := 52, flds := [rwl 0 8] }
def gtbCbuf : RegDesc := { blk := .gtb, off := 0x0E00, n1 := 4, id := .gtbCbuf, flds := [rwl 0 20 0x10000] }
def gtbShl : RegDesc := { blk := .gtb, off := 0x1000, s1 := 8, n1 := 416, id := .gtbShl, flds := [rwl 0 8 2, rwl 8 8 0x10, rwl 16 1 1, rwlR 17 7 0x50 0 80, rwlR 24 8 0x80 0 128] }
def gtbShb : RegDesc := { blk := .gtb, off := 0x1004, s1 := 8, n1 := 416, id := .gtbShb, flds := [rwl 0 12, rwl 12 12 0x100, rwl 24 1 1] }

-- YRN (R169)
def yrnCfg : RegDesc := { blk := .yrn, off := 0x0000, s1 := 0x100, n1 := 4, n2 := 64, id := .yrnCfg, flds := [rwlR 0 7 0 0 103, rwl 7 1, rwlR 8 7 0 0 103, rwl 15 1, rwl 16 1, rwl 17 1] }
def yrnIcfg : RegDesc := { blk := .yrn, off := 0x0400, s1 := 0x40, n1 := 4, n2 := 16, id := .yrnIcfg, flds := [rwl 0 1, rwl 1 1, rwlR 2 7 0 0 103, rwl 9 1, rwl 10 3, rwl 13 4] }
def yrnSupv : RegDesc := { blk := .yrn, off := 0x0500, n1 := 4, id := .yrnSupv, flds := [rwlR 0 7 0 0 103] }
def yrnKnot : RegDesc := { blk := .yrn, off := 0x0510, s1 := 16, n1 := 4, n2 := 3, flds := wordF .ro }
/-- YRN_KNOT word 3: strands 96–103; [31:8] reserved. -/
def yrnKnot3 : RegDesc := { blk := .yrn, off := 0x051C, s1 := 16, n1 := 4, flds := [fro 0 8] }
def yrnKstat : RegDesc := { blk := .yrn, off := 0x0550, n1 := 4, flds := [fro 0 16] }
def yrnKwin : RegDesc := { blk := .yrn, off := 0x0560, flds := [rwlR 0 16 0x40 1 65535] }
def yrnOccC : RegDesc := { blk := .yrn, off := 0x0600, s1 := 0x100, n1 := 4, n2 := 64, id := .yrnOccC, flds := [fro 0 4, fro 4 1] }
def yrnOccI : RegDesc := { blk := .yrn, off := 0x0A00, s1 := 0x40, n1 := 4, n2 := 16, id := .yrnOccI, flds := [fro 0 4, fro 4 1] }

-- HK (R188)
def hkCfg : RegDesc := { blk := .hk, off := 0x00, n1 := 4, flds := [rwlR 0 12 0x100 16 4095] }
def hkFence : RegDesc := { blk := .hk, off := 0x10, n1 := 4, id := .hkFence, flds := [fro 0 7] }

-- FLW (R229)
def flwCfg : RegDesc := { blk := .flw, off := 0x00, id := .flwCfg, flds := [rwl 0 1, rwl 1 4, rwl 5 1] }
def flwSeed : RegDesc := { blk := .flw, off := 0x04, n1 := 3, id := .flwSeed, flds := wordF .rwl 0xFFFFFFFF }
def flwIdx : RegDesc := { blk := .flw, off := 0x10, id := .flwIdx, flds := [rwl 0 24, rwlR 24 5 0x0A 10 22] }
def flwRec : RegDesc := { blk := .flw, off := 0x14, id := .flwRec, flds := [rwl 0 24] }
def flwMir : RegDesc := { blk := .flw, off := 0x18, id := .flwMir, flds := [rwl 0 24, rwl 24 5] }
def flwMcfg : RegDesc := { blk := .flw, off := 0x1C, flds := [rwlR 0 7 0x4B 1 75] }
def flwStat : RegDesc := { blk := .flw, off := 0x20, id := .flwStat, flds := [fro 0 18, fro 18 1, fro 19 1, fro 20 12] }
def flwFree : RegDesc := { blk := .flw, off := 0x24, id := .flwFree, flds := [fro 0 25] }

-- EGR (R259)
def egrPcfg : RegDesc := { blk := .egr, off := 0x0000, n1 := 512, id := .egrPcfg, flds := [rwl 0 8 0xFF, rwl 8 4, rwl 12 8, rwl 20 1, rwl 21 2, rwl 23 1, rwl 24 1] }
def egrWgt : RegDesc := { blk := .egr, off := 0x0800, n1 := 512, id := .egrWgt, flds := wordF .rwl 0x11111111 }
def egrGrow : RegDesc := { blk := .egr, off := 0x1000, s1 := 16, n1 := 512, n2 := 4, flds := wordF .rw 0xFFFFFFFF }
def egrPsmap : RegDesc := { blk := .egr, off := 0x3000, s1 := 16, n1 := 512, n2 := 4, id := .egrPsmap, flds := [rwl 0 8, rwl 8 1, rwl 16 8, rwl 24 1] }
def egrProf : RegDesc := { blk := .egr, off := 0x5000, s1 := 32, n1 := 16, n2 := 8, id := .egrProf, flds := [rwl 0 12 8, rwl 12 3 3] }
def egrCbs0 : RegDesc := { blk := .egr, off := 0x5200, s1 := 8, n1 := 256, id := .egrCbs0, flds := [rwl 0 11, rwl 11 3, rwl 14 1] }
def egrCbs1 : RegDesc := { blk := .egr, off := 0x5204, s1 := 8, n1 := 256, id := .egrCbs1, flds := [rwl 0 27] }
def egrPsf : RegDesc := { blk := .egr, off := 0x5A00, n1 := 256, id := .egrPsf, flds := [frw 0 14 0x3FFF, frw 14 1, frw 15 6, frw 21 1, frw 22 8, frw 30 1] }
def egrMtr0 : RegDesc := { blk := .egr, off := 0x5E00, s1 := 16, n1 := 256, n2 := 2, flds := [frw 0 24, frw 24 1] }
def egrMtr2 : RegDesc := { blk := .egr, off := 0x5E08, s1 := 16, n1 := 256, flds := [frw 0 16 0x40, frw 16 16 0x40] }
def egrMtr3 : RegDesc := { blk := .egr, off := 0x5E0C, s1 := 16, n1 := 256, flds := [] }
def egrFrer0 : RegDesc := { blk := .egr, off := 0x6E00, s1 := 8, n1 := 256, id := .egrFrer0, flds := [rwl 0 11, rwl 11 3, rwl 14 1, rwl 15 1, rwl 16 1, rwl 17 1, rwl 18 11] }
def egrFrer1 : RegDesc := { blk := .egr, off := 0x6E04, s1 := 8, n1 := 256, id := .egrFrer1, flds := [rwl 0 5 0x1F, rwlR 5 11 0x064 1 2047] }
def egrMirt : RegDesc := { blk := .egr, off := 0x7600, n1 := 16, id := .egrMirt, flds := [rwlR 0 11 0 0 1023, rwl 11 3, rwl 14 1, rwl 15 1] }
def egrSgate : RegDesc := { blk := .egr, off := 0x7640, n1 := 2, flds := wordF .rw 0xFFFFFFFF }
def egrBuf : RegDesc := { blk := .egr, off := 0x7648, id := .egrBuf, flds := [rwl 0 17 0x4000] }
def egrBstat : RegDesc := { blk := .egr, off := 0x764C, id := .egrBstat, flds := [fro 0 17] }
def egrFab : RegDesc := { blk := .egr, off := 0x7650, flds := [rwlR 0 10 0x00A 1 1023] }

-- TIO (R283)
def tioPcfg : RegDesc := { blk := .tio, off := 0x0000, n1 := 128, id := .tioPcfg, flds := [rwl 0 3, rwlC 3 2 2 3, rwl 5 2, rwl 7 10, rwl 17 4, rwl 21 4, rwl 25 1] }
def tioPown : RegDesc := { blk := .tio, off := 0x0200, n1 := 128, flds := [rwlR 0 9 0 0 415, rwl 9 1, rwl 10 1] }
def tioPstat : RegDesc := { blk := .tio, off := 0x0400, n1 := 128, id := .tioPstat, flds := [fro 0 1, fro 1 2 2, fw1 3 1, fw1 4 1, fw1 5 1, fro 6 3] }
def tioPwm : RegDesc := { blk := .tio, off := 0x0600, n1 := 64, flds := [rwl 0 12, rwl 12 1] }
def tioScfg0 : RegDesc := { blk := .tio, off := 0x0700, s1 := 8, n1 := 16, id := .tioScfg0, flds := [rwl 0 1, rwl 1 4, rwl 5 1, rwl 6 10, rwl 16 16] }
def tioScfg1 : RegDesc := { blk := .tio, off := 0x0704, s1 := 8, n1 := 16, id := .tioScfg1, flds := [rwl 0 24, rwl 24 4] }
def tioSent : RegDesc := { blk := .tio, off := 0x0780, n1 := 16, flds := [rwl 0 7, rwl 7 1, rwlR 8 10 0x01E 30 900, rwlR 18 3 6 1 6, rwl 21 1, rwl 22 1, rwl 23 4] }
def tioQcfg : RegDesc := { blk := .tio, off := 0x07C0, n1 := 4, id := .tioQcfg, flds := [rwl 0 1, rwlR 1 7 0 0 125, rwl 8 1, rwl 9 1] }
def tioAcfg : RegDesc := { blk := .tio, off := 0x07D0, n1 := 2, flds := [rwl 0 1, rwl 1 14 0x0400] }
def tioSdm : RegDesc := { blk := .tio, off := 0x07D8, n1 := 4, flds := [rwl 0 1, rwl 1 1, rwlR 2 5 8 8 31, rwl 7 1, rwlR 8 8 0x3F 15 255, rwl 16 4, rwl 20 4] }
def tioCcyc : RegDesc := { blk := .tio, off := 0x07E8, id := .tioCcyc, flds := [rwl 0 1, rwl 1 4, rwlR 5 20 0x3E8 100 1000000] }
def tioCsch : RegDesc := { blk := .tio, off := 0x0800, n1 := 256, id := .tioCsch, flds := [rwlR 0 7 0 0 79, rwl 7 3, rwl 10 1, rwl 11 20] }
def tioLsch : RegDesc := { blk := .tio, off := 0x0C00, n1 := 512, id := .tioLsch, flds := [rwl 0 6, rwl 6 1, rwlR 8 8 0x0A 1 255] }
def tioLport : RegDesc := { blk := .tio, off := 0x1400, n1 := 32, id := .tioLport, flds := [rwl 0 1, rwl 1 4, rwl 5 9, rwlR 14 7 1 1 64] }

-- DRM (R299)
def drmMap : RegDesc := { blk := .drm, off := 0x000, id := .drmMap, flds := [rwlC 0 2 1 3, rwlR 2 4 4 0 8, rwlC 6 3 2 5] }
def drmMsz : RegDesc := { blk := .drm, off := 0x004, id := .drmMsz, flds := [rwl 0 8, rwl 8 8] }
def drmQosCap : RegDesc := { blk := .drm, off := 0x02C, id := .drmQosWm, flds := [rwl 0 10 64, rwl 10 10 16] }
def drmQosSched : RegDesc := { blk := .drm, off := 0x030, id := .drmQosWm, flds := [rwl 0 10 256, rwl 10 10 64] }
def drmRh : RegDesc := { blk := .drm, off := 0x040, flds := [rwl 0 1 1, rwlR 1 4 0xA 6 14, rwl 5 1] }
def drmTrn : RegDesc := { blk := .drm, off := 0x044, flds := [rwlR 0 8 0x64 1 255, rwlR 8 4 5 1 15] }
def drmCstat : RegDesc := { blk := .drm, off := 0x050, n1 := 4, id := .drmCstat, flds := [fro 0 2 1, fro 2 1, fro 3 4] }
def drmMstat : RegDesc := { blk := .drm, off := 0x060, id := .drmMstat, flds := [fro 0 1, fro 1 1] }

-- FLT (R377)
def fltCfg : RegDesc := { blk := .flt, off := 0x00, flds := [rwl 0 4, rwl 4 1, rwl 5 1 1] }
def fltSlot : RegDesc := { blk := .flt, off := 0x04, n1 := 5, id := .fltSlot, flds := [fro 0 3, fro 3 1, fro 4 1, fro 5 6, fro 12 12, fro 24 4] }
def fltQueue : RegDesc := { blk := .flt, off := 0x18, id := .fltQueue, flds := [fro 0 6] }
def fltSpare0 : RegDesc := { blk := .flt, off := 0x1C, id := .fltSpare0, flds := [fro 0 3 4, fro 4 8 0xFF, fro 12 2 3] }
def fltSpare1 : RegDesc := { blk := .flt, off := 0x20, id := .fltSpare1, flds := wordF .ro }

-- SWT (R386)
def swtCfg : RegDesc := { blk := .swt, off := 0x0000, flds := [rwl 0 1 1, rwlR 1 12 0x03C 10 3600, rwlR 13 8 0x18 1 255] }
def swtStat : RegDesc := { blk := .swt, off := 0x0004, id := .swtStat, flds := [fro 0 1, fro 1 9, fro 10 22] }
def swtExt : RegDesc := { blk := .swt, off := 0x0008, id := .swtExt, flds := [fwo 0 1] }
def swtRes : RegDesc := { blk := .swt, off := 0x4000, s1 := 32, n1 := 512, n2 := 8, id := .swtRes, flds := wordF .ro }

/-- DRM_QOS of requestor port `n` 0–6 (R299; its reset values are those of R289). -/
def drmQos (n rst : Nat) : RegDesc :=
  { blk := .drm, off := 0x010 + 4 * n, flds := [rwlR 0 12 rst 1 4095] }


/-- The rows of each block's register table. -/
def rows : Blk → List RegDesc
  | .sv => [serr .sv, svOwn0, svOwn1, svOwn2, svOwn3, svAttn, svAen, svPage]
  | .mod => [serr .mod, modStat, modCmd, modBoot, modWake, modWpin, modWcause, modSurv]
  | .sec => [serr .sec, secId, secChal, secTokctl, secTokstat, secArbadv, secArb]
  | .svc => [serr .svc, svcCtr]
  | .rcd => [serr .rcd, recCfg, recStat, recSeqLo, recSeqHi, recLost, recLostf, recFlush, recFsel, recFstat, recStg, recFbuf, recMon, recRing]
  | .chr => [serr .chr, chrVstat, chrVcommit, chrVabort, chrDrain, chrWin]
  | .tbl => [serr .tbl, tblCfg, tblSeed, tblGcfg, tblScan, l2Lcfg0, l2Lcfg1, l2Plrn, tblOvf]
  | .skn => [serr .skn, sknPcfg, sknPgrp, sknPbase, sknPstat, sknPlow, sknLowrst, sknEaddrLo, sknEaddrHi]
  | .sep => [serr .sep, sepCfg]
  | .hst => [serr .hst, hstHcfg, hstCc, hstJrnl, hstDbkey, hstLaddr, hstMwin0, hstMwin1, hstMwin2, hstMwin3, hstQpctl, hstQp0, hstQp1, hstRmac0Lo, hstRmac0Hi, hstRmac2Lo, hstRmac2Hi, hstRip, hstQpRsv, hstRing0, hstRing1, hstRing2, hstRaux]
  | .dom => [serr .dom, domCtl, domSrc, domInc, domSinc, domPtp, domStepth, domMotion, domCoast, domLimit, domStat, domUnc, domPosLo, domPosHi, domStepLo, domStepHi, domOvr]
  | .prt => [serr .prt, prtCfg, prtStat]
  | .t1s => [serr .t1s, t1sPlca, npCfg]
  | .can => [serr .can, canNbt, canDbt, canXbt, canTdc]
  | .gw => [serr .gw, gwBusid, gwAcfcfg, gwVsidLo, gwVsidHi]
  | .car => [serr .car, carQcfg, carPmap, carCls, carSub, carScfg, carBcfg, carSpcfg, carOdsel, carOdstat, carStat]
  | .ndl => [serr .ndl, ndlShare, ndlWin, ndlXmask, ndlTvdef, ndlRst, ndlSstat]
  | .gtb => [serr .gtb, gtbEnt, gtbBest, gtbCbuf, gtbShl, gtbShb]
  | .yrn => [serr .yrn, yrnCfg, yrnIcfg, yrnSupv, yrnKnot, yrnKnot3, yrnKstat, yrnKwin, yrnOccC, yrnOccI]
  | .hk => [serr .hk, hkCfg, hkFence]
  | .flw => [serr .flw, flwCfg, flwSeed, flwIdx, flwRec, flwMir, flwMcfg, flwStat, flwFree]
  | .egr => [serr .egr, egrPcfg, egrWgt, egrGrow, egrPsmap, egrProf, egrCbs0, egrCbs1, egrPsf, egrMtr0, egrMtr2, egrMtr3, egrFrer0, egrFrer1, egrMirt, egrSgate, egrBuf, egrBstat, egrFab]
  | .tio => [serr .tio, tioPcfg, tioPown, tioPstat, tioPwm, tioScfg0, tioScfg1, tioSent, tioQcfg, tioAcfg, tioSdm, tioCcyc, tioCsch, tioLsch, tioLport]
  | .drm => [serr .drm, drmMap, drmMsz, drmQosCap, drmQosSched, drmRh, drmTrn, drmCstat, drmMstat, drmQos 0 32, drmQos 1 128, drmQos 2 128, drmQos 3 64, drmQos 4 256, drmQos 5 32, drmQos 6 1024]
  | .flt => [serr .flt, fltCfg, fltSlot, fltQueue, fltSpare0, fltSpare1]
  | .swt => [serr .swt, swtCfg, swtStat, swtExt, swtRes]

end R

/-- A register word found at an address: its row, its panel and its place in the row. -/
structure RegRef where
  desc : RegDesc
  panel : Nat
  i : Nat
  j : Nat

/-- The block and panel whose extent holds address `a`, with the byte offset (R401, R403). -/
def blockAt (a : Nat) : Option (Blk × Nat × Nat) :=
  (Blk.all.findSome? fun b =>
    if b.addr 0 0 ≤ a && a < b.addr 0 0 + b.extent then some (b, 0, a - b.addr 0 0)
    else if b.space = .panel && b.addr 1 0 ≤ a && a < b.addr 1 0 + b.extent then some (b, 1, a - b.addr 1 0)
    else none)

/-- The register word of a block at byte offset `o`, if a register occupies it (R402). -/
def wordAt (b : Blk) (p o : Nat) : Option RegRef :=
  (R.rows b).findSome? fun d => (d.locate o).map fun ij => { desc := d, panel := p, i := ij.1, j := ij.2 }

/-- The register word at an address. -/
def regAt (a : Nat) : Option RegRef :=
  (blockAt a).bind fun x => wordAt x.1 x.2.1 x.2.2

end Sys2Proof.Machine
end

