-- ==== Sys2Proof/Machine/State.lean ====
section
/-! DEFINITION. The state of the block: every register, table, queue, buffer, mode and pin the spec gives it, as plain
data, with the queue of waiting commands; the faults and refusals; and the state right after reset. -/

namespace Sys2Proof.Machine

/-- Where a message of a QP goes: the QP and its first PSN, the port that serves it, and the peer's address there (R302, R305). -/
structure Wire where
  qp : Nat
  psn : Nat
  port : Nat
  mac : Nat
  deriving DecidableEq, Repr

/-- What the block puts out, in order (the model's own record of its outputs; log entry 4). -/
inductive Output where
  | frame (port tc : Nat) (bytes : List Byte)                 -- a frame transmitted on an external port
  | canFrame (port : Nat) (bytes : List Byte)                 -- an envelope sent on a CAN bus
  | linHeader (port fid : Nat)
  | linResponse (port fid : Nat) (bytes : List Byte)
  | rdmaWrite (wire : Wire) (rkey : Word) (va : Nat) (bytes : List Byte)
  | rdmaRead (wire : Wire) (rkey : Word) (va len : Nat)
  | rdmaResp (wire : Wire) (bytes : List Byte)
  | rdmaNak (wire : Wire) (code : Nat)
  | rdmaAck (wire : Wire)
  | cnp (wire : Wire)
  | send (wire : Wire) (imm : Nat) (bytes : List Byte)
  | selvage (words : List Word)                               -- a Selvage response: header, payload, CRC
  | debug (code : Nat) (val : Word)                           -- a debug result (R166)
  | panelDown                                                -- the debug transport: PANEL_DOWN (R326)
  | raf (dst : List Byte) (bytes : List Byte)                  -- a RAF response: destination address, payload
  deriving DecidableEq, Repr

/-- The state of the block. -/
structure State where
  part : Part := .ag2                 -- which of the two orderable parts this is (R1)
  now : Nat := 0                      -- time in units of 1/1200 ns
  pending : List Instr := []          -- the commands that wait, first in first out
  fresh : Nat := 0                    -- the model's own counter of free values used (log entry 3)
  out : List Output := []             -- outputs, newest first
  regs : SMap Word := []              -- register words by address, where they differ from their reset value
  ctrs : SMap Word := []              -- statistics counters of R411
  md : ModeState := {}
  doms : SMap DomCopy := []           -- panel × 16 + domain
  evs : List Ev := []                 -- pending events, in the order in which they were accepted
  evDone : SMap (List EvDone) := []   -- strand: completion queue
  tio : TioState := {}
  odoms : SMap Odom := []             -- panel × 16384 + ordering domain
  car : CarState := {}
  lls : SMap Lifeline := []           -- panel × 4096 + LLID
  strands : SMap Strand := []         -- device-wide strand index
  yrn : YrnState := {}
  flwA : FlwPanel := {}
  flwB : FlwPanel := {}
  skn : SknState := {}
  mem : MemState := {}
  flt : FltState := {}
  drm : DrmState := {}
  rcd : RecState := {}
  chr : ChrState := {}
  tbl : TblState := {}
  sec : SecState := {}
  sv : SvState := {}
  swa : SwaState := {}
  flash : List Host.Cell := []        -- the xSPI flash outside the Row Counter partition
  swt : SwtState := {}
  hst : HstState := {}
  deriving DecidableEq, Repr

/-- Reasons for which the machine stops. The model has none: every command the spec describes ends in a next state
(an erroneous one is discarded, dropped, refused or trapped, and counted, as the spec says). `ill` is raised by no
meaning; it keeps the type a closed inductive with a name. -/
inductive Fault where
  /-- Raised by no command. Safe. -/
  | ill
  deriving DecidableEq, Repr

/-- Reasons for which a command has no meaning. -/
inductive Refusal where
  /-- The command is not modelled. Raised by an arm of Dispatch.lean only. Safe. -/
  | notModelled (mnemonic : String)
  deriving DecidableEq, Repr

/-- The machine right after reset: power-on reset of the AON domain, in BOOT, no panel started, every register at the
value the register table gives it. -/
def State.reset : State := {}

end Sys2Proof.Machine
end

