-- ==== Sys2Proof/Machine/Ops.lean ====
section
/-! DEFINITION. The named operations over the state that every family of commands shares: time, registers, counters,
free values, panels and modes, strands and their registers, lifelines, the packet window and the lifeline view, and
taking a trap (R143) with the return from it (R146). -/

namespace Sys2Proof.Machine

-- ---------------------------------------------------------------------------------------------------------- time

/-- Time units in a nanosecond. -/
def nsU : Nat := 1200
/-- Time units in a microsecond. -/
def usU : Nat := 1200000
/-- Time units in a millisecond. -/
def msU : Nat := 1200000000
/-- Time units in a second. -/
def secU : Nat := 1200000000000
/-- Time units in a 10 ns unit of the panel timeout count (R101). -/
def tickU : Nat := 12000

/-- Time units in a needle cycle: 0.625 ns on AG2, 4/3 of that on AG1 (R1, R16). -/
def cycleU (p : Part) : Nat := match p with | .ag2 => 750 | .ag1 => 1000

/-- The panel timeout count of R101, in 10 ns units modulo 2^32. -/
def State.tcount (s : State) : Nat := (s.now / tickU) % 4294967296

-- ------------------------------------------------------------------------------------------------ free values

/-- Take a free number (log entry 3): the value and the state with the counter advanced. -/
def State.freeN (s : State) : Nat × State := (Config.freeNat s.fresh, { s with fresh := s.fresh + 1 })

/-- Take a free word. -/
def State.freeW (s : State) : Word × State := (Config.freeWord s.fresh, { s with fresh := s.fresh + 1 })

/-- Take a free Boolean. -/
def State.freeB (s : State) : Bool × State := (Config.freeBool s.fresh, { s with fresh := s.fresh + 1 })

/-- Put something out. -/
def State.emit (s : State) (o : Output) : State := { s with out := o :: s.out }

-- -------------------------------------------------------------------------------------------- registers, counters

/-- The value of word `(i, j)` of a register on panel `p`. -/
def State.rd (s : State) (d : RegDesc) (p i : Nat) (j : Nat := 0) : Word :=
  (SMap.find s.regs (d.addr p i j)).getD (d.rst p i j)

/-- Bits `[lo + w - 1 : lo]` of a register word. -/
def State.rf (s : State) (d : RegDesc) (p i lo w : Nat) (j : Nat := 0) : Nat := bits (s.rd d p i j).toNat lo w

/-- Bit `lo` of a register word. -/
def State.rb (s : State) (d : RegDesc) (p i lo : Nat) (j : Nat := 0) : Bool := bit (s.rd d p i j).toNat lo

/-- The block itself sets word `(i, j)` of a register. -/
def State.setRd (s : State) (d : RegDesc) (p i j : Nat) (v : Word) : State :=
  { s with regs := SMap.set s.regs (d.rst p i j) (d.addr p i j) v }

/-- Key of a counter of R411. -/
def ctrKey (set inst n : Nat) : Nat := (set * 16384 + inst) * 64 + n

/-- The value of a counter. -/
def State.ctr (s : State) (set inst n : Nat) : Word := SMap.get s.ctrs 0#32 (ctrKey set inst n)

/-- Count one event: every counter is 32-bit and saturating (R411). -/
def State.count (s : State) (set inst n : Nat) : State :=
  let v := (s.ctr set inst n).toNat
  { s with ctrs := SMap.set s.ctrs 0#32 (ctrKey set inst n) (w32 (min (v + 1) 0xFFFFFFFF)) }

/-- Count one event `k` times. -/
def State.countN (s : State) (set inst n k : Nat) : State :=
  let v := (s.ctr set inst n).toNat
  { s with ctrs := SMap.set s.ctrs 0#32 (ctrKey set inst n) (w32 (min (v + k) 0xFFFFFFFF)) }

/-- Count on the PANEL set (0x0003). -/
def State.countP (s : State) (panel n : Nat) : State := s.count 3 panel n

/-- Count on the PORT set (0x0002). -/
def State.countPort (s : State) (port n : Nat) : State := s.count 2 port n

-- -------------------------------------------------------------------------------------------------- panels, modes

/-- The panel's own state. -/
def State.pan (s : State) (p : Nat) : PanelState := if p = 0 then s.md.a else s.md.b

/-- Replace a panel's own state. -/
def State.setPan (s : State) (p : Nat) (x : PanelState) : State :=
  if p = 0 then { s with md := { s.md with a := x } } else { s with md := { s.md with b := x } }

/-- Is the panel in service (MOD_STAT.PA_UP, PB_UP)? -/
def State.up (s : State) (p : Nat) : Bool := decide ((s.pan p).phase = .up)

/-- Is the panel powered and out of reset (R405)? -/
def State.reachable (s : State) (p : Nat) : Bool :=
  decide ((s.pan p).phase = .up) || decide ((s.pan p).phase = .booting)

/-- Packet service runs (R20): RUN, DEGRADED or LIMP. -/
def State.inService (s : State) : Bool :=
  decide (s.md.mode = .run) || decide (s.md.mode = .degraded) || decide (s.md.mode = .limp)

/-- Are both panels in service and the bridge joined? -/
def State.joined (s : State) : Bool := s.md.bridge && s.up 0 && s.up 1

/-- Can panel `p` reach the resources of panel `q` (R12)? -/
def State.reach (s : State) (p q : Nat) : Bool := s.up q && (decide (p = q) || s.md.bridge)

/-- Does what strand `t` wants on panel `p` lie over a bridge that has failed (R12)? -/
def State.overBridge (s : State) (t p : Nat) : Bool := decide (t / 416 ≠ p) && s.up p && !s.md.bridge

/-- Key of a unit (R359). -/
def unitKey (panel unit index : Nat) : Nat := (panel * 64 + unit) * 4096 + index

/-- Is the unit fenced? -/
def State.isFenced (s : State) (panel unit index : Nat) : Bool := SMap.get s.flt.fenced false (unitKey panel unit index)

/-- The flow state of a panel. -/
def State.flw (s : State) (p : Nat) : FlwPanel := if p = 0 then s.flwA else s.flwB

/-- Replace the flow state of a panel. -/
def State.setFlw (s : State) (p : Nat) (f : FlwPanel) : State :=
  if p = 0 then { s with flwA := f } else { s with flwB := f }

-- --------------------------------------------------------------------------------------------------------- strands

/-- Course of a strand. -/
def courseOf (t : Nat) : Nat := t / 104
/-- Panel of a strand. -/
def panelOf (t : Nat) : Nat := t / 416
/-- Strand index k within the panel (R119). -/
def kOf (t : Nat) : Nat := t % 416
/-- Strand index i within the course. -/
def iOf (t : Nat) : Nat := t % 104
/-- Needle of a strand within the device, course × 13 + needle. -/
def needleOf (t : Nat) : Nat := t / 8
/-- Panel of a course. -/
def coursePanel (c : Nat) : Nat := c / 4

/-- A strand. -/
def State.strand (s : State) (t : Nat) : Strand := SMap.get s.strands {} t

/-- Replace a strand. -/
def State.setStrand (s : State) (t : Nat) (x : Strand) : State := { s with strands := SMap.set s.strands {} t x }

/-- The bank in use, or the bank named. -/
def Strand.bk (x : Strand) (b : Bool) : Bank := if b then x.bank1 else x.bank0

/-- Replace a bank. -/
def Strand.setBk (x : Strand) (b : Bool) (y : Bank) : Strand :=
  if b then { x with bank1 := y } else { x with bank0 := y }

/-- The running bank. -/
def Strand.cur (x : Strand) : Bank := x.bk x.inB1

/-- Replace the running bank. -/
def Strand.setCur (x : Strand) (y : Bank) : Strand := x.setBk x.inB1 y

/-- The running bank of strand `t`. -/
def State.bank (s : State) (t : Nat) : Bank := (s.strand t).cur

/-- Replace the running bank of strand `t`. -/
def State.setBank (s : State) (t : Nat) (y : Bank) : State := s.setStrand t ((s.strand t).setCur y)

/-- Read general register `r` of a bank: g0 reads zero (R121). -/
def Bank.rg (b : Bank) (r : Nat) : Word := if r = 0 then 0#32 else SMap.get b.g 0#32 r

/-- Write general register `r` of a bank: a write of g0 is discarded (R121). -/
def Bank.wg (b : Bank) (r : Nat) (v : Word) : Bank := if r = 0 then b else { b with g := SMap.set b.g 0#32 r v }

/-- Read predicate `p` of a bank: p0 reads 1 (R121). -/
def Bank.rp (b : Bank) (p : Nat) : Bool := if p = 0 then true else b.pred.getLsbD p

/-- Write predicate `p` of a bank: a write of p0 is discarded (R121). -/
def Bank.wp (b : Bank) (p : Nat) (v : Bool) : Bank :=
  if p = 0 then b else { b with pred := BitVec.ofNat 8 (setBit b.pred.toNat p v) }

/-- Read hook register `r` of a bank, the speculative copy (R172). -/
def Bank.rh (b : Bank) (r : Nat) : HWord := SMap.get b.h 0#128 r

/-- Write hook register `r` of a bank. Between commands no instruction is short of writeback, so the value is
committed with it (R172). -/
def Bank.wh (b : Bank) (r : Nat) (v : HWord) : Bank :=
  { b with h := SMap.set b.h 0#128 r v, hc := SMap.set b.hc 0#128 r v }

/-- Lane `l` of a hook register value (R135). -/
def hlane (v : HWord) (l : Nat) : Word := BitVec.ofNat 32 (bits v.toNat (32 * l) 32)

/-- A hook register value with lane `l` replaced. -/
def setLane (v : HWord) (l : Nat) (x : Word) : HWord := BitVec.ofNat 128 (setBits v.toNat (32 * l) 32 x.toNat)

/-- A hook register value from its four lanes. -/
def mkLanes (a b c d : Nat) : HWord :=
  BitVec.ofNat 128 (a % 2 ^ 32 + (b % 2 ^ 32) * 2 ^ 32 + (c % 2 ^ 32) * 2 ^ 64 + (d % 2 ^ 32) * 2 ^ 96)

/-- The 16 bytes of a hook register value, byte 0 first (R172). -/
def hbytes (v : HWord) : List Byte := leBytes 16 v.toNat

/-- A hook register value from bytes. -/
def ofHbytes (bs : List Byte) : HWord := BitVec.ofNat 128 (leVal (bs.take 16))

/-- The strand's course, as its supervisor register names it (R163). -/
def State.supv (s : State) (c : Nat) : Nat := c * 104 + s.rf R.yrnSupv (coursePanel c) (c % 4) 0 7

/-- Is the strand its course's supervisor? -/
def State.isSupv (s : State) (t : Nat) : Bool := decide (s.supv (courseOf t) = t)

/-- Is the strand best-effort in its gauge table (R151)? -/
def State.isBest (s : State) (t : Nat) : Bool := s.rb R.gtbBest (panelOf t) (needleOf t % 52) (t % 8)

/-- Lane-slots strand `t` owns in a round of its needle's gauge table (R150). -/
def State.weight (s : State) (t : Nat) : Nat :=
  ((List.range 16).map fun m =>
    let w := (s.rd R.gtbEnt (panelOf t) (needleOf t % 52) m).toNat
    ((List.range 8).filter fun l => decide (bits w (4 * l) 4 = 8 + t % 8)).length).foldl (· + ·) 0

/-- Is the strand's needle fenced with no spare in its place (R360)? -/
def State.needleFenced (s : State) (t : Nat) : Bool := s.isFenced (panelOf t) 1 (needleOf t)

/-- Does the strand issue nothing: its needle is fenced, is the course's spare position (needle 12, R373), or its strands are
on their way to another position (R362)? -/
def State.needleIdle (s : State) (t : Nat) : Bool :=
  s.needleFenced t || decide (needleOf t % 13 = 12) || SMap.get s.flt.moving false (needleOf t)

/-- Is the strand lost to its pins (R261)? -/
def State.ownerLost (s : State) (t : Nat) : Bool :=
  decide ((s.strand t).halt = .instr) || decide ((s.strand t).halt = .double) || s.needleFenced t || !s.up (panelOf t)

/-- The status register of a bank (R142). -/
def State.statusW (s : State) (t : Nat) (b : Bool) : Word :=
  let x := s.strand t
  let y := x.bk b
  w32 (b2n y.exl + 2 * b2n x.inB1 + 4 * b2n (x.inB1 && x.bank0.hasItem) + 8 * b2n y.hasItem
    + 16 * b2n (s.isSupv t) + 32 * b2n x.knotp + 64 * b2n (s.isBest t))

-- ---------------------------------------------------------------------------------------------------- lifelines

/-- A lifeline by key (panel × 4096 + LLID). -/
def State.ll (s : State) (k : Nat) : Lifeline := SMap.get s.lls {} k

/-- Replace a lifeline. -/
def State.setLl (s : State) (k : Nat) (l : Lifeline) : State := { s with lls := SMap.set s.lls {} k l }

/-- State codes of R112. -/
def LlState.code : LlState → Nat
  | .free => 0 | .running => 1 | .done => 2 | .committing => 3 | .queued => 4 | .recirc => 5 | .timedOut => 6

/-- Item kind codes of R100. -/
def ItemKind.code : ItemKind → Nat
  | .frame => 0 | .wake => 1 | .host => 2

/-- The eight words of a work item (R100). -/
def WorkItem.words (w : WorkItem) : List Word :=
  [ w32 (w.kind.code + 8 * b2n w.replay + (w.list % 1024) * 2 ^ 8 + (w.attempt % 4) * 2 ^ 18 + (w.pass % 4) * 2 ^ 20),
    w32 (w.marker % 65536 + (w.odom % 16384) * 2 ^ 16 + b2n w.ord * 2 ^ 30),
    w32 w.buf,
    w32 ((w.buf / 2 ^ 32) % 256 + (w.length % 16384) * 2 ^ 8),
    w32 (w.vgen % 65536 + (w.ingress % 2048) * 2 ^ 16),
    w32 w.caston,
    w32 (match w.ll with
      | some k => k % 4096 + 4096 + (w.panel % 2) * 8192
      | none => (w.panel % 2) * 8192),
    w32 w.arg ]

/-- Stage-log operation codes of R111. -/
def StOp.code : StOp → Nat
  | .add => 1 | .set => 2 | .cas => 3 | .insert => 4 | .delete => 5 | .bufFree => 6

/-- The 16 bytes of a read-set entry (R110). -/
def RsEntry.bytes (e : RsEntry) : List Byte :=
  leBytes 4 (e.ridx % 2 ^ 25) ++ leBytes 4 e.ver ++
  leBytes 4 (1 + 2 * (e.home % 2) + 4 * b2n e.absent + 8 * b2n e.lock) ++ leBytes 4 0

/-- The 32 bytes of a stage-log entry (R111). -/
def StEntry.bytes (e : StEntry) : List Byte :=
  leBytes 4 (e.op.code + 16 + 32 * b2n e.done + (e.rsi % 16) * 2 ^ 8 + (e.off % 128) * 2 ^ 16 + (e.width % 8) * 2 ^ 24) ++
  leBytes 8 (e.target % 2 ^ 40) ++ leBytes 4 0 ++ leBytes 16 e.operand

/-- The 64-byte header of a lifeline (R109). -/
def Lifeline.header (l : Lifeline) (k : Nat) : List Byte :=
  let w := l.item
  leBytes 4 (k % 4096 + (k / 4096) * 4096 + l.state.code * 2 ^ 16 + (w.attempt % 4) * 2 ^ 20 + w.kind.code * 2 ^ 24) ++
  leBytes 4 (w.marker % 65536 + (w.odom % 16384) * 2 ^ 16 + b2n w.ord * 2 ^ 30) ++
  leBytes 4 (w.list % 1024) ++
  leBytes 4 (l.lastStrand % 8 + ((l.lastStrand % 104) / 8) * 8 + courseOf l.lastStrand * 128 + b2n l.strand.isSome * 1024) ++
  leBytes 4 w.buf ++ leBytes 4 ((w.buf / 2 ^ 32) % 256 + (l.frame.length % 16384) * 2 ^ 8) ++
  leBytes 4 w.caston ++ leBytes 16 w.stamp.toNat ++
  leBytes 4 (l.rs.length % 16 + (l.log.length % 32) * 2 ^ 8 + (l.frogRsi % 16) * 2 ^ 16) ++
  leBytes 4 (b2n l.serial + 2 * b2n l.replay) ++ leBytes 12 0

/-- The 1,024 bytes of a lifeline (R109). -/
def Lifeline.bytes (l : Lifeline) (k : Nat) : List Byte :=
  l.header k ++ sliceZ l.keyArea 0 128 ++ sliceZ l.layers 0 64 ++ leBytes 8 l.action ++ sliceZ l.egr 0 8 ++
  sliceZ l.fmeta 0 48 ++ sliceZ (l.rs.flatMap RsEntry.bytes) 0 192 ++ sliceZ (l.log.flatMap StEntry.bytes) 0 512

/-- The lifeline of the running bank's item, if the strand holds one that has not timed out. -/
def State.liveLl (s : State) (t : Nat) : Option Nat :=
  (s.bank t).item.bind fun k => if (s.ll k).state = .timedOut then none else some k

-- -------------------------------------------------------------------------------------------------------- traps

/-- The trap causes of R143, in their order of ecause codes. -/
inductive TCause where
  | emu | align | access | brk | watch | knot
  deriving DecidableEq, Repr

/-- ecause code of a trap (R144). -/
def TCause.code : TCause → Nat
  | .emu => 1 | .align => 2 | .access => 3 | .brk => 4 | .watch => 5 | .knot => 6

/-- Vector of a trap (R143). -/
def TCause.vector : TCause → Nat
  | .emu => 0x000 | .align => 0x040 | .access => 0x080 | .brk => 0x0C0 | .watch => 0x100 | .knot => 0x140

/-- The strand leaves its yarn wait and its wait at decode as it stops or traps. A wait for earlier accesses goes on: an AMO and a
YSEND order what follows them, whatever it is (R132). -/
def Strand.unwait (x : Strand) : Strand := { x with block := none, busy := none }

/-- Has every earlier access of the strand completed, those of both banks (R132)? -/
def Strand.quiet (x : Strand) : Bool := x.bank0.pend.isEmpty && x.bank1.pend.isEmpty && x.dram.isNone

/-- The strand stops, at rest since `since`; its pins are handled by the callers. -/
def Strand.haltAs (x : Strand) (h : Halt) (since : Nat) : Strand := { x.unwait with halt := h, restAt := since }

/-- A squash (R143, R174): every instruction older than the trapping one has completed, and no younger one was
issued, so the speculative copies fall back to the committed ones. -/
def Bank.squash (b : Bank) : Bank := { b with h := b.hc, crypto := b.cryptoC }

/-- Take a trap on strand `t` with EXL = 0 (R143): epc, einfo, eaddr and ecause are saved, EXL is set and the pc
goes to the vector. -/
def State.enterTrap (s : State) (t : Nat) (c : TCause) (detail hookinfo : Nat) (info addr resume : Word) : State :=
  let x := (s.strand t).unwait
  let b := x.cur.squash
  s.setStrand t (x.setCur { b with
    epc := resume, einfo := info, eaddr := addr,
    ecause := w32 (c.code + detail * 2 ^ 8 + hookinfo * 2 ^ 16),
    exl := true, watchExempt := false,
    pc := x.tvbase + w32 c.vector })

end Sys2Proof.Machine
end

