-- ==== Sys2Proof/Machine/YarnCfg.lean ====
section
/-! DEFINITION. How yarns are configured (R158, R160, R169), and whether a strand is at rest for the knot detector (R164). -/

namespace Sys2Proof.Machine

/-- YRN_CFG of course yarn `y`. -/
def State.yCfg (s : State) (c y : Nat) : Nat := (s.rd R.yrnCfg (coursePanel c) (c % 4) y).toNat
/-- YRN_ICFG of slot `j`. -/
def State.iCfg (s : State) (c j : Nat) : Nat := (s.rd R.yrnIcfg (coursePanel c) (c % 4) j).toNat

/-- The peer of an inter-course slot with which it forms a link (R160). -/
def State.link (s : State) (c j : Nat) : Option (Nat × Nat) :=
  let v := s.iCfg c j
  let d := bits v 10 3
  let k := bits v 13 4
  let u := s.iCfg d k
  if bit v 0 && bit u 0 && (bit v 1 != bit u 1) && decide (bits u 10 3 = c) && decide (bits u 13 4 = j) then some (d, k) else none

/-- Is a slot's link severed (R160): by an event, or its panels not joined? -/
def State.severed (s : State) (c j : Nat) : Bool :=
  match s.link c j with
  | none => SMap.get s.yrn.sev false (c * 16 + j)
  | some (d, k) => SMap.get s.yrn.sev false (c * 16 + j) || SMap.get s.yrn.sev false (d * 16 + k)
      || (decide (coursePanel c ≠ coursePanel d) && !s.joined)

/-- Is the yarn number a severed slot of the course? -/
def State.yarnSevered (s : State) (t n : Nat) : Bool := decide (64 ≤ n) && s.severed (courseOf t) (n - 64)

/-- Is a strand knot-blocked (R164)? -/
def State.knotBlocked (s : State) (t : Nat) : Bool :=
  !s.isSupv t && match (s.strand t).block with
    | none => false
    | some b => decide (b.timeout = 0) &&
        (if b.yarn < 64 then !bit (s.yCfg (courseOf t) b.yarn) 16 else s.yarnSevered t b.yarn)

/-- Is a strand at rest for the knot detector (R164): knot-blocked, halted or idle? -/
def State.atRest (s : State) (t : Nat) : Bool :=
  s.knotBlocked t || (s.strand t).idle || decide ((s.strand t).halt ≠ .running)

/-- Since when a strand that now comes to rest, or stays at rest, has been so. -/
def State.restNow (s : State) (t : Nat) : Nat := if s.atRest t then (s.strand t).restAt else s.now

/-- Something ends a knot of a course, or would have (R165): the count of its knot window starts again. -/
def State.stir (s : State) (c : Nat) : State := { s with yrn := { s.yrn with stirAt := SMap.set s.yrn.stirAt 0 c s.now } }

end Sys2Proof.Machine
end

