-- ==== Sys2Proof/Machine/PinCtl.lean ====
section
/-! DEFINITION. Estimates of position domains (R29, R30), event completions (R185), and what a timed pin does when its
owner loses control (R261, R262). -/

namespace Sys2Proof.Machine

/-- Key of a domain copy. -/
def domKey (panel n : Nat) : Nat := panel * 16 + n

/-- A domain copy. -/
def State.dom (s : State) (panel n : Nat) : DomCopy := SMap.get s.doms {} (domKey panel n)

/-- How long an earlier estimate of a copy is kept: longer than the longest SENT frame, whose sync pulse began it (R274). -/
def pastU : Nat := 200 * msU

/-- A copy with the estimates it has had: when it takes a new one at `now`, the old one is kept with that time. -/
def DomCopy.noting (c old : DomCopy) (now : Nat) : DomCopy :=
  { c with past := if c.toDomEst = old.toDomEst then old.past
    else (now, old.toDomEst) :: old.past.filter fun e => decide (now < e.1 + pastU) }

/-- Replace a domain copy. -/
def State.setDom (s : State) (panel n : Nat) (c : DomCopy) : State :=
  { s with doms := SMap.set s.doms {} (domKey panel n) (c.noting (s.dom panel n) s.now) }

/-- The copy with the estimate in force in the 2.5 ns tick of time `t` (R28): observations and steps of that tick come before the
edges latched in it. -/
def DomCopy.asOf (c : DomCopy) (t : Nat) : DomCopy :=
  match (c.past.filter fun e => decide (t / 3000 < e.1 / 3000)).getLast? with
  | some e => { c with toDomEst := e.2 }
  | none => c

/-- DOM_CTL.EN (R47). -/
def State.domEn (s : State) (n : Nat) : Bool := s.rb R.domCtl 0 n 0
/-- DOM_CTL.KIND: is the domain cyclic (R22)? -/
def State.domCyclic (s : State) (n : Nat) : Bool := s.rb R.domCtl 0 n 1
/-- DOM_CTL.HOME. -/
def State.domHome (s : State) (n : Nat) : Nat := s.rf R.domCtl 0 n 2 1

/-- The scale of rates and velocities: counts per ns × 2^32, over times in units of 1/1200 ns. -/
def rateScale : Int := 1200 * 4294967296

/-- How much of the pending correction has been applied after `dt` (R29: the rate changes by at most SLEW ppm). -/
def slewed (slew rate : Int) (ppm dt : Nat) : Int :=
  let lim := rate.natAbs * dt * ppm / (1000000 * 1200 * 4294967296)
  if slew.natAbs ≤ lim then slew else if slew < 0 then - Int.ofNat lim else Int.ofNat lim

/-- The parts of a count: `estScale` of `DomCopy.moved` are one count. -/
def estScale : Int := 1000000 * rateScale

/-- What the estimate has moved by after `dt` (R29), in parts of a count: the rate, and the part of the correction applied. In a time
domain it never decreases with `dt`, because SLEW is below 10^6 ppm. -/
def DomCopy.moved (c : DomCopy) (ppm dt : Nat) : Int :=
  let x := c.rate * Int.ofNat dt * 1000000
  let lim := Int.ofNat (c.rate.natAbs * dt * ppm)
  if c.slew.natAbs * estScale ≤ lim then x + c.slew * estScale else if c.slew < 0 then x - lim else x + lim

/-- The estimate of a domain copy at time `t` (R29): followed in LOCKED, extrapolated at the last rate in COAST, held
in STOPPED, frozen in FAULT (R31). -/
def DomCopy.est (c : DomCopy) (ppm t : Nat) : Nat :=
  match c.state with
  | .stopped | .fault => c.pos
  | .locked | .coast =>
    ((Int.ofNat c.pos + c.moved ppm (t - c.at_) / estScale) % (281474976710656 : Int)).toNat

/-- The least position that is not below the estimate: where the estimate stands between two counts, the upper one. -/
def DomCopy.estUp (c : DomCopy) (ppm t : Nat) : Nat :=
  let x := c.est ppm t
  match c.state with
  | .stopped | .fault => x
  | .locked | .coast => if c.moved ppm (t - c.at_) % estScale = 0 then x else (x + 1) % 281474976710656

/-- The estimate of domain `n` on panel `p` now. -/
def State.est (s : State) (p n : Nat) : Nat := (s.dom p n).est (s.rf R.domCoast 0 n 16 8) s.now

/-- The time after `at` at which the estimate has moved by `d` counts in the direction of its rate; 0 where it already had. -/
def DomCopy.reach (c : DomCopy) (ppm : Nat) (d : Int) : Nat :=
  let (r, w, d) := if 0 < c.rate then (c.rate, c.slew, d) else (- c.rate, - c.slew, - d)
  if r = 0 ∨ d ≤ 0 then 0
  else
    let slope := r * 1000000 + (if w < 0 then - (r * ppm) else if w = 0 then 0 else r * ppm)
    let t := (d * estScale + slope - 1) / slope
    if r * t * ppm < w.natAbs * estScale then t.toNat else ((d - w) * rateScale + r - 1) / r |>.toNat

/-- Encode a bound as the code of R30: exponent [15:12], mantissa [11:0]; 0xFFFF when it is too large. The rule does not say how a
bound that no code holds is rounded: the model takes the least exponent that can hold it, and rounds the mantissa up (log entry 87). -/
def uncCode (bound : Nat) : Nat :=
  match firstIdx 16 (fun e => decide ((bound + 2 ^ e - 1) / 2 ^ e ≤ 4095)) with
  | some e => let m := (bound + 2 ^ e - 1) / 2 ^ e
    if e = 15 && m = 4095 then 0xFFFF else e * 4096 + m
  | none => 0xFFFF

/-- The bound of a code of R30; unknown for 0xFFFF. -/
def uncBound (code : Nat) : Option Nat := if code = 0xFFFF then none else some ((code % 4096) * 2 ^ (code / 4096))

/-- The uncertainty bound in COAST after `dt` (R30): the bound at entry, DRIFT ppm of the elapsed time, and in a cyclic
domain 0.5 × AMAX × elapsed², in counts. The rule does not say how ppm of a time become counts of a cyclic domain: the model takes
the counts of the last rate in that time (log entry 87). -/
def coastBound (b0 : Nat) (rate : Int) (drift amax : Nat) (cyclic : Bool) (dt : Nat) : Nat :=
  b0 + (if cyclic then rate.natAbs * dt * drift / (1000000 * 1200 * 4294967296) else dt * drift / (1200 * 1000000))
    + (if cyclic then amax * 16777216 * dt * dt / (2 * secU * secU) else 0)

/-- The published uncertainty code of a copy of domain `n` at time `t` (R30). -/
def State.uncAt (s : State) (n : Nat) (c : DomCopy) (t : Nat) : Nat :=
  match c.state with
  | .fault => 0xFFFF
  | .locked | .stopped => c.unc
  | .coast => match uncBound c.unc with
    | none => 0xFFFF
    | some b => uncCode (coastBound b c.rate (s.rf R.domCoast 0 n 8 8) (s.rf R.domMotion 0 n 16 16) (s.domCyclic n) (t - c.uncAt))

/-- The published uncertainty code of a copy now. -/
def State.unc (s : State) (p n : Nat) : Nat := s.uncAt n (s.dom p n) s.now

/-- A stamp in the layout of R27. -/
def mkStamp (pos epoch dom st : Nat) (origin : Bool) (unc : Nat) : HWord :=
  BitVec.ofNat 128 (pos % 2 ^ 48 + (epoch % 65536) * 2 ^ 48 + (dom % 16) * 2 ^ 64 + (st % 4) * 2 ^ 68
    + b2n origin * 2 ^ 70 + (unc % 65536) * 2 ^ 72)

/-- The stamp of domain `n` on panel `p` of an edge at time `t`, with the state, epoch and bound in force in its tick (R27, R37). -/
def State.stampAt (s : State) (p n t : Nat) : HWord :=
  let c := (s.dom p n).asOf t
  mkStamp (c.est (s.rf R.domCoast 0 n 16 8) t) c.epoch n c.state.code c.origin (s.uncAt n c t)

/-- The stamp of domain `n` on panel `p` now. -/
def State.stamp (s : State) (p n : Nat) : HWord := s.stampAt p n s.now

/-- Event kind codes of R39. -/
def EvKind.code : EvKind → Nat
  | .pinEdge => 0 | .trigger => 1 | .gate => 2 | .wake => 3

/-- Queue a completion on the scheduling strand's queue of 16 (R185); one that finds it full is discarded and counted
as EVT_CLOST. -/
def State.complete (s : State) (e : Ev) (status late : Nat) : State :=
  let q := SMap.get s.evDone [] e.strand
  let d : EvDone := { status := status, domain := e.domain, kind := e.kind.code, tag := e.tag, pos := s.est e.copy e.domain, epoch := (s.dom e.copy e.domain).epoch, late := late }
  if q.length < 16 then { s with evDone := SMap.set s.evDone [] e.strand (q ++ [d]) }
  else s.countP (panelOf e.strand) 22

/-- Cancel every pending event that `p` selects, with a completion of the status given, in order of acceptance. -/
def State.cancelEvs (s : State) (p : Ev → Bool) (status : Nat) : State :=
  let gone := s.evs.filter p
  let s := { s with evs := s.evs.filter fun e => !(p e) }
  gone.foldl (fun s e => s.complete e status 0) s

/-- A timed pin. -/
def State.pin (s : State) (n : Nat) : Pin := SMap.get s.tio.pins {} n
/-- Replace a timed pin. -/
def State.setPin (s : State) (n : Nat) (p : Pin) : State :=
  { s with tio := { s.tio with pins := SMap.set s.tio.pins {} n p } }

/-- TIO_PCFG.MODE of a pin (R260): 0 OFF, 1 INPUT, 2 OUTPUT, 3 PWM_HI, 4 PWM_LO, 5 SENT. -/
def State.pinMode (s : State) (n : Nat) : Nat := s.rf R.tioPcfg (n / 128) (n % 128) 0 3
/-- TIO_PCFG.SAFE of a pin as an output level: 0 LOW, 1 HIGH, 2 HIZ. -/
def State.pinSafe (s : State) (n : Nat) : Nat := s.rf R.tioPcfg (n / 128) (n % 128) 3 2
/-- The owning strand of a pin (R261): a PWM_LO pin follows its partner's owner. -/
def State.pinOwner (s : State) (n : Nat) : Option Nat :=
  let m := if s.pinMode n = 4 then n - n % 2 else n
  if s.rb R.tioPown (m / 128) (m % 128) 9 then some ((m / 128) * 416 + s.rf R.tioPown (m / 128) (m % 128) 0 9) else none

/-- Drive a pin. -/
def State.drive (s : State) (n lvl : Nat) : State := s.setPin n { s.pin n with out := lvl }

/-- Withdraw the delayed edge of a pin's pair (R262, R271). -/
def State.noDead (s : State) (n : Nat) : State :=
  { s with tio := { s.tio with dead := SMap.del s.tio.dead ((n / 128) * 64 + (n % 128) / 2) } }

/-- Does a pending PIN_EDGE event belong to pin `n`? -/
def Ev.onPin (e : Ev) (n : Nat) : Bool := decide (e.kind = .pinEdge) && decide (e.operand % 256 = n)

/-- Control of pin `n` is lost (R262). -/
def State.losePin (s : State) (n : Nat) : State :=
  let s := s.cancelEvs (fun e => e.onPin n) 0x08
  let s := s.noDead n
  let s := s.setPin n { s.pin n with safe := true }
  if s.pinMode n = 2 then s.drive n (s.pinSafe n)
  else if s.pinMode n = 3 then
    let s := s.drive n (s.pinSafe n)
    if s.pinMode (n + 1) = 4 then s.drive (n + 1) (s.pinSafe (n + 1)) else s
  else s

/-- The pins of a strand. -/
def State.pinsOf (s : State) (t : Nat) : List Nat :=
  ((List.range 128).map fun j => panelOf t * 128 + j).filter fun n => decide (s.pinOwner n = some t)

/-- Strand `t` loses control of its pins (R261, R262); with `dbg`, only of those whose DBGSAFE is 1. -/
def State.loseOwner (s : State) (t : Nat) (dbg : Bool := false) : State :=
  ((s.pinsOf t).filter fun n => !dbg || s.rb R.tioPcfg (n / 128) (n % 128) 25).foldl (fun s n => s.losePin n) s

end Sys2Proof.Machine
end

