-- ==== Sys2Proof/Machine/Trap.lean ====
section
/-! DEFINITION. Taking a trap (R143), the double trap (R145) and the return from one (R146). -/

namespace Sys2Proof.Machine

/-- The strand stops (R145): HALTED_INSTR or HALTED_DOUBLE, counted per needle, and control of its pins is lost
(R261). -/
def State.haltStrand (s : State) (t : Nat) (h : Halt) : State :=
  let s := s.setStrand t ((s.strand t).haltAs h (s.restNow t))
  let s := match h with
    | .double => s.count 4 (needleOf t) 5
    | .instr => s.count 4 (needleOf t) 6
    | _ => s
  s.loseOwner t

/-- Take a trap (R143): with EXL = 1 it is a double trap (R145). EMU traps are counted per needle by cause (R148). -/
def State.takeTrap (s : State) (t : Nat) (c : TCause) (detail hookinfo : Nat) (info addr resume : Word) : State :=
  let s := match c with
    | .emu => s.count 4 (needleOf t) detail
    | _ => s
  if (s.bank t).exl then s.haltStrand t .double
  else s.enterTrap t c detail hookinfo info addr resume

/-- The return from a trap (R146): pc := epc and EXL := 0; the first instruction after it is exempt from WATCH. -/
def State.returnTrap (s : State) (t : Nat) : State :=
  let b := s.bank t
  s.setBank t { b with pc := b.epc, exl := false, watchExempt := true }

end Sys2Proof.Machine
end

