-- ==== Sys2Proof/Machine/DevMem.lean ====
section
/-! DEFINITION. Bytes of memory in canonical form, and device physical memory: where an address lies (R285, R286,
R288), which copies of a mirrored line serve it (R287), poison (R296, R298), and reads and writes of it. -/

namespace Sys2Proof.Machine

/-- The byte at address `a`; an unlisted byte reads as zero (log entry 5). -/
def cellGet (m : List Host.Cell) (a : Nat) : Byte := SMap.get m 0#8 a

/-- Write one byte, keeping the canonical form. -/
def cellSet (m : List Host.Cell) (a : Nat) (v : Byte) : List Host.Cell := SMap.set m 0#8 a v

/-- `n` bytes from address `a`. -/
def cellRead (m : List Host.Cell) (a n : Nat) : List Byte := (List.range n).map fun i => cellGet m (a + i)

/-- Write bytes from address `a`. -/
def cellWrite : List Host.Cell → Nat → List Byte → List Host.Cell
  | m, _, [] => m
  | m, a, b :: bs => cellWrite (cellSet m a b) (a + 1) bs

/-- The canonical form of a memory. -/
def cellsWf (m : List Host.Cell) : Bool := SMap.wf m 0#8

/-- The canonical form of the three memories. -/
def Memory.wf (m : MemState) : Bool := cellsWf m.scratch && cellsWf m.sram && cellsWf m.dev

/-- 16 MiB. -/
def mib16 : Nat := 16777216

/-- The panel whose DRM_MAP and DRM_MSZ are read: both hold the same value (R299), so Panel A's, unless it alone is out. -/
def State.drmP (s : State) : Nat := if !s.up 0 && s.up 1 then 1 else 0

/-- Density C of a channel, in bytes (R284). -/
def State.chanC (s : State) : Nat := (match s.rf R.drmMap s.drmP 0 0 2 with | 0 => 1 | 1 => 2 | _ => 4) * 1073741824
/-- The usable part u = 7C/8 of one channel, in bytes (R285, R290). -/
def State.chanU (s : State) : Nat := s.chanC / 8 * 7

/-- MSIZE and XSIZE in bytes (R299). -/
def State.msize (s : State) : Nat := s.rf R.drmMsz s.drmP 0 0 8 * mib16
/-- XSIZE in bytes (R299). -/
def State.xsize (s : State) : Nat := s.rf R.drmMsz s.drmP 0 8 8 * mib16
/-- L = 4u − MSIZE − XSIZE/2 (R285). -/
def State.localSize (s : State) : Nat := 4 * s.chanU - s.msize - s.xsize / 2
/-- The interleave grain G (R286). -/
def State.grain (s : State) : Nat := 2 ^ (8 + s.rf R.drmMap s.drmP 0 2 4)

/-- The channel that holds offset `o` of panel `p`'s DRAM space (R286). -/
def State.chanOf (s : State) (p o : Nat) : Nat := 4 * p + (o / s.grain) % 4

/-- The channel address of offset `o` (R286). -/
def State.chanAddr (s : State) (o : Nat) : Nat := o / s.grain / 4 * s.grain + o % s.grain

/-- The channel address of the 8 check bytes of the line at channel address `ca` (R290). -/
def State.checkAddr (s : State) (ca : Nat) : Nat := s.chanU + ca / 64 * 8

/-- Where a device physical address lies (R285): the panel and, for DRAM, the offset in that panel's space. -/
inductive DevLoc where
  | unmapped
  | buffer (panel : Nat)
  | dram (panel off : Nat)
  | mirror (m : Nat)
  deriving DecidableEq, Repr

/-- The device physical address map (R285, R288). -/
def State.devLoc (s : State) (a : Nat) : DevLoc :=
  let L := s.localSize
  if a < 0x1800000 then .buffer 0
  else if 0x2000000 ≤ a && a < 0x3800000 then .buffer 1
  else if 0x2000000000 ≤ a && a < 0x2000000000 + L then .dram 0 (a - 0x2000000000)
  else if 0x3000000000 ≤ a && a < 0x3000000000 + L then .dram 1 (a - 0x3000000000)
  else if 0x4000000000 ≤ a && a < 0x4000000000 + s.msize then .mirror (a - 0x4000000000)
  else if 0x5000000000 ≤ a && a < 0x5000000000 + s.xsize then
    let x := a - 0x5000000000
    .dram ((x / s.grain) % 2) (L + (x / s.grain / 2) * s.grain + x % s.grain)
  else .unmapped

/-- The device address that names offset `o` of panel `p`'s DRAM space (R286–R288). -/
def State.offAddr (s : State) (p o : Nat) : Nat :=
  let L := s.localSize
  let m := 4 * s.chanU - s.msize
  if o < L then 0x2000000000 + p * 0x1000000000 + o
  else if o < m then 0x5000000000 + ((o - L) / s.grain * 2 + p) * s.grain + (o - L) % s.grain
  else 0x4000000000 + (o - m)

/-- Key in `mem.dev` of the byte at offset `o` of panel `p`'s DRAM space: its channel and channel address, so that a byte stays where it
is when DRM_MAP or DRM_MSZ gives it another name (R299). A byte of a packet buffer has its device address as its key. -/
def State.dramKey (s : State) (p o : Nat) : Nat := 0x10000000000 + s.chanOf p o * 0x200000000 + s.chanAddr o
/-- The panel of a key of DRAM. -/
def keyPanel (k : Nat) : Nat := (k - 0x10000000000) / 0x200000000 / 4
/-- The offset in its panel's space of a key of DRAM. -/
def State.keyOff (s : State) (k : Nat) : Nat :=
  let ch := (k - 0x10000000000) / 0x200000000 % 4
  let ca := (k - 0x10000000000) % 0x200000000
  (ca / s.grain * 4 + ch) * s.grain + ca % s.grain
/-- Is it a key of DRAM? -/
def isDram (k : Nat) : Bool := decide (0x10000000000 ≤ k)
/-- The device address of a key. -/
def State.keyAddr (s : State) (k : Nat) : Nat := if isDram k then s.offAddr (keyPanel k) (s.keyOff k) else k

/-- Offset of mirrored byte `m` in each panel's space (R287). -/
def State.mirOff (s : State) (m : Nat) : Nat := 4 * s.chanU - s.msize + m
/-- Key of the copy of mirrored byte `m` on panel `c`. -/
def State.mirKey (s : State) (m c : Nat) : Nat := s.dramKey c (s.mirOff m)

/-- Can `req` use offset `o` of panel `p`'s DRAM: panel reachable and channel not fenced (R296, R298)? -/
def State.dramOk (s : State) (req p o : Nat) : Bool := s.reach req p && !s.isFenced p 5 (s.chanOf p o)

/-- Is copy `c` of mirrored offset `m` usable from panel `req`? -/
def State.mirOk (s : State) (req m c : Nat) : Bool := s.dramOk req c (s.mirOff m)

/-- The key from which panel `req` reads the byte at address `a` (R287): `none` where it is unmapped, `some none`
where it is poisoned. While a block is rewritten, the copy being written over the other serves it. -/
def State.readKey (s : State) (req a : Nat) : Option (Option Nat) :=
  match s.devLoc a with
  | .unmapped => none
  | .buffer p => some (if s.reach req p then some a else none)
  | .dram p o => some (if s.dramOk req p o then some (s.dramKey p o) else none)
  | .mirror m =>
    let src := if s.drm.resync then
        match s.drm.whole with
        | some p => p
        | none => let k := SMap.get s.drm.marked 0 (m / 65536)
          if k = 0 then req else if k = 2 then 1 else 0
      else req
    some (if s.mirOk req m src then some (s.mirKey m src)
      else if s.mirOk req m (1 - src) then some (s.mirKey m (1 - src)) else none)

/-- The keys a write by panel `req` at address `a` reaches: empty where every copy is poisoned. -/
def State.writeKeys (s : State) (req a : Nat) : List Nat :=
  match s.devLoc a with
  | .unmapped => []
  | .buffer p => if s.reach req p then [a] else []
  | .dram p o => if s.dramOk req p o then [s.dramKey p o] else []
  | .mirror m => (([0, 1].filter fun c => s.mirOk req m c).map fun c => s.mirKey m c)

/-- ACCESS detail of a device address that cannot be accessed: UNMAPPED or POISON (R144). -/
def State.devBad (s : State) (req a : Nat) : Option Nat :=
  match s.readKey req a with
  | none => some 0
  | some none => some 4
  | some (some _) => none

/-- `n` bytes at device address `a` as panel `req` reads them, if all are mapped and none is poisoned. -/
def State.devRead (s : State) (req a n : Nat) : Option (List Byte) :=
  (List.range n).mapM fun i => match s.readKey req (a + i) with
    | some (some k) => some (cellGet s.mem.dev k)
    | _ => none

/-- The same, with unreadable bytes as zero. -/
def State.devBytes (s : State) (req a n : Nat) : List Byte :=
  (List.range n).map fun i => match s.readKey req (a + i) with
    | some (some k) => cellGet s.mem.dev k
    | _ => 0#8

/-- Write one byte of device memory in every copy that can be written; a write of mirrored memory while the panels
are apart marks its 64 KiB block (R287). -/
def State.devSet (s : State) (req a : Nat) (v : Byte) : State :=
  let s := { s with mem := { s.mem with dev := (s.writeKeys req a).foldl (fun m k => cellSet m k v) s.mem.dev } }
  match s.devLoc a with
  | .mirror m =>
    if !s.md.bridge && s.up 0 && s.up 1 then
      { s with drm := { s.drm with msync := false, marked := SMap.set s.drm.marked 0 (m / 65536) (SMap.get s.drm.marked 0 (m / 65536) ||| (req + 1)) } }
    else s
  | _ => s

/-- Write bytes of device memory from address `a`. -/
def State.devWrite (s : State) (req : Nat) : Nat → List Byte → State
  | _, [] => s
  | a, b :: bs => (s.devSet req a b).devWrite req (a + 1) bs

/-- Can every byte of `[a, a + n)` be accessed by panel `req`? -/
def State.devOk (s : State) (req a n : Nat) : Bool := (List.range n).all fun i => (s.devBad req (a + i)).isNone

-- --------------------------------------------------------------------------------------------------- DRAM requests

/-- DRM_CSTAT.STATE of a channel 0–7: 0 ACTIVE, 1 RETRAIN, 2 SEARCH, 3 FENCED (R299). -/
def State.chanState (s : State) (c : Nat) : Nat := s.rf R.drmCstat (c / 4) (c % 4) 0 2

/-- The channels and channel addresses that an access of panel `req` to the line at `a` goes to (R285–R288): a read of a mirrored line to
one copy, a write to each that is not poisoned; none outside DRAM. -/
def State.lineAt (s : State) (req a : Nat) (write : Bool) : List (Nat × Nat) :=
  match s.devLoc a with
  | .dram p o => if s.dramOk req p o then [(s.chanOf p o, s.chanAddr o)] else []
  | .mirror m =>
    let ok := [req, 1 - req].filter (s.mirOk req m)
    (if write then ok else ok.take 1).map fun c => (s.chanOf c (s.mirOff m), s.chanAddr (s.mirOff m))
  | _ => []

/-- The first bytes of the 64-byte lines of `[a, a + n)`. -/
def linesOf (a n : Nat) : List Nat := (List.range ((a + n + 63) / 64 - a / 64)).map fun i => (a / 64 + i) * 64

/-- The requests that an access makes (R289), with their channels. -/
def State.requests (s : State) (req port a n : Nat) (write : Bool) (who : Option (Nat × Nat)) : List (Nat × DramReq) :=
  (linesOf a n).flatMap fun l => (s.lineAt req l write).map fun c =>
    (c.1, { port := port, at_ := s.now, addr := l, ca := c.2, panel := req, write := write, short := write && (decide (l < a) || decide (a + n < l + 64)), who := who })

/-- Requests join the queues of their channels. -/
def State.pushReqs (s : State) (l : List (Nat × DramReq)) : State :=
  { s with drm := { s.drm with reqs := l.foldl (fun m e => SMap.set m [] e.1 (SMap.get m [] e.1 ++ [e.2])) s.drm.reqs } }

/-- An access on a requestor port makes its requests; nothing waits for them. -/
def State.askDram (s : State) (req port a n : Nat) (write : Bool) : State := s.pushReqs (s.requests req port a n write none)

/-- The requests of a port that wait in a panel's controller. -/
def State.portWaiting (s : State) (p port : Nat) : List DramReq :=
  ([0, 1, 2, 3].flatMap fun n => SMap.get s.drm.reqs [] (4 * p + n)).filter fun r => decide (r.port = port)

/-- Is the queue of a requestor port full (R289), so that it holds back an access? -/
def State.portFull (s : State) (req port a n : Nat) (write : Bool) : Bool :=
  (s.requests req port a n write none).any fun e => decide (Config.dramDepth port < (s.portWaiting (e.1 / 4) port).length)

/-- Must a requestor that has its data at once hold back an access: its port's queue is full (R289), or one of its channels is retrained or
searched (R297)? -/
def State.dramHolds (s : State) (req port a n : Nat) (write : Bool) : Bool :=
  s.portFull req port a n write ||
    (s.requests req port a n write none).any fun e => decide (s.chanState e.1 = 1) || decide (s.chanState e.1 = 2)

/-- SKN_PCFG.EN of pool `n`. -/
def State.poolEn (s : State) (n : Nat) : Bool := s.rb R.sknPcfg 0 n 0
/-- Buffer size of pool `n`, 2^(6 + SZ) (R230). -/
def State.poolSize (s : State) (n : Nat) : Nat := 2 ^ (6 + s.rf R.sknPcfg 0 n 4 4)
/-- Buffer count of pool `n`. -/
def State.poolCount (s : State) (n : Nat) : Nat := s.rf R.sknPcfg 0 n 8 21
/-- Home panel of pool `n`. -/
def State.poolHome (s : State) (n : Nat) : Nat := s.rf R.sknPcfg 0 n 2 1
/-- Base address of pool `n`. -/
def State.poolBase (s : State) (n : Nat) : Nat := s.rf R.sknPbase 0 n 0 24 * 65536
/-- Where the tag array of pool `n` starts (R230). -/
def State.tagBase (s : State) (n : Nat) : Nat := s.poolBase n + s.poolCount n * s.poolSize n

/-- Does address `a` lie in the tag array of an enabled pool (R232)? -/
def State.isTag (s : State) (a : Nat) : Bool :=
  (List.range 32).any fun n => s.poolEn n && decide (s.tagBase n ≤ a) && decide (a < s.tagBase n + 4 * s.poolCount n)

end Sys2Proof.Machine
end

