-- ==== Sys2Proof/Machine/Operands.lean ====
section
/-! DEFINITION. What a strand's memory access reaches: the strand address map (R139, R140), the checks of R130 with
the details of R144, and the bytes read and written. -/

namespace Sys2Proof.Machine

/-- The kinds of access of R130. -/
inductive AccKind where
  | load | store | amo
  deriving DecidableEq, Repr

/-- The regions of R139, with the offset within them. -/
inductive Region where
  | scratch (a : Nat)
  | packet (o : Nat)
  | view (o : Nat)
  | sram (o : Nat)
  | window (n o : Nat)
  deriving DecidableEq, Repr

/-- The strand address map (R139): NDL_SHARE as latched at the last dispatch (R149). -/
def State.region (s : State) (t a : Nat) : Option Region :=
  let x := s.strand t
  if a < x.shareSize * 1024 then some (.scratch (x.shareBase * 1024 + a))
  else if 0x00100000 ≤ a && a < 0x00100200 then some (.packet (a - 0x00100000))
  else if 0x00100400 ≤ a && a < 0x00100800 then some (.view (a - 0x00100400))
  else if 0x00200000 ≤ a && a < 0x00300000 then some (.sram (a - 0x00200000))
  else if 0x40000000 ≤ a && a < 0x80000000 then some (.window ((a - 0x40000000) / 0x10000000) (a % 0x10000000))
  else none

/-- NDL_WIN of window `n` as latched at the last dispatch. -/
def State.win (s : State) (t n : Nat) : Nat := ((s.strand t).wins.getD n 0#32).toNat

/-- The device physical address of offset `o` of window `n` (R139). -/
def State.winAddr (s : State) (t n o : Nat) : Nat := bits (s.win t n) 4 12 * 0x10000000 + o

/-- The lifeline whose packet window and lifeline view the running bank shows. -/
def State.viewLl (s : State) (t : Nat) : Option Nat := if (s.bank t).hasItem then (s.bank t).item else none

/-- Does the running bank's item lie over a bridge that has failed (R12, log entry 93)? -/
def State.viewCut (s : State) (t : Nat) : Bool := match s.viewLl t with | some k => s.overBridge t (k / 4096) | none => false

/-- Does an access at `a` wait for the bridge: it is one to the packet window or the lifeline view of a stolen item (R12)? -/
def State.accessCut (s : State) (t a : Nat) : Bool :=
  match s.region t a with
  | some (.packet _) | some (.view _) => s.viewCut t
  | _ => false

/-- LENGTH of the frame the packet window shows: 0 for WAKE and HOST items (R140). -/
def State.winLen (s : State) (k : Nat) : Nat :=
  if (s.ll k).item.kind = .frame then (s.ll k).frame.length else 0

/-- The ACCESS detail of R144 that an access of `n` bytes at `a` meets, if any (R130 check 2). -/
def State.accessDetail (s : State) (t : Nat) (kind : AccKind) (a n : Nat) : Option Nat :=
  match s.region t a with
  | none => some 0
  | some (.scratch _) => none
  | some (.packet o) => match s.viewLl t with
    | none => some 3
    | some k => match kind with
      | .load => none
      | .amo => some 6
      | .store => if s.winLen k < o + n then some 5 else none
  | some (.view o) => match s.viewLl t with
    | none => some 3
    | some _ => match kind with
      | .load => none
      | .amo => some 6
      | .store => if 0x108 ≤ o && o + n ≤ 0x140 then none else some 1
  | some (.sram o) => match kind with
    | .load => none
    | _ => if bit (s.strand t).xmask (o / 65536) then some 1 else none
  | some (.window w o) =>
    let v := s.win t w
    let a := s.winAddr t w o
    if !(bit v 0) then some 0
    else match kind with
      | .load => s.devBad (panelOf t) a
      | _ => if !(bit v 1) then some 1
        else match s.devBad (panelOf t) a with
          | some d => some d
          | none => if (List.range n).any fun i => s.isTag (a + i) then some 1 else none

/-- The bytes that a load of `n` bytes at `a` reads. -/
def State.memRead (s : State) (t a n : Nat) : List Byte :=
  match s.region t a with
  | none => []
  | some (.scratch b) => cellRead s.mem.scratch (needleOf t * 65536 + b) n
  | some (.packet o) => match s.viewLl t with
    | none => []
    | some k => sliceZ ((s.ll k).frame.take (s.winLen k)) o n
  | some (.view o) => match s.viewLl t with
    | none => []
    | some k => sliceZ ((s.ll k).bytes k) o n
  | some (.sram o) => cellRead s.mem.sram (courseOf t * 1048576 + o) n
  | some (.window w o) => s.devBytes (panelOf t) (s.winAddr t w o) n

/-- Write bytes at `a`, as a store whose checks have passed does. -/
def State.memWrite (s : State) (t a : Nat) (bs : List Byte) : State :=
  match s.region t a with
  | none => s
  | some (.scratch b) => { s with mem := { s.mem with scratch := cellWrite s.mem.scratch (needleOf t * 65536 + b) bs } }
  | some (.packet o) => match s.viewLl t with
    | none => s
    | some k => s.setLl k { s.ll k with frame := overlay (s.ll k).frame bs o }
  | some (.view o) => match s.viewLl t with
    | none => s
    | some k =>
      let l := s.ll k
      let z := overlay (sliceZ l.egr 0 8 ++ sliceZ l.fmeta 0 48) bs (o - 0x108)
      s.setLl k { l with egr := z.take 8, fmeta := z.drop 8 }
  | some (.sram o) => { s with mem := { s.mem with sram := cellWrite s.mem.sram (courseOf t * 1048576 + o) bs } }
  | some (.window w o) => s.devWrite (panelOf t) (s.winAddr t w o) bs

/-- Do loads of this address complete in the pipeline (R132)? Loads from course shared SRAM and device windows have
variable latency. -/
def State.fastLoad (s : State) (t a : Nat) : Bool :=
  match s.region t a with
  | some (.sram _) => false
  | some (.window _ _) => false
  | _ => true

end Sys2Proof.Machine
end

