-- ==== Sys2Proof/Machine/Flags.lean ====
section
/-! DEFINITION. The guard (R122) and the comparisons that write a predicate (R127). -/

namespace Sys2Proof.Machine

/-- Does the guard let the instruction take effect (R122)? Sense 1 executes on false. -/
def Bank.guardOk (b : Bank) (g : BitVec 4) : Bool :=
  if g = 0#4 then true else (b.rp (g.toNat % 8)) != (g.getLsbD 3)

/-- A comparison of two words (R127). -/
def cmpEq (x y : Word) : Bool := decide (x = y)
/-- NE. -/
def cmpNe (x y : Word) : Bool := decide (x ≠ y)
/-- LT, signed. -/
def cmpLt (x y : Word) : Bool := x.slt y
/-- GE, signed. -/
def cmpGe (x y : Word) : Bool := !(x.slt y)
/-- LTU, unsigned. -/
def cmpLtu (x y : Word) : Bool := x.ult y
/-- GEU, unsigned. -/
def cmpGeu (x y : Word) : Bool := !(x.ult y)
/-- TST: is some bit set in both? -/
def cmpTst (x y : Word) : Bool := decide (x &&& y ≠ 0#32)

end Sys2Proof.Machine
end

