-- ==== Sys2Proof/Machine/Issue.lean ====
section
/-! DEFINITION. An issue slot offered to a strand for its next instruction: when the strand is ready (R151), the
instruction words (R121), the checks of R143 in their order, and the completion of an instruction. -/

namespace Sys2Proof

open Machine

-- ------------------------------------------------------------------------------------------------ the word (R121)

/-- Guard and major opcode of a word. -/
def encTop (g : BitVec 4) (major : Nat) : Nat := g.toNat * 2 ^ 28 + major * 2 ^ 22

/-- A word of format R. -/
def RFmt.word (f : RFmt) (major minor : Nat) : Word :=
  w32 (encTop f.g major + f.rd.toNat * 2 ^ 17 + f.rs1.toNat * 2 ^ 12 + f.rs2.toNat * 2 ^ 7 + minor)

/-- A word of LDX or STX. -/
def XRFmt.word (f : XRFmt) (major : Nat) : Word :=
  w32 (encTop f.g major + f.rd.toNat * 2 ^ 17 + f.rs1.toNat * 2 ^ 12 + f.rs2.toNat * 2 ^ 7 + f.sh.toNat * 2 ^ 5
    + f.size.toNat * 4 + f.mode.toNat)

/-- A word of format I. -/
def IFmt.word (f : IFmt) (major : Nat) : Word :=
  w32 (encTop f.g major + f.rd.toNat * 2 ^ 17 + f.rs1.toNat * 2 ^ 12 + f.imm.toNat)

/-- A word of BF. -/
def BfFmt.word (f : BfFmt) (op : Nat) : Word :=
  w32 (encTop f.g 0x0D + f.rd.toNat * 2 ^ 17 + f.rs1.toNat * 2 ^ 12 + op * 2 ^ 10 + f.pos.toNat * 2 ^ 5 + f.w.toNat)

/-- A word of LDPI or STPI. -/
def PiFmt.word (f : PiFmt) (major : Nat) : Word :=
  w32 (encTop f.g major + f.rd.toNat * 2 ^ 17 + f.rs1.toNat * 2 ^ 12 + f.size.toNat * 2 ^ 9 + f.inc.toNat)

/-- A word of format W. -/
def WFmt.word (f : WFmt) (major : Nat) : Word :=
  w32 (encTop f.g major + f.rd.toNat * 2 ^ 17 + f.rsv.toNat * 2 ^ 16 + f.imm.toNat)

/-- A word of CMP. -/
def PRFmt.word (f : PRFmt) (minor : Nat) : Word :=
  w32 (encTop f.g 0x08 + f.rsv.toNat * 2 ^ 20 + f.pd.toNat * 2 ^ 17 + f.rs1.toNat * 2 ^ 12 + f.rs2.toNat * 2 ^ 7 + minor)

/-- A word of CMPEQI, CMPLTI or CMPLTUI. -/
def PIFmt.word (f : PIFmt) (major : Nat) : Word :=
  w32 (encTop f.g major + f.rsv.toNat * 2 ^ 20 + f.pd.toNat * 2 ^ 17 + f.rs1.toNat * 2 ^ 12 + f.imm.toNat)

/-- A word of PLOG. -/
def PLFmt.word (f : PLFmt) (minor : Nat) : Word :=
  w32 (encTop f.g 0x0C + f.rsv.toNat * 2 ^ 20 + f.pd.toNat * 2 ^ 17 + f.rsv1.toNat * 2 ^ 15 + f.ps1.toNat * 2 ^ 12
    + f.rsv2.toNat * 2 ^ 10 + f.ps2.toNat * 2 ^ 7 + minor)

/-- A word of format J. -/
def JFmt.word (f : JFmt) (major : Nat) : Word := w32 (encTop f.g major + f.off.toNat)

/-- A word of format H. -/
def HFmt.word (f : HFmt) (hook func : Nat) : Word :=
  w32 (encTop f.g (0x30 + hook) + f.hd.toNat * 2 ^ 18 + f.ha.toNat * 2 ^ 14 + f.hb.toNat * 2 ^ 10 + func * 2 ^ 4 + f.md.toNat)

/-- A word of SYS. -/
def SysFmt.word (f : SysFmt) (minor : Nat) : Word :=
  w32 (encTop f.g 0x3D + f.rd.toNat * 2 ^ 17 + f.rs1.toNat * 2 ^ 12 + minor)

/-- A word of MFSR or MTSR. -/
def SrFmt.word (f : SrFmt) (major : Nat) : Word :=
  w32 (encTop f.g major + f.rd.toNat * 2 ^ 17 + f.rs1.toNat * 2 ^ 12 + f.sr.toNat)

/-- A word of BREAK. -/
def XFmt.word (f : XFmt) : Word := w32 (encTop f.g 0x3C + f.code.toNat)

end Sys2Proof

namespace Sys2Proof.Machine

-- ------------------------------------------------------------------------------------------------------- readiness

/-- May strand `t` issue at all (R151): its panel runs, its needle is not fenced, it owns lane-slots or is
best-effort, and it is not idle, halted or blocked in a yarn operation, nor kept by a fence, by its own access that waits in a DRAM
controller and may yet trap (R143, R298), or by a KNOT whose trap is due at this boundary (R147)? -/
def State.mayIssue (s : State) (t : Nat) : Bool :=
  let x := s.strand t
  decide (t < 832) && s.up (panelOf t) && !s.needleIdle t && (decide (0 < s.weight t) || s.isBest t)
    && !x.idle && decide (x.halt = .running) && x.block.isNone && !x.fenceWait && x.dram.isNone
    && !(x.knotp && s.isSupv t && !x.cur.exl)

/-- Has every general register named arrived (R132)? -/
def Bank.arrived (b : Bank) (regs : List Nat) : Bool :=
  regs.all fun r => r = 0 || b.pend.all fun p => !(decide (p.rd ≤ r) && decide (r < p.rd + p.vals.length))

/-- Is no hook register named the destination of an outstanding operation of this strand's bank (R135)? -/
def Strand.hookArrived (x : Strand) (regs : List Nat) : Bool :=
  regs.all fun r => x.ops.all fun o => !(decide (o.hd = some r) && decide (o.bank = b2n x.inB1))

/-- What decode finds in an instruction: the word, its guard, the registers it uses, and the outcome of the checks of
R123 (`emu`: detail and HOOKINFO), R130 and R133 (`check`: cause, detail and address) and R146 (`watch`: detail and
first matching address); `hold` names a wait before it takes effect. -/
structure Dec where
  word : Word
  g : BitVec 4
  regs : List Nat := []
  hregs : List Nat := []
  emu : Option (Nat × Nat) := none
  hold : Bool := false
  check : Option (TCause × Nat × Word) := none
  watch : Option (Nat × Word) := none
  brk : Bool := false
  deriving DecidableEq, Repr

/-- The first address of `[a, a + n)` that the watch registers match (R146). -/
def Strand.watchHit (x : Strand) (a n : Nat) : Option Nat :=
  let ign := bits x.wpctl.toNat 8 5
  ((List.range n).map fun i => a + i).find? fun b => decide (b / 2 ^ ign = x.wpaddr.toNat / 2 ^ ign)

/-- The WATCH detail and address of a data access, if it matches (R146). -/
def Strand.watchData (x : Strand) (kind : AccKind) (a n : Nat) : Option (Nat × Word) :=
  let rd := bit x.wpctl.toNat 0
  let wr := bit x.wpctl.toNat 1
  let det := match kind with
    | .load => if rd then some 0 else none
    | .store => if wr then some 1 else none
    | .amo => if rd then some 0 else if wr then some 1 else none
  det.bind fun d => (x.watchHit a n).map fun b => (d, w32 b)

/-- Does a fetch at the pc match (R146)? -/
def Strand.watchFetch (x : Strand) : Option (Nat × Word) :=
  if bit x.wpctl.toNat 2 then (x.watchHit x.cur.pc.toNat 4).map fun b => (2, w32 b) else none

/-- Is the pc in an executable region of course shared SRAM (R120)? -/
def Strand.canFetch (x : Strand) : Bool :=
  let pc := x.cur.pc.toNat
  decide (0x00200000 ≤ pc) && decide (pc < 0x00300000) && bit x.xmask ((pc - 0x00200000) / 65536)

/-- Is the strand's debugger STEP over (R166)? -/
def Strand.stepOver (x : Strand) : Bool := x.stepping && x.block.isNone && x.busy.isNone

/-- A debugger STEP ends: one instruction has completed or trapped (R166). A strand that ran halts again, and loses control of its pins
whose DBGSAFE is 1 (R261). -/
def State.stepDone (s : State) (t : Nat) : State :=
  let x := s.strand t
  if !x.stepOver then s
  else if x.halt = .running then (s.setStrand t { x with stepping := false, halt := .debug }).loseOwner t true
  else s.setStrand t { x with stepping := false }

/-- A trap on the instruction at the pc. -/
def State.trapHere (s : State) (t : Nat) (c : TCause) (detail hookinfo : Nat) (info addr resume : Word) : State :=
  (s.takeTrap t c detail hookinfo info addr resume).stepDone t

/-- Advance the pc past the instruction and take away the exemption of R146. -/
def State.advance (s : State) (t : Nat) : State :=
  let b := s.bank t
  s.setBank t { b with pc := b.pc + 4#32, watchExempt := false }

/-- An issue slot offered to strand `t` with the instruction `d` at its pc. A strand that is not ready leaves the slot
idle. Otherwise the checks follow the order of R143: fetch ACCESS, EMU, the guard, ALIGN and ACCESS, WATCH, BREAK.
`body` is the instruction's effect, on a state whose pc has advanced. -/
def State.issue (s : State) (t : Nat) (d : Dec) (body : State → State) : State :=
  let x := s.strand t
  let pc := x.cur.pc
  if !s.mayIssue t || (x.busy.any fun w => decide (w.word ≠ d.word)) then s
  else if !x.canFetch then s.trapHere t .access 2 0 0#32 pc pc
  else match d.emu with
    | some (det, info) => s.trapHere t .emu det info d.word pc (pc + 4#32)
    | none =>
      if !(x.cur.guardOk d.g) then (s.advance t).stepDone t
      else if !(x.cur.arrived d.regs) || !(x.hookArrived d.hregs) || d.hold then s
      else match d.check with
        | some (c, det, addr) => s.trapHere t c det 0 d.word addr pc
        | none =>
          let w := if x.cur.exl || x.cur.watchExempt then none else x.watchFetch.orElse fun _ => d.watch
          match w with
          | some (det, addr) => s.trapHere t .watch det 0 d.word addr pc
          | none =>
            if d.brk then s.trapHere t .brk 0 0 d.word pc (pc + 4#32)
            else (body (s.advance t)).stepDone t

end Sys2Proof.Machine
end

