-- ==== Sys2Proof/Machine/Alu.lean ====
section
/-! DEFINITION. Arithmetic, logic and predicates: ALU (R125), the immediate and field instructions (R126), the
compares and PLOG (R127), and words whose major or minor opcode is reserved (R123, R124). -/

namespace Sys2Proof.Machine

/-- Write a general register of the running bank. -/
def State.wreg (s : State) (t r : Nat) (v : Word) : State := s.setBank t ((s.bank t).wg r v)

/-- Write a predicate of the running bank. -/
def State.wpred (s : State) (t p : Nat) (v : Bool) : State := s.setBank t ((s.bank t).wp p v)

/-- Shift left; the amount is [4:0] (R125). -/
def shl32 (a : Word) (sh : Nat) : Word := a <<< (sh % 32)
/-- Shift right with zero fill. -/
def shr32 (a : Word) (sh : Nat) : Word := a >>> (sh % 32)
/-- Shift right with sign fill. -/
def sar32 (a : Word) (sh : Nat) : Word := a.sshiftRight (sh % 32)
/-- Rotate right. -/
def ror32 (a : Word) (sh : Nat) : Word := a.rotateRight (sh % 32)
/-- Leading zeros, 32 for zero. -/
def lzc (a : Word) : Nat := ((List.range 32).find? fun i => a.getLsbD (31 - i)).getD 32
/-- Trailing zeros, 32 for zero. -/
def tzc (a : Word) : Nat := ((List.range 32).find? fun i => a.getLsbD i).getD 32

/-- EMU_FIELD (R123 check 4) where `bad` holds. -/
def fieldErr (bad : Bool) : Option (Nat × Nat) := if bad then some (2, 0) else none

/-- A two-operand ALU instruction (R125): rd := op rs1 rs2. -/
def State.alu2 (s : State) (t : Nat) (f : RFmt) (minor : Nat) (op : Word → Word → Word) : State :=
  s.issue t { word := f.word 0x00 minor, g := f.g, regs := [f.rd.toNat, f.rs1.toNat, f.rs2.toNat] } fun s =>
    s.wreg t f.rd.toNat (op ((s.bank t).rg f.rs1.toNat) ((s.bank t).rg f.rs2.toNat))

/-- A unary ALU instruction (R125): rs2 must be 0. -/
def State.alu1 (s : State) (t : Nat) (f : RFmt) (minor : Nat) (op : Word → Word) : State :=
  s.issue t { word := f.word 0x00 minor, g := f.g, regs := [f.rd.toNat, f.rs1.toNat], emu := fieldErr (f.rs2 ≠ 0#5) } fun s =>
    s.wreg t f.rd.toNat (op ((s.bank t).rg f.rs1.toNat))

/-- The 64-bit value of a register pair {n+1:n}. -/
def Bank.pair (b : Bank) (n : Nat) : Nat := (b.rg n).toNat + (b.rg (n + 1)).toNat * 2 ^ 32

/-- Write a register pair. -/
def State.wpair (s : State) (t n v : Nat) : State := (s.wreg t n (w32 v)).wreg t (n + 1) (w32 (v / 2 ^ 32))

/-- Is a register number odd? -/
def oddReg (r : BitVec 5) : Bool := r.getLsbD 0

/-- ADDD and SUBD (R125): even registers only. -/
def State.alu64 (s : State) (t : Nat) (f : RFmt) (minor : Nat) (op : Nat → Nat → Nat) : State :=
  s.issue t { word := f.word 0x00 minor, g := f.g, regs := [f.rd.toNat, f.rd.toNat + 1, f.rs1.toNat, f.rs1.toNat + 1, f.rs2.toNat, f.rs2.toNat + 1], emu := fieldErr (oddReg f.rd || oddReg f.rs1 || oddReg f.rs2) } fun s =>
    s.wpair t f.rd.toNat (op ((s.bank t).pair f.rs1.toNat) ((s.bank t).pair f.rs2.toNat))

/-- ADD (R125). -/
def execAdd (t : Nat) (f : RFmt) (s : State) : Host.Outcome State Fault Refusal :=
  .next (s.alu2 t f 0x00 (fun a b => a + b))

/-- SUB (R125). -/
def execSub (t : Nat) (f : RFmt) (s : State) : Host.Outcome State Fault Refusal :=
  .next (s.alu2 t f 0x01 (fun a b => a - b))

/-- AND (R125). -/
def execAndR (t : Nat) (f : RFmt) (s : State) : Host.Outcome State Fault Refusal :=
  .next (s.alu2 t f 0x02 (fun a b => a &&& b))

/-- OR (R125). -/
def execOrR (t : Nat) (f : RFmt) (s : State) : Host.Outcome State Fault Refusal :=
  .next (s.alu2 t f 0x03 (fun a b => a ||| b))

/-- XOR (R125). -/
def execXorR (t : Nat) (f : RFmt) (s : State) : Host.Outcome State Fault Refusal :=
  .next (s.alu2 t f 0x04 (fun a b => a ^^^ b))

/-- ANDN (R125). -/
def execAndn (t : Nat) (f : RFmt) (s : State) : Host.Outcome State Fault Refusal :=
  .next (s.alu2 t f 0x05 (fun a b => a &&& ~~~b))

/-- SLL (R125). -/
def execSll (t : Nat) (f : RFmt) (s : State) : Host.Outcome State Fault Refusal :=
  .next (s.alu2 t f 0x06 (fun a b => shl32 a b.toNat))

/-- SRL (R125). -/
def execSrl (t : Nat) (f : RFmt) (s : State) : Host.Outcome State Fault Refusal :=
  .next (s.alu2 t f 0x07 (fun a b => shr32 a b.toNat))

/-- SRA (R125). -/
def execSra (t : Nat) (f : RFmt) (s : State) : Host.Outcome State Fault Refusal :=
  .next (s.alu2 t f 0x08 (fun a b => sar32 a b.toNat))

/-- ROR (R125). -/
def execRor (t : Nat) (f : RFmt) (s : State) : Host.Outcome State Fault Refusal :=
  .next (s.alu2 t f 0x09 (fun a b => ror32 a b.toNat))

/-- MUL (R125). -/
def execMul (t : Nat) (f : RFmt) (s : State) : Host.Outcome State Fault Refusal :=
  .next (s.alu2 t f 0x0A (fun a b => a * b))

/-- MULHU (R125). -/
def execMulhu (t : Nat) (f : RFmt) (s : State) : Host.Outcome State Fault Refusal :=
  .next (s.alu2 t f 0x0B (fun a b => w32 (a.toNat * b.toNat / 2 ^ 32)))

/-- MULHS (R125). -/
def execMulhs (t : Nat) (f : RFmt) (s : State) : Host.Outcome State Fault Refusal :=
  .next (s.alu2 t f 0x0C (fun a b => BitVec.ofInt 32 (a.toInt * b.toInt / 2 ^ 32)))

/-- MIN (R125). -/
def execMinS (t : Nat) (f : RFmt) (s : State) : Host.Outcome State Fault Refusal :=
  .next (s.alu2 t f 0x0D (fun a b => if a.slt b then a else b))

/-- MAX (R125). -/
def execMaxS (t : Nat) (f : RFmt) (s : State) : Host.Outcome State Fault Refusal :=
  .next (s.alu2 t f 0x0E (fun a b => if a.slt b then b else a))

/-- MINU (R125). -/
def execMinu (t : Nat) (f : RFmt) (s : State) : Host.Outcome State Fault Refusal :=
  .next (s.alu2 t f 0x0F (fun a b => if a.ult b then a else b))

/-- MAXU (R125). -/
def execMaxu (t : Nat) (f : RFmt) (s : State) : Host.Outcome State Fault Refusal :=
  .next (s.alu2 t f 0x10 (fun a b => if a.ult b then b else a))

/-- CLZ (R125). -/
def execClz (t : Nat) (f : RFmt) (s : State) : Host.Outcome State Fault Refusal :=
  .next (s.alu1 t f 0x11 (fun a => w32 (lzc a)))

/-- CTZ (R125). -/
def execCtz (t : Nat) (f : RFmt) (s : State) : Host.Outcome State Fault Refusal :=
  .next (s.alu1 t f 0x12 (fun a => w32 (tzc a)))

/-- POPC (R125). -/
def execPopc (t : Nat) (f : RFmt) (s : State) : Host.Outcome State Fault Refusal :=
  .next (s.alu1 t f 0x13 (fun a => w32 (popN a.toNat 32)))

/-- BSWAP (R125). -/
def execBswap (t : Nat) (f : RFmt) (s : State) : Host.Outcome State Fault Refusal :=
  .next (s.alu1 t f 0x14 (fun a => w32 (beVal (leBytes 4 a.toNat))))

/-- ADDD (R125). -/
def execAddd (t : Nat) (f : RFmt) (s : State) : Host.Outcome State Fault Refusal :=
  .next (s.alu64 t f 0x15 (fun a b => a + b))

/-- SUBD (R125). -/
def execSubd (t : Nat) (f : RFmt) (s : State) : Host.Outcome State Fault Refusal :=
  .next (s.alu64 t f 0x16 (fun a b => a + 2 ^ 64 - b))

/-- An immediate instruction (R126): rd := op rs1 imm12. -/
def State.aluI (s : State) (t : Nat) (f : IFmt) (major : Nat) (op : Word → BitVec 12 → Word) : State :=
  s.issue t { word := f.word major, g := f.g, regs := [f.rd.toNat, f.rs1.toNat] } fun s =>
    s.wreg t f.rd.toNat (op ((s.bank t).rg f.rs1.toNat) f.imm)

/-- ADDI (R126). -/
def execAddi (t : Nat) (f : IFmt) (s : State) : Host.Outcome State Fault Refusal :=
  .next (s.aluI t f 0x01 (fun a i => a + i.signExtend 32))

/-- ANDI (R126). -/
def execAndi (t : Nat) (f : IFmt) (s : State) : Host.Outcome State Fault Refusal :=
  .next (s.aluI t f 0x02 (fun a i => a &&& i.zeroExtend 32))

/-- ORI (R126). -/
def execOri (t : Nat) (f : IFmt) (s : State) : Host.Outcome State Fault Refusal :=
  .next (s.aluI t f 0x03 (fun a i => a ||| i.zeroExtend 32))

/-- XORI (R126). -/
def execXori (t : Nat) (f : IFmt) (s : State) : Host.Outcome State Fault Refusal :=
  .next (s.aluI t f 0x04 (fun a i => a ^^^ i.zeroExtend 32))

/-- The shift kinds of SHI (R126): 0 sll, 1 srl, 2 sra, 3 ror. -/
def shiftKind (k : Nat) (a : Word) (sh : Nat) : Word :=
  if k = 0 then shl32 a sh else if k = 1 then shr32 a sh else if k = 2 then sar32 a sh else ror32 a sh

/-- SHI (R126): kind imm[11:10], imm[9:5] reserved, amount imm[4:0]. -/
def execShi (t : Nat) (f : IFmt) (s : State) : Host.Outcome State Fault Refusal :=
  let i := f.imm.toNat
  .next (s.issue t { word := f.word 0x05, g := f.g, regs := [f.rd.toNat, f.rs1.toNat], emu := fieldErr (bits i 5 5 ≠ 0) } fun s =>
    s.wreg t f.rd.toNat (shiftKind (bits i 10 2) ((s.bank t).rg f.rs1.toNat) (bits i 0 5)))

/-- MOVL (R126): rd := zext(imm16). -/
def execMovl (t : Nat) (f : WFmt) (s : State) : Host.Outcome State Fault Refusal :=
  .next (s.issue t { word := f.word 0x06, g := f.g, regs := [f.rd.toNat], emu := fieldErr (f.rsv ≠ 0#1) } fun s =>
    s.wreg t f.rd.toNat (f.imm.zeroExtend 32))

/-- MOVH (R126): rd := (imm16 << 16) or (rd and 0xFFFF). -/
def execMovh (t : Nat) (f : WFmt) (s : State) : Host.Outcome State Fault Refusal :=
  .next (s.issue t { word := f.word 0x07, g := f.g, regs := [f.rd.toNat], emu := fieldErr (f.rsv ≠ 0#1) } fun s =>
    s.wreg t f.rd.toNat (w32 (f.imm.toNat * 65536 + ((s.bank t).rg f.rd.toNat).toNat % 65536)))

/-- A BF instruction (R126): pos + w above 32 raises EMU_FIELD. `op` takes rd, rs1, pos and w. -/
def State.bf (s : State) (t : Nat) (f : BfFmt) (op : Nat) (val : Word → Word → Nat → Nat → Word) : State :=
  let pos := f.pos.toNat
  let w := f.w.toNat + 1
  s.issue t { word := f.word op, g := f.g, regs := [f.rd.toNat, f.rs1.toNat], emu := fieldErr (decide (32 < pos + w)) } fun s =>
    s.wreg t f.rd.toNat (val ((s.bank t).rg f.rd.toNat) ((s.bank t).rg f.rs1.toNat) pos w)

/-- EXTU (R126). -/
def execExtu (t : Nat) (f : BfFmt) (s : State) : Host.Outcome State Fault Refusal :=
  .next (s.bf t f 0 fun _ a pos w => w32 (bits a.toNat pos w))

/-- EXTS (R126). -/
def execExts (t : Nat) (f : BfFmt) (s : State) : Host.Outcome State Fault Refusal :=
  .next (s.bf t f 1 fun _ a pos w => sextW (bits a.toNat pos w) w)

/-- INS (R126): the other bits of rd are kept. -/
def execIns (t : Nat) (f : BfFmt) (s : State) : Host.Outcome State Fault Refusal :=
  .next (s.bf t f 2 fun d a pos w => w32 (setBits d.toNat pos w a.toNat))

/-- A CMP instruction (R127): pd := rel rs1 rs2. -/
def State.cmpR (s : State) (t : Nat) (f : PRFmt) (minor : Nat) (rel : Word → Word → Bool) : State :=
  s.issue t { word := f.word minor, g := f.g, regs := [f.rs1.toNat, f.rs2.toNat], emu := fieldErr (f.rsv ≠ 0#2) } fun s =>
    s.wpred t f.pd.toNat (rel ((s.bank t).rg f.rs1.toNat) ((s.bank t).rg f.rs2.toNat))

/-- EQ (R127). -/
def execEq (t : Nat) (f : PRFmt) (s : State) : Host.Outcome State Fault Refusal := .next (s.cmpR t f 0 cmpEq)

/-- NE (R127). -/
def execNe (t : Nat) (f : PRFmt) (s : State) : Host.Outcome State Fault Refusal := .next (s.cmpR t f 1 cmpNe)

/-- LT (R127). -/
def execLt (t : Nat) (f : PRFmt) (s : State) : Host.Outcome State Fault Refusal := .next (s.cmpR t f 2 cmpLt)

/-- GE (R127). -/
def execGe (t : Nat) (f : PRFmt) (s : State) : Host.Outcome State Fault Refusal := .next (s.cmpR t f 3 cmpGe)

/-- LTU (R127). -/
def execLtu (t : Nat) (f : PRFmt) (s : State) : Host.Outcome State Fault Refusal := .next (s.cmpR t f 4 cmpLtu)

/-- GEU (R127). -/
def execGeu (t : Nat) (f : PRFmt) (s : State) : Host.Outcome State Fault Refusal := .next (s.cmpR t f 5 cmpGeu)

/-- TST (R127). -/
def execTst (t : Nat) (f : PRFmt) (s : State) : Host.Outcome State Fault Refusal := .next (s.cmpR t f 6 cmpTst)

/-- A compare with an immediate (R127). -/
def State.cmpI (s : State) (t : Nat) (f : PIFmt) (major : Nat) (rel : Word → BitVec 12 → Bool) : State :=
  s.issue t { word := f.word major, g := f.g, regs := [f.rs1.toNat], emu := fieldErr (f.rsv ≠ 0#2) } fun s =>
    s.wpred t f.pd.toNat (rel ((s.bank t).rg f.rs1.toNat) f.imm)

/-- CMPEQI (R127). -/
def execCmpeqi (t : Nat) (f : PIFmt) (s : State) : Host.Outcome State Fault Refusal :=
  .next (s.cmpI t f 0x09 fun a i => cmpEq a (i.signExtend 32))

/-- CMPLTI (R127). -/
def execCmplti (t : Nat) (f : PIFmt) (s : State) : Host.Outcome State Fault Refusal :=
  .next (s.cmpI t f 0x0A fun a i => cmpLt a (i.signExtend 32))

/-- CMPLTUI (R127). -/
def execCmpltui (t : Nat) (f : PIFmt) (s : State) : Host.Outcome State Fault Refusal :=
  .next (s.cmpI t f 0x0B fun a i => cmpLtu a (i.zeroExtend 32))

/-- A PLOG instruction (R127): the reserved bits, and ps2 where the minor does not use it, must be zero. -/
def State.plog (s : State) (t : Nat) (f : PLFmt) (minor : Nat) (un : Bool) (op : Bool → Bool → Bool) : State :=
  s.issue t { word := f.word minor, g := f.g, emu := fieldErr (decide (f.rsv ≠ 0#2) || decide (f.rsv1 ≠ 0#2) || decide (f.rsv2 ≠ 0#2) || (un && decide (f.ps2 ≠ 0#3))) } fun s =>
    s.wpred t f.pd.toNat (op ((s.bank t).rp f.ps1.toNat) ((s.bank t).rp f.ps2.toNat))

/-- PAND (R127). -/
def execPand (t : Nat) (f : PLFmt) (s : State) : Host.Outcome State Fault Refusal :=
  .next (s.plog t f 0 false (fun a b => a && b))

/-- POR (R127). -/
def execPor (t : Nat) (f : PLFmt) (s : State) : Host.Outcome State Fault Refusal :=
  .next (s.plog t f 1 false (fun a b => a || b))

/-- PXOR (R127). -/
def execPxor (t : Nat) (f : PLFmt) (s : State) : Host.Outcome State Fault Refusal :=
  .next (s.plog t f 2 false (fun a b => a != b))

/-- PANDN (R127). -/
def execPandn (t : Nat) (f : PLFmt) (s : State) : Host.Outcome State Fault Refusal :=
  .next (s.plog t f 3 false (fun a b => a && !b))

/-- PNOT (R127). -/
def execPnot (t : Nat) (f : PLFmt) (s : State) : Host.Outcome State Fault Refusal :=
  .next (s.plog t f 4 true (fun a _ => !a))

/-- The number of defined minors of a major opcode whose minor field is [6:0] (R124); `none` for the other majors. -/
def minorCount (major : Nat) : Option Nat :=
  if major = 0x00 then some 0x17 else if major = 0x08 then some 7 else if major = 0x0C then some 5
  else if major = 0x1E then some 8 else if major = 0x28 then some 5 else if major = 0x2E then some 5 else none

/-- Is the major opcode reserved (R124)? -/
def reservedMajorNum (m : Nat) : Bool :=
  m = 0x0E || m = 0x0F || m = 0x1F || (0x23 ≤ m && m ≤ 0x27) || (0x29 ≤ m && m ≤ 0x2D) || m = 0x2F || (0x38 ≤ m && m ≤ 0x3B)

/-- FUNC values that *Hooks* defines for a hook (R136). -/
def hookFuncs (hook : Nat) : List Nat :=
  if hook = 0 then [0x00, 0x01, 0x02, 0x03, 0x04, 0x05, 0x06, 0x07, 0x08, 0x09, 0x0A, 0x10, 0x11, 0x12, 0x13]
  else if hook = 1 then [0, 1, 2, 3]
  else if hook = 2 then [0, 1, 2, 3, 4, 5, 6]
  else if hook = 3 then [0, 1, 2, 3, 4, 5, 6, 7]
  else if hook = 4 then [0, 1, 2, 3, 4, 5]
  else if hook = 5 then [0, 1]
  else if hook = 6 then [0, 1, 2, 3, 4, 8, 9]
  else []

/-- Is the minor, FUNC, kind, size or mode not defined for a major that is (check 3 of R123)? -/
def reservedMinor (w : Word) : Bool :=
  let v := w.toNat
  let m := bits v 22 6
  match minorCount m with
  | some n => n ≤ bits v 0 7
  | none =>
    if m = 0x0D then bits v 10 2 = 3
    else if 0x30 ≤ m && m ≤ 0x36 then !((hookFuncs (m - 0x30)).contains (bits v 4 6))
    else if m = 0x3D then 6 ≤ bits v 0 12
    else false

/-- A word whose major opcode is reserved raises EMU_MAJOR at decode, whatever its guard (R123, R124); a word whose
minor, kind, SYS minor or hook FUNC is not defined for its major raises EMU_MINOR, after the hook check of R123 for a
hook major. A word that is neither is none of this command's, and nothing happens. -/
def execReservedMajor (t : Nat) (w : Word) (s : State) : Host.Outcome State Fault Refusal :=
  let m := bits w.toNat 22 6
  let fenced := decide (0x30 ≤ m) && decide (m ≤ 0x36) && s.isFenced (panelOf t) 3 (courseOf t * 8 + (m - 0x30))
  let d : Dec := { word := w, g := BitVec.ofNat 4 (bits w.toNat 28 4) }
  if reservedMajorNum m then .next (s.issue t { d with emu := some (0, 0) } id)
  else if reservedMinor w then .next (s.issue t { d with emu := some (if fenced then (3, 1) else (1, 0)) } id)
  else .next s

end Sys2Proof.Machine
end

