-- ==== Sys2Proof/Machine/Mem.lean ====
section
/-! DEFINITION. Loads and stores (R128–R130) and atomic operations (R131), with the ordering of R132. -/

namespace Sys2Proof.Machine

/-- Bytes of a size code (R128). -/
def sizeBytes (c : Nat) : Nat := if c ≤ 1 then 1 else if c ≤ 3 then 2 else if c = 4 then 4 else 8

/-- The register values of a load of size code `c` from its bytes (R128). -/
def loadVals (c : Nat) (bs : List Byte) : List Word :=
  let v := leVal bs
  if c = 0 then [sextW v 8] else if c = 2 then [sextW v 16]
  else if c = 5 then [w32 v, w32 (v / 2 ^ 32)] else [w32 v]

/-- The registers of a load or store's data (R128). -/
def dataRegs (c rd : Nat) : List Nat := if c = 5 then [rd, rd + 1] else [rd]

/-- Write a list of words into consecutive general registers. -/
def Bank.wgs : Bank → Nat → List Word → Bank
  | b, _, [] => b
  | b, r, v :: vs => (b.wg r v).wgs (r + 1) vs

/-- Checks 1 and 2 of R130: the alignment, then the address. -/
def State.memCheck (s : State) (t : Nat) (kind : AccKind) (addr : Word) (n : Nat) : Option (TCause × Nat × Word) :=
  if addr.toNat % n ≠ 0 then some (.align, 0, addr)
  else (s.accessDetail t kind addr.toNat n).map fun d => (.access, d, addr)

/-- The device address of an access through a window (R139). -/
def State.winAt (s : State) (t a : Nat) : Option Nat :=
  match s.region t a with
  | some (.window w o) => some (s.winAddr t w o)
  | _ => none

/-- Must an access wait at decode: for the bridge (R12), or, where it is one that takes effect, for room at the WINDOW port (R289)? -/
def State.accessWaits (s : State) (t : Nat) (kind : AccKind) (addr : Word) (n : Nat) : Bool :=
  s.accessCut t addr.toNat || ((s.memCheck t kind addr n).isNone && match s.winAt t addr.toNat with
    | some a => s.portFull (panelOf t) 5 a n (decide (kind ≠ .load))
    | none => false)

/-- The result of an access, the last of a bank's outstanding ones, waits for DRAM. -/
def Bank.awaitDram (b : Bank) : Bank := { b with pend := b.pend.dropLast ++ b.pend.getLast?.toList.map fun p => { p with dram := true } }

/-- An access of `n` bytes that has taken effect asks DRAM for its lines (R289), where it is one of DRAM through a window: the strand issues
nothing until they are served, and a result waits for them. `undo` is the base register it has updated, with its value before. -/
def State.askWindow (s : State) (t : Nat) (word addr : Word) (n : Nat) (kind : AccKind) (undo : Option (Nat × Word)) : State :=
  match s.winAt t addr.toNat with
  | none => s
  | some a =>
    let l := s.requests (panelOf t) 5 a n (decide (kind ≠ .load)) (some (t, s.drm.nextId))
    if l.isEmpty then s
    else
      let x := s.strand t
      let d : DramAcc := { id := s.drm.nextId, word := word, pc := x.cur.pc - 4#32, addr := addr, bank := b2n x.inB1, undo := undo, left := l.length }
      let x := if kind = .store then x else x.setCur x.cur.awaitDram
      let s := s.setStrand t { x with dram := some d }
      ({ s with drm := { s.drm with nextId := s.drm.nextId + 1 } }).pushReqs l

/-- Deliver a load's result: in the pipeline, or later for the regions of variable latency (R132). The value is the
one memory holds when the load issues (log entry 20). -/
def State.loadTo (s : State) (t rd c a : Nat) : State :=
  let vs := loadVals c (s.memRead t a (sizeBytes c))
  let b := s.bank t
  if s.fastLoad t a then s.setBank t (b.wgs rd vs) else s.setBank t { b with pend := b.pend ++ [{ rd := rd, vals := vs }] }

/-- A load (R128, R129): the data register or pair is written, then the base register `upd` names. -/
def State.load (s : State) (t : Nat) (word : Word) (g : BitVec 4) (c : Nat) (rd : BitVec 5) (regs : List Nat)
    (emu : Option (Nat × Nat)) (addr : Word) (upd : Option (Nat × Word)) : State :=
  s.issue t { word := word, g := g, regs := dataRegs c rd.toNat ++ regs, emu := emu, hold := s.accessWaits t .load addr (sizeBytes c), check := s.memCheck t .load addr (sizeBytes c), watch := (s.strand t).watchData .load addr.toNat (sizeBytes c) } fun s =>
    let old := upd.map fun u => (u.1, (s.bank t).rg u.1)
    let s := s.loadTo t rd.toNat c addr.toNat
    let s := match upd with
      | some (r, v) => s.wreg t r v
      | none => s
    s.askWindow t word addr (sizeBytes c) .load old

/-- The bytes a store writes: the data register, or the pair with its low word at the lower address. -/
def Bank.storeBytes (b : Bank) (c rt : Nat) : List Byte :=
  if c = 5 then leBytes 8 (b.pair rt) else leBytes (sizeBytes c) (b.rg rt).toNat

/-- A store (R128, R129): the data register's value before the update is stored. -/
def State.store (s : State) (t : Nat) (word : Word) (g : BitVec 4) (c : Nat) (rt : BitVec 5) (regs : List Nat)
    (emu : Option (Nat × Nat)) (addr : Word) (upd : Option (Nat × Word)) : State :=
  s.issue t { word := word, g := g, regs := dataRegs c rt.toNat ++ regs, emu := emu, hold := s.accessWaits t .store addr (sizeBytes c), check := s.memCheck t .store addr (sizeBytes c), watch := (s.strand t).watchData .store addr.toNat (sizeBytes c) } fun s =>
    let old := upd.map fun u => (u.1, (s.bank t).rg u.1)
    let s := s.memWrite t addr.toNat ((s.bank t).storeBytes c rt.toNat)
    let s := match upd with
      | some (r, v) => s.wreg t r v
      | none => s
    s.askWindow t word addr (sizeBytes c) .store old

/-- EMU_FIELD for a double access with an odd register (R128). -/
def oddDouble (c : Nat) (r : BitVec 5) : Option (Nat × Nat) := fieldErr (decide (c = 5) && oddReg r)

/-- Address of base + signed immediate. -/
def State.addrI (s : State) (t : Nat) (f : IFmt) : Word := (s.bank t).rg f.rs1.toNat + f.imm.signExtend 32

/-- A load of the base + immediate form. -/
def State.loadI (s : State) (t : Nat) (f : IFmt) (major c : Nat) : State :=
  s.load t (f.word major) f.g c f.rd [f.rs1.toNat] (oddDouble c f.rd) (s.addrI t f) none

/-- A store of the base + immediate form. -/
def State.storeI (s : State) (t : Nat) (f : IFmt) (major c : Nat) : State :=
  s.store t (f.word major) f.g c f.rd [f.rs1.toNat] (oddDouble c f.rd) (s.addrI t f) none

/-- LDB (R128). -/
def execLdb (t : Nat) (f : IFmt) (s : State) : Host.Outcome State Fault Refusal := .next (s.loadI t f 0x10 0)

/-- LDBU (R128). -/
def execLdbu (t : Nat) (f : IFmt) (s : State) : Host.Outcome State Fault Refusal := .next (s.loadI t f 0x11 1)

/-- LDH (R128). -/
def execLdh (t : Nat) (f : IFmt) (s : State) : Host.Outcome State Fault Refusal := .next (s.loadI t f 0x12 2)

/-- LDHU (R128). -/
def execLdhu (t : Nat) (f : IFmt) (s : State) : Host.Outcome State Fault Refusal := .next (s.loadI t f 0x13 3)

/-- LDW (R128). -/
def execLdw (t : Nat) (f : IFmt) (s : State) : Host.Outcome State Fault Refusal := .next (s.loadI t f 0x14 4)

/-- LDD (R128). -/
def execLdd (t : Nat) (f : IFmt) (s : State) : Host.Outcome State Fault Refusal := .next (s.loadI t f 0x15 5)

/-- STB (R128). -/
def execStb (t : Nat) (f : IFmt) (s : State) : Host.Outcome State Fault Refusal := .next (s.storeI t f 0x16 0)

/-- STH (R128). -/
def execSth (t : Nat) (f : IFmt) (s : State) : Host.Outcome State Fault Refusal := .next (s.storeI t f 0x17 2)

/-- STW (R128). -/
def execStw (t : Nat) (f : IFmt) (s : State) : Host.Outcome State Fault Refusal := .next (s.storeI t f 0x18 4)

/-- STD (R128). -/
def execStd (t : Nat) (f : IFmt) (s : State) : Host.Outcome State Fault Refusal := .next (s.storeI t f 0x19 5)

/-- Is the size code reserved: 6 and 7, and for a store the zero-extended codes too (R128)? -/
def badSize (store : Bool) (c : Nat) : Bool := decide (6 ≤ c) || (store && (decide (c = 1) || decide (c = 3)))

/-- Does an update load's destination share rs1, other than g0 (R128)? -/
def sharesBase (c : Nat) (rd rs1 : BitVec 5) : Bool := decide (rs1 ≠ 0#5) && (dataRegs c rd.toNat).contains rs1.toNat

/-- EMU outcome of LDX or STX (R128): minor, then fields. -/
def emuX (f : XRFmt) (store : Bool) : Option (Nat × Nat) :=
  let c := f.size.toNat
  if f.mode = 3#2 || badSize store c then some (1, 0)
  else fieldErr ((decide (c = 5) && oddReg f.rd) || (decide (f.mode ≠ 0#2) && (decide (f.rs2 ≠ 0#5) || decide (f.sh ≠ 0#2)))
    || (!store && decide (f.mode ≠ 0#2) && sharesBase c f.rd f.rs1))

/-- Address and base update of LDX or STX (R128): mode 0 index shifted, 1 post-increment, 2 pre-decrement. -/
def State.addrX (s : State) (t : Nat) (f : XRFmt) : Word × Option (Nat × Word) :=
  let b := s.bank t
  let base := b.rg f.rs1.toNat
  let n := w32 (sizeBytes f.size.toNat)
  if f.mode = 0#2 then (base + ((b.rg f.rs2.toNat) <<< f.sh.toNat), none)
  else if f.mode = 1#2 then (base, some (f.rs1.toNat, base + n))
  else (base - n, some (f.rs1.toNat, base - n))

/-- LDX (R128). -/
def execLdx (t : Nat) (f : XRFmt) (s : State) : Host.Outcome State Fault Refusal :=
  let a := s.addrX t f
  .next (s.load t (f.word 0x1A) f.g f.size.toNat f.rd [f.rs1.toNat, f.rs2.toNat] (emuX f false) a.1 a.2)

/-- STX (R128). -/
def execStx (t : Nat) (f : XRFmt) (s : State) : Host.Outcome State Fault Refusal :=
  let a := s.addrX t f
  .next (s.store t (f.word 0x1B) f.g f.size.toNat f.rd [f.rs1.toNat, f.rs2.toNat] (emuX f true) a.1 a.2)

/-- EMU outcome of LDPI or STPI (R128). -/
def emuP (f : PiFmt) (store : Bool) : Option (Nat × Nat) :=
  let c := f.size.toNat
  if badSize store c then some (1, 0)
  else fieldErr ((decide (c = 5) && oddReg f.rd) || (!store && sharesBase c f.rd f.rs1))

/-- Address and base update of LDPI or STPI (R128). -/
def State.addrP (s : State) (t : Nat) (f : PiFmt) : Word × Option (Nat × Word) :=
  let base := (s.bank t).rg f.rs1.toNat
  (base, some (f.rs1.toNat, base + f.inc.signExtend 32))

/-- LDPI (R128). -/
def execLdpi (t : Nat) (f : PiFmt) (s : State) : Host.Outcome State Fault Refusal :=
  let a := s.addrP t f
  .next (s.load t (f.word 0x1C) f.g f.size.toNat f.rd [f.rs1.toNat] (emuP f false) a.1 a.2)

/-- STPI (R128). -/
def execStpi (t : Nat) (f : PiFmt) (s : State) : Host.Outcome State Fault Refusal :=
  let a := s.addrP t f
  .next (s.store t (f.word 0x1D) f.g f.size.toNat f.rd [f.rs1.toNat] (emuP f true) a.1 a.2)

/-- An AMO (R131): one aligned word at rs1; `op` takes the old value, rs2 and rd and gives the new one. The old value
goes to rd with variable latency. It acts as a FENCE before and after itself (R132). -/
def State.amo (s : State) (t : Nat) (f : RFmt) (minor : Nat) (op : Word → Word → Word → Word) : State :=
  let b := s.bank t
  let addr := b.rg f.rs1.toNat
  s.issue t { word := f.word 0x1E minor, g := f.g, regs := [f.rd.toNat, f.rs1.toNat, f.rs2.toNat], hold := !(s.strand t).quiet || s.accessWaits t .amo addr 4, check := s.memCheck t .amo addr 4, watch := (s.strand t).watchData .amo addr.toNat 4 } fun s =>
    let b := s.bank t
    let old := w32 (leVal (s.memRead t addr.toNat 4))
    let new := op old (b.rg f.rs2.toNat) (b.rg f.rd.toNat)
    let s := s.memWrite t addr.toNat (leBytes 4 new.toNat)
    let x := s.strand t
    let b := x.cur
    let s := s.setStrand t { x.setCur { b with pend := b.pend ++ [{ rd := f.rd.toNat, vals := [old] }] } with fenceWait := true }
    s.askWindow t (f.word 0x1E minor) addr 4 .amo none

/-- AMO SWAP (R131). -/
def execAmoSwap (t : Nat) (f : RFmt) (s : State) : Host.Outcome State Fault Refusal :=
  .next (s.amo t f 0 (fun _ b _ => b))

/-- AMO ADD (R131). -/
def execAmoAdd (t : Nat) (f : RFmt) (s : State) : Host.Outcome State Fault Refusal :=
  .next (s.amo t f 1 (fun o b _ => o + b))

/-- AMO AND (R131). -/
def execAmoAnd (t : Nat) (f : RFmt) (s : State) : Host.Outcome State Fault Refusal :=
  .next (s.amo t f 2 (fun o b _ => o &&& b))

/-- AMO OR (R131). -/
def execAmoOr (t : Nat) (f : RFmt) (s : State) : Host.Outcome State Fault Refusal :=
  .next (s.amo t f 3 (fun o b _ => o ||| b))

/-- AMO XOR (R131). -/
def execAmoXor (t : Nat) (f : RFmt) (s : State) : Host.Outcome State Fault Refusal :=
  .next (s.amo t f 4 (fun o b _ => o ^^^ b))

/-- AMO MINU (R131). -/
def execAmoMinu (t : Nat) (f : RFmt) (s : State) : Host.Outcome State Fault Refusal :=
  .next (s.amo t f 5 (fun o b _ => if o.ult b then o else b))

/-- AMO MAXU (R131). -/
def execAmoMaxu (t : Nat) (f : RFmt) (s : State) : Host.Outcome State Fault Refusal :=
  .next (s.amo t f 6 (fun o b _ => if o.ult b then b else o))

/-- AMO CAS (R131). -/
def execAmoCas (t : Nat) (f : RFmt) (s : State) : Host.Outcome State Fault Refusal :=
  .next (s.amo t f 7 (fun o b d => if o = d then b else o))

/-- A result of variable latency arrives (R132): result `i` of a bank's outstanding ones reaches its registers; once
none of either bank is left, a fence is passed. One whose DRAM read has not completed has not arrived (R289). -/
def execMemoryResultArrive (t : Nat) (bank : Bool) (i : Nat) (s : State) : Host.Outcome State Fault Refusal :=
  let x := s.strand t
  let b := x.bk bank
  match b.pend[i]? with
  | none => .next s
  | some p =>
    if p.dram then .next s
    else
    let b' := ({ b with pend := b.pend.eraseIdx i } : Bank).wgs p.rd p.vals
    let x := x.setBk bank b'
    .next (s.setStrand t { x with fenceWait := x.fenceWait && !x.quiet })

end Sys2Proof.Machine
end

