-- ==== Sys2Proof/Machine/Branch.lean ====
section
/-! DEFINITION. Control transfer (R133). -/

namespace Sys2Proof.Machine

/-- The target of B or BL: pc + (sext(off22) << 2), pc being the address of the instruction itself. -/
def jTarget (pc : Word) (off : BitVec 22) : Word := pc + (off.signExtend 32 <<< 2)

/-- B (R133): the target is not checked when the branch executes. -/
def execB (t : Nat) (f : JFmt) (s : State) : Host.Outcome State Fault Refusal :=
  let pc := (s.bank t).pc
  .next (s.issue t { word := f.word 0x20, g := f.g } fun s => s.setBank t { s.bank t with pc := jTarget pc f.off })

/-- BL (R133): g31 is the link register. -/
def execBl (t : Nat) (f : JFmt) (s : State) : Host.Outcome State Fault Refusal :=
  let pc := (s.bank t).pc
  .next (s.issue t { word := f.word 0x21, g := f.g, regs := [31] } fun s =>
    s.setBank t { (s.bank t).wg 31 (pc + 4#32) with pc := jTarget pc f.off })

/-- JALR (R133): a misaligned target takes ALIGN with detail TARGET, and rd is not written. -/
def execJalr (t : Nat) (f : IFmt) (s : State) : Host.Outcome State Fault Refusal :=
  let pc := (s.bank t).pc
  let tgt := s.addrI t f
  .next (s.issue t { word := f.word 0x22, g := f.g, regs := [f.rd.toNat, f.rs1.toNat], check := if tgt.toNat % 4 ≠ 0 then some (.align, 1, tgt) else none } fun s =>
    s.setBank t { (s.bank t).wg f.rd.toNat (pc + 4#32) with pc := tgt })

end Sys2Proof.Machine
end

