-- ==== Sys2Proof/Machine/Crc.lean ====
section
/-! DEFINITION. The checks of polynomials that several chapters use: CRC-32C and CRC-32 (reflected), CRC-16 and CRC-8
(non-reflected), the ones'-complement sum (R181), and the keyed hash SipHash-2-4. -/

namespace Sys2Proof.Machine

/-- One bit of a reflected CRC with polynomial `poly` (reflected). -/
def crcBitR (poly c : Nat) : Nat := if c % 2 = 1 then (c / 2) ^^^ poly else c / 2

/-- One byte of a reflected 32-bit CRC. -/
def crcByteR (poly c : Nat) (b : Byte) : Nat :=
  (List.range 8).foldl (fun a _ => crcBitR poly a) (c ^^^ b.toNat)

/-- A reflected 32-bit CRC update, without initial or final inversion. -/
def crcUpdR (poly c : Nat) (bs : List Byte) : Nat := bs.foldl (crcByteR poly) c

/-- The reflected CRC-32C update of R181: polynomial 0x1EDC6F41, reflected 0x82F63B78. -/
def crc32cUpd (c : Nat) (bs : List Byte) : Nat := crcUpdR 0x82F63B78 c bs

/-- The reflected CRC-32 update of IEEE 802.3: polynomial 0x04C11DB7, reflected 0xEDB88320. -/
def crc32Upd (c : Nat) (bs : List Byte) : Nat := crcUpdR 0xEDB88320 c bs

/-- CRC-32C of bytes as records and headers carry it, with initial and final inversion. -/
def crc32c (bs : List Byte) : Nat := (crc32cUpd 0xFFFFFFFF bs) ^^^ 0xFFFFFFFF

/-- One byte of a non-reflected CRC of width `w`. -/
def crcByteN (w poly c : Nat) (b : Byte) : Nat :=
  (List.range 8).foldl (fun a _ => if bit a (w - 1) then ((a * 2) % 2 ^ w) ^^^ poly else (a * 2) % 2 ^ w)
    (c ^^^ (b.toNat * 2 ^ (w - 8)))

/-- The CRC-8 update of R181: polynomial 0x1D. -/
def crc8Upd (c : Nat) (bs : List Byte) : Nat := bs.foldl (crcByteN 8 0x1D) (c % 256)

/-- The CRC-16 update of R181: polynomial 0x1021. -/
def crc16Upd (c : Nat) (bs : List Byte) : Nat := bs.foldl (crcByteN 16 0x1021) (c % 65536)

/-- Add a 16-bit word to a ones'-complement sum. -/
def onesAdd (a w : Nat) : Nat := let t := a + w; t % 65536 + t / 65536

/-- The ones'-complement sum of bytes read as 16-bit network-order words; an odd last byte is padded with zero. -/
def onesSum : Nat → List Byte → Nat
  | c, [] => c
  | c, [b] => onesAdd c (b.toNat * 256)
  | c, b :: d :: bs => onesSum (onesAdd c (b.toNat * 256 + d.toNat)) bs

/-- Rotate a 64-bit value left. -/
def rotl64 (x n : Nat) : Nat := ((x * 2 ^ n) % 2 ^ 64) ||| (x / 2 ^ (64 - n))

/-- The four words of SipHash's state. -/
structure SipState where
  v0 : Nat
  v1 : Nat
  v2 : Nat
  v3 : Nat

/-- One SipRound. -/
def sipRound (s : SipState) : SipState :=
  let m := 2 ^ 64
  let v0 := (s.v0 + s.v1) % m
  let v1 := (rotl64 s.v1 13) ^^^ v0
  let v0 := rotl64 v0 32
  let v2 := (s.v2 + s.v3) % m
  let v3 := (rotl64 s.v3 16) ^^^ v2
  let v0 := (v0 + v3) % m
  let v3 := (rotl64 v3 21) ^^^ v0
  let v2 := (v2 + v1) % m
  let v1 := (rotl64 v1 17) ^^^ v2
  let v2 := rotl64 v2 32
  ⟨v0, v1, v2, v3⟩

/-- Compress one 64-bit message word (two rounds). -/
def sipWord (s : SipState) (m : Nat) : SipState :=
  let t := sipRound (sipRound ⟨s.v0, s.v1, s.v2, s.v3 ^^^ m⟩)
  ⟨t.v0 ^^^ m, t.v1, t.v2, t.v3⟩

/-- SipHash-2-4 of bytes under a 128-bit key, 64-bit result. -/
def sipHash24 (k0 k1 : Nat) (bs : List Byte) : Nat :=
  let s0 : SipState := ⟨k0 ^^^ 0x736f6d6570736575, k1 ^^^ 0x646f72616e646f6d, k0 ^^^ 0x6c7967656e657261, k1 ^^^ 0x7465646279746573⟩
  let n := bs.length
  let s1 := (List.range (n / 8)).foldl (fun s i => sipWord s (leVal ((bs.drop (8 * i)).take 8))) s0
  let s2 := sipWord s1 (leVal (bs.drop (8 * (n / 8))) + (n % 256) * 2 ^ 56)
  let s3 := sipRound (sipRound (sipRound (sipRound ⟨s2.v0, s2.v1, s2.v2 ^^^ 0xff, s2.v3⟩)))
  s3.v0 ^^^ s3.v1 ^^^ s3.v2 ^^^ s3.v3

end Sys2Proof.Machine
end

