-- ==== Sys2Proof/Machine/Post.lean ====
section
/-! DEFINITION. What every chapter may set off: a Row Counter record (R387, R393), a work request on a queue pair
(R302), an entry on a ring the device produces (R307), an event to the host (R317), and a command's completion
(R311). -/

namespace Sys2Proof.Machine

-- ---------------------------------------------------------------------------------------------------- queue pairs

/-- A queue pair. -/
def State.qp (s : State) (n : Nat) : Qp := SMap.get s.hst.qps {} n
/-- Replace a queue pair. -/
def State.setQp (s : State) (n : Nat) (q : Qp) : State := { s with hst := { s.hst with qps := SMap.set s.hst.qps {} n q } }
/-- A ring. -/
def State.ring (s : State) (n : Nat) : Ring := SMap.get s.hst.rings {} n
/-- Replace a ring. -/
def State.setRing (s : State) (n : Nat) (r : Ring) : State :=
  { s with hst := { s.hst with rings := SMap.set s.hst.rings {} n r } }

/-- Path MTU of a QP in bytes (R300). -/
def State.pmtu (s : State) (n : Nat) : Nat := match s.rf R.hstQp0 0 n 1 2 with | 0 => 1024 | 1 => 2048 | _ => 4096

/-- Packets of a message. -/
def State.npkts (s : State) (n len : Nat) : Nat := max 1 ((len + s.pmtu n - 1) / s.pmtu n)

/-- Where QP `n` sends (R305): on port 0 to RMAC0, or on port 2 to RMAC2. -/
def State.wire (s : State) (n psn : Nat) : Wire :=
  if s.hst.port2 then { qp := n, psn := psn, port := 2, mac := (s.rd R.hstRmac2Lo 0 n).toNat + (s.rd R.hstRmac2Hi 0 n).toNat * 2 ^ 32 }
  else { qp := n, psn := psn, port := 0, mac := (s.rd R.hstRmac0Lo 0 n).toNat + (s.rd R.hstRmac0Hi 0 n).toNat * 2 ^ 32 }

/-- Put a work request on the wire, from its first packet that is not acknowledged (R302). -/
def State.sendWqe (s : State) (n : Nat) (w : Wqe) : State :=
  let o := w.acks * s.pmtu n
  let dst := s.wire n ((w.psn + w.acks) % 16777216)
  match w.kind with
  | .write => s.emit (.rdmaWrite dst w.rkey (w.va + o) (w.bytes.drop o))
  | .read => s.emit (.rdmaRead dst w.rkey (w.va + o) (w.len - o))
  | .send => s.emit (.send dst w.imm (w.bytes.drop o))

/-- Queue a work request on a QP in RTS and send it; a QP in another state does no work. -/
def State.qpPost (s : State) (n : Nat) (w : Wqe) : State :=
  let q := s.qp n
  if q.state ≠ 1 then s
  else
    let k := s.npkts n (match w.kind with | .read => w.len | _ => w.bytes.length)
    let w := { w with psn := q.spsn, npkts := k }
    (s.setQp n { q with sq := q.sq ++ [w], spsn := (q.spsn + k) % 16777216, sentAt := if q.sq.isEmpty then s.now else q.sentAt }).sendWqe n w

-- ---------------------------------------------------------------------------------------------------------- rings

/-- Ring enabled, its kind, QP, size. -/
def State.ringEn (s : State) (r : Nat) : Bool := s.rb R.hstRing0 0 r 0
/-- HST_RING.KIND: 0 COMMAND, 1 COMPLETION, 2 EVENT. -/
def State.ringKind (s : State) (r : Nat) : Nat := s.rf R.hstRing0 0 r 1 2
/-- HST_RING.QP. -/
def State.ringQp (s : State) (r : Nat) : Nat := s.rf R.hstRing0 0 r 4 6
/-- Entries of a ring. -/
def State.ringSize (s : State) (r : Nat) : Nat := 2 ^ s.rf R.hstRing0 0 r 10 5
/-- HST_RING.PAIR. -/
def State.ringPair (s : State) (r : Nat) : Nat := s.rf R.hstRing0 0 r 15 8
/-- HST_RING VA. -/
def State.ringVa (s : State) (r : Nat) : Nat := (s.rd R.hstRing1 0 r).toNat + (s.rd R.hstRing2 0 r 0).toNat * 2 ^ 32
/-- HST_RING RKEY. -/
def State.ringKey (s : State) (r : Nat) : Word := s.rd R.hstRing2 0 r 1

/-- Entries between two free-running indices. -/
def idxDiff (a b : Nat) : Nat := (a + 4294967296 - b % 4294967296) % 4294967296

/-- Is there no entry of the ring that the host has released (R307)? -/
def State.ringFull (s : State) (r : Nat) : Bool := decide (s.ringSize r ≤ idxDiff (s.ring r).prod (s.ring r).cons)

/-- Write an entry of a ring the device produces (R307), while its QP is in RTS (R302); its PHASE put into bit 31 of the first word, and the signal
after every MODER + 1 entries. `entry` is 64 bytes with PHASE 0. -/
def State.produce (s : State) (r : Nat) (entry : List Byte) (jrec : Option Nat := none) : State :=
  let g := s.ring r
  let i := g.prod % s.ringSize r
  let phase := if (g.prod / s.ringSize r) % 2 = 0 then 128 else 0
  let e := entry.take 3 ++ [byteAt entry 3 ||| BitVec.ofNat 8 phase] ++ entry.drop 4
  let p' := (g.prod + 1) % 4294967296
  if (s.qp (s.ringQp r)).state ≠ 1 then s
  else
  let s := s.setRing r { g with prod := p' }
  let s := s.qpPost (s.ringQp r) { kind := .write, psn := 0, npkts := 0, rkey := s.ringKey r, va := s.ringVa r + 64 * i, bytes := e, jrec := jrec }
  if s.rb R.hstRing0 0 r 3 && decide (p' % (s.rf R.hstRaux 0 r 21 8 + 1) = 0) then
    s.qpPost (s.ringQp r) { kind := .send, psn := 0, npkts := 0, imm := r + (p' % 2 ^ 23) * 256 + 2 ^ 31 }
  else s

/-- The event ring an event of kind `k` goes to (R317): the lowest-numbered enabled one whose EVMASK has bit `k` set
and whose QP is in RTS. -/
def State.eventRing (s : State) (k : Nat) : Option Nat :=
  firstIdx 256 fun r => s.ringEn r && decide (s.ringKind r = 2) && s.rb R.hstRaux 0 r k && decide ((s.qp (s.ringQp r)).state = 1)

/-- Post an event (R317): kind, COUNT (IDLE only), the panel that raised it, and the body from byte 16. An event that
finds no ring is counted as EV_NOROUTE; one that finds its ring full is discarded and added to LOST, and a learn notice
is counted as LEARN_NLOST as well. -/
def State.postEvent (s : State) (kind count panel : Nat) (body : List Byte) : State :=
  match s.eventRing kind with
  | none => s.count 0x11 0 0
  | some r =>
    let g := s.ring r
    if s.ringFull r then
      let s := s.setRing r { g with lost := SMap.set g.lost 0 kind (min (SMap.get g.lost 0 kind + 1) 65535) }
      if kind = 1 then s.countP panel 26 else s
    else
      let lost := SMap.get g.lost 0 kind
      let s := s.setRing r { g with lost := SMap.set g.lost 0 kind 0 }
      s.produce r (leBytes 4 (kind + count * 256) ++ leBytes 4 (lost + panel * 65536) ++ leBytes 8 0 ++ sliceZ body 0 48)

-- ------------------------------------------------------------------------------------------------------ attention

/-- Set a cause of SV_ATTN (R330, R331): 0 MBX, 1 MODE, 2 FAULT, 3 REC, 4 ATTEST, 5 WAKE. -/
def State.setAttn (s : State) (n : Nat) : State := s.setRd R.svAttn 0 0 0 (w32 (setBit (s.rd R.svAttn 0 0).toNat n true))

/-- SV_ATTN_N is driven low (R330). -/
def State.attnLow (s : State) : Bool := decide ((s.rd R.svAttn 0 0 &&& s.rd R.svAen 0 0).toNat % 64 ≠ 0)

/-- SV_WAKE is driven high (R330). -/
def State.wakeHigh (s : State) : Bool := s.rb R.svAttn 0 0 5

/-- A Row Counter alert (R399): 0 FATAL_WRITTEN, 1 LOST_FATAL, 2 RING_HIGH, 3 FLASH_FAIL, with the SEQ of the record
concerned. -/
def State.recAlert (s : State) (cause seq : Nat) : State :=
  (s.setAttn 3).postEvent 6 0 0 (leBytes 4 cause ++ leBytes 8 seq ++ leBytes 4 s.rcd.lostf)

-- ---------------------------------------------------------------------------------------------------- Row Counter

/-- Is MEM 7, the Row Counter ring, fenced (R363, R393)? -/
def State.ringFenced (s : State) : Bool := s.isFenced 0 2 (7 * 256)

/-- Unflushed records in the ring. -/
def RecState.unflushed (c : RecState) : Nat := (c.ring.filter fun e => !e.2.flushed).length

/-- Place a record (R393). With MEM 7 fenced it goes to the flash controller's 64-record buffer. -/
def State.place (s : State) (r : RecSlot) : State :=
  let c := s.rcd
  let lose (c : RecState) := if 3 ≤ r.sev then { c with lostf := min (c.lostf + 1) 0xFFFFFFFF } else { c with lost := min (c.lost + 1) 0xFFFFFFFF }
  if s.ringFenced then
    if c.buf.length < 64 then { s with rcd := { c with buf := c.buf ++ [r], flushDue := c.flushDue || decide (c.buf.length = 63) || decide (3 ≤ r.sev) } }
    else { s with rcd := lose c }
  else
    let high := (c.ring.filter fun e => !e.2.flushed && decide (3 ≤ e.2.sev)).length
    if decide (3 ≤ r.sev) && decide (512 ≤ high) then { s with rcd := { c with lostf := min (c.lostf + 1) 0xFFFFFFFF } }
    else
      let start := match c.newest with | none => 0 | some n => (n + 1) % 4096
      let ok (k : Nat) : Bool := match SMap.find c.ring ((start + k) % 4096) with
        | none => true
        | some e => e.flushed || (decide (e.sev ≤ r.sev) && decide (e.sev < 3))
      match firstIdx 4096 ok with
      | none => { s with rcd := { c with lost := min (c.lost + 1) 0xFFFFFFFF } }
      | some k =>
        let n := (start + k) % 4096
        let lossy := match SMap.find c.ring n with | some e => !e.flushed | none => false
        let ring := SMap.put c.ring n r
        let unfl := (ring.filter fun e => !e.2.flushed).length
        { s with rcd := { c with ring := ring, newest := some n, lost := if lossy then min (c.lost + 1) 0xFFFFFFFF else c.lost, flushDue := c.flushDue || decide (3 ≤ r.sev) || decide (3072 ≤ unfl) } }

/-- The R27 stamp a record carries (R387): the domain of REC_CFG.STAMPDOM on the panel of origin; zero position and
epoch when it is not acquired. -/
def State.recStamp (s : State) (origin : Nat) : HWord :=
  let n := s.rf R.recCfg 0 0 16 4
  s.stamp (if origin ≤ 1 then origin else s.domHome n) n

/-- Write a record (R387, R388): SEQ is assigned as it enters the ring; the writer never assigns one at or above the
reserve (R396). It raises the alerts of R399. -/
def State.record (s : State) (kind sev part origin src : Nat) (body : List Byte) : State :=
  let c := s.rcd
  if c.reserve ≤ c.seq then s
  else
    let bs := leBytes 8 c.seq ++ leBytes 16 (s.recStamp origin).toNat ++
      leBytes 4 (kind + sev * 64 + part * 512 + origin * 4096 + src * 65536) ++ sliceZ body 0 32
    let s := { s with rcd := { c with seq := c.seq + 1, flushDue := c.flushDue || decide (c.reserve ≤ c.seq + 65537) } }
    let f := s.rcd.lostf
    let u := s.rcd.unflushed
    let s := s.place { bytes := bs ++ leBytes 4 (crc32c bs), sev := sev, seq := c.seq }
    let s := if s.rcd.lostf ≠ f then s.recAlert 1 c.seq else if 3 ≤ sev then s.recAlert 0 c.seq else s
    if u < 3072 && 3072 ≤ s.rcd.unflushed then s.recAlert 2 c.seq else s

/-- Histogram bin of a value (R390): kinds 1 and 3 in ns, kinds 2 and 4 in cells or counts. -/
def histBin (kind v : Nat) : Nat :=
  if kind % 2 = 1 then (if v < 16 then 0 else min 31 (Nat.log2 v - 3)) else if v = 0 then 0 else min 31 (Nat.log2 v + 1)

/-- Add `k` to a bin of a histogram of the running interval (R390, R391): 32 bits each, saturating. -/
def State.histAdd (s : State) (panel kind src bin k : Nat) : State :=
  let key := ((panel * 16 + kind) * 65536 + src) * 32 + bin
  { s with rcd := { s.rcd with hist := SMap.set s.rcd.hist 0 key (min 0xFFFFFFFF (SMap.get s.rcd.hist 0 key + k)) } }

/-- Raise a word of the COUNTS record of a unit kind (R389). -/
def State.countUnit (s : State) (panel unit word : Nat) : State :=
  let key := (panel * 64 + unit) * 8 + word
  { s with rcd := { s.rcd with counts := SMap.set s.rcd.counts 0 key (min 0xFFFFFFFF (SMap.get s.rcd.counts 0 key + 1)) } }

/-- A sample of an extreme (R392): the first of equal samples keeps it. -/
def State.extreme (s : State) (panel qty inst : Nat) (isMax : Bool) (v : Int) (stamp : HWord) : State :=
  let key := (panel * 16 + qty) * 65536 + inst
  let better := match SMap.find s.rcd.ext key with
    | none => true
    | some (w, _) => if isMax then decide (w < v) else decide (v < w)
  if better then { s with rcd := { s.rcd with ext := SMap.put s.rcd.ext key (v, stamp) } } else s

-- ---------------------------------------------------------------------------------------------------- completions

/-- The completion entry of a command (R311), less PHASE. -/
def cplEntry (status opcode ring seq tag index : Nat) (result : List Byte) : List Byte :=
  leBytes 4 (status + opcode * 256 + ring * 65536) ++ leBytes 4 seq ++ leBytes 8 tag ++ leBytes 4 index ++ sliceZ result 0 44

/-- A journal record is freed: its completion is WRITTEN (R315). -/
def State.jrnlWritten (s : State) (rec : Nat) : State :=
  match SMap.find s.hst.jrnl rec with
  | none => s
  | some j => { s with hst := { s.hst with jrnl := SMap.del s.hst.jrnl rec, seqs := if j.consumed then SMap.del s.hst.seqs (j.ring * 2 ^ 32 + j.seq) else s.hst.seqs } }

/-- A command completes (R311, R315): its journal record becomes DONE, the completion is written to the paired ring,
and it is no longer in flight. The completion of a ring that a QP in ERROR or RESET has stopped is discarded with its record
(R302). -/
def State.finish (s : State) (rec : Nat) (status : Nat) (result : List Byte) : State :=
  match SMap.find s.hst.jrnl rec with
  | none => s
  | some j =>
    let e := cplEntry status j.opcode j.ring j.seq j.tag j.index result
    let pr := s.ringPair j.ring
    let slot := (s.ring pr).prod
    let h := s.hst
    let s := { s with hst := { h with jrnl := SMap.put h.jrnl rec { j with state := .done, status := status, entry := e, slot := slot }, seqs := if j.consumed then SMap.put h.seqs (j.ring * 2 ^ 32 + j.seq) (status + 1) else h.seqs } }
    let g := s.ring j.ring
    let s := s.setRing j.ring { g with inflight := g.inflight - 1 }
    if (s.qp (s.ringQp pr)).state = 1 then s.produce pr e (some rec) else s.jrnlWritten rec

end Sys2Proof.Machine
end

