-- ==== Sys2Proof/Machine/SkeinOps.lean ====
section
/-! DEFINITION. Buffer pools (ch. 11): free lists and tags, shares of strands (R155, R156), allocation (R233, R235) and
freeing (R236–R238). -/

namespace Sys2Proof.Machine

/-- A pool. -/
def State.pool (s : State) (n : Nat) : Pool := SMap.get s.skn.pools {} n
/-- Replace a pool. -/
def State.setPool (s : State) (n : Nat) (p : Pool) : State := { s with skn := { s.skn with pools := SMap.set s.skn.pools {} n p } }

/-- Buffers on a pool's free list. -/
def State.poolFree (s : State) (n : Nat) : Nat :=
  if (s.pool n).gone then 0 else (s.poolCount n - (s.pool n).next) + (s.pool n).freed.length

/-- Can panel `req` reach the pool's home (R238)? -/
def State.poolReach (s : State) (req n : Nat) : Bool := !(s.pool n).gone && s.reach req (s.poolHome n)

/-- Is the pool in a group? -/
def State.inGroup (s : State) (n g : Nat) : Bool := s.rb R.sknPgrp 0 n g

/-- The pool chosen for `n` bytes from a group (R233): the enabled one with the smallest size ≥ n. -/
def State.choosePool (s : State) (g n : Nat) : Option Nat :=
  (idxs 32 fun p => s.poolEn p && s.inGroup p g && decide (n ≤ s.poolSize p)).foldl (fun best p => match best with
    | none => some p
    | some b => if s.poolSize p < s.poolSize b then some p else some b) none

/-- The pool and index of the buffer that starts at address `a` (R236). -/
def State.bufferAt (s : State) (a : Nat) : Option (Nat × Nat) :=
  (firstIdx 32 fun p => s.poolEn p && decide (s.poolBase p ≤ a) && decide (a < s.poolBase p + s.poolCount p * s.poolSize p)
    && decide ((a - s.poolBase p) % s.poolSize p = 0)).map fun p => (p, (a - s.poolBase p) / s.poolSize p)

/-- The enabled pool whose buffers include address `a`. -/
def State.poolOfAddr (s : State) (a : Nat) : Option Nat :=
  firstIdx 32 fun p => s.poolEn p && decide (s.poolBase p ≤ a) && decide (a < s.poolBase p + s.poolCount p * s.poolSize p)

/-- The tag of buffer `i` of pool `p` (R232). -/
def State.tag (s : State) (p i : Nat) : Nat := leVal (s.devBytes (s.poolHome p) (s.tagBase p + 4 * i) 4)
/-- Write a tag. -/
def State.setTag (s : State) (p i v : Nat) : State := s.devWrite (s.poolHome p) (s.tagBase p + 4 * i) (leBytes 4 v)
/-- The same through the SKEIN port, where the pool lies in DRAM (R289). -/
def State.putTag (s : State) (p i v : Nat) : State := (s.setTag p i v).askDram (s.poolHome p) 3 (s.tagBase p + 4 * i) 4 true

/-- Tag fields of an allocated buffer (R232): TENT, the owner's panel and code. -/
def mkTag (tent : Bool) (opanel owner : Nat) : Nat := 1 + 2 * b2n tent + 4 * opanel + 8 * owner

/-- The strands of a course. -/
def courseStrands (c : Nat) : List Nat := (List.range 104).map fun i => c * 104 + i

/-- Sum of a list. -/
def sumN (l : List Nat) : Nat := l.foldl (· + ·) 0

/-- GTB_SHB of a strand: BUFRES, BUFCAP, BUFDYN. -/
def State.bufRes (s : State) (t : Nat) : Nat := s.rf R.gtbShb (panelOf t) (kOf t) 0 12
/-- BUFCAP. -/
def State.bufCap (s : State) (t : Nat) : Nat := s.rf R.gtbShb (panelOf t) (kOf t) 12 12
/-- BUFDYN. -/
def State.bufDyn (s : State) (t : Nat) : Bool := s.rb R.gtbShb (panelOf t) (kOf t) 24
/-- Buffers charged to a strand. -/
def State.bufChg (s : State) (t : Nat) : Nat := SMap.get s.skn.chg 0 t

/-- SEP_CFG.COURSE of an endpoint. -/
def State.sepCourse (s : State) (e : Nat) : Nat := s.rf R.sepCfg 0 e 1 3

/-- Room in a course's buffer pool, GTB_CBUF less the reservations (R155): what strands have borrowed and endpoints
hold is taken from it. -/
def State.bufRoom (s : State) (c : Nat) : Bool :=
  let res := sumN ((courseStrands c).map s.bufRes)
  let used := sumN ((courseStrands c).map fun t => s.bufChg t - s.bufRes t)
  let ep := sumN ((idxs 43 fun e => decide (s.sepCourse e = c)).map fun e => SMap.get s.skn.epChg 0 e)
  decide (res + used + ep < s.rf R.gtbCbuf (coursePanel c) (c % 4) 0 20)

/-- Can one more buffer be charged to strand `t` (R156)? -/
def State.canChargeBuf (s : State) (t : Nat) : Bool :=
  decide (s.bufChg t < s.bufRes t) || (s.bufDyn t && decide (s.bufChg t + 1 ≤ s.bufCap t) && s.bufRoom (courseOf t))

/-- Who asks for a buffer (R235). -/
inductive BufReq where
  | strand (t : Nat) (tent : Bool) (full : Bool)   -- `full`: the attempt already holds 8 tentative buffers
  | endpoint (e : Nat)
  deriving DecidableEq, Repr

/-- The panel a request comes from. -/
def State.reqPanel (s : State) : BufReq → Nat
  | .strand t _ _ => panelOf t
  | .endpoint e => coursePanel (s.sepCourse e)

/-- Keep the fewest free buffers (SKN_PLOW). -/
def State.noteLow (s : State) (p : Nat) : State :=
  if s.poolFree p < (s.rd R.sknPlow 0 p).toNat then s.setRd R.sknPlow 0 p 0 (w32 (s.poolFree p)) else s

/-- Take the head of a pool's free list (R231). -/
def State.takeBuf (s : State) (p : Nat) : Option (Nat × State) :=
  let q := s.pool p
  if q.gone then none
  else if q.next < s.poolCount p then some (q.next, s.setPool p { q with next := q.next + 1 })
  else match q.freed with
    | [] => none
    | i :: rest => some (i, s.setPool p { q with freed := rest })

/-- An allocation of `n` bytes from group `g` (R233): the status, and on OK the pool and address. Status codes are
those of the hooks: 0 OK, 3 LL_FULL, 5 BAD_OPERAND, 7 EMPTY, 8 QUOTA, 9 NO_POOL. NO_POOL names no pool, so which
pool's counter it advances is a free choice (log entry 3). -/
def State.allocBuf (s : State) (r : BufReq) (g n : Nat) (rsvd : Bool) : Nat × Nat × Nat × State :=
  if n = 0 || 65536 < n || rsvd then (5, 0, 0, s)
  else match s.choosePool g n with
    | none => let (c, s) := s.freeN; (9, 0, 0, s.count 7 (c % 32) 1)
    | some p =>
      let full := match r with | .strand _ _ f => f | .endpoint _ => false
      let ok := match r with | .strand t _ _ => s.canChargeBuf t | .endpoint e => s.bufRoom (s.sepCourse e)
      if full then (3, 0, 0, s)
      else if !ok then (8, 0, 0, s)
      else if !s.poolReach (s.reqPanel r) p then (7, 0, 0, s.count 7 p 0)
      else match s.takeBuf p with
        | none => (7, 0, 0, s.count 7 p 0)
        | some (i, s) =>
          let (s, tag) := match r with
            | .strand t tent _ => ({ s with skn := { s.skn with chg := SMap.set s.skn.chg 0 t (s.bufChg t + 1) } }, mkTag tent (panelOf t) (kOf t))
            | .endpoint e => ({ s with skn := { s.skn with epChg := SMap.set s.skn.epChg 0 e (SMap.get s.skn.epChg 0 e + 1) } }, mkTag false (coursePanel (s.sepCourse e)) (448 + e))
          let s := (s.putTag p i tag).noteLow p
          (0, s.poolBase p + i * s.poolSize p, p, s)

/-- Release one buffer of a strand's charge (R235). -/
def State.unchargeStrand (s : State) (t : Nat) : State := { s with skn := { s.skn with chg := SMap.set s.skn.chg 0 t (s.bufChg t - 1) } }

/-- Release the charge of the owner a tag records (R235). -/
def State.uncharge (s : State) (tag : Nat) : State :=
  let o := bits tag 3 9
  if o < 448 then s.unchargeStrand (bits tag 2 1 * 416 + o)
  else
    let e := o - 448
    { s with skn := { s.skn with epChg := SMap.set s.skn.epChg 0 e (SMap.get s.skn.epChg 0 e - 1) } }

/-- Put a buffer back: ALLOC := 0, the other fields of its tag stand (R236), and it joins the tail of the free list, unless any of it
lies in a poisoned range (R238). -/
def State.returnBuf (s : State) (p i : Nat) : State :=
  let s := s.putTag p i (setBits (s.tag p i) 0 2 0)
  if s.devOk (s.poolHome p) (s.poolBase p + i * s.poolSize p) (s.poolSize p) then
    let q := s.pool p
    s.setPool p { q with freed := q.freed ++ [i] }
  else s.count 7 p 5

/-- A buffer is freed (R236): the charge is released against the owner its tag records (R235), and it goes back. -/
def State.putBuf (s : State) (p i : Nat) : State := (s.uncharge (s.tag p i)).returnBuf p i

/-- Can the tag of a buffer be read? -/
def State.tagOk (s : State) (p i : Nat) : Bool := s.devOk (s.poolHome p) (s.tagBase p + 4 * i) 4

/-- A freeing error (R236): the address, pool and kind are latched in SKN_EADDR, it is counted, and an error record is
written. The record's severity and UNIT are not stated for it and are free (log entry 3). -/
def State.freeError (s : State) (panel a p kind : Nat) : State :=
  let s := s.count 7 p (kind + 1)
  let s := s.setRd R.sknEaddrLo 0 0 0 (w32 a)
  let s := s.setRd R.sknEaddrHi 0 0 0 (w32 ((a / 2 ^ 32) % 256 + p * 256 + kind * 8192))
  let (v, s) := s.freeN
  let (u, s) := s.freeN
  let sev := 1 + v % 4
  let body := leBytes 4 (sev + (u % 64) * 256) ++ leBytes 4 0 ++
    leBytes 4 (s.rd R.sknEaddrLo 0 0).toNat ++ leBytes 4 (s.rd R.sknEaddrHi 0 0).toNat
  s.record 9 sev 0 panel (u % 64) body

/-- A freed address applied at the home of its pool (R236, R238): on behalf of panel `panel`. Answers 0 where the buffer
joined the free list, 1 for DOUBLE_FREE, 2 for FOREIGN_FREE, 3 where it could not be applied. A buffer whose tag lies in a poisoned
range cannot be judged: it is counted as POISONED and stays out of the free list, with its charge (log entry 96). -/
def State.freeBufAt (s : State) (panel a : Nat) : Nat × State :=
  match s.bufferAt a with
  | none => (3, s)
  | some (p, i) =>
    if (s.pool p).gone then (3, s.count 7 p 4)
    else if !s.reach panel (s.poolHome p) then
      if (s.skn.frees.filter fun e => decide (e.1 = panel)).length < 4096 then
        (0, { s with skn := { s.skn with frees := s.skn.frees ++ [(panel, a)] } })
      else (3, s.count 7 p 4)
    else if !s.tagOk p i then (3, s.count 7 p 5)
    else
      let tag := s.tag p i
      if !bit tag 0 then (1, s.freeError panel a p 1)
      else if bit tag 1 then (2, s.freeError panel a p 2)
      else (0, s.putBuf p i)

/-- Return a tentative buffer to the tail of its free list, and its charge to strand `t`, which allocated it (R237). -/
def State.dropTent (s : State) (a t : Nat) : State :=
  let s := s.unchargeStrand t
  match s.bufferAt a with
  | none => s
  | some (p, i) => if (s.pool p).gone then s.count 7 p 4 else s.returnBuf p i

/-- Confirm a tentative buffer at commit (R236): TENT := 0. -/
def State.confirmTent (s : State) (a : Nat) : State :=
  match s.bufferAt a with
  | none => s
  | some (p, i) => s.putTag p i (setBits (s.tag p i) 1 1 0)

/-- A pool is set up afresh (R239): every buffer freed, tags cleared, free list as R231. Charges of its buffers are
released. -/
def State.resetPool (s : State) (p : Nat) : State :=
  let n := s.poolCount p
  let s := (List.range n).foldl (fun s i =>
    let g := s.tag p i
    if bit g 0 then (s.setTag p i 0).uncharge g else s.setTag p i 0) s
  (s.setPool p {}).setRd R.sknPlow 0 p 0 (w32 n)

/-- The frees queued during a bridge failure are applied at rejoin (R238). -/
def State.applyFrees (s : State) : State :=
  let l := s.skn.frees
  l.foldl (fun s e => (s.freeBufAt e.1 e.2).2) { s with skn := { s.skn with frees := [] } }

end Sys2Proof.Machine
end

