-- ==== Sys2Proof/Machine/FlowOps.lean ====
section
/-! DEFINITION. Flow state (ch. 10): the stash index and records (R213–R219), the workbasket (R220), inserts and
deletes (R223, R224) and mirrors (R226, R227). `p` is the home panel throughout. -/

namespace Sys2Proof.Machine

/-- The reserved record index (R216). -/
def ridxNone : Nat := 0x1FFFFFF

/-- FLW_CFG.EN. -/
def State.flwEn (s : State) (p : Nat) : Bool := s.rb R.flwCfg p 0 0
/-- LOG2B. -/
def State.log2b (s : State) (p : Nat) : Nat := s.rf R.flwIdx p 0 24 5
/-- Base of the index region. -/
def State.idxBase (s : State) (p : Nat) : Nat := s.rf R.flwIdx p 0 0 24 * 65536
/-- Base of the record region. -/
def State.recBase (s : State) (p : Nat) : Nat := s.rf R.flwRec p 0 0 24 * 65536
/-- Record indices of the store, 2^(LOG2B + 2) (R216). -/
def State.numRidx (s : State) (p : Nat) : Nat := 2 ^ (s.log2b p + 2)
/-- Base of the mirror region on panel `p`. -/
def State.mirBase (s : State) (p : Nat) : Nat := s.rf R.flwMir p 0 0 24 * 65536
/-- LOG2M of panel `p`. -/
def State.log2m (s : State) (p : Nat) : Nat := s.rf R.flwMir p 0 24 5

/-- Device address of a record; 0x100_0000 + m names adopted mirror slot m (R216). -/
def State.recAddr (s : State) (p ridx : Nat) : Nat :=
  if 0x1000000 ≤ ridx then s.mirBase p + (ridx - 0x1000000) * 128 else s.recBase p + ridx * 128

/-- The bucket hash and the signature of a key (R217). -/
def State.flowHash (s : State) (p : Nat) (key : List Byte) : Nat := crc32cUpd (s.rd R.flwSeed p 0).toNat key
/-- The signature of a key (R217). -/
def State.flowSig (s : State) (p : Nat) (key : List Byte) : Nat :=
  crc32cUpd (s.rd R.flwSeed p 1).toNat key * 2 ^ 32 + crc32cUpd (s.rd R.flwSeed p 2).toNat key
/-- The bucket of a key (R217). -/
def State.flowBucket (s : State) (p : Nat) (key : List Byte) : Nat := s.flowHash p key % 2 ^ s.log2b p

/-- The 16 bytes of an index entry (R218). -/
def IdxEntry.bytes (e : IdxEntry) : List Byte :=
  leBytes 8 e.sig ++ leBytes 4 e.ridx ++ leBytes 4 (b2n e.valid + 2 * b2n e.rsv + 4 * b2n e.ms + (e.ver % 2 ^ 24) * 256)

/-- An index entry from its bytes. -/
def IdxEntry.ofBytes (bs : List Byte) : IdxEntry :=
  let f := leVal ((bs.drop 12).take 4)
  { sig := leVal (bs.take 8), ridx := leVal ((bs.drop 8).take 4), valid := bit f 0, rsv := bit f 1, ms := bit f 2, ver := bits f 8 24 }

/-- Where an index entry stands: a way of a bucket, the overflow store, or a way of the adopted mirror index. -/
inductive EntryLoc where
  | way (b w : Nat)
  | ovf (i : Nat)
  | mir (b w : Nat)
  deriving DecidableEq, Repr

/-- Address of a way of the index or of a mirror index on panel `q`. -/
def State.wayAddr (s : State) (p b w : Nat) : Nat := s.idxBase p + b * 64 + w * 16
/-- Address of a way of the mirror index of the region on panel `q` (R226). -/
def State.mirWayAddr (s : State) (q b w : Nat) : Nat := s.mirBase q + 2 ^ s.log2m q * 128 + b * 64 + w * 16

/-- The entry at a place, if the memory can be read. -/
def State.entryAt (s : State) (p : Nat) : EntryLoc → Option IdxEntry
  | .way b w => (s.devRead p (s.wayAddr p b w) 16).map IdxEntry.ofBytes
  | .ovf i => SMap.find (s.flw p).ovf i
  | .mir b w => (s.devRead p (s.mirWayAddr p b w) 16).map IdxEntry.ofBytes

/-- Write an index entry; a free overflow entry is not listed. -/
def State.setEntry (s : State) (p : Nat) (l : EntryLoc) (e : IdxEntry) : State :=
  match l with
  | .way b w => (s.devWrite p (s.wayAddr p b w) e.bytes).askDram p 0 (s.wayAddr p b w) 16 true
  | .ovf i =>
    let f := s.flw p
    s.setFlw p { f with ovf := if e.valid || e.rsv then SMap.put f.ovf i e else SMap.del f.ovf i }
  | .mir b w => (s.devWrite p (s.mirWayAddr p b w) e.bytes).askDram p 0 (s.mirWayAddr p b w) 16 true

/-- The key bytes of a record in DRAM, if they can be read. -/
def State.recKey (s : State) (p ridx : Nat) : Option (List Byte) := s.devRead p (s.recAddr p ridx) 48

/-- The places in which a lookup looks for a key (R219): the bucket's ways, then the overflow entries of the bucket,
then the adopted mirror index (R227). -/
def State.searchPlaces (s : State) (p : Nat) (key : List Byte) : List EntryLoc :=
  let b := s.flowBucket p key
  let f := s.flw p
  [.way b 0, .way b 1, .way b 2, .way b 3] ++ ((f.ovf.filter fun e => decide (e.2.bucket = b)).map fun e => EntryLoc.ovf e.1)
    ++ (if f.adopted && decide (2 ≤ s.log2m p) then
        let m := s.flowHash p key % 2 ^ (s.log2m p - 2)
        [.mir m 0, .mir m 1, .mir m 2, .mir m 3]
      else [])

/-- The record index a place names for the panel. -/
def EntryLoc.ridx (l : EntryLoc) (e : IdxEntry) : Nat := match l with | .mir _ _ => 0x1000000 + e.ridx | _ => e.ridx

/-- Is an entry of the mirror index one of an adopted mirror still held (R227)? Entries of mirrors that were freed out of reach or
discarded name nothing. Those of the stash's own index stand. -/
def State.adoptOk (s : State) (p : Nat) (l : EntryLoc) (e : IdxEntry) : Bool :=
  match l with | .mir _ _ => SMap.get (s.flw p).adoptUsed false e.ridx | _ => true

/-- Replace the adopted mirrors that panel `p` holds; FLW_STAT.ADOPTED shows whether there are any (R229). -/
def State.setAdopt (s : State) (p : Nat) (u : SMap Bool) : State :=
  s.setFlw p { s.flw p with adoptUsed := u, adopted := u.any fun e => e.2 }

/-- A lookup by key (R219): the entry found, and the number of records whose signature matched and whose key did not
before it (SIG_ALIAS). -/
def State.flowSearch (s : State) (p : Nat) (key : List Byte) : Nat × Option (EntryLoc × IdxEntry) :=
  let sig := s.flowSig p key
  (s.searchPlaces p key).foldl (fun acc l => match acc.2 with
    | some _ => acc
    | none => match s.entryAt p l with
      | none => acc
      | some e =>
        if e.valid && decide (e.sig = sig) && s.adoptOk p l e then
          match s.recKey p (l.ridx e) with
          | none => acc
          | some k => if k = key then (acc.1, some (l, e)) else (acc.1 + 1, none)
        else acc) (0, none)

/-- A lookup, with its aliases counted. -/
def State.flowLookup (s : State) (p : Nat) (key : List Byte) : Option (EntryLoc × IdxEntry) × State :=
  let r := s.flowSearch p key
  (r.2, s.countN 3 p 31 r.1)

/-- Does a record index name a record (R216)? -/
def State.hasRecord (s : State) (p ridx : Nat) : Bool :=
  if 0x1000000 ≤ ridx then (s.flw p).adopted && SMap.get (s.flw p).adoptUsed false (ridx - 0x1000000)
  else SMap.get (s.flw p).used false ridx

/-- The index entry that names a record. -/
def State.entryOf (s : State) (p ridx : Nat) : Option (EntryLoc × IdxEntry) :=
  (s.recKey p ridx).bind fun key =>
    (s.searchPlaces p key).findSome? fun l => match s.entryAt p l with
      | some e => if e.valid && decide (l.ridx e = ridx) && s.adoptOk p l e then some (l, e) else none
      | none => none

-- ------------------------------------------------------------------------------------------------------ contexts

/-- A context of the workbasket. -/
def State.ctx (s : State) (p slot : Nat) : Ctx := SMap.get (s.flw p).ctxs {} slot
/-- Replace a context. -/
def State.setCtx (s : State) (p slot : Nat) (c : Ctx) : State :=
  let f := s.flw p
  s.setFlw p { f with ctxs := SMap.set f.ctxs {} slot c }

/-- The context that holds the record of an index. -/
def State.ctxOf (s : State) (p ridx : Nat) : Option Nat :=
  ((s.flw p).ctxs.find? fun e => (decide (e.2.state = .clean) || decide (e.2.state = .dirty) || decide (e.2.state = .filling)) && decide (e.2.ridx = ridx) && decide (ridx ≠ ridxNone)).map (·.1)

/-- The context that holds a key: a record's, an ABSENCE, or one filling for it. -/
def State.ctxOfKey (s : State) (p : Nat) (key : List Byte) : Option Nat :=
  ((s.flw p).ctxs.find? fun e => decide (e.2.state ≠ .free) && decide (e.2.data.take 48 = key)).map (·.1)

/-- Contexts of the workbasket in a slice: 131,072 contexts over 64 slices (R220, R363). -/
def ctxSlice (slot : Nat) : Nat := slot / 2048

/-- Is the slice of a context fenced (R228)? -/
def State.ctxFenced (s : State) (p slot : Nat) : Bool := s.isFenced p 2 (256 + ctxSlice slot)

/-- Is a context pinned (R220): FILLING or named by a miss not served, referred to by a read set, or locked? -/
def State.pinned (s : State) (p slot : Nat) : Bool :=
  let c := s.ctx p slot
  decide (c.state = .filling) || (s.flw p).missQ.contains slot ||
  s.lls.any (fun e => decide (e.2.state ≠ .free) && e.2.rs.any fun r => decide (r.home = p) &&
    (if r.absent then decide (r.ver = slot) else decide (r.ridx = c.ridx) && !r.gone && decide (c.state ≠ .absence))) ||
  (s.flw p).locks.any fun l => !l.onBucket && decide (l.key = c.ridx)

/-- ABSENCE contexts that nothing pins become FREE (R222). -/
def State.sweepAbsence (s : State) (p : Nat) : State :=
  ((s.flw p).ctxs.filter fun e => decide (e.2.state = .absence) && !s.pinned p e.1).foldl (fun s e => s.setCtx p e.1 {}) s

/-- Write a DIRTY context's record back to the stash. -/
def State.writeBack (s : State) (p slot : Nat) : State :=
  let c := s.ctx p slot
  if c.state = .dirty then
    (((s.devWrite p (s.recAddr p c.ridx) c.data).askDram p 0 (s.recAddr p c.ridx) 128 true).setCtx p slot { c with state := .clean }).countP p 34
  else s

/-- Take a context for a new record (R220), in a slice that is not fenced: a FREE one, else a victim of the clock sweep, written back if
DIRTY. -/
def State.takeCtx (s : State) (p : Nat) : Nat × State :=
  let ok (n : Nat) : Bool := !s.pinned p n && !s.ctxFenced p n
  match firstIdx 131072 fun n => (SMap.find (s.flw p).ctxs n).isNone && ok n with
  | some n => (n, s)
  | none =>
    let h := (s.flw p).hand
    let v := match firstIdx 131072 fun k => ok ((h + k) % 131072) with
      | some k => (h + k) % 131072
      | none => h
    let s := (s.writeBack p v).countP p 33
    let s := s.setFlw p { s.flw p with hand := (v + 1) % 131072 }
    (v, s.setCtx p v {})

/-- Fill a context with a record from the stash (R220): its version takes the index entry's VER. -/
def State.fillRecord (s : State) (p slot ridx : Nat) : State :=
  let ver := match s.entryOf p ridx with | some (_, e) => e.ver | none => 0
  s.setCtx p slot { state := .clean, ridx := ridx, ver := ver, data := s.devBytes p (s.recAddr p ridx) 128 }

/-- Fill a FILLING context with a record, unless another context came to hold it meanwhile: then this one is FREE, and its
readers find the other. -/
def State.fillOnce (s : State) (p slot ridx : Nat) : State :=
  if (s.flw p).ctxs.any fun e => decide (e.1 ≠ slot) && decide (e.2.ridx = ridx) && !(decide (e.2.state = .free) || decide (e.2.state = .absence)) then
    s.setCtx p slot {}
  else s.fillRecord p slot ridx

/-- Fill a FILLING context (R221, R222): with the record of its key or index, or as an ABSENCE of its key. A read by an
index that holds no record leaves no context. A context that has been filled meanwhile stays as it is. -/
def State.fillCtx (s : State) (p slot : Nat) : State :=
  let c := s.ctx p slot
  if c.state ≠ .filling then s
  else if c.ridx = ridxNone then
    let (r, s) := s.flowLookup p c.data
    match r with
    | some (l, e) => s.fillOnce p slot (l.ridx e)
    | none => s.setCtx p slot { state := .absence, ridx := ridxNone, ver := 0, data := c.data }
  else if s.hasRecord p c.ridx && s.devOk p (s.recAddr p c.ridx) 128 then s.fillOnce p slot c.ridx
  else s.setCtx p slot {}

/-- The context of a record, loaded if it is not resident or its miss is outstanding. -/
def State.loadCtx (s : State) (p ridx : Nat) : Nat × State :=
  match s.ctxOf p ridx with
  | some n => (n, if (s.ctx p n).state = .filling then s.fillRecord p n ridx else s)
  | none =>
    let (n, s) := s.takeCtx p
    (n, s.fillRecord p n ridx)

/-- The committed 128 bytes of a record: its context's, or the stash's. -/
def State.recBytes (s : State) (p ridx : Nat) : List Byte :=
  match s.ctxOf p ridx with
  | some n => if (s.ctx p n).state = .filling then s.devBytes p (s.recAddr p ridx) 128 else (s.ctx p n).data
  | none => s.devBytes p (s.recAddr p ridx) 128

/-- The context version of a record: its context's, or its index entry's while it is not resident or its miss is outstanding. -/
def State.recVer (s : State) (p ridx : Nat) : Nat :=
  let stored := match s.entryOf p ridx with | some (_, e) => e.ver | none => 0
  match s.ctxOf p ridx with
  | some n => if (s.ctx p n).state = .filling then stored else (s.ctx p n).ver
  | none => stored

-- ------------------------------------------------------------------------------------------------ staged effects

/-- Bytes of a WIDTH code of R111. -/
def widthBytes (w : Nat) : Nat := 2 ^ w

/-- Write bytes into a state area (80 bytes) at an offset; MS, FLAGS bit 0, is left unchanged (R214). -/
def putState (st v : List Byte) (off : Nat) : List Byte :=
  let n := overlay st v off
  let old := (byteAt st 76) &&& 1#8
  n.set 76 (((byteAt n 76) &&& 0xFE#8) ||| old)

/-- The effect of an ADD, SET or CAS entry on a state area (R111). -/
def StEntry.apply (e : StEntry) (st : List Byte) : List Byte :=
  let n := widthBytes e.width
  match e.op with
  | .add => putState st (leBytes n (leVal (sliceZ st e.off n) + e.operand)) e.off
  | .set => putState st (leBytes n e.operand) e.off
  | .cas => putState st (leBytes n (e.operand / 2 ^ 64)) e.off
  | _ => st

/-- Check 3 of R113 for one entry: the field equals the compare operand. -/
def StEntry.casOk (e : StEntry) (st : List Byte) : Bool :=
  let n := widthBytes e.width
  match e.op with
  | .cas => decide (leVal (sliceZ st e.off n) = e.operand % 2 ^ 64 % 2 ^ (8 * n))
  | _ => true

/-- The state area of a record as committed. -/
def State.recState (s : State) (p ridx : Nat) : List Byte := (s.recBytes p ridx).drop 48

/-- Does entry `e` of a log act on the same context as read-set entry `i` or record `ridx`? -/
def StEntry.onCtx (e : StEntry) (i ridx : Nat) : Bool :=
  match e.op with
  | .bufFree => false
  | _ => if e.rsi = 15 then decide (e.target = ridx) else decide (e.rsi = i) || decide (e.target = ridx && ridx ≠ ridxNone)

/-- The view of R110: a committed state area with the item's own staged effects applied in log order; an insert gives a
zero state area. -/
def viewState (st : List Byte) (log : List StEntry) (i ridx : Nat) : List Byte :=
  log.foldl (fun st e => if e.onCtx i ridx then (match e.op with | .insert => List.replicate 80 0#8 | _ => e.apply st) else st) st

/-- Write the copy of a record with MS = 1 into its mirror (R226), while the panels are joined. -/
def State.mirrorRec (s : State) (p ridx : Nat) : State :=
  match (s.flw p).mirSlots.find? fun e => decide (e.2 = ridx + 1) with
  | none => s
  | some (m, _) => if s.joined then (s.devWrite p (s.mirBase (1 - p) + m * 128) (s.recBytes p ridx)).askDram p 0 (s.mirBase (1 - p) + m * 128) 128 true else s.setFlw p { s.flw p with mirsync := false }

/-- The FIRST_SEEN and LAST_SEEN value of R214: position and epoch of SEENDOM; zero where its epoch is 0. -/
def State.seenVal (s : State) (p : Nat) : Nat :=
  let n := s.rf R.flwCfg p 0 1 4
  let e := (s.dom p n).epoch
  if e = 0 then 0 else s.est p n + e * 2 ^ 48

/-- A commit's end for one context (R115): AUTOSEEN (R214), the version rises by one, and the mirror follows. -/
def State.endCtx (s : State) (p ridx : Nat) (inserted : Bool) : State :=
  let (n, s) := s.loadCtx p ridx
  let c := s.ctx p n
  let st := c.data.drop 48
  let st := if s.rb R.flwCfg p 0 5 then
      let v := leBytes 8 (s.seenVal p)
      if inserted then putState (putState st v 48) v 56 else putState st v 56
    else st
  let s := s.setCtx p n { c with data := c.data.take 48 ++ st, ver := (c.ver + 1) % 2 ^ 24, state := .dirty }
  s.mirrorRec p ridx

/-- Apply an ADD, SET or CAS entry to a record's context. -/
def State.applyRec (s : State) (p ridx : Nat) (e : StEntry) : State :=
  if !s.hasRecord p ridx then s
  else
    let (n, s) := s.loadCtx p ridx
    let c := s.ctx p n
    s.setCtx p n { c with data := c.data.take 48 ++ e.apply (c.data.drop 48), state := .dirty }

/-- Free record indices (FLW_FREE): the store less those that hold a record and those reserved. -/
def State.freeRidx (s : State) (p : Nat) : Nat := s.numRidx p - ((s.flw p).used.filter fun e => e.2).length - ((s.flw p).rsvd.filter fun e => e.2).length

/-- May a new record be placed at an index: unused, not reserved, and not on a fenced channel (R298)? -/
def State.ridxOk (s : State) (p i : Nat) : Bool :=
  decide (i < s.numRidx p) && !SMap.get (s.flw p).used false i && !SMap.get (s.flw p).rsvd false i && s.devOk p (s.recAddr p i) 1 && s.devOk p (s.recAddr p i + 127) 1

/-- The lowest index from `k` that may take a new record. -/
def State.nextRidx (s : State) (p : Nat) : Nat → Nat → Option Nat
  | _, 0 => none
  | k, n + 1 => if s.ridxOk p k then some k else s.nextRidx p (k + 1) n

/-- A free record index (R223): which one is a free choice (log entry 3). -/
def State.pickRidx (s : State) (p : Nat) : Option Nat × State :=
  let (c, s) := s.freeN
  let c := c % s.numRidx p
  if s.ridxOk p c then (some c, s) else (s.nextRidx p 0 (s.numRidx p), s)

/-- The place an insert takes (R223): the lowest free way of the key's bucket, else the lowest free overflow entry. -/
def State.freePlace (s : State) (p : Nat) (key : List Byte) : Option EntryLoc :=
  let b := s.flowBucket p key
  match firstIdx 4 fun w => match s.entryAt p (.way b w) with
      | some e => !e.valid && !e.rsv
      | none => false with
  | some w => some (.way b w)
  | none => (SMap.firstFree (s.flw p).ovf 0 65536).map .ovf

/-- Code of a place in a stage-log entry, so that its release can find it. -/
def EntryLoc.code : EntryLoc → Nat
  | .way b w => 65536 + b * 4 + w
  | .ovf i => i
  | .mir _ _ => 0

/-- The place of a code. -/
def locOfCode (c : Nat) : EntryLoc := if c < 65536 then .ovf c else .way ((c - 65536) / 4) ((c - 65536) % 4)

/-- Reserve an entry and a record index for a key (R223): the place and the index, or none. -/
def State.reserve (s : State) (p : Nat) (key : List Byte) : Option (Nat × Nat) × State :=
  match if s.flwEn p then s.freePlace p key else none with
  | none => (none, s.countP p 35)
  | some l =>
    let (r, s) := s.pickRidx p
    match r with
    | none => (none, s.countP p 35)
    | some i =>
      let s := s.setEntry p l { rsv := true, ridx := i, bucket := s.flowBucket p key }
      (some (l.code, i), s.setFlw p { s.flw p with rsvd := SMap.set (s.flw p).rsvd false i true })

/-- Release a reservation (R223). -/
def State.unreserve (s : State) (p loc ridx : Nat) : State :=
  let s := s.setEntry p (locOfCode loc) {}
  s.setFlw p { s.flw p with rsvd := SMap.set (s.flw p).rsvd false ridx false }

/-- The record of a key comes into being at a reserved place (R223): the key and a zero state area, the index entry
VALID. -/
def State.makeRecord (s : State) (p loc ridx : Nat) (key : List Byte) : State :=
  let s := (s.devWrite p (s.recAddr p ridx) (key ++ List.replicate 80 0#8)).askDram p 0 (s.recAddr p ridx) 128 true
  let f := s.flw p
  let s := s.setFlw p { f with rsvd := SMap.set f.rsvd false ridx false, used := SMap.set f.used false ridx true }
  s.setEntry p (locOfCode loc) { sig := s.flowSig p key, ridx := ridx, valid := true, bucket := s.flowBucket p key }

/-- Free the mirror slot of a record, with its index entry (R226). -/
def State.freeMirror (s : State) (p ridx : Nat) : State :=
  match (s.flw p).mirSlots.find? fun e => decide (e.2 = ridx + 1) with
  | none => s
  | some (m, _) =>
    let s := s.setFlw p { s.flw p with mirSlots := SMap.del (s.flw p).mirSlots m }
    let q := 1 - p
    let nb := 2 ^ (s.log2m q - 2)
    match s.recKey p ridx with
    | none => s
    | some key =>
      let b := crc32cUpd (s.rd R.flwSeed q 0).toNat key % nb
      match firstIdx 4 fun w => match s.devRead p (s.mirWayAddr q b w) 16 with
          | some bs => (IdxEntry.ofBytes bs).valid && decide ((IdxEntry.ofBytes bs).ridx = m)
          | none => false with
      | some w => s.devWrite p (s.mirWayAddr q b w) (({} : IdxEntry)).bytes
      | none => s

/-- The read-set entries of panel `p` whose record is one of those that go (R224, R228): from now on they fail check 1 of R113,
whatever the index comes to hold. -/
def State.markGoneIf (s : State) (p : Nat) (q : Nat → Bool) : State :=
  let g (r : RsEntry) : RsEntry := { r with gone := r.gone || (decide (r.home = p) && q r.ridx && !r.absent) }
  { s with lls := s.lls.map fun e => (e.1, { e.2 with rs := e.2.rs.map g }) }

/-- The read-set entries that hold a record which is deleted (R224). -/
def State.markGone (s : State) (p ridx : Nat) : State := s.markGoneIf p fun i => decide (i = ridx)

/-- A record goes with its context, unless a miss is outstanding on it, which finds the record absent when it is served. -/
def State.dropCtx (s : State) (p ridx : Nat) : State :=
  match s.ctxOf p ridx with
  | some n => if (s.ctx p n).state = .filling then s else s.setCtx p n {}
  | none => s

/-- A record is deleted (R224): the index entry and the record index are freed, its context becomes FREE, and the items that
read it fail check 1 of R113. -/
def State.deleteRecord (s : State) (p ridx : Nat) : State :=
  let s := (s.freeMirror p ridx).markGone p ridx
  let s := match s.entryOf p ridx with
    | some (l, _) => s.setEntry p l {}
    | none => s
  let s := s.dropCtx p ridx
  let f := s.flw p
  if 0x1000000 ≤ ridx then s.setAdopt p (SMap.set f.adoptUsed false (ridx - 0x1000000) false)
  else s.setFlw p { f with used := SMap.set f.used false ridx false }

/-- The stash is emptied (R229): index, overflow store, records in use, workbasket, miss queue and locks. -/
def State.emptyStash (s : State) (p : Nat) : State :=
  let s := s.markGoneIf p fun i => decide (i < 0x1000000)
  let s := s.setFlw p { ({} : FlwPanel) with hand := 0, mirsync := (s.flw p).mirsync, adopted := (s.flw p).adopted, adoptUsed := (s.flw p).adoptUsed }
  let a := s.idxBase p
  let n := 2 ^ s.log2b p * 64
  { s with mem := { s.mem with dev := s.mem.dev.filter fun c => !(decide (a ≤ s.keyAddr c.1) && decide (s.keyAddr c.1 < a + n)) } }

/-- MIRSYNC as FLW_STAT shows it (R227): 0 from reset until the panel enters CONFIG. -/
def State.mirsync (s : State) (p : Nat) : Bool := (s.flw p).mirsync

-- ---------------------------------------------------------------------------------------------------------- locks

/-- The lock on a context or bucket held by someone other than lifeline `k` (R116). -/
def State.lockedByOther (s : State) (p : Nat) (onBucket : Bool) (key k : Nat) : Bool :=
  (s.flw p).locks.any fun l => decide (l.onBucket = onBucket) && decide (l.key = key) && decide (l.holder ≠ k)

/-- Take a lock. -/
def State.takeLock (s : State) (p : Nat) (onBucket : Bool) (key k : Nat) : State :=
  let f := s.flw p
  if f.locks.any fun l => decide (l.onBucket = onBucket) && decide (l.key = key) then s
  else s.setFlw p { f with locks := f.locks ++ [{ onBucket := onBucket, key := key, holder := k }] }

/-- Free every lock a lifeline holds. -/
def State.freeLocks (s : State) (k : Nat) : State :=
  let g (s : State) (p : Nat) := s.setFlw p { s.flw p with locks := (s.flw p).locks.filter fun l => decide (l.holder ≠ k) }
  g (g s 0) 1

end Sys2Proof.Machine
end

