-- ==== Sys2Proof/Machine/CarOps.lean ====
section
/-! DEFINITION. Ordering domains and markers (R97–R99, R114), ready lists (R102–R104), lifelines and their shares
(R107, R155, R156), and what ends an attempt or an item (R114, R116, R237). -/

namespace Sys2Proof.Machine

-- --------------------------------------------------------------------------------------------- ordering domains

/-- Key of an ordering domain of a panel (R97). -/
def odKey (p d : Nat) : Nat := p * 16384 + d
/-- The marker state of an ordering domain. -/
def State.od (s : State) (p d : Nat) : Odom := SMap.get s.odoms {} (odKey p d)
/-- Replace it. -/
def State.setOd (s : State) (p d : Nat) (o : Odom) : State := { s with odoms := SMap.set s.odoms {} (odKey p d) o }
/-- A marker slot. -/
def Odom.slot (o : Odom) (m : Nat) : Slot := SMap.get o.slots .empty m
/-- Set a marker slot. -/
def Odom.setSlot (o : Odom) (m : Nat) (v : Slot) : Odom := { o with slots := SMap.set o.slots .empty m v }

/-- HEAD passes its marker: the slot is EMPTY and the marker's frame no longer counts for its generation. -/
def Odom.pass (o : Odom) : Odom :=
  { o.setSlot o.head .empty with head := (o.head + 1) % 65536, gens := SMap.del o.gens o.head }

/-- HEAD passes DROP and RELEASED slots (R114), counting each drop under its cause. -/
def State.passHead (s : State) (p d : Nat) : Nat → State
  | 0 => s
  | n + 1 =>
    let o := s.od p d
    let next := o.pass
    match o.slot o.head with
    | .drop c => (match c with
        | some k => (s.setOd p d next).countP p k
        | none => s.setOd p d next).passHead p d n
    | .released => (s.setOd p d next).passHead p d n
    | _ => s

/-- Let HEAD advance as far as it can; the window holds at most 512 markers (R98). -/
def State.advanceHead (s : State) (p d : Nat) : State := s.passHead p d 512

/-- Set the slot of an item that holds a marker. -/
def State.setMark (s : State) (w : WorkItem) (v : Slot) : State :=
  if w.ord then s.setOd w.panel w.odom ((s.od w.panel w.odom).setSlot w.marker v) else s

/-- An item is released as a drop under a cause (R114): with a marker its slot becomes DROP and it is counted when HEAD
passes it; without one it is counted now. -/
def State.dropMark (s : State) (w : WorkItem) (cause : Nat) : State :=
  if w.ord then (s.setMark w (.drop (some cause))).advanceHead w.panel w.odom else s.countP w.panel cause

-- -------------------------------------------------------------------------------------------------------- lists

/-- Panel of a list. -/
def listPanel (l : Nat) : Nat := l / 512
/-- CAR_QCFG of a list: EN. -/
def State.listEn (s : State) (l : Nat) : Bool := s.rb R.carQcfg (listPanel l) (l % 512) 0
/-- ATTR: 0 ORDERED, 1 ATOMIC, 2 PARALLEL. -/
def State.listAttr (s : State) (l : Nat) : Nat := s.rf R.carQcfg (listPanel l) (l % 512) 1 2
/-- PRIO. -/
def State.listPrio (s : State) (l : Nat) : Nat := s.rf R.carQcfg (listPanel l) (l % 512) 3 3
/-- STEAL. -/
def State.listSteal (s : State) (l : Nat) : Nat := s.rf R.carQcfg (listPanel l) (l % 512) 8 8
/-- DEPTH. -/
def State.listDepth (s : State) (l : Nat) : Nat := s.rf R.carQcfg (listPanel l) (l % 512) 16 16
/-- The items of a list on chip. -/
def State.items (s : State) (l : Nat) : List WorkItem := SMap.get s.car.lists [] l
/-- Replace them. -/
def State.setItems (s : State) (l : Nat) (x : List WorkItem) : State := { s with car := { s.car with lists := SMap.set s.car.lists [] l x } }
/-- The items of a list's spill ring. -/
def State.spilled (s : State) (l : Nat) : List WorkItem := SMap.get s.car.spill [] l
/-- Replace them. -/
def State.setSpilled (s : State) (l : Nat) (x : List WorkItem) : State := { s with car := { s.car with spill := SMap.set s.car.spill [] l x } }
/-- A panel's hold queue. -/
def State.holdQ (s : State) (p : Nat) : List WorkItem := if p = 0 then s.car.holdA else s.car.holdB
/-- Replace it. -/
def State.setHoldQ (s : State) (p : Nat) (x : List WorkItem) : State :=
  if p = 0 then { s with car := { s.car with holdA := x } } else { s with car := { s.car with holdB := x } }

/-- Lifelines in use on a panel (CAR_STAT.LLUSE). -/
def State.llUse (s : State) (p : Nat) : Nat :=
  (s.lls.filter fun e => decide (e.1 / 4096 = p) && decide (e.2.state ≠ .free)).length

/-- Places taken in a panel's Carriage store (CAR_STAT.ITEMS, R104): items on chip without a lifeline, and every
lifeline in use, whose item keeps its place. -/
def State.storeUse (s : State) (p : Nat) : Nat :=
  sumN ((s.car.lists.filter fun e => decide (listPanel e.1 = p)).map fun e => (e.2.filter fun w => w.ll.isNone).length) + s.llUse p

/-- Places of a panel's Carriage store: 32,768 less those of fenced slices (R100, R363). -/
def State.storeSize (s : State) (p : Nat) : Nat := 32768 - 8192 * (idxs 4 fun i => s.isFenced p 2 (6 * 256 + i)).length

/-- Places of 32 bytes in a list's slice of its panel's spill region (R104). -/
def State.spillPlaces (s : State) (l : Nat) : Nat := 2 ^ (24 + s.rf R.carSpcfg (listPanel l) 0 1 3) / 512 / 32

/-- Device address of a place in a list's slice (R104). -/
def State.spillAddr (s : State) (l i : Nat) : Nat :=
  s.rf R.carSpcfg (listPanel l) 0 8 24 * 65536 + l % 512 * (32 * s.spillPlaces l) + 32 * i

/-- Is a place poisoned: does it lie in a grain of a fenced channel (R298)? -/
def State.spillPoison (s : State) (l i : Nat) : Bool := decide (s.devBad (listPanel l) (s.spillAddr l i) = some 4)

/-- The place of the ring that the list's next spilled item takes: the next one, less those in fenced grains (R298), if it does not
reach the oldest item. -/
def State.spillPlace (s : State) (l : Nat) : Option Nat :=
  let n := s.spillPlaces l
  let t := SMap.get s.car.spillNext 0 l % n
  let room := match (s.spilled l).head? with
    | none => n
    | some w => (w.ring.getD t + n - t) % n
  (firstIdx room fun d => !s.spillPoison l ((t + d) % n)).map fun d => (t + d) % n

/-- Write an item to a list's spill ring (R104), if the ring has room. -/
def State.spillTo (s : State) (l : Nat) (w : WorkItem) : Option State :=
  (s.spillPlace l).map fun i =>
    let s := s.setSpilled l (s.spilled l ++ [{ w with ring := some i }])
    let s := { s with car := { s.car with spillNext := SMap.set s.car.spillNext 0 l ((i + 1) % s.spillPlaces l) } }
    (s.devWrite (listPanel l) (s.spillAddr l i) (w.words.flatMap fun v => leBytes 4 v.toNat)).askDram (listPanel l) 2 (s.spillAddr l i) 32 true

/-- Append an item to a list, less the hold queue (R104 rows 2–4): the state with the item stored, or none. -/
def State.storeItem (s : State) (l : Nat) (w : WorkItem) : Option State :=
  let sp := s.spilled l
  let room := (s.spillPlace l).isSome
  if !sp.isEmpty && room then s.spillTo l w
  else if sp.isEmpty && decide ((s.items l).length < s.listDepth l) && decide (s.storeUse (listPanel l) < s.storeSize (listPanel l)) then
    some (s.setItems l (s.items l ++ [w]))
  else if s.rb R.carQcfg (listPanel l) (l % 512) 6 && s.rb R.carSpcfg (listPanel l) 0 0 && room then
    s.spillTo l w
  else none

/-- Append an item to a list by the rows of R104: the state with the item taken, or none where row 6 applies. -/
def State.appendItem (s : State) (w : WorkItem) : Option State :=
  let p := listPanel w.list
  let hq := s.holdQ p
  let hold := if hq.length < 256 then some (s.setHoldQ p (hq ++ [w])) else none
  if hq.any fun x => decide (x.list = w.list) then hold
  else match s.storeItem w.list w with
    | some s => some s
    | none => hold

/-- An item re-enters its list at the head (R104, R108). -/
def State.requeue (s : State) (w : WorkItem) : State := s.setItems w.list (w :: s.items w.list)

/-- Keep the WORK items that row 6 of R104 holds back; descriptor fetch pauses for their rings. -/
def State.setHeldWork (s : State) (l : List (Nat × WorkItem)) : State :=
  { s with hst := { s.hst with heldWork := l, pausedWork := l.foldl (fun (m : SMap Bool) (e : Nat × WorkItem) => SMap.put m e.1 true) [] } }

/-- The WORK items held back at their rings are offered to their lists again, each list's in order. -/
def State.retryWork (s : State) : State :=
  let r := s.hst.heldWork.foldl (fun (acc : State × List (Nat × WorkItem)) (e : Nat × WorkItem) =>
    if acc.2.any fun x => decide (x.2.list = e.2.list) then (acc.1, acc.2 ++ [e])
    else match acc.1.appendItem e.2 with
      | some s => (s, acc.2)
      | none => (acc.1, acc.2 ++ [e])) (s, [])
  r.1.setHeldWork r.2

/-- A HOST item is offered to its list (R103, R104): refused with NO_LIST, also where the list's panel cannot be reached (R12, log
entry 93), appended, or held back at its ring. -/
def State.offerWork (s : State) (ring : Nat) (w : WorkItem) : State :=
  if !s.listEn w.list || !s.reach (b2n s.hst.port2) (listPanel w.list) then (match w.work with | some r => s.finish r 0x0C [] | none => s)
  else if s.hst.heldWork.any fun x => decide (x.2.list = w.list) then s.setHeldWork (s.hst.heldWork ++ [(ring, w)])
  else match s.appendItem w with
    | some s => s
    | none => s.setHeldWork (s.hst.heldWork ++ [(ring, w)])

/-- The work item of a WORK command (R100, R314): KIND HOST on LIST, ARG the command's SEQ. -/
def State.workItem (s : State) (r : Nat) (j : JRec) : WorkItem :=
  { kind := .host, list := j.list, attempt := 1, caston := s.tcount, born := s.now, panel := listPanel j.list, arg := j.seq, work := some r, fmeta := sliceZ j.payload 0 48 }

/-- The hold queue is retried (R104): each list's held items leave it in first-in first-out order; an item that cannot
move holds back only the later items of its own list. WORK items that row 6 holds back at their rings follow. -/
def State.retryHold (s : State) (p : Nat) : State :=
  let r := (s.holdQ p).foldl (fun (acc : State × List WorkItem) w =>
    if acc.2.any fun x => decide (x.list = w.list) then (acc.1, acc.2 ++ [w])
    else match acc.1.storeItem w.list w with
      | some s => (s, acc.2)
      | none => (acc.1, acc.2 ++ [w])) (s, [])
  (r.1.setHoldQ p r.2).retryWork

-- ------------------------------------------------------------------------------------------------------ lifelines

/-- GTB_SHL of a strand: LLRES. -/
def State.llRes (s : State) (t : Nat) : Nat := s.rf R.gtbShl (panelOf t) (kOf t) 0 8
/-- LLCAP. -/
def State.llCap (s : State) (t : Nat) : Nat := s.rf R.gtbShl (panelOf t) (kOf t) 8 8
/-- LLDYN. -/
def State.llDyn (s : State) (t : Nat) : Bool := s.rb R.gtbShl (panelOf t) (kOf t) 16

/-- Fenced lifeline slices of a panel (R363). -/
def State.llSlices (s : State) (p : Nat) : Nat := (idxs 16 fun i => s.isFenced p 2 (3 * 256 + i)).length
/-- Lifelines of a course: 1,024 less 64 for each fenced slice of its panel (R156). -/
def State.llTotal (s : State) (c : Nat) : Nat := 1024 - 64 * s.llSlices (coursePanel c)

/-- Take `n` lifelines from reservations, one at a time, in descending strand order and round again (R156). The list
holds the reservations in descending order. -/
def cutRes : Nat → List Nat → Nat → List Nat
  | 0, l, _ => l
  | fuel + 1, l, n =>
    if n = 0 || l.all (fun r => decide (r = 0)) then l
    else
      let r := l.foldl (fun (acc : List Nat × Nat) x => if acc.2 = 0 || x = 0 then (acc.1 ++ [x], acc.2) else (acc.1 ++ [x - 1], acc.2 - 1)) ([], n)
      cutRes fuel r.1 r.2

/-- The effective reservation of a strand (R156). -/
def State.llResEff (s : State) (t : Nat) : Nat :=
  let c := courseOf t
  let res := (courseStrands c).map s.llRes
  let excess := sumN res - s.llTotal c
  if excess = 0 then s.llRes t else (cutRes 256 res.reverse excess).reverse.getD (iOf t) 0

/-- Lifelines charged to a strand (R155). -/
def State.llChg (s : State) (t : Nat) : Nat := (s.lls.filter fun e => decide (e.2.chg = some t)).length

/-- Room in a course's unreserved pool (R155, R156). -/
def State.llRoom (s : State) (c : Nat) : Bool :=
  let res := sumN ((courseStrands c).map s.llResEff)
  let used := sumN ((courseStrands c).map fun t => s.llChg t - s.llResEff t)
  let stolen := (s.lls.filter fun e => decide (e.2.chgC = some c)).length
  decide (res + used + stolen < s.llTotal c)

/-- Can a lifeline be charged to strand `t` (R156)? -/
def State.canChargeLl (s : State) (t : Nat) : Bool :=
  decide (s.llChg t < s.llResEff t) || (s.llDyn t && decide (s.llChg t + 1 ≤ s.llCap t) && s.llRoom (courseOf t))

/-- Can an LLID be taken: free, and not in a fenced slice? -/
def State.llOk (s : State) (p i : Nat) : Bool :=
  decide (i < 4096) && (SMap.find s.lls (p * 4096 + i)).isNone && !s.isFenced p 2 (3 * 256 + i / 256)

/-- A free lifeline of a panel: which one is a free choice (log entry 3). -/
def State.pickLl (s : State) (p : Nat) : Option Nat × State :=
  let (c, s) := s.freeN
  if s.llOk p (c % 4096) then (some (p * 4096 + c % 4096), s) else ((firstIdx 4096 fun i => s.llOk p i).map fun i => p * 4096 + i, s)

/-- The egress descriptor as the NZ1024 initialises it from the merged record (R109). -/
def egrInit (action : Nat) : List Byte :=
  if bits action 8 2 = 0 then leBytes 8 (bits action 10 11 + bits action 21 3 * 2 ^ 11 + bits action 24 2 * 2 ^ 14 + 2 ^ 16)
  else leBytes 8 0

/-- The lifeline of a first pass (R109): the descriptor cell copied, the rest zero; a HOST item's firmware metadata is
its WORK command's payload (R314). -/
def newLl (w : WorkItem) : Lifeline :=
  let fm := if w.kind = .host then sliceZ w.fmeta 0 48 else List.replicate 48 0#8
  let eg := if w.kind = .frame then egrInit w.action else leBytes 8 0
  { state := .running, item := w, keyArea := sliceZ w.keyArea 0 128, layers := sliceZ w.layers 0 64, action := w.action, egr := eg, egr0 := eg, fmeta := fm, fmeta0 := fm, frame := w.frame, frame0 := w.frame }

/-- A work item's LLV and LLID (R100). -/
def WorkItem.withLl (w : WorkItem) (k : Nat) : WorkItem := { w with ll := some k }

/-- Discard what an attempt has done (R116, R237): its tentative buffers return, its insert reservations and locks are
freed, its log and read set are cleared, and frame, egress descriptor and metadata go back to the start of the pass. -/
def State.discardAttempt (s : State) (k : Nat) : State :=
  let l := s.ll k
  let s := l.tents.foldl (fun s e => s.dropTent e.1 e.2) s
  let p := k / 4096
  let s := l.log.foldl (fun s e => match e.op, e.rsvWay, e.done with
    | .insert, some w, false => s.unreserve p w e.target
    | _, _, _ => s) s
  let s := s.freeLocks k
  let l := s.ll k
  let s := s.setLl k { l with rs := [], log := [], tents := [], egr := l.egr0, fmeta := l.fmeta0, frame := l.frame0 }
  s.sweepAbsence p

/-- A lifeline is freed. -/
def State.freeLl (s : State) (k : Nat) : State :=
  let s := s.freeLocks k
  ({ s with lls := SMap.del s.lls k }).sweepAbsence (k / 4096)

/-- A HOST item's WORK command completes (R314): its result holds metadata bytes 0–31, zero unless it committed. -/
def State.endWork (s : State) (w : WorkItem) (status : Nat) (result : List Byte) : State :=
  match w.work with
  | some r => s.finish r status (sliceZ result 0 32)
  | none => s

/-- The item's frame in the recirculation path or in a list is marked as released (R114). -/
def markDead (k : Nat) (l : List WorkItem) : List WorkItem :=
  l.map fun w => if w.ll = some k then { w with ll := none, dead := true } else w

/-- The copies of an item in lists are marked as released. -/
def State.killQueued (s : State) (k : Nat) : State :=
  { s with car := { s.car with lists := s.car.lists.map fun e => (e.1, markDead k e.2) } }

/-- The bind-off timeout of CAR_BCFG in time units (R114). -/
def State.bindLimit (s : State) (p : Nat) : Nat := s.rf R.carBcfg p 0 0 10 * usU

/-- Has the item's bind-off timeout expired, by the panel's count of 10 ns units (R101)? -/
def State.timedOut (s : State) (w : WorkItem) : Bool := decide (s.bindLimit w.panel / tickU ≤ s.now / tickU - w.born / tickU)

/-- An item that reaches the head of its list after its timeout is discarded (R114): a first pass's slot becomes DROP;
an item without a marker is counted now; a HOST item completes with TIMED_OUT. -/
def State.discardHead (s : State) (w : WorkItem) : State :=
  if w.dead then s
  else
    let s := match w.ll with
      | some k => (s.discardAttempt k).freeLl k
      | none => s
    let s := s.endWork w 0x0D []
    s.dropMark w 16

/-- A RUNNING or TIMED_OUT item is released because its strand is restarted (R145): as the bind-off timeout does, but
its lifeline is freed at once. -/
def State.releaseHeld (s : State) (k : Nat) : State :=
  let l := s.ll k
  if l.state = .timedOut then (s.discardAttempt k).freeLl k
  else
    let s := s.discardAttempt k
    let s := s.endWork l.item 0x0D []
    (s.dropMark l.item 16).freeLl k

/-- The strand's bank no longer holds an item (R138). -/
def Bank.dropItem (b : Bank) : Bank :=
  { b with item := none, hasItem := false, wi := [0#32, 0#32, 0#32, 0#32, 0#32, 0#32, 0#32, 0#32] }

/-- A frog or a replay puts the item back at the head of its list, QUEUED (R116, R117); the strand that held it holds
it no longer. -/
def State.requeueLl (s : State) (k attempt : Nat) (serial replay : Bool) (frogRsi : Nat) : State :=
  let s := s.discardAttempt k
  let l := s.ll k
  let w := { l.item with attempt := attempt, replay := replay, ll := some k }
  let s := s.setLl k { l with state := .queued, item := w, serial := serial, replay := replay, frogRsi := frogRsi, strand := none }
  s.requeue w

/-- A frog (R116): ATTEMPT rises, and a frog at ATTEMPT 2 makes the next attempt serial. -/
def State.frog (s : State) (k frogRsi : Nat) : State :=
  let l := s.ll k
  let a := l.item.attempt + 1
  let ser := decide (3 ≤ a)
  let s := s.countP (k / 4096) 17
  let s := if ser then s.countP (k / 4096) 18 else s
  s.requeueLl k (min a 3) ser false frogRsi

/-- An outstanding operation of an attempt that ends: a held one answers NO_ITEM (log entry 92), and a read no longer enters a read
set. -/
def HookOp.forget (k : Nat) (o : HookOp) : HookOp :=
  if o.ll ≠ some k then o
  else if o.wait = .held then { o with wait := .ready, val := mkLanes 0x0C 0 0 0 }
  else { o with ll := none }

/-- A replay (R117) of a RUNNING or DONE item discards the attempt, keeps ATTEMPT and re-queues; of a QUEUED item it
sets REPLAY. -/
def State.replay (s : State) (k : Nat) : State :=
  let l := s.ll k
  match l.state with
  | .running =>
    let s := match l.strand with
      | some t =>
        let x := s.strand t
        let drop (b : Bank) : Bank := if b.item = some k then b.dropItem else b
        let late := x.deferred.bind fun w => w.ll
        s.setStrand t { x with bank0 := drop x.bank0, bank1 := drop x.bank1, ops := x.ops.map (HookOp.forget k), deferred := if late = some k then none else x.deferred }
      | none => s
    s.requeueLl k l.item.attempt l.serial true l.frogRsi
  | .done =>
    let s := s.setMark l.item .pending
    s.requeueLl k l.item.attempt l.serial true l.frogRsi
  | .queued =>
    let s := s.setLl k { l with replay := true, item := { l.item with replay := true } }
    { s with car := { s.car with lists := s.car.lists.map fun e => (e.1, e.2.map fun w => if w.ll = some k then { w with replay := true } else w) } }
  | _ => s

/-- A word of a chart bank (R96): CHR_LIMIT has the reset value 0x0000_0E00. -/
def State.bankW (s : State) (slot w : Nat) : Word :=
  SMap.get s.chr.words (if w = 0x3108 / 4 then 0xE00#32 else 0#32) (slot * 4096 + w)

/-- CHR_LIMIT.MAXPASS of the bank of a generation. -/
def State.maxPass (s : State) (vgen : Nat) : Nat := bits (s.bankW (vgen % 4) (0x3108 / 4)).toNat 10 2

-- ------------------------------------------------------------------------------------------------------- eligibility

/-- Is another item of this (panel, domain) between dispatch and release (R108)? -/
def State.domainBusy (s : State) (w : WorkItem) : Bool :=
  s.lls.any fun e => decide (w.ll ≠ some e.1) && e.2.item.ord && decide (e.2.item.panel = w.panel) && decide (e.2.item.odom = w.odom)
    && !(decide (e.2.state = .free) || decide (e.2.state = .timedOut))

/-- The position of the eligible item of a list, if it has one (R108). -/
def State.eligible (s : State) (l : Nat) : Option Nat :=
  let q := s.items l
  match s.listAttr l with
  | 1 => ((q.take 16).zipIdx.find? fun e => !e.1.ord || e.1.dead || !s.domainBusy e.1).map (·.2)
  | _ => if q.isEmpty then none else some 0

/-- Working needles of a course (R106). -/
def State.workingNeedles (s : State) (c : Nat) : Nat :=
  (idxs 12 fun n => !s.isFenced (coursePanel c) 1 (c * 13 + n)).length

/-- Is the course fenced whole (R363: a course shared SRAM slice)? -/
def State.courseFenced (s : State) (c : Nat) : Bool :=
  (List.range 4).any fun i => s.isFenced (coursePanel c) 2 (4 * 256 + (c % 4) * 4 + i)

/-- Is the course's Carriage slice fenced? -/
def State.sliceFenced (s : State) (c : Nat) : Bool := s.isFenced (coursePanel c) 9 c

/-- Is the course short (R106)? -/
def State.isShort (s : State) (c : Nat) : Bool :=
  decide (s.workingNeedles c < 12) || s.sliceFenced c || s.courseFenced c || !s.up (coursePanel c)

/-- The lists a course has at home. -/
def homeLists (c : Nat) : List Nat := (List.range 128).map fun j => c * 128 + j

/-- Does one of the course's home lists of priority `pr` or higher hold an eligible item? -/
def State.homeBusy (s : State) (c pr : Nat) : Bool :=
  s.car.lists.any fun e => decide (e.1 / 128 = c) && decide (pr ≤ s.listPrio e.1) && (s.eligible e.1).isSome

/-- May course `c` steal from list `l` (R106)? -/
def State.maySteal (s : State) (c l : Nat) : Bool :=
  decide (l / 128 ≠ c) && s.isShort (l / 128) && bit (s.listSteal l) c && !s.homeBusy c (s.listPrio l)
    && s.reach (coursePanel c) (listPanel l)

/-- Rotate a list of numbers to start after `last` (numbers rising). -/
def rotateAfter (l : List Nat) (last : Nat) : List Nat := l.filter (fun x => decide (last ≤ x)) ++ l.filter fun x => decide (x < last)

/-- The lists with items that a course serves at a priority, home lists first, then stolen ones, each round robin after
the one served last (R105). -/
def State.served (s : State) (c pr : Nat) : List Nat :=
  let withItems := (s.car.lists.filter fun e => !e.2.isEmpty && decide (s.listPrio e.1 = pr)).map (·.1)
  let home := if s.sliceFenced c || s.courseFenced c then [] else withItems.filter fun l => decide (l / 128 = c)
  let stolen := if s.sliceFenced c || s.courseFenced c then [] else withItems.filter fun l => s.maySteal c l
  rotateAfter home (SMap.get s.car.dispRr 0 (c * 8 + pr)) ++ rotateAfter stolen (SMap.get s.car.dispRr 0 (64 + c * 8 + pr))

/-- Is the strand subscribed to a class (R105)? -/
def State.subscribed (s : State) (t cls : Nat) : Bool := s.rb R.carSub (panelOf t) (kOf t) (cls % 32) (j := cls / 32)

/-- May the Carriage dispatch to the strand at all (R154, R167)? -/
def State.dispatchable (s : State) (t : Nat) : Bool :=
  s.up (panelOf t) && !s.needleIdle t && (decide (0 < s.weight t) || s.isBest t) && decide ((s.strand t).halt = .running)

/-- Is the strand idle (R105)? -/
def State.isIdle (s : State) (t : Nat) : Bool := (s.strand t).idle && s.dispatchable t

/-- Is there an eligible item for an idle strand of the course (R164 condition 3)? -/
def State.workFor (s : State) (c : Nat) : Bool :=
  (List.range 8).any fun pr => (s.served c pr).any fun l =>
    (s.eligible l).isSome && (courseStrands c).any fun t => s.isIdle t && s.subscribed t (l % 128)

/-- Courses that had an eligible item for an idle strand before a change, and so were not knotted (R164, R165): the count of their knot
window starts again. -/
def State.stirWork (s before : State) : State :=
  (List.range 8).foldl (fun s c => if (before.yrn.order.any fun t => decide (courseOf t = c)) && before.workFor c then s.stir c else s) s

end Sys2Proof.Machine
end

