-- ==== Sys2Proof/Machine/Fabric.lean ====
section
/-! DEFINITION. The ports and the switch core (ch. 3, 12): ports and stations, buffer cells (R248, R249), hand-off with
filters, meters, FRER generation, mirrors and replication (R244–R246, R255, R257), and the fabric (R241–R243). -/

namespace Sys2Proof.Machine

-- ---------------------------------------------------------------------------------------------------------- ports

/-- The gate state of an Ethernet port (R252): all open until a GATE event sets it. -/
def State.gate (s : State) (port : Nat) : Nat := SMap.get s.swt.gates 0xFF port

/-- Panel of an external port (R48). -/
def portPanel (p : Nat) : Nat :=
  if p < 4 then p / 2 else if p < 32 then (if p < 18 then 0 else 1) else if p < 800 then (if p < 416 then 0 else 1)
  else if p < 960 then (if p < 880 then 0 else 1) else if p < 992 then 0 else 1

/-- The local port index p′ of R259. -/
def portLocal (p : Nat) : Nat :=
  if p < 4 then p % 2 else if p < 32 then 2 + (p - 4) % 14 else if p < 800 then 16 + (p - 32) % 384
  else if p < 960 then 400 + (p - 800) % 80 else 480 + (p - 960) % 32

/-- The segment port of a T1S node-port (R55). -/
def segPort (p : Nat) : Nat := p - (p - 32) % 8

/-- Is the port's own UP condition met (R49)? At reset an Ethernet port has no link; a T1S PHY reports no fault, a CAN port is
not in bus-off and a LIN bus is recessive. -/
def State.condUp (s : State) (p : Nat) : Bool := (decide (p < 32)) != (SMap.get s.swt.link false p) |> not

/-- PRT_CFG.EN. -/
def State.portEn (s : State) (p : Nat) : Bool := s.rb R.prtCfg 0 p 0
/-- PRT_CFG.MAXFRM. -/
def State.maxFrm (s : State) (p : Nat) : Nat := s.rf R.prtCfg 0 p 1 14
/-- PRT_CFG.MODE. -/
def State.portModeOf (s : State) (p : Nat) : Nat := s.rf R.prtCfg 0 p 15 3

/-- The fabric station of a port (R240); `q` is the panel that serves an internal port. -/
def stationOf (p q : Nat) : Nat :=
  if p < 2 then p else if p < 4 then 8 + (p - 2)
  else if p < 16 then 2 + (p - 4) / 3 else if p < 18 then 6
  else if p < 30 then 10 + (p - 18) / 3 else if p < 32 then 14
  else if p < 416 then 6 else if p < 800 then 14
  else if p < 1024 then 8 * portPanel p + 7
  else 8 * q + 7

/-- Is a station fenced (R258)? -/
def State.stationFenced (s : State) (st : Nat) : Bool := s.isFenced (st / 8) 7 st

/-- Link states of R49. -/
inductive Link where
  | disabled | down | up
  deriving DecidableEq, Repr

/-- Is an Ethernet or fieldbus port kept DOWN by a fence: its own, its serdes, or its station's? -/
def State.portFenced (s : State) (p : Nat) : Bool :=
  s.isFenced (portPanel p) 10 p || s.stationFenced (stationOf p (portPanel p)) ||
    (decide (p < 32) && (List.range 8).any fun l => s.isFenced (portPanel p) 6 (p * 8 + l))

/-- The link state of an external port (R49, R425): a node-port follows its segment port. -/
def State.linkOf (s : State) (p : Nat) : Link :=
  if !s.portEn p then .disabled
  else
    let q := if 32 ≤ p && p < 800 then segPort p else p
    if s.portEn q && s.condUp q && !s.portFenced q && !s.portFenced p && s.up (portPanel p) then .up else .down

/-- The panel that serves an internal port (R11); `p` is the panel of the frame. -/
def State.innerPanel (s : State) (port p : Nat) : Nat :=
  if 1028 ≤ port && port < 1092 then b2n s.hst.port2
  else if 1109 ≤ port then coursePanel (s.sepCourse (port - 1109))
  else p

/-- The panel of a frame's egress port. -/
def State.egressPanel (s : State) (port p : Nat) : Nat := if port < 1024 then portPanel port else s.innerPanel port p

/-- Count on PORTCLASS (R411): 0–2 CONG_DROP by DP, 3 FAB_LOSS, 4 LINK_DOWN, 5 OVERSIZE. -/
def State.countPc (s : State) (port tc n : Nat) : State := s.count 1 (port * 8 + tc) n

-- --------------------------------------------------------------------------------------------------- buffer cells

/-- Cells of a frame (R249). -/
def cellsOf (n : Nat) : Nat := (n + 255) / 256

/-- The profile of a queue's port (R248): internal ports take profile 0. -/
def State.profOf (s : State) (port : Nat) : Nat := if port < 1024 then s.rf R.egrPcfg (portPanel port) (portLocal port) 8 4 else 0
/-- MIN of a queue on panel `p`. -/
def State.qMin (s : State) (p port tc : Nat) : Nat := s.rf R.egrProf p (s.profOf port) 0 12 tc
/-- ALPHA of a queue on panel `p`. -/
def State.qAlpha (s : State) (p port tc : Nat) : Nat := s.rf R.egrProf p (s.profOf port) 12 3 tc

/-- The minimum of the eight classes of a profile. -/
def State.profMin (s : State) (p n : Nat) : Nat := sumN ((List.range 8).map fun c => s.rf R.egrProf p n 0 12 c)

/-- The guaranteed minimum of every queue of a panel (R248). -/
def State.minSum (s : State) (p : Nat) : Nat :=
  sumN ((List.range 512).map fun i => s.profMin p (s.rf R.egrPcfg p i 8 4)) + 128 * s.profMin p 0

/-- Cells of the enabled SRAM pools homed on a panel (R230, R248). -/
def State.poolCells (s : State) (p : Nat) : Nat :=
  sumN ((idxs 32 fun n => s.poolEn n && s.rb R.sknPcfg 0 n 1 && decide (s.poolHome n = p)).map fun n =>
    cellsOf (s.poolCount n * s.poolSize n + 4 * s.poolCount n))

/-- Cells of fenced packet buffer slices (R363). -/
def State.lostCells (s : State) (p : Nat) : Nat := 1024 * (idxs 96 fun i => s.isFenced p 2 i).length

/-- What is left of a panel's cells, before it is cut at zero. -/
def State.sharedRaw (s : State) (p : Nat) : Int :=
  98304 - Int.ofNat (s.lostCells p + s.rf R.egrBuf p 0 0 17 + s.minSum p + s.poolCells p)
/-- SHARED (R248). -/
def State.shared (s : State) (p : Nat) : Nat := (s.sharedRaw p).toNat
/-- IRES, less what fenced slices take from it (R363). -/
def State.ires (s : State) (p : Nat) : Nat := ((Int.ofNat (s.rf R.egrBuf p 0 0 17)) + min 0 (s.sharedRaw p)).toNat

/-- The frames of a panel that hold ingress cells: those that wait for a parser or in a list, those with a lifeline, and those
that have not wholly entered the fabric. -/
def State.ingress (s : State) (p : Nat) : List (Nat × Nat) :=
  ((SMap.get s.swt.parseQ [] p).filter fun x => x.ll.isNone).map (fun x => (x.cellsR, x.cellsS)) ++
  ((s.car.lists ++ s.car.spill).filter fun e => decide (listPanel e.1 = p)).flatMap (fun e => (e.2.filter fun w => w.ll.isNone).map fun w => (w.cellsR, w.cellsS)) ++
  (s.holdQ p).map (fun w => (w.cellsR, w.cellsS)) ++
  (s.lls.filter fun e => decide (e.1 / 4096 = p)).map (fun e => (e.2.item.cellsR, e.2.item.cellsS)) ++
  (s.swt.frames.filter fun e => decide (e.2.panel = p) && e.2.ll.isNone).map fun e => (e.2.cellsR, e.2.cellsS)

/-- Device address of a packet buffer cell of a panel (R285). -/
def cellAddr (p c : Nat) : Nat := p * 0x2000000 + 256 * c

/-- The packet buffer cells that hold frames of a panel on their way from reception to the fabric. -/
def State.heldCells (s : State) (p : Nat) : List Nat :=
  ((SMap.get s.swt.parseQ [] p).flatMap (·.cells)) ++
  ((s.car.lists ++ s.car.spill).filter fun e => decide (listPanel e.1 = p)).flatMap (fun e => e.2.flatMap (·.cells)) ++
  (s.holdQ p).flatMap (·.cells) ++
  ((s.lls.filter fun e => decide (e.1 / 4096 = p)).flatMap fun e => e.2.item.cells) ++
  (s.swt.frames.filter fun e => decide (e.2.panel = p)).flatMap fun e => e.2.cells

/-- Does a cell lie in an SRAM pool of the panel (R230)? -/
def State.poolCell (s : State) (p c : Nat) : Bool :=
  (List.range 32).any fun n => s.poolEn n && s.rb R.sknPcfg 0 n 1 && decide (s.poolHome n = p) &&
    decide (s.poolBase n < cellAddr p c + 256) && decide (cellAddr p c < s.tagBase n + 4 * s.poolCount n)

/-- The first `n` cells from `c` on, and round again, that `ok` selects. -/
def cellsFrom (ok : Nat → Bool) : Nat → Nat → Nat → List Nat
  | 0, _, _ => []
  | _, 0, _ => []
  | fuel + 1, n + 1, c => if ok c then c :: cellsFrom ok fuel n ((c + 1) % 98304) else cellsFrom ok fuel (n + 1) ((c + 1) % 98304)

/-- Free cells of a panel's packet buffer, in no pool and no fenced slice (R248, R363): which ones is a free choice (log entry 11). -/
def State.takeCells (s : State) (p n : Nat) : List Nat × State :=
  let (a, s) := s.freeN
  let held := s.heldCells p
  (cellsFrom (fun c => !held.contains c && !s.isFenced p 2 (c / 1024) && !s.poolCell p c) 98304 n (a % 98304), s)

/-- Write bytes into a cell. -/
def State.putCell (s : State) (p c : Nat) (bs : List Byte) : State :=
  { s with mem := { s.mem with dev := cellWrite s.mem.dev (cellAddr p c) (bs.take 256) } }

/-- A frame's bytes fill its cells from the second on (R100). -/
def State.putFrameBytes (s : State) (p : Nat) (bs : List Byte) : List Nat → State
  | [] => s
  | c :: cs => (s.putCell p c bs).putFrameBytes p (bs.drop 256) cs

/-- A received or injected frame takes its cells: the descriptor cell and those of its bytes. -/
def State.storeFrame (s : State) (p : Nat) (bs : List Byte) : List Nat × State :=
  let (cs, s) := s.takeCells p (1 + cellsOf bs.length)
  (cs, s.putFrameBytes p bs cs.tail)

/-- A frame that bind-off has changed is written back into its cells, of which it takes more where it has grown (R115). -/
def State.rewriteFrame (s : State) (p : Nat) (bs : List Byte) (cs : List Nat) : List Nat × State :=
  let n := 1 + cellsOf bs.length
  let (more, s) := if cs.length < n then s.takeCells p (n - cs.length) else ([], s)
  let cs := (cs ++ more).take n
  (cs, s.putFrameBytes p bs cs.tail)

/-- The descriptor cell (R100): key area, layer table and merged action record, in the lifeline's order from the cell's first byte
(DEDUCED, log entry 11). -/
def State.putDescriptor (s : State) (p : Nat) (w : WorkItem) : State :=
  match w.cells with
  | [] => s
  | c :: _ => s.putCell p c (sliceZ w.keyArea 0 128 ++ sliceZ w.layers 0 64 ++ leBytes 8 w.action)

/-- Is the transmission still in progress? -/
def TxRec.busy (x : TxRec) (now : Nat) : Bool := decide (now < x.until_)

/-- Has the transmission not ended: in progress, or preempted by a gate (R254)? Its cells are freed when it has (R248). -/
def TxRec.live (x : TxRec) (now : Nat) : Bool := x.busy now || x.cut.isSome

/-- A frame in the fabric or in a queue. -/
def State.fabFrame (s : State) (n : Nat) : Option FabFrame := SMap.find s.swt.frames n

/-- Shared cells in use on a panel: by ingress, by the frames its queues hold and by frames in transmission. -/
def State.sharedUsed (s : State) (p : Nat) : Nat :=
  sumN ((s.ingress p).map (·.2)) +
  sumN ((s.swt.qs.filter fun e => decide (e.1 / 8 / 1152 = p)).map fun e => sumN ((e.2.filterMap s.fabFrame).map (·.xC))) +
  sumN ((s.swt.tx.flatMap (·.2)).map fun x => if x.panel = p && x.live s.now then x.xC else 0)

/-- Ingress admission of a frame of `n` cells (R248): the cells taken from the reserve and from the shared pool, or none. -/
def State.admitIngress (s : State) (p n : Nat) : Option (Nat × Nat) :=
  let l := s.ingress p
  let r := min n (s.ires p - sumN (l.map (·.1)))
  let x := n - r
  let su := sumN (l.map (·.2))
  let free := s.shared p - s.sharedUsed p
  if x = 0 || (decide ((su + x) * 8 ≤ free * 2 ^ s.rf R.egrProf p 0 12 3 0) && decide (x ≤ free)) then some (r, x) else none

/-- Key of an egress queue. -/
def qKey (p port tc : Nat) : Nat := (p * 1152 + port) * 8 + tc
/-- The frames of a queue. -/
def State.queue (s : State) (p port tc : Nat) : List Nat := SMap.get s.swt.qs [] (qKey p port tc)
/-- A class whose queue empties has its deficit set to 0 (R250). -/
def State.clearDeficit (s : State) (k tc : Nat) : State :=
  let x := SMap.get s.swt.dwrr {} k
  { s with swt := { s.swt with dwrr := SMap.set s.swt.dwrr {} k { x with deficit := SMap.del x.deficit tc } } }

/-- Replace them. -/
def State.setQueue (s : State) (p port tc : Nat) (l : List Nat) : State :=
  let s := { s with swt := { s.swt with qs := SMap.set s.swt.qs [] (qKey p port tc) l } }
  if l.isEmpty then s.clearDeficit (p * 1152 + port) tc else s
/-- Replace it. -/
def State.putFrame (s : State) (n : Nat) (f : FabFrame) : State := { s with swt := { s.swt with frames := SMap.put s.swt.frames n f } }
/-- Forget it. -/
def State.delFrame (s : State) (n : Nat) : State := { s with swt := { s.swt with frames := SMap.del s.swt.frames n } }

/-- Cells used by a queue and those of them from the shared pool: its frames and the one in transmission. -/
def State.qUsed (s : State) (p port tc : Nat) : Nat × Nat :=
  let l := (s.queue p port tc).filterMap s.fabFrame
  let t := (s.swt.tx.flatMap (·.2)).filter fun x => decide (x.panel = p) && decide (x.port = port) && decide (x.tc = tc) && x.live s.now
  (sumN (l.map fun f => f.gC + f.xC) + sumN (t.map fun x => x.gC + x.xC), sumN (l.map (·.xC)) + sumN (t.map (·.xC)))

/-- Buffer admission of a frame of `n` cells to a queue (R249): the cells within the guarantee and from the shared pool. -/
def State.admitCells (s : State) (p port tc dp n : Nat) : Option (Nat × Nat) :=
  let (used, su) := s.qUsed p port tc
  let g := min n (s.qMin p port tc - used)
  let x := n - g
  let free := s.shared p - s.sharedUsed p
  if x = 0 || (decide ((su + x) * 8 * 2 ^ dp ≤ free * 2 ^ s.qAlpha p port tc) && decide (x ≤ free)) then some (g, x) else none

/-- Append a frame to a queue. -/
def State.enqueue (s : State) (p n : Nat) (f : FabFrame) : State :=
  (s.putFrame n f).setQueue p f.port f.tc (s.queue p f.port f.tc ++ [n])

-- ------------------------------------------------------------------------------------------- filters and meters

/-- A meter's colour for a frame of `l` bytes (R246): 0 green, 1 yellow, 2 red. -/
def State.meterFrame (s : State) (p m l : Nat) : Nat × State :=
  let key := p * 256 + m
  let x := SMap.get s.swt.meters {} key
  let unit := 150000000
  let dt := s.now - x.at_
  let cbs := 64 * s.rf R.egrMtr2 p m 0 16 * unit
  let ebs := 64 * s.rf R.egrMtr2 p m 16 16 * unit
  let ci := s.rf R.egrMtr0 p m 0 24 0 * dt
  let ei := s.rf R.egrMtr0 p m 0 24 1 * dt + (if s.rb R.egrMtr0 p m 24 0 then ci - x.c else 0)
  let c := x.c - ci
  let e := x.e - ei
  let need := l * unit
  let put (y : Meter) : State := { s with swt := { s.swt with meters := SMap.set s.swt.meters {} key y } }
  if need + c ≤ cbs then (0, put { c := c + need, e := e, at_ := s.now })
  else if need + e ≤ ebs then (1, put { c := c, e := e + need, at_ := s.now })
  else (2, put { c := c, e := e, at_ := s.now })

/-- The per-stream filter of a frame's ingress port and class (R245): the frame with its DP, or none where it is dropped. -/
def State.psFilter (s : State) (p : Nat) (f : FabFrame) : Option FabFrame × State :=
  let mp := if f.ingress < 1024 then bits (s.rd R.egrPsmap p (portLocal f.ingress) (f.tc / 2)).toNat (16 * (f.tc % 2)) 16 else 0
  if !bit mp 8 then (some f, s)
  else
    let n := mp % 256
    let key := p * 256 + n
    let v := (s.rd R.egrPsf p n).toNat
    if SMap.get s.swt.blocked false key then (none, s.count 8 key 0)
    else if bits v 0 14 < f.bytes.length then
      let s := if bit v 14 then { s with swt := { s.swt with blocked := SMap.set s.swt.blocked false key true } } else s
      (none, s.count 8 key 0)
    else
      let g := bits v 15 6
      if bit v 21 && !bit (s.rd R.egrSgate p (g / 32)).toNat (g % 32) then (none, s.count 8 key 1)
      else if !bit v 30 then (some f, s)
      else
        let m := bits v 22 8
        let (colour, s) := s.meterFrame p m f.bytes.length
        match colour with
        | 0 => (some f, s)
        | 1 => if s.rb R.egrMtr0 p m 24 1 then (none, s.count 8 key 2) else (some { f with dp := max f.dp 1 }, s)
        | _ => (none, s.count 8 key 2)

-- ----------------------------------------------------------------------------------------------------------- FRER

/-- EtherType at an offset. -/
def etherAt (bs : List Byte) (o : Nat) : Nat := beVal (sliceZ bs o 2)

/-- Is it a VLAN tag's EtherType? -/
def isVlanType (t : Nat) : Bool := decide (t = 0x8100) || decide (t = 0x88A8)

/-- Where an R-TAG stands (R255): after the source address and any VLAN tags, up to two. -/
def rtagPos (bs : List Byte) : Nat :=
  if isVlanType (etherAt bs 12) then (if isVlanType (etherAt bs 16) then 20 else 16) else 12

/-- The FRER entry of a panel with a bit of word 0 set (14 GEN, 15 REC) for a port and class. -/
def State.frerEntry (s : State) (p port tc b : Nat) : Option Nat :=
  firstIdx 256 fun r => s.rb R.egrFrer0 p r b && decide (s.rf R.egrFrer0 p r 0 11 = port) && decide (s.rf R.egrFrer0 p r 11 3 = tc)

/-- Sequence generation (R255): the frame with its R-TAG, and the PARTNER port of a replication copy. -/
def State.frerGen (s : State) (p : Nat) (f : FabFrame) : FabFrame × Option Nat × State :=
  match s.frerEntry p f.port f.tc 14 with
  | none => (f, none, s)
  | some r =>
    let key := p * 256 + r
    let q := SMap.get s.swt.frerSeq 0 key
    let o := rtagPos f.bytes
    let bs := f.bytes.take o ++ beBytes 2 0xF1C1 ++ beBytes 2 0 ++ beBytes 2 q ++ f.bytes.drop o
    let s := { s with swt := { s.swt with frerSeq := SMap.set s.swt.frerSeq 0 key ((q + 1) % 65536) } }
    ({ f with bytes := bs }, if s.rb R.egrFrer0 p r 16 then some (s.rf R.egrFrer0 p r 18 11) else none, s)

-- -------------------------------------------------------------------------------------------------------- streams

/-- A stream. -/
def State.stream (s : State) (k : Nat) : Stream := SMap.get s.swt.streams {} k
/-- Replace it. -/
def State.setStream (s : State) (k : Nat) (x : Stream) : State := { s with swt := { s.swt with streams := SMap.set s.swt.streams {} k x } }
/-- Input and output station of a stream. -/
def streamIn (k : Nat) : Nat := k / 128
/-- Output station. -/
def streamOut (k : Nat) : Nat := k / 8 % 16

/-- A frame, or a copy, enters the stream of its egress station (R244 step 5); one whose egress panel cannot be reached, or whose output
station is fenced, is dropped as LINK_DOWN on its egress port, and one whose input station is fenced, or the station in front of its bridge
lane, as FAB_LOSS (R258, log entry 97). -/
def State.enterStream (s : State) (f : FabFrame) : State :=
  let q := s.egressPanel f.port f.panel
  let i := if f.ingress < 1024 then stationOf f.ingress f.panel else 8 * f.panel + 7
  let o := stationOf f.port q
  if !s.reach f.panel q || s.stationFenced o then s.countPc f.port f.tc 4
  else if s.stationFenced i || s.stationFenced (8 * (i / 8) + o % 8) then s.countPc f.port f.tc 3
  else
    let k := i * 128 + o * 8 + f.tc
    let n := s.swt.nextFrame
    let s := { s with swt := { s.swt with nextFrame := n + 1 } }
    let s := s.putFrame n { f with left := f.bytes.length, station := i }
    let x := s.stream k
    s.setStream k { x with wait := x.wait ++ [(n, f.bytes.length)] }

/-- A mirror target's frame (R257): its DEST, CLASS and length, or none where the target is not configured. -/
def State.mirrorTo (s : State) (p x : Nat) (f : FabFrame) : Option FabFrame :=
  if s.rb R.egrMirt p x 14 then
    some { f with port := s.rf R.egrMirt p x 0 11, tc := s.rf R.egrMirt p x 11 3, bytes := if s.rb R.egrMirt p x 15 then f.bytes.take 128 else f.bytes }
  else none

/-- The mirror copy of a hand-off (R257): a target with EN = 0 drops it as LINK_DOWN. -/
def State.mirrorCopy (s : State) (p x : Nat) (f : FabFrame) : Option FabFrame × State :=
  match s.mirrorTo p x f with
  | some c => (some { c with mirror := some (p * 16 + x), cellsR := 0, cellsS := 0, cells := [] }, s)
  | none => (none, s.countPc (1092 + x) (s.rf R.egrMirt p x 11 3) 4)

/-- Hand-off to the fabric (R244): `bs` is the frame as committed, `mir` the mirror target its merged record requests. A frame
sent to a mirror target's port goes to that target's DEST. -/
def State.toFabric (s : State) (f : FabFrame) (mir : Option Nat) : State :=
  let p := f.panel
  let (r, s) := s.psFilter p f
  match r with
  | none => s
  | some f =>
    let raw := f
    let (f, partner, s) := s.frerGen p f
    let (mc, s) := match mir with
      | some x => s.mirrorCopy p x raw
      | none => (none, s)
    let s := if 1092 ≤ f.port && f.port < 1108 then
        (match s.mirrorTo p (f.port - 1092) f with
          | some g => s.enterStream g
          | none => s.countPc f.port f.tc 4)
      else s.enterStream f
    let s := match mc with
      | some c => s.enterStream c
      | none => s
    match partner with
    | some q => s.enterStream { f with port := q, cellsR := 0, cellsS := 0, cells := [] }
    | none => s

-- -------------------------------------------------------------------------------------------------- the two stages

/-- Take a frame out of every queue of the switch core. -/
def State.forgetFrame (s : State) (n : Nat) : State :=
  let s := s.delFrame n
  let adm := (s.swt.adm.map fun e => (e.1, e.2.filter fun k => decide (k ≠ n))).filter fun e => !e.2.isEmpty
  let s := { s with swt := { s.swt with adm := adm } }
  (s.swt.qs.filter fun e => e.2.contains n).foldl (fun s e => s.setQueue (e.1 / 8 / 1152) (e.1 / 8 % 1152) (e.1 % 8) (e.2.filter fun k => decide (k ≠ n))) s

/-- A frame with a byte in a lost cell is dropped as FAB_LOSS (R243). -/
def State.fabLoss (s : State) (n : Nat) : State :=
  match s.fabFrame n with
  | none => s
  | some f => (s.forgetFrame n).countPc f.port f.tc 3

/-- A frame is dropped as LINK_DOWN on its egress port (R49, R258). -/
def State.dropQueued (s : State) (n : Nat) : State :=
  match s.fabFrame n with
  | none => s
  | some f => (s.forgetFrame n).countPc f.port f.tc 4

/-- A cell leaves its resequencer, or its bridge lane, at its output station: its bytes reach their frames, and a frame's first
cell sends it to egress admission. -/
def State.arriveCell (s : State) (c : Cell) : State :=
  c.parts.foldl (fun s e => match s.fabFrame e.1 with
    | none => s
    | some f =>
      let q := streamOut c.stream / 8
      let s := if !f.seen then { s with swt := { s.swt with adm := SMap.set s.swt.adm [] q (SMap.get s.swt.adm [] q ++ [e.1]) } } else s
      s.putFrame e.1 { f with left := f.left - e.2, seen := true }) s

/-- A cell leaves its resequencer: to its output station, or to the bridge lane in front of it. -/
def State.forwardCell (s : State) (c : Cell) : State :=
  let i := streamIn c.stream
  let o := streamOut c.stream
  if i / 8 = o / 8 then s.arriveCell c
  else
    let l := 8 * (i / 8) + o % 8
    { s with swt := { s.swt with lanes := SMap.set s.swt.lanes [] l (SMap.get s.swt.lanes [] l ++ [c]) } }

/-- The resequencer releases the cells that are next in order (R243). -/
def State.resequence (s : State) (k : Nat) : Nat → State
  | 0 => s
  | n + 1 =>
    let x := s.stream k
    match x.held.find? fun c => decide (c.seq = x.expect) with
    | none => s.setStream k { x with gapAt := if x.held.isEmpty && x.lost.isEmpty then none else some (x.gapAt.getD s.now) }
    | some c =>
      let s := s.setStream k { x with held := x.held.filter fun d => decide (d.seq ≠ c.seq), expect := (x.expect + 1) % 65536, gapAt := none }
      (s.forwardCell c).resequence k n

/-- Stage two delivers a cell to its stream's resequencer. -/
def State.deliverCell (s : State) (c : Cell) : State :=
  let x := s.stream c.stream
  if (c.seq + 65536 - x.expect) % 65536 < 32768 then
    (s.setStream c.stream { x with held := x.held ++ [c] }).resequence c.stream (x.held.length + 2)
  else s

/-- Cells in a local station's resequencing memory (R243). -/
def State.reseqUse (s : State) (p k : Nat) : Nat :=
  sumN ((s.swt.streams.filter fun e => decide (streamIn e.1 / 8 = p) && decide (streamOut e.1 % 8 = k)).map fun e => e.2.held.length)

/-- Must a cell wait in its intermediate for its bridge lane, which is full (R242)? -/
def State.laneWaits (s : State) (c : Cell) : Bool :=
  if streamIn c.stream / 8 = streamOut c.stream / 8 then false
  else decide (Config.laneCells < (SMap.get s.swt.lanes [] (8 * (streamIn c.stream / 8) + streamOut c.stream % 8)).length)

/-- Stage two of panel `p` in slot `t` (R242): intermediate `j` delivers the oldest cell it holds for local station
(j + t) mod 8, unless that station's resequencing memory is full; a full bridge lane holds back only the cells for it. -/
def State.stageTwo (s : State) (p t j : Nat) : State :=
  let k := (j + t) % 8
  let l := SMap.get s.swt.inter [] (8 * p + j)
  if s.stationFenced (8 * p + j) || s.stationFenced (8 * p + k) || decide (2048 ≤ s.reseqUse p k) then s
  else match l.find? fun c => decide (streamOut c.stream % 8 = k) && !s.laneWaits c with
    | none => s
    | some c =>
      let rest := l.filter fun d => !(decide (d.stream = c.stream) && decide (d.seq = c.seq))
      ({ s with swt := { s.swt with inter := SMap.set s.swt.inter [] (8 * p + j) rest } }).deliverCell c

/-- The bytes a cell takes from the frames that wait in a stream, and what is left of them. -/
def packCell : Nat → List (Nat × Nat) → List (Nat × Nat) × List (Nat × Nat)
  | _, [] => ([], [])
  | room, (n, k) :: l =>
    if room = 0 then ([], (n, k) :: l)
    else if room < k then ([(n, room)], (n, k - room) :: l)
    else
      let (a, b) := packCell (room - k) l
      ((n, k) :: a, b)

/-- The stream of an input station whose waiting bytes are the oldest. -/
def State.oldestStream (s : State) (i : Nat) : Option Nat :=
  ((s.swt.streams.filter fun e => decide (streamIn e.1 = i) && !e.2.wait.isEmpty).foldl (fun (best : Option (Nat × Nat)) e => match e.2.wait, best with
    | (n, _) :: _, none => some (n, e.1)
    | (n, _) :: _, some (m, k) => if n < m then some (n, e.1) else some (m, k)
    | [], b => b) none).map (·.2)

/-- Stage one of panel `p` in slot `t` (R242): local input station `i` sends its oldest waiting cell. A frame whose last byte
has gone gives back its ingress cells (R248). -/
def State.stageOne (s : State) (p t i : Nat) : State :=
  let j := (i + t) % 8
  if s.stationFenced (8 * p + i) || s.stationFenced (8 * p + j) then s
  else match s.oldestStream (8 * p + i) with
    | none => s
    | some k =>
      let x := s.stream k
      let (parts, rest) := packCell 256 x.wait
      let c : Cell := { stream := k, seq := x.next, parts := parts }
      let s := s.setStream k { x with wait := rest, next := (x.next + 1) % 65536 }
      let s := { s with swt := { s.swt with inter := SMap.set s.swt.inter [] (8 * p + j) (SMap.get s.swt.inter [] (8 * p + j) ++ [c]) } }
      parts.foldl (fun s e => if rest.any fun r => decide (r.1 = e.1) then s else match s.fabFrame e.1 with
        | some f => s.putFrame e.1 { f with cellsR := 0, cellsS := 0, cells := [] }
        | none => s) s

/-- A bridge lane of 50 Gbit/s carries one cell every two slots (R242). -/
def State.bridgeLane (s : State) (l : Nat) : State :=
  match SMap.get s.swt.lanes [] l with
  | [] => s
  | c :: rest => if s.joined then ({ s with swt := { s.swt with lanes := SMap.set s.swt.lanes [] l rest } }).arriveCell c else s

/-- Frames whose first cell came in this slot are taken in ascending input station (R247). -/
def State.sortArrivals (s : State) (before : SMap (List Nat)) : State :=
  let f (q : Nat) (l : List Nat) : List Nat :=
    let n := (SMap.get before [] q).length
    let new := l.drop n
    l.take n ++ (List.range 16).flatMap fun st => new.filter fun k => decide (((s.fabFrame k).map (·.station)).getD 0 = st)
  { s with swt := { s.swt with adm := s.swt.adm.map fun e => (e.1, f e.1 e.2) } }

/-- One cell slot of a panel's crossbar (R242). -/
def State.panelSlot (s : State) (p : Nat) : State :=
  if !s.up p then s
  else
    let t := if p = 0 then s.swt.slotA else s.swt.slotB
    let s := (List.range 8).foldl (fun s j => s.stageTwo p t j) s
    let s := (List.range 8).foldl (fun s i => s.stageOne p t i) s
    let s := if t % 2 = 0 then (List.range 8).foldl (fun s k => s.bridgeLane (8 * p + k)) s else s
    if p = 0 then { s with swt := { s.swt with slotA := t + 1 } } else { s with swt := { s.swt with slotB := t + 1 } }

/-- FABRIC_SLOT (R242). -/
def execFabricSlot (s : State) : Host.Outcome State Fault Refusal :=
  let before := s.swt.adm
  .next (((s.panelSlot 0).panelSlot 1).sortArrivals before)

/-- Take the cells that `q` selects out of the lists. -/
def dropCells (m : SMap (List Cell)) (q : Cell → Bool) : SMap (List Cell) :=
  let r : SMap (List Cell) := m.map fun e => (e.1, e.2.filter fun c => !q c)
  r.filter fun e => !e.2.isEmpty

/-- RESEQUENCE_TIMEOUT (R243): the missing cell is skipped and every frame with a byte in it is dropped as FAB_LOSS. -/
def execResequenceTimeout (panel stream : Nat) (s : State) : Host.Outcome State Fault Refusal :=
  let x := s.stream stream
  match x.gapAt with
  | none => .next s
  | some t0 =>
    if streamIn stream / 8 ≠ panel || s.now < t0 + s.rf R.egrFab panel 0 0 10 * usU then .next s
    else
      let here := (s.swt.inter.flatMap (·.2)).find? fun c => decide (c.stream = stream) && decide (c.seq = x.expect)
      let gone := (x.lost.find? fun c => decide (c.seq = x.expect)).orElse fun _ => here
      let s : State := match gone with
        | some (c : Cell) => c.parts.foldl (fun s e => s.fabLoss e.1) s
        | none => s
      let s := { s with swt := { s.swt with inter := dropCells s.swt.inter fun c => decide (c.stream = stream) && decide (c.seq = x.expect) } }
      let s := s.setStream stream { x with lost := x.lost.filter fun c => decide (c.seq ≠ x.expect), expect := (x.expect + 1) % 65536, gapAt := none }
      .next (s.resequence stream (x.held.length + 2))

/-- A station's resequencing memory is lost (R258): the frames with cells there are FAB_LOSS, and those cells are skipped. -/
def State.loseReseq (s : State) (st : Nat) : State :=
  let mine := s.swt.streams.filter fun e => decide (streamIn e.1 / 8 = st / 8) && decide (streamOut e.1 % 8 = st % 8)
  let cells := mine.flatMap (fun e => e.2.held) ++ SMap.get s.swt.lanes [] st
  let s := mine.foldl (fun s e => (s.setStream e.1 { s.stream e.1 with held := [], lost := (s.stream e.1).lost ++ e.2.held }).resequence e.1 1) s
  let s := { s with swt := { s.swt with lanes := SMap.set s.swt.lanes [] st [] } }
  cells.foldl (fun s c => c.parts.foldl (fun s e => s.fabLoss e.1) s) s

/-- A cell is lost in its intermediate (R243): its frames are FAB_LOSS and its resequencer will skip it. -/
def State.loseCell (s : State) (j : Nat) (c : Cell) : State :=
  let l := (SMap.get s.swt.inter [] j).filter fun d => !(decide (d.stream = c.stream) && decide (d.seq = c.seq))
  let x := s.stream c.stream
  let s := { s with swt := { s.swt with inter := SMap.set s.swt.inter [] j l } }
  let s := (s.setStream c.stream { x with lost := x.lost ++ [c] }).resequence c.stream 1
  c.parts.foldl (fun s e => s.fabLoss e.1) s

/-- A lane of a station fails and its spare takes over (R258): which of the cells that the station carries as an intermediate are on that
lane is a free choice (log entry 97). -/
def State.loseLane (s : State) (st : Nat) : State :=
  (SMap.get s.swt.inter [] st).foldl (fun s c => let (b, s) := s.freeB; if b then s.loseCell st c else s) s

/-- The frames of a stream that have not wholly left the fabric. -/
def State.streamFrames (s : State) (k : Nat) : List Nat :=
  let x := s.stream k
  let cells := x.held ++ (s.swt.inter.flatMap (·.2) ++ s.swt.lanes.flatMap (·.2)).filter fun c => decide (c.stream = k)
  (x.wait.map (·.1) ++ cells.flatMap fun c => c.parts.map (·.1)).eraseDups

/-- A stream ends, with its cells. -/
def State.endStream (s : State) (k : Nat) : State :=
  { s with swt := { s.swt with
    streams := SMap.drop s.swt.streams fun q _ => decide (q = k)
    inter := dropCells s.swt.inter fun c => decide (c.stream = k), lanes := dropCells s.swt.lanes fun c => decide (c.stream = k) } }

/-- What a fenced station no longer carries (R258): the cells it held as an intermediate are FAB_LOSS; so are the frames that wait to enter
the fabric at it, and those that would cross the bridge from it; frames for its ports, which are DOWN, are LINK_DOWN. -/
def State.loseStation (s : State) (st : Nat) : State :=
  let s := (SMap.get s.swt.inter [] st).foldl (fun s c => s.loseCell st c) s
  let keys := s.swt.streams.map (·.1)
  let s := (keys.filter fun k => decide (streamOut k = st)).foldl (fun s k => ((s.streamFrames k).foldl (fun s n => s.dropQueued n) s).endStream k) s
  let via (k : Nat) : Bool := decide (streamIn k / 8 = st / 8) && decide (streamOut k / 8 ≠ st / 8) && decide (streamOut k % 8 = st % 8)
  let s := (keys.filter via).foldl (fun s k => ((s.streamFrames k).foldl (fun s n => s.fabLoss n) s).endStream k) s
  (keys.filter fun k => decide (streamIn k = st)).foldl (fun s k =>
    let x := s.stream k
    (x.wait.foldl (fun s e => s.fabLoss e.1) s).setStream k { x with wait := [] }) s

/-- Every frame whose cells have yet to cross the bridge is dropped as FAB_LOSS, with its streams: the bridge failed or the
panel on the other side is lost (R243, R258). -/
def State.loseCross (s : State) : State :=
  let cross (k : Nat) : Bool := decide (streamIn k / 8 ≠ streamOut k / 8)
  let inStreams := (s.swt.streams.filter fun e => cross e.1).flatMap fun e => e.2.wait.map (·.1) ++ e.2.held.flatMap fun c => c.parts.map (·.1)
  let inCells := (s.swt.inter.flatMap (·.2) ++ s.swt.lanes.flatMap (·.2)).filter fun c => cross c.stream
  let s := (inStreams ++ inCells.flatMap fun c => c.parts.map (·.1)).foldl (fun s n => s.fabLoss n) s
  { s with swt := { s.swt with streams := SMap.drop s.swt.streams fun k _ => cross k, inter := dropCells s.swt.inter fun c => cross c.stream, lanes := [] } }

-- -------------------------------------------------------------------------------------------------- recirculation

/-- A frame enters the recirculation queue of its lifeline's panel (R244, R90): above MAXPASS it is dropped as RECIRC_LIMIT,
and one that R249 refuses is a congestion drop; both release its marker as a drop. -/
def State.toRecirc (s : State) (k : Nat) (f : FabFrame) (maxPass : Nat) : State :=
  let w := (s.ll k).item
  let p := k / 4096
  if maxPass ≤ w.pass then (s.freeLl k).dropMark w 12
  else match s.admitCells p f.port f.tc f.dp (cellsOf f.bytes.length) with
    | some (g, x) =>
      let n := s.swt.nextFrame
      let s := { s with swt := { s.swt with nextFrame := n + 1 } }
      s.enqueue p n { f with ll := some k, gC := g, xC := x, left := 0 }
    | none =>
      let s := (s.freeLl k).countPc f.port f.tc f.dp
      if w.ord then (s.setMark w (.drop none)).advanceHead w.panel w.odom else s

/-- The frame of a lifeline that the bind-off timeout frees in RECIRC is discarded when it reaches the parser (R114). -/
def State.killRecirc (s : State) (k : Nat) : State :=
  let frames := s.swt.frames.map fun e => (e.1, if e.2.ll = some k then { e.2 with ll := none, dead := true } else e.2)
  let parseQ := s.swt.parseQ.map fun e => (e.1, e.2.map fun x => if x.ll = some k then { x with ll := none, dead := true } else x)
  { s with swt := { s.swt with frames := frames, parseQ := parseQ } }

end Sys2Proof.Machine
end

