-- ==== Sys2Proof/Machine/FlowRead.lean ====
section
/-! DEFINITION. Hook 3 reads (R110, R116, R182, R221, R222): what an outstanding read finds, what it waits for, and the
read-set entry and lock it takes. -/

namespace Sys2Proof.Machine

/-- The item whose read set an outstanding read enters (R110): the one it was issued for, while its bank holds it and it has not
timed out. -/
def State.opLl (s : State) (t : Nat) (o : HookOp) : Option Nat :=
  let b := (s.strand t).bk (decide (o.bank = 1))
  o.ll.bind fun k => if !b.hasItem || decide (b.item ≠ some k) || decide ((s.ll k).state = .timedOut) then none else some k

/-- The result of a read: status and RSI, RIDX, VER (R182). -/
def readVal (status rsi ridx ver : Nat) : HWord := mkLanes (status + rsi * 256) (ridx % 2 ^ 25) ver 0

/-- An operation has executed. -/
def HookOp.answer (o : HookOp) (v : HWord) : HookOp := { o with wait := .ready, val := v }

/-- A read that found no record and holds no key: ABSENT, RSI 0xF, the reserved index, VER 0 (R182). -/
def HookOp.absent (o : HookOp) : HookOp := if o.func = 2 then o.answer (mkLanes 0x02 0 0 0) else o.answer (readVal 0x02 15 ridxNone 0)

/-- Twelve state bytes as lanes 1–3. -/
def getVal (st : List Byte) (off : Nat) : HWord :=
  let v := leVal (sliceZ st off 12)
  mkLanes 0 (v % 2 ^ 32) (v / 2 ^ 32 % 2 ^ 32) (v / 2 ^ 64)

/-- The read-set entry that already holds a context (R110): an ABSENT one names it by its slot. -/
def repeatOf (rs : List RsEntry) (p slot ridx : Nat) : Option Nat :=
  (rs.zipIdx.find? fun e => decide (e.1.home = p) && if e.1.absent then decide (e.1.ver = slot) else decide (e.1.ridx = ridx) && !e.1.gone && decide (ridx ≠ ridxNone)).map (·.2)

/-- The lock a serial read of a context takes (R116): on its record, or for an absent one on the key's index bucket. -/
def State.lockKey (s : State) (p slot : Nat) : Bool × Nat :=
  let c := s.ctx p slot
  if c.state = .absence then (true, s.flowBucket p (c.data.take 48)) else (false, c.ridx)

/-- The strand no longer waits for a lock on panel `p`. -/
def State.leaveLockWait (s : State) (t p : Nat) : State :=
  s.setFlw p { s.flw p with lockWait := (s.flw p).lockWait.filter fun u => decide (u ≠ t) }

/-- Does a read that arrived before strand `t`'s wait for the lock (R116)? -/
def State.lockAhead (s : State) (t p key : Nat) : Bool :=
  ((s.flw p).lockWait.takeWhile fun u => decide (u ≠ t)).any fun u => (s.strand u).ops.any fun q => decide (q.wait = .lock p key)

/-- A read of a resident context completes, or waits for its lock. -/
def State.finishRead (s : State) (t : Nat) (o : HookOp) (p slot : Nat) : HookOp × State :=
  let c := s.ctx p slot
  let abs := decide (c.state = .absence)
  let st := if abs then 0x02 else 0x00
  let ver := if abs then slot else c.ver
  if o.func = 2 then
    if abs then (o.absent, s) else (o.answer (getVal (c.data.drop 48) o.off), s)
  else match s.opLl t o with
    | none => (o.answer (readVal st 15 c.ridx ver), s.sweepAbsence p)
    | some k =>
      let l := s.ll k
      match repeatOf l.rs p slot c.ridx with
      | some i =>
        let r := l.rs.getD i {}
        ({ o.answer (readVal (if r.absent then 0x02 else 0x00) i r.ridx r.ver) with rsi := i }, s)
      | none =>
        if 12 ≤ l.rs.length then (o.answer (mkLanes (0x03 + 15 * 256) 0 0 0), s.sweepAbsence p)
        else
          let (onB, key) := s.lockKey p slot
          let id := key + b2n onB * 2 ^ 26
          if l.serial && (s.lockedByOther p onB key k || s.lockAhead t p id) then
            let f := s.flw p
            ({ o with wait := .lock p id }, s.setFlw p { f with lockWait := if f.lockWait.contains t then f.lockWait else f.lockWait ++ [t] })
          else
            let s := if l.serial then (s.takeLock p onB key k).leaveLockWait t p else s
            let i := l.rs.length
            let e : RsEntry := { ridx := c.ridx, ver := ver, home := p, absent := abs, lock := l.serial }
            ({ o.answer (readVal st i c.ridx ver) with rsi := i }, s.setLl k { l with rs := l.rs ++ [e] })

/-- A read of a stolen item whose panel cannot be reached waits, as one that finds the miss queue full (R12, log entry 93). Any other
looks in the workbasket (R220, R221): a resident context answers it, a FILLING one keeps it waiting, and a
miss takes a FILLING context and joins the miss queue if it has room. -/
def State.tryRead (s : State) (t : Nat) (o : HookOp) : HookOp × State :=
  let p := o.home
  if s.overBridge t p then
    let f := s.flw p
    ({ o with wait := .missFull p }, s.setFlw p { f with missWait := (f.missWait.filter fun u => decide (u ≠ t)) ++ [t] })
  else if !s.flwEn p || (o.key.isEmpty && decide (o.ridx = ridxNone)) then (o.absent, s)
  else match if o.key.isEmpty then s.ctxOf p o.ridx else s.ctxOfKey p o.key with
    | some n => if (s.ctx p n).state = .filling then ({ o with wait := .miss p n }, s) else s.finishRead t o p n
    | none =>
      if (s.flw p).missQ.length < 4096 then
        let (n, s) := s.takeCtx p
        let s := s.setCtx p n { state := .filling, ridx := if o.key.isEmpty then o.ridx else ridxNone, data := o.key }
        let f := s.flw p
        ({ o with wait := .miss p n }, (s.setFlw p { f with missQ := f.missQ ++ [n] }).countP p 32)
      else
        let f := s.flw p
        ({ o with wait := .missFull p }, s.setFlw p { f with missWait := (f.missWait.filter fun u => decide (u ≠ t)) ++ [t] })

/-- Offer again the outstanding reads of strand `t` that `p` selects. -/
def State.rerun (s : State) (t : Nat) (p : HookOp → Bool) : State :=
  let n := (s.strand t).ops.length
  (List.range n).foldl (fun s i =>
    let x := s.strand t
    match x.ops[i]? with
    | none => s
    | some o =>
      if p o then
        let (o, s) := s.tryRead t o
        let x := s.strand t
        s.setStrand t { x with ops := x.ops.set i o }
      else s) s

/-- Does the operation wait for a lock? -/
def HookOp.onLock (o : HookOp) : Bool := match o.wait with | .lock _ _ => true | _ => false

/-- The operation's wait for a lock ends because its item has gone: it reads as without an item. -/
def State.rerunLocks (s : State) (t : Nat) : State := ((s.rerun t HookOp.onLock).leaveLockWait t 0).leaveLockWait t 1

/-- Does the operation wait in the stash of panel `p`? -/
def HookOp.waitsOn (p : Nat) (o : HookOp) : Bool :=
  match o.wait with
  | .miss q _ | .missFull q | .lock q _ => decide (q = p)
  | _ => false

/-- The reads that waited in the stash of panel `p` are offered again: it has been lost, and the bridge with it. -/
def State.rerunHome (s : State) (p : Nat) : State :=
  ((s.strands.filter fun e => e.2.ops.any (HookOp.waitsOn p)).map (·.1)).foldl (fun s t => s.rerun t (HookOp.waitsOn p)) s

/-- LOCK_GRANT (R116): the strand's read takes the lock it waits for, once the lock is free and no read that arrived
earlier waits for it. -/
def execLockGrant (t : Nat) (s : State) : Host.Outcome State Fault Refusal :=
  match (s.strand t).ops.find? HookOp.onLock with
  | none => .next s
  | some o => match o.wait with
    | .lock p key =>
      let f := s.flw p
      let held := f.locks.any fun l => decide (l.key + b2n l.onBucket * 2 ^ 26 = key)
      let first := (f.lockWait.find? fun u => (s.strand u).ops.any fun q => decide (q.wait = .lock p key))
      if held || decide (first ≠ some t) then .next s
      else .next (s.rerun t HookOp.onLock)
    | _ => .next s

/-- MISS_QUEUE_ADMIT (R221): the read that found the queue full first is offered to it again. -/
def execMissQueueAdmit (panel : Nat) (s : State) : Host.Outcome State Fault Refusal :=
  let p := panel % 2
  let f := s.flw p
  let waits (u : Nat) : Bool := (s.strand u).ops.any fun q => decide (q.wait = .missFull p)
  if 4096 ≤ f.missQ.length then .next s
  else match f.missWait.find? waits with
    | none => .next s
    | some t => .next ((s.setFlw p { f with missWait := f.missWait.filter fun u => decide (u ≠ t) }).rerun t fun o => decide (o.wait = .missFull p))

/-- Misses a panel may serve in a microsecond (R221): FLW_MCFG.RATE, at most 56 on AG1. -/
def State.missRate (s : State) (p : Nat) : Nat :=
  let r := s.rf R.flwMcfg p 0 0 7
  match s.part with | .ag2 => r | .ag1 => min r 56

/-- Strands with an operation that waits on a FILLING context. -/
def State.missReaders (s : State) (p n : Nat) : List Nat :=
  (s.strands.filter fun e => e.2.ops.any fun o => decide (o.wait = .miss p n)).map (·.1)

/-- What a miss reads of DRAM (R221): the bucket of the key it looks for, or the record of its index. -/
def State.missReads (s : State) (p : Nat) (c : Ctx) : Nat × Nat :=
  if c.ridx = ridxNone then (s.wayAddr p (s.flowBucket p c.data) 0, 64) else (s.recAddr p c.ridx, 128)

/-- MISS_SERVE (R221): the miss at the head of the queue is served, within RATE, and the reads that wait on its context
complete. -/
def execMissServe (panel : Nat) (s : State) : Host.Outcome State Fault Refusal :=
  let p := panel % 2
  let f := s.flw p
  let us := s.now / usU
  let done := if f.servedUs = us then f.served else 0
  match f.missQ with
  | [] => .next s
  | n :: rest =>
    let c := s.ctx p n
    let r := s.missReads p c
    if !s.up p || s.missRate p ≤ done || s.dramHolds p 0 r.1 r.2 false then .next s
    else
      let s := s.askDram p 0 r.1 r.2 false
      let s := s.setFlw p { f with missQ := rest, served := done + 1, servedUs := us }
      let s := s.fillCtx p n
      let gone := decide (c.state = .filling) && decide (c.ridx ≠ ridxNone) && !(s.hasRecord p c.ridx && s.devOk p (s.recAddr p c.ridx) 128)
      .next ((s.missReaders p n).foldl (fun s t =>
        if gone then
          let x := s.strand t
          s.setStrand t { x with ops := x.ops.map fun o => if o.wait = .miss p n then o.absent else o }
        else s.rerun t fun o => decide (o.wait = .miss p n)) s)

/-- Does panel `p`'s own stash hold the key of an adopted record? -/
def State.adoptDup (s : State) (p m : Nat) : Bool :=
  match s.recKey p (0x1000000 + m) with
  | none => false
  | some key => match (s.flowSearch p key).2 with
    | some (.mir _ _, _) => false
    | some _ => true
    | none => false

/-- ADOPT_CONFLICT (R227): the background scan frees one adopted mirror copy whose key the survivor's own stash also
holds. -/
def execAdoptConflict (panel : Nat) (s : State) : Host.Outcome State Fault Refusal :=
  let p := panel % 2
  match (s.flw p).adoptUsed.find? fun e => e.2 && s.adoptDup p e.1 with
  | none => .next s
  | some (m, _) =>
    let nb := 2 ^ (s.log2m p - 2)
    let s := match s.recKey p (0x1000000 + m) with
      | none => s
      | some key =>
        let b := s.flowHash p key % nb
        (List.range 4).foldl (fun s w => match s.entryAt p (.mir b w) with
          | some e => if e.valid && decide (e.ridx = m) then s.setEntry p (.mir b w) {} else s
          | none => s) s
    .next (((s.markGone p (0x1000000 + m)).setAdopt p (SMap.set (s.flw p).adoptUsed false m false)).countP p 36)

end Sys2Proof.Machine
end

