-- ==== Sys2Proof/Machine/Carriage.lean ====
section
/-! DEFINITION. The Carriage and bind-off (ch. 5): dispatch (R105, R138), bind-off by the strand (R138), the release
turn with its checks and commit (R113–R116), the bind-off timeout (R114), lock waits (R116) and the hold and spill
queues (R104). -/

namespace Sys2Proof.Machine

-- ------------------------------------------------------------------------------------------------------- dispatch

/-- The bank of a strand takes an item (R138): wi0–wi7, status.ITEM, the windows, and the dispatch entry of the vector
table. NDL_SHARE, NDL_WIN and NDL_XMASK take effect (R149). -/
def State.enterItem (s : State) (t k : Nat) (b1 : Bool) : State :=
  let x := s.strand t
  let p := panelOf t
  let c := courseOf t % 4
  let w := { (s.ll k).item with ll := some k }
  let b := x.bk b1
  let b := { b with item := some k, hasItem := true, wi := w.words, pc := x.tvbase + 0x180#32, watchExempt := false }
  s.setStrand t { x.setBk b1 b with
    inB1 := b1, idle := false, dispTime := s.now, deferred := none,
    shareBase := s.rf R.ndlShare p (kOf t) 0 6, shareSize := s.rf R.ndlShare p (kOf t) 6 7,
    wins := (List.range 4).map fun n => s.rd R.ndlWin p c n, xmask := s.rf R.ndlXmask p c 0 16 }

/-- Pre-emption at an instruction boundary (R138): an operation blocked in a yarn is abandoned (R134), and bank 0's pc
names the next instruction. -/
def State.preempt (s : State) (t k : Nat) : State :=
  let x := s.strand t
  (s.setStrand t x.unwait).enterItem t k true

/-- Give item `w`, taken from its list, to strand `t` with lifeline `k` (R105, R107, R112). -/
def State.giveItem (s : State) (t k : Nat) (w : WorkItem) : State :=
  let w := { w with ll := some k, vgen := if w.kind = .frame || w.ll.isSome then w.vgen else s.chr.curGen }
  let s := match SMap.find s.lls k with
    | some l => s.setLl k { l with state := .running, strand := some t, lastStrand := t, item := w }
    | none =>
      let own := decide (panelOf t = w.panel)
      s.setLl k { newLl w with strand := some t, lastStrand := t, chg := if own then some t else none, chgC := if own then none else some (w.list / 128) }
  let x := s.strand t
  if x.idle then s.enterItem t k false
  else if x.bank0.exl then s.setStrand t { x with deferred := some w }
  else s.preempt t k

/-- May strand `t` take an item that needs a lifeline charged (R156)? A stolen item of the other panel takes its
lifeline from its list's home course. -/
def State.canTake (s : State) (t : Nat) (w : WorkItem) : Bool :=
  w.ll.isSome || (if panelOf t = w.panel then s.canChargeLl t else s.llRoom (w.list / 128))

/-- The strand an item of a priority goes to (R105): the lowest idle subscribed strand, else the pre-emptable one of
lowest running priority, earliest dispatch first. -/
def State.strandFor (s : State) (c pr : Nat) (w : WorkItem) : Option Nat :=
  let sub := (courseStrands c).filter fun t => s.subscribed t (w.list % 128) && s.canTake t w
  match sub.find? fun t => s.isIdle t with
  | some t => some t
  | none =>
    let prio (t : Nat) : Nat := match (s.strand t).bank0.item with
      | some k => s.listPrio (s.ll k).item.list
      | none => 8
    let pre := sub.filter fun t =>
      let x := s.strand t
      s.dispatchable t && s.rb R.carScfg (panelOf t) (kOf t) 0 && !x.idle && !x.inB1 && x.bank0.hasItem && x.deferred.isNone
        && decide (prio t < pr)
    pre.foldl (fun best t => match best with
      | none => some t
      | some u => if prio t < prio u || (prio t = prio u && (s.strand t).dispTime < (s.strand u).dispTime) then some t else some u) none

/-- Take item `i` of list `l` off it. -/
def State.takeAt (s : State) (l i : Nat) : State := (s.setItems l ((s.items l).eraseIdx i)).stirWork s

/-- What a round finds at a list (R105): nothing, a timed-out head that is discarded, or an item dispatched. -/
inductive DispRes where
  | none | discarded (s : State) | sent (s : State)

/-- Try the eligible head of list `l` for course `c` (R105). -/
def State.tryList (s : State) (c pr l : Nat) : DispRes :=
  match s.eligible l with
  | none => .none
  | some i => match (s.items l)[i]? with
    | none => .none
    | some w =>
      if w.dead || s.timedOut w then .discarded ((s.takeAt l i).discardHead w)
      else match s.strandFor c pr w with
        | none => .none
        | some t =>
          let mark (s : State) : State :=
            { s with car := { s.car with dispRr := SMap.set s.car.dispRr 0 ((if l / 128 = c then 0 else 64) + c * 8 + pr) (l + 1) } }
          match w.ll with
          | some k => .sent (mark ((s.takeAt l i).giveItem t k w))
          | none =>
            let (r, s') := s.pickLl w.panel
            match r with
            | none => .none
            | some k => .sent (mark ((s'.takeAt l i).giveItem t k w))

/-- Go on with a round that has not dispatched yet. -/
def State.roundStep (c pr : Nat) (acc : State × Bool) (l : Nat) : State × Bool :=
  if acc.2 then acc
  else match acc.1.tryList c pr l with
    | .none => acc
    | .discarded s => (s, false)
    | .sent s => (s, true)

/-- One round of a course (R105): priorities from 7 down, each priority's lists in their order; timed-out heads are discarded on
the way, and the first item that a strand can take ends the round. -/
def State.dispatchRound (s : State) (c : Nat) : State :=
  ((List.range 8).foldl (fun (acc : State × Bool) q =>
    if acc.2 then acc else (acc.1.served c (7 - q)).foldl (fun a l => State.roundStep c (7 - q) a l) acc) (s, false)).1

/-- DISPATCH (R105): one round of a course's Carriage slice: the first eligible item that a strand can take is
dispatched. Dispatch runs in RUN, DEGRADED and LIMP (R20). -/
def execDispatch (course : Nat) (s : State) : Host.Outcome State Fault Refusal :=
  if course < 8 && s.inService && s.up (coursePanel course) then .next (s.dispatchRound course) else .next s

/-- HOLD_QUEUE_RETRY (R104). -/
def execHoldQueueRetry (panel : Nat) (s : State) : Host.Outcome State Fault Refusal := .next (s.retryHold (panel % 2))

/-- SPILL_RETURN (R104): while the on-chip count is below DEPTH, the oldest spilled item moves back; one that reads back poisoned
is discarded, with its slot DROP and counted as BIND_TIMEOUT (R298). -/
def execSpillReturn (list : Nat) (s : State) : Host.Outcome State Fault Refusal :=
  match s.spilled list with
  | [] => .next s
  | w :: rest =>
    let a := s.spillAddr list (w.ring.getD 0)
    if (s.items list).length < s.listDepth list && s.storeUse (listPanel list) < s.storeSize (listPanel list) && !s.dramHolds (listPanel list) 2 a 32 false then
      let t := (s.setSpilled list rest).askDram (listPanel list) 2 a 32 false
      if s.spillPoison list (w.ring.getD 0) then .next (t.discardHead w)
      else .next (t.setItems list (s.items list ++ [{ w with ring := none }]))
    else .next s

-- ------------------------------------------------------------------------------------------------ bind-off, checks

/-- The strand ends its item (R138): the status of bind-off, and the state. -/
def State.bindoffItem (s : State) (t : Nat) : Nat × State :=
  let b := s.bank t
  match b.item with
  | none => (2, s.setBank t b.dropItem)
  | some k =>
    if !b.hasItem then (2, s)
    else
      let l := s.ll k
      let s := s.setBank t b.dropItem
      if l.state = .timedOut then (1, (s.discardAttempt k).freeLl k)
      else
        let s := s.setLl k { l with state := .done, strand := none }
        (0, s.setMark l.item .done)

/-- WAITD (R138): a strand in bank 1 goes back to bank 0 and its pre-empted item; otherwise it is idle, or takes the item whose
pre-emption waited for EXL = 0: with no item left to pre-empt that is an ordinary dispatch (DEDUCED, log entry 80). -/
def State.waitDispatch (s : State) (t : Nat) : State :=
  let s := if (s.bank t).hasItem then (s.bindoffItem t).2 else s
  let x := s.strand t
  if x.inB1 then s.setStrand t { x with inB1 := false }
  else match x.deferred.bind fun w => w.ll with
    | some k => s.enterItem t k false
    | none => s.setStrand t { x with idle := true, restAt := s.now }

/-- Checks 1 and 2 of R113 for a read-set entry: the record still exists at the version read, and no other item holds its
lock; the version does not matter to the item that holds the lock (R116). -/
def State.readOk (s : State) (k : Nat) (log : List StEntry) (i : Nat) (e : RsEntry) : Bool :=
  let p := e.home
  if e.absent then
    decide ((s.ctx p e.ver).state = .absence) &&
      !(log.any fun x => decide (x.op = .insert) && decide (x.rsi = i) &&
        s.lockedByOther p true (s.flowBucket p ((s.ctx p e.ver).data.take 48)) k)
  else
    !e.gone && s.hasRecord p e.ridx && (e.lock || decide (s.recVer p e.ridx = e.ver)) &&
      !((log.any fun x => x.onCtx i e.ridx) && s.lockedByOther p false e.ridx k)

/-- Check 3 of R113: every FLOW_CAS entry finds its compare operand after the entries before it. -/
def State.casesOk (s : State) (p : Nat) (rs : List RsEntry) (log : List StEntry) : Bool :=
  (log.zipIdx).all fun e =>
    match e.1.op with
    | .cas =>
      let ridx := (rs.getD e.1.rsi {}).ridx
      let st := if (rs.getD e.1.rsi {}).absent then List.replicate 80 0#8 else s.recState p ridx
      e.1.casOk (viewState st (log.take e.2) e.1.rsi ridx)
    | _ => true

/-- The first check of R113 that fails: none where all pass, else FROG_RSI. A blind entry fails on the lock of another
serial item, with FROG_RSI 0xF (R116). -/
def State.commitFails (s : State) (k : Nat) : Option Nat :=
  let l := s.ll k
  let p := k / 4096
  match (l.rs.zipIdx).find? fun e => !s.readOk k l.log e.2 e.1 with
  | some e => some e.2
  | none =>
    if l.log.any fun e => decide (e.rsi = 15) && !decide (e.op = .bufFree) && s.lockedByOther p false e.target k then some 15
    else if s.casesOk p l.rs l.log then none else some 15

/-- Apply one stage-log entry at the contexts' home (R115). -/
def State.applyEntry (s : State) (k : Nat) (e : StEntry) : State :=
  let p := k / 4096
  let rs := (s.ll k).rs
  let r := rs.getD e.rsi {}
  let ridx := if e.rsi = 15 then e.target
    else if r.absent then (((s.ll k).log.find? fun x => decide (x.op = .insert) && decide (x.rsi = e.rsi)).map (·.target)).getD ridxNone
    else r.ridx
  match e.op with
  | .bufFree => (s.freeBufAt p e.target).2
  | .insert =>
    let key := (s.ctx p r.ver).data.take 48
    let s := s.makeRecord p (e.rsvWay.getD 0) e.target key
    s.setCtx p r.ver { state := .dirty, ridx := e.target, ver := 0, data := key ++ List.replicate 80 0#8 }
  | .delete => s.deleteRecord p ridx
  | _ => s.applyRec p ridx e

/-- The record indices whose contexts a log changes, each once, with whether it was inserted. -/
def changedRecs (rs : List RsEntry) (log : List StEntry) : List (Nat × Bool) :=
  log.foldl (fun acc e =>
    let r := rs.getD e.rsi {}
    let ridx := if e.op = .insert then e.target
      else if e.rsi = 15 then e.target
      else if r.absent then ((log.find? fun x => decide (x.op = .insert) && decide (x.rsi = e.rsi)).map (·.target)).getD ridxNone
      else r.ridx
    if e.op = .bufFree || acc.any fun x => decide (x.1 = ridx) then acc else acc ++ [(ridx, decide (e.op = .insert))]) []

/-- Apply the entries of a log that are not DONE, in order, and mark each (R115, R117). -/
def State.applyLog (s : State) (k : Nat) : State :=
  ((s.ll k).log.zipIdx).foldl (fun s e =>
    if e.1.done then s
    else
      let s := s.applyEntry k e.1
      let l := s.ll k
      s.setLl k { l with log := l.log.set e.2 { e.1 with done := true } }) s

/-- Is the egress descriptor usable (R109): no reserved field, DP or EGRESS? -/
def egrOk (v : Nat) : Bool :=
  decide (bits v 17 47 = 0) && decide (bits v 14 2 ≠ 3) && decide (bits v 0 11 < 1152)

/-- The item leaves bind-off at the end of its commit (R115, R118): forwarded, dropped as PROG_DROP or RESERVED_FIELD,
or sent to recirculation. A HOST item completes. An item of KIND WAKE or HOST hands nothing over and counts nothing, whatever its egress
descriptor holds (log entry 91). -/
def State.leave (s : State) (k : Nat) (parallel : Bool) : State :=
  let l := s.ll k
  let w := l.item
  let p := k / 4096
  let egr := leVal l.egr
  let ok := egrOk egr
  let v := bit egr 16
  let port := bits egr 0 11
  let done (s : State) : State :=
    let s := if parallel then s.setMark w .released else s.setMark w .empty
    let s := if w.ord && !parallel then s.setOd w.panel w.odom (s.od w.panel w.odom).pass else s
    let s := s.endWork w 0 l.fmeta
    let s := s.freeLl k
    if w.ord then s.advanceHead w.panel w.odom else s
  if w.kind ≠ .frame then done s
  else if !ok then done (s.countP p 21)
  else if !v then done (s.countP p 20)
  else
    let (cs, s) := s.rewriteFrame p l.frame w.cells
    let w := { w with cells := cs }
    let f : FabFrame := { bytes := l.frame, port := port, tc := bits egr 11 3, dp := bits egr 14 2, ingress := w.ingress, panel := p, cellsR := w.cellsR, cellsS := w.cellsS, cells := if port < 1024 || 1027 < port then cs else [], rx := w.rx }
    if 1024 ≤ port && port ≤ 1027 then
      let l := { l with state := .recirc, rs := [], log := [], tents := [], serial := false, replay := false, frame0 := l.frame, fmeta0 := l.fmeta, egr0 := l.egr, item := { w with attempt := 1, replay := false } }
      let s := (s.setLl k l).freeLocks k
      (s.setMark w .pending).toRecirc k f (s.maxPass w.vgen)
    else (done s).toFabric f (if bit l.action 4 then some (bits l.action 52 4) else none)

/-- A commit (R115): tentative buffers are confirmed, the log is applied, each changed context's version rises by one,
locks are freed, and the item leaves. -/
def State.commit (s : State) (k : Nat) (parallel : Bool) : State :=
  let p := k / 4096
  let l := s.ll k
  let s := s.setLl k { l with state := .committing }
  let s := l.tents.foldl (fun s e => s.confirmTent e.1) s
  let ch := changedRecs l.rs l.log
  let s := s.applyLog k
  let s := ch.foldl (fun s c => if s.hasRecord p c.1 then s.endCtx p c.1 c.2 else s) s
  let s := s.freeLocks k
  (s.leave k parallel).sweepAbsence p

/-- Is it the item's release turn (R113)? -/
def State.isTurn (s : State) (k : Nat) : Bool :=
  let l := s.ll k
  let w := l.item
  decide (l.state = .done) &&
    (if w.ord && decide (s.listAttr w.list ≠ 2) then
      decide ((s.od w.panel w.odom).head = w.marker) && decide ((s.od w.panel w.odom).slot w.marker = .done)
    else true)

/-- The checks of R113 at the release turn, then commit, frog or drop. A serial attempt that fails is released as a
drop, and its WORK command completes with SERIAL_FAIL (R113, R314). -/
def State.release (s : State) (k : Nat) : State :=
  let l := s.ll k
  let w := l.item
  let par := w.ord && decide (s.listAttr w.list = 2)
  match s.commitFails k with
  | none => s.commit k par
  | some rsi =>
    if l.serial then
      let s := s.discardAttempt k
      let s := s.endWork w 0x14 []
      let s := s.freeLl k
      s.dropMark w 19
    else (s.setMark w .pending).frog k rsi

/-- RELEASE_TURN (R113): the bind-off engine of the panel takes the item at its turn. -/
def execReleaseTurn (panel llid : Nat) (s : State) : Host.Outcome State Fault Refusal :=
  let k := panel % 2 * 4096 + llid % 4096
  if s.up (panel % 2) && s.isTurn k then .next (s.release k) else .next s

/-- The bind-off timeout of an item that holds a lifeline (R114). -/
def State.timeoutHeld (s : State) (k : Nat) : State :=
  let l := s.ll k
  if !s.timedOut l.item then s
  else match l.state with
    | .running =>
      let s := s.discardAttempt k
      let s := s.endWork l.item 0x0D []
      let s := s.setLl k { s.ll k with state := .timedOut, item := { l.item with work := none } }
      let s := match l.strand with
        | some t => s.rerunLocks t
        | none => s
      s.dropMark l.item 16
    | .queued =>
      let s := s.discardAttempt k
      let s := s.endWork l.item 0x0D []
      let s := (s.killQueued k).freeLl k
      s.dropMark l.item 16
    | .recirc => (((s.discardAttempt k).killRecirc k).freeLl k).dropMark l.item 16
    | _ => s

/-- Is a work item the first pass of the frame with a marker, not yet released? -/
def WorkItem.waitsAs (w : WorkItem) (p d m : Nat) : Bool :=
  w.ll.isNone && w.ord && !w.dead && decide (w.panel = p) && decide (w.odom = d) && decide (w.marker = m)

/-- The bind-off timeout of a first pass that is still in a list (R114): its slot becomes DROP at once, and the item is
discarded when it reaches the head. -/
def State.timeoutListed (s : State) (p d m : Nat) : State :=
  let here := (s.car.lists.flatMap (·.2)) ++ (s.car.spill.flatMap (·.2)) ++ s.car.holdA ++ s.car.holdB
  match here.find? fun w => w.waitsAs p d m with
  | none => s
  | some w =>
    if !s.timedOut w then s
    else
      let kill (l : List WorkItem) : List WorkItem := l.map fun x => if x.waitsAs p d m then { x with dead := true } else x
      let c := s.car
      let s := { s with car := { c with lists := c.lists.map (fun (e : Nat × List WorkItem) => (e.1, kill e.2)), spill := c.spill.map (fun (e : Nat × List WorkItem) => (e.1, kill e.2)), holdA := kill c.holdA, holdB := kill c.holdB } }
      s.dropMark w 16

/-- BIND_TIMEOUT (R114): an item that has not reached DONE when its timeout expires is released as a drop. -/
def execBindTimeout (x : TimedItem) (s : State) : Host.Outcome State Fault Refusal :=
  match x with
  | .held panel llid => .next (s.timeoutHeld (panel % 2 * 4096 + llid % 4096))
  | .listed panel odom marker => .next (s.timeoutListed (panel % 2) (odom % 16384) (marker % 65536))

end Sys2Proof.Machine
end

