-- ==== Sys2Proof/Machine/Yarns.lean ====
section
/-! DEFINITION. Yarns (R134, R158–R160), strand endpoints (R161) and knots (R163–R165). -/

namespace Sys2Proof.Machine

/-- A yarn by key: course × 64 + yarn, or 512 + receive course × 16 + slot. -/
def State.yarn (s : State) (k : Nat) : Yarn := SMap.get s.yrn.yarns {} k
/-- Replace a yarn. -/
def State.setYarn (s : State) (k : Nat) (y : Yarn) : State := { s with yrn := { s.yrn with yarns := SMap.set s.yrn.yarns {} k y } }
/-- Messages held and in transit (YRN_OCC.COUNT). -/
def Yarn.count (y : Yarn) : Nat := y.fifo.length + y.transit.length

/-- The FIFO that an operation of a strand on yarn number `n` (0–79) uses, if the strand holds that end (R158). `recv`
names the end. A severed slot (R160) has its end, though the other panel may no longer name it. -/
def State.yarnEnd (s : State) (t n : Nat) (recv : Bool) : Option Nat :=
  let c := courseOf t
  if n < 64 then
    let v := s.yCfg c n
    let own := if recv then bit v 15 || decide (bits v 8 7 = iOf t) else !bit v 16 && (bit v 7 || decide (bits v 0 7 = iOf t))
    if bit v 17 && own then some (c * 64 + n) else none
  else
    let j := n - 64
    let v := s.iCfg c j
    if bit v 0 && (bit v 1 == recv) && (bit v 9 || decide (bits v 2 7 = iOf t)) then
      let d := if SMap.get s.yrn.sev false (c * 16 + j) then some (bits v 10 3, bits v 13 4) else s.link c j
      d.map fun d => if recv then 512 + c * 16 + j else 512 + d.1 * 16 + d.2
    else none

/-- Strands blocked on one end of a FIFO, in the order in which they blocked (R159). -/
def State.blockedOn (s : State) (key : Nat) (recv : Bool) : List Nat :=
  s.yrn.order.filter fun t => match (s.strand t).block with
    | some b => (b.recv == recv) && decide (s.yarnEnd t b.yarn recv = some key)
    | none => false

/-- Words of an outbox as one message: words 0 to the highest staged, unstaged ones below it zero (R134). -/
def outboxMsg (o : List (Option Word)) : List Word :=
  let n := (idxs 4 fun i => (o.getD i none).isSome).foldl (fun _ i => i + 1) 0
  (List.range n).map fun i => (o.getD i none).getD 0#32

/-- Is something staged? -/
def staged (o : List (Option Word)) : Bool := o.any Option.isSome

/-- The empty outbox. -/
def noOutbox : List (Option Word) := [none, none, none, none]

/-- A send completes with OK (R159): the message is in transit, the outbox is clear. -/
def State.doSend (s : State) (t key : Nat) : State :=
  let b := s.bank t
  let y := s.yarn key
  let s := s.setYarn key { y with transit := y.transit ++ [outboxMsg b.outbox] }
  s.setBank t { s.bank t with outbox := noOutbox }

/-- A receive completes (R159): the message goes to the inbox; the result is OK with the length in [10:8] (R134). -/
def State.doRecv (s : State) (t key : Nat) : Word × State :=
  let y := s.yarn key
  match y.fifo with
  | [] => (1#32, s)
  | m :: rest =>
    let s := s.setYarn key { y with fifo := rest, roomAt := if y.count = 8 then s.now else y.roomAt }
    (w32 (m.length * 256), s.setBank t { s.bank t with inbox := m })

/-- The result of a yarn operation arrives later in rd (R132); a send acts as a fence after itself. -/
def State.yarnResult (s : State) (t rd : Nat) (v : Word) (fence : Bool) : State :=
  let x := s.strand t
  let b := x.cur
  s.setStrand t { x.setCur { b with pend := b.pend ++ [{ rd := rd, vals := [v] }] } with fenceWait := x.fenceWait || fence }

/-- The order in which blocked operations are served (R159): as they blocked, and within one cycle in ascending strand number. -/
def State.blockOrder (s : State) (t : Nat) : List Nat :=
  let rest := s.yrn.order.filter fun u => decide (u ≠ t)
  let later (u : Nat) : Bool := match (s.strand u).block with
    | some b => decide (b.since / cycleU s.part = s.now / cycleU s.part) && decide (t < u)
    | none => false
  rest.takeWhile (fun u => !later u) ++ t :: rest.dropWhile fun u => !later u

/-- The operation blocks (R159): the pc stays at the instruction. -/
def State.blockYarn (s : State) (t n rd : Nat) (timeout : Nat) (recv : Bool) : State :=
  let x := s.strand t
  let b := x.cur
  let s := s.setStrand t { x.setCur { b with pc := b.pc - 4#32 } with block := some { recv := recv, yarn := n, since := s.now, timeout := timeout, rd := rd }, restAt := s.now }
  { s with yrn := { s.yrn with order := s.blockOrder t } }

/-- YPUT (R134): rs1 data, word k in [8:7]; [11:9] and rd must be 0. -/
def execYput (t : Nat) (f : RFmt) (s : State) : Host.Outcome State Fault Refusal :=
  let k := f.rs2.toNat % 4
  .next (s.issue t { word := f.word 0x28 0, g := f.g, regs := [f.rs1.toNat], emu := fieldErr (decide (f.rd ≠ 0#5) || decide (4 ≤ f.rs2.toNat)) } fun s =>
    let b := s.bank t
    s.setBank t { b with outbox := b.outbox.set k (some (b.rg f.rs1.toNat)) })

/-- What a yarn instruction does once it executes: BAD_YARN, NOT_OWNER, EMPTY, BAD_TIMEOUT, completion, TIMEOUT of a
try-once operation, or the block (R134, R159, R160). -/
def State.yarnOp (s : State) (t n rd : Nat) (timeout : Nat) (recv : Bool) : State :=
  let once := decide (timeout = 0xFFFFFFFF)
  let res (v : Word) : State := s.yarnResult t rd v (!recv)
  if 79 < n then res 2#32
  else match s.yarnEnd t n recv with
    | none => res 3#32
    | some key =>
      if !recv && !staged (s.bank t).outbox then res 4#32
      else if timeout = 0 && s.isSupv t then res 5#32
      else if s.yarnSevered t n then if once then res 1#32 else s.blockYarn t n rd timeout recv
      else
        let free := (s.blockedOn key recv).isEmpty
        if !recv && free && (s.yarn key).count < 8 then (s.doSend t key).yarnResult t rd 0#32 true
        else if recv && free && !(s.yarn key).fifo.isEmpty then
          let (v, s) := s.doRecv t key
          s.yarnResult t rd v false
        else if once then res 1#32
        else s.blockYarn t n rd timeout recv

/-- YSEND (R134); it acts as a FENCE before and after itself (R132). -/
def execYsend (t : Nat) (f : RFmt) (s : State) : Host.Outcome State Fault Refusal :=
  .next (s.issue t { word := f.word 0x28 1, g := f.g, regs := [f.rd.toNat, f.rs1.toNat, f.rs2.toNat], hold := !(s.strand t).quiet } fun s =>
    s.yarnOp t ((s.bank t).rg f.rs1.toNat).toNat f.rd.toNat ((s.bank t).rg f.rs2.toNat).toNat false)

/-- YRECV (R134). -/
def execYrecv (t : Nat) (f : RFmt) (s : State) : Host.Outcome State Fault Refusal :=
  .next (s.issue t { word := f.word 0x28 2, g := f.g, regs := [f.rd.toNat, f.rs1.toNat, f.rs2.toNat] } fun s =>
    s.yarnOp t ((s.bank t).rg f.rs1.toNat).toNat f.rd.toNat ((s.bank t).rg f.rs2.toNat).toNat true)

/-- YGET (R134): rd := inbox word k, 0 beyond the last message's length; rs1 and [11:9] must be 0. -/
def execYget (t : Nat) (f : RFmt) (s : State) : Host.Outcome State Fault Refusal :=
  .next (s.issue t { word := f.word 0x28 3, g := f.g, regs := [f.rd.toNat], emu := fieldErr (decide (f.rs1 ≠ 0#5) || decide (4 ≤ f.rs2.toNat)) } fun s =>
    s.wreg t f.rd.toNat ((s.bank t).inbox.getD (f.rs2.toNat % 4) 0#32))

/-- YDROP (R134): clears the outbox; rd, rs1 and [11:7] must be 0. -/
def execYdrop (t : Nat) (f : RFmt) (s : State) : Host.Outcome State Fault Refusal :=
  .next (s.issue t { word := f.word 0x28 4, g := f.g, emu := fieldErr (decide (f.rd ≠ 0#5) || decide (f.rs1 ≠ 0#5) || decide (f.rs2 ≠ 0#5)) } fun s =>
    s.setBank t { s.bank t with outbox := noOutbox })

/-- A blocked operation completes with a result (R159): rd is written and the strand goes on. -/
def State.unblock (s : State) (t rd : Nat) (v : Word) : State :=
  let x := s.strand t
  let b := x.cur
  let s := s.setStrand t { x.setCur { b.wg rd v with pc := b.pc + 4#32, watchExempt := false } with block := none }
  ({ s with yrn := { s.yrn with order := s.yrn.order.filter fun u => decide (u ≠ t) } }).stepDone t

/-- Can the blocked operation of strand `t` complete now: it is the first on its end and has room or data (R159)? -/
def State.servable (s : State) (t : Nat) (b : YBlock) : Option Nat :=
  match s.yarnEnd t b.yarn b.recv with
  | none => none
  | some key =>
    if s.yarnSevered t b.yarn || (s.blockedOn key b.recv).head? ≠ some t then none
    else if b.recv then if (s.yarn key).fifo.isEmpty then none else some key
    else if (s.yarn key).count < 8 then some key else none

/-- Serve a blocked operation that can complete. -/
def State.serveYarn (s : State) (t key : Nat) (b : YBlock) : State :=
  if b.recv then
    let (v, s) := s.doRecv t key
    s.unblock t b.rd v
  else (s.doSend t key).unblock t b.rd 0#32

/-- The 10 ns unit in which a blocked operation's timeout expires (R159). -/
def YBlock.lastTick (b : YBlock) : Nat := (b.since + b.timeout * tickU) / tickU

/-- Did the room or data that an operation waits for appear no later than the 10 ns unit in which its timeout expires (R159)? -/
def State.inTime (s : State) (key : Nat) (b : YBlock) : Bool :=
  decide (b.timeout = 0) || decide ((if b.recv then (s.yarn key).dataAt else (s.yarn key).roomAt) / tickU ≤ b.lastTick)

/-- YARN_WAIT_SERVE (R159). -/
def execYarnWaitServe (t : Nat) (s : State) : Host.Outcome State Fault Refusal :=
  match (s.strand t).block with
  | none => .next s
  | some b => match s.servable t b with
    | some key => if s.inTime key b then .next (s.serveYarn t key b) else .next s
    | none => .next s

/-- YARN_TIMEOUT (R159): the operation completes with TIMEOUT once the 10 ns unit in which its timeout expires is over; with OK if room
or data appeared in that unit or before it. -/
def execYarnTimeout (t : Nat) (s : State) : Host.Outcome State Fault Refusal :=
  match (s.strand t).block with
  | none => .next s
  | some b =>
    if b.timeout = 0 || s.now / tickU ≤ b.lastTick then .next s
    else match s.servable t b with
      | some key => if s.inTime key b then .next (s.serveYarn t key b) else .next (s.unblock t b.rd 1#32)
      | none => .next (s.unblock t b.rd 1#32)

/-- YARN_MESSAGE_ARRIVE (R159): the oldest message in transit reaches the FIFO at the receive end. `yarn` is 0–63 for a
course yarn, 64–79 for the receive slot of a link. -/
def execYarnMessageArrive (course yarn : Nat) (s : State) : Host.Outcome State Fault Refusal :=
  let key := if yarn < 64 then course * 64 + yarn else 512 + course * 16 + (yarn - 64)
  let y := s.yarn key
  match y.transit with
  | [] => .next s
  | m :: rest =>
    let s := s.setYarn key { y with transit := rest, fifo := y.fifo ++ [m], dataAt := if y.fifo.isEmpty then s.now else y.dataAt }
    .next (s.stir course)

/-- Strands of `ts` whose blocked operation has just become knot-blocked come to rest now. -/
def State.restAll (s : State) (ts : List Nat) : State :=
  ts.foldl (fun s t => if s.knotBlocked t then s.setStrand t { s.strand t with restAt := s.now } else s) s

/-- The links between the panels are severed (R160): their messages are discarded and counted as YARN_LOST at the
receiving course, both slots are marked, and a wait on one of them counts towards a knot from now on (R164). -/
def State.severLinks (s : State) : State :=
  let ts := s.yrn.order.filter fun t => !s.knotBlocked t
  let s := (List.range 128).foldl (fun s k =>
    let c := k / 16
    let j := k % 16
    match s.link c j with
    | some (d, i) =>
      if coursePanel c = coursePanel d then s
      else
        let s := { s with yrn := { s.yrn with sev := SMap.put s.yrn.sev k true } }
        if bit (s.iCfg c j) 1 then
          let n := (s.yarn (512 + k)).count
          let s := if (s.yarn (512 + k)).transit.isEmpty then s else s.stir c
          (s.setYarn (512 + k) {}).countN 5 c 0 n
        else s
    | none => s) s
  s.restAll ts

-- --------------------------------------------------------------------------------------------------------- knots

/-- Is a course knotted (R164)? -/
def State.knotted (s : State) (c : Nat) : Bool :=
  let ts := (courseStrands c).filter fun t => !s.isSupv t
  ts.any s.knotBlocked &&
  ts.all s.atRest &&
  !s.workFor c &&
  (List.range 64).all (fun y => (s.yarn (c * 64 + y)).transit.isEmpty) &&
  (List.range 16).all fun j => (s.yarn (512 + c * 16 + j)).transit.isEmpty

/-- Since when the course has been knotted, if it is: the last time at which one of its strands came to rest, or at which a message
reached one of its yarns, or an eligible item or the supervisor's role was gone. -/
def State.knotSince (s : State) (c : Nat) : Nat :=
  ((courseStrands c).filter fun t => !s.isSupv t).foldl (fun m t => max m (s.strand t).restAt) (SMap.get s.yrn.stirAt 0 c)

/-- The mask of knot-blocked strands, word `w` (R165). -/
def State.knotMask (s : State) (c w : Nat) : Word :=
  w32 (sumN ((idxs 32 fun b => decide (32 * w + b < 104) && s.knotBlocked (c * 104 + 32 * w + b)).map fun b => 2 ^ b))

/-- KNOT (R165): after a course has been knotted for the knot window, KNOT is raised once on its supervisor, the mask is
latched, KCNT counts, and a KNOT event is posted. -/
def execKnot (course : Nat) (s : State) : Host.Outcome State Fault Refusal :=
  let p := coursePanel course
  let c := course % 4
  let since := s.knotSince course
  if 8 ≤ course || !s.knotted course || s.now < since + s.rf R.yrnKwin p 0 0 16 * 64 * cycleU s.part
    || decide (since < SMap.get s.yrn.knotAt 0 course) then .next s
  else
    let masks := (List.range 4).map fun w => s.knotMask course w
    let s := (List.range 4).foldl (fun s w => s.setRd R.yrnKnot p c w (masks.getD w 0#32)) s
    let s := s.setRd R.yrnKstat p c 0 (w32 (min ((s.rd R.yrnKstat p c).toNat + 1) 65535))
    let s := { s with yrn := { s.yrn with knotAt := SMap.set s.yrn.knotAt 0 course (s.now + 1) } }
    let u := s.supv course
    let s := s.setStrand u { s.strand u with knotp := true }
    .next (s.postEvent 4 0 p (leBytes 4 course ++ masks.flatMap fun m => leBytes 4 m.toNat))

/-- KNOT_TRAP (R147): a pending KNOT is taken on the supervisor at its next boundary at which EXL is 0. A hook opcode that waits at
decode has not begun: the boundary lies before it, and its wait ends with the trap. -/
def execKnotTrap (t : Nat) (s : State) : Host.Outcome State Fault Refusal :=
  let x := s.strand t
  if !x.knotp || !s.isSupv t || x.cur.exl || x.idle || x.block.isSome || decide (x.halt ≠ .running) || s.needleIdle t || !s.up (panelOf t) then .next s
  else
    let c := courseOf t
    let n := sumN ((List.range 4).map fun w => popN (s.rd R.yrnKnot (coursePanel c) (c % 4) w).toNat 32)
    let s := s.setStrand t { x with knotp := false }
    .next (s.takeTrap t .knot 0 0 (w32 (c + n * 8)) 0#32 x.cur.pc)

end Sys2Proof.Machine
end

