-- ==== Sys2Proof/Machine/Sys.lean ====
section
/-! DEFINITION. Moves between hook and general registers (R135), system instructions (R137, R138, R145, R146), special
registers (R141, R142), hook 7, BREAK, the restart of a strand (R145) and the debugger (R166, R167). -/

namespace Sys2Proof.Machine

-- ---------------------------------------------------------------------------------------------------------- HMOV

/-- MTH (R135): hd in [20:17] with [21] reserved, lane in [8:7], [11:9] reserved. -/
def execMth (t : Nat) (f : RFmt) (s : State) : Host.Outcome State Fault Refusal :=
  let hd := f.rd.toNat % 16
  .next (s.issue t { word := f.word 0x2E 0, g := f.g, regs := [f.rs1.toNat], hregs := [hd], emu := fieldErr (decide (16 ≤ f.rd.toNat) || decide (4 ≤ f.rs2.toNat)) } fun s =>
    let b := s.bank t
    s.setBank t (b.wh hd (setLane (b.rh hd) (f.rs2.toNat % 4) (b.rg f.rs1.toNat))))

/-- MFH (R135): hs in [15:12] with [16] reserved. -/
def execMfh (t : Nat) (f : RFmt) (s : State) : Host.Outcome State Fault Refusal :=
  let hs := f.rs1.toNat % 16
  .next (s.issue t { word := f.word 0x2E 1, g := f.g, regs := [f.rd.toNat], hregs := [hs], emu := fieldErr (decide (16 ≤ f.rs1.toNat) || decide (4 ≤ f.rs2.toNat)) } fun s =>
    s.wreg t f.rd.toNat (hlane ((s.bank t).rh hs) (f.rs2.toNat % 4)))

/-- MTHD (R135): lanes 2p and 2p + 1 := rs1 and rs1 + 1; rs1 even, pair in [7], [11:8] reserved. -/
def execMthd (t : Nat) (f : RFmt) (s : State) : Host.Outcome State Fault Refusal :=
  let hd := f.rd.toNat % 16
  let p := f.rs2.toNat % 2
  .next (s.issue t { word := f.word 0x2E 2, g := f.g, regs := [f.rs1.toNat, f.rs1.toNat + 1], hregs := [hd], emu := fieldErr (decide (16 ≤ f.rd.toNat) || decide (2 ≤ f.rs2.toNat) || oddReg f.rs1) } fun s =>
    let b := s.bank t
    s.setBank t (b.wh hd (setLane (setLane (b.rh hd) (2 * p) (b.rg f.rs1.toNat)) (2 * p + 1) (b.rg (f.rs1.toNat + 1)))))

/-- HCLR (R135). -/
def execHclr (t : Nat) (f : RFmt) (s : State) : Host.Outcome State Fault Refusal :=
  let hd := f.rd.toNat % 16
  .next (s.issue t { word := f.word 0x2E 3, g := f.g, hregs := [hd], emu := fieldErr (decide (16 ≤ f.rd.toNat) || decide (f.rs1 ≠ 0#5) || decide (f.rs2 ≠ 0#5)) } fun s =>
    s.setBank t ((s.bank t).wh hd 0#128))

/-- HCPY (R135). -/
def execHcpy (t : Nat) (f : RFmt) (s : State) : Host.Outcome State Fault Refusal :=
  let hd := f.rd.toNat % 16
  let hs := f.rs1.toNat % 16
  .next (s.issue t { word := f.word 0x2E 4, g := f.g, hregs := [hd, hs], emu := fieldErr (decide (16 ≤ f.rd.toNat) || decide (16 ≤ f.rs1.toNat) || decide (f.rs2 ≠ 0#5)) } fun s =>
    s.setBank t ((s.bank t).wh hd ((s.bank t).rh hs)))

/-- Every word of major 0x37 raises EMU_HOOK_ABSENT: no unit is fitted as hook 7 (R136). `w` is bits [21:0]. -/
def execHook7 (t : Nat) (g : BitVec 4) (w : BitVec 22) (s : State) : Host.Outcome State Fault Refusal :=
  .next (s.issue t { word := w32 (encTop g 0x37 + w.toNat), g := g, emu := some (3, 0) } id)

/-- BREAK (R137, R143): its code reaches the handler in einfo. -/
def execBrk (t : Nat) (f : XFmt) (s : State) : Host.Outcome State Fault Refusal :=
  .next (s.issue t { word := f.word, g := f.g, brk := true } id)

-- ----------------------------------------------------------------------------------------------------------- SYS

/-- A pre-emption that waited for EXL = 0 takes place (R138). -/
def State.afterExl (s : State) (t : Nat) : State :=
  let x := s.strand t
  match x.deferred with
  | none => s
  | some w => if x.cur.exl || x.inB1 then s else match w.ll with
    | some k => s.preempt t k
    | none => s

/-- A SYS instruction with no operand (R137): rd and rs1 must be zero. -/
def State.sys0 (s : State) (t : Nat) (f : SysFmt) (minor : Nat) (hold : Bool) (body : State → State) : State :=
  s.issue t { word := f.word minor, g := f.g, hold := hold, emu := fieldErr (decide (f.rd ≠ 0#5) || decide (f.rs1 ≠ 0#5)) } body

/-- ERET (R146). -/
def execEret (t : Nat) (f : SysFmt) (s : State) : Host.Outcome State Fault Refusal :=
  .next (s.sys0 t f 0 false fun s => (s.returnTrap t).afterExl t)

/-- WAITD (R138): with an item it waits as HSYNC and performs bind-off. -/
def execWaitd (t : Nat) (f : SysFmt) (s : State) : Host.Outcome State Fault Refusal :=
  .next (s.sys0 t f 1 ((s.bank t).hasItem && (!(s.strand t).ops.isEmpty || s.viewCut t)) fun s => s.waitDispatch t)

/-- BINDOFF (R138): waits as HSYNC; rd := 0 OK, 1 TIMED_OUT, 2 NO_ITEM. -/
def execBindoff (t : Nat) (f : SysFmt) (s : State) : Host.Outcome State Fault Refusal :=
  .next (s.issue t { word := f.word 2, g := f.g, regs := [f.rd.toNat], hold := !(s.strand t).ops.isEmpty || s.viewCut t, emu := fieldErr (f.rs1 ≠ 0#5) } fun s =>
    let (r, s) := s.bindoffItem t
    s.wreg t f.rd.toNat (w32 r))

/-- HALT (R145). -/
def execHalt (t : Nat) (f : SysFmt) (s : State) : Host.Outcome State Fault Refusal :=
  .next (s.sys0 t f 3 false fun s => s.haltStrand t .instr)

/-- FENCE (R132): waits until every earlier access of the strand is complete. -/
def execFence (t : Nat) (f : SysFmt) (s : State) : Host.Outcome State Fault Refusal :=
  .next (s.sys0 t f 4 (!(s.strand t).quiet) id)

/-- HSYNC (R137): waits until every hook operation of the strand has completed. -/
def execHsync (t : Nat) (f : SysFmt) (s : State) : Host.Outcome State Fault Refusal :=
  .next (s.sys0 t f 5 (!(s.strand t).ops.isEmpty) id)

-- ----------------------------------------------------------------------------------------------- special registers

/-- Is a special register number listed (R141)? -/
def srListed (n : Nat) : Bool := decide (n ≤ 0x00D) || (decide (0x010 ≤ n) && decide (n ≤ 0x017))

/-- May MTSR write it (R141)? -/
def srWritable (n : Nat) : Bool := decide (n ≤ 0x00D) && decide (n ≠ 0x006)

/-- The value of a special register of a bank (R141). -/
def State.readSr (s : State) (t : Nat) (bk : Bool) (n : Nat) : Word :=
  let x := s.strand t
  let b := x.bk bk
  match n with
  | 0x000 => s.statusW t bk
  | 0x001 => b.epc
  | 0x002 => b.ecause
  | 0x003 => b.einfo
  | 0x004 => b.eaddr
  | 0x005 => x.tvbase
  | 0x006 => w32 (t % 8 + ((t % 104) / 8) * 8 + courseOf t * 128 + panelOf t * 1024)
  | 0x007 => w32 (setBit b.pred.toNat 0 true)
  | 0x008 | 0x009 | 0x00A | 0x00B => SMap.get b.escr 0#32 (n - 8)
  | 0x00C => x.wpaddr
  | 0x00D => x.wpctl
  | _ => b.wi.getD (n - 0x010) 0#32

/-- Has a value for a special register a non-zero reserved bit, or is it a tvbase outside course shared SRAM (R141)? -/
def srBad (n : Nat) (v : Word) : Bool :=
  let x := v.toNat
  match n with
  | 0x000 => decide (bits x 7 25 ≠ 0)
  | 0x001 => decide (bits x 0 2 ≠ 0)
  | 0x002 => decide (bits x 4 4 ≠ 0) || decide (bits x 12 4 ≠ 0) || decide (bits x 20 12 ≠ 0)
  | 0x005 => decide (bits x 0 9 ≠ 0) || decide (x < 0x00200000) || decide (0x00300000 ≤ x)
  | 0x007 => decide (bits x 8 24 ≠ 0)
  | 0x00D => decide (bits x 3 5 ≠ 0) || decide (bits x 13 19 ≠ 0)
  | _ => false

/-- Write a special register of a bank; its RO fields keep their values (R141, R142). -/
def State.writeSr (s : State) (t : Nat) (bk : Bool) (n : Nat) (v : Word) : State :=
  let x := s.strand t
  let b := x.bk bk
  match n with
  | 0x000 => s.setStrand t (x.setBk bk { b with exl := v.getLsbD 0 })
  | 0x001 => s.setStrand t (x.setBk bk { b with epc := v })
  | 0x002 => s.setStrand t (x.setBk bk { b with ecause := v })
  | 0x003 => s.setStrand t (x.setBk bk { b with einfo := v })
  | 0x004 => s.setStrand t (x.setBk bk { b with eaddr := v })
  | 0x005 => s.setStrand t { x with tvbase := v }
  | 0x007 => s.setStrand t (x.setBk bk { b with pred := BitVec.ofNat 8 (setBit v.toNat 0 true) })
  | 0x008 | 0x009 | 0x00A | 0x00B => s.setStrand t (x.setBk bk { b with escr := SMap.set b.escr 0#32 (n - 8) v })
  | 0x00C => s.setStrand t { x with wpaddr := v }
  | 0x00D => s.setStrand t { x with wpctl := v }
  | _ => s

/-- MFSR (R141): an unlisted number raises EMU_MINOR; rs1 must be zero. -/
def execMfsr (t : Nat) (f : SrFmt) (s : State) : Host.Outcome State Fault Refusal :=
  let n := f.sr.toNat
  .next (s.issue t { word := f.word 0x3E, g := f.g, regs := [f.rd.toNat], emu := if srListed n then fieldErr (f.rs1 ≠ 0#5) else some (1, 0) } fun s =>
    s.wreg t f.rd.toNat (s.readSr t (s.strand t).inB1 n))

/-- MTSR (R141): a number without write access raises EMU_MINOR; rd must be zero, and a value with a non-zero reserved
bit raises EMU_FIELD. The value is no part of the word, so it is judged once the guard holds (DEDUCED, log entry 82), and the strand
waits for a register that has not arrived. -/
def execMtsr (t : Nat) (f : SrFmt) (s : State) : Host.Outcome State Fault Refusal :=
  let n := f.sr.toNat
  let b := s.bank t
  let v := b.rg f.rs1.toNat
  let ok := b.guardOk f.g
  if srWritable n && decide (f.rd = 0#5) && ok && !b.arrived [f.rs1.toNat] then .next s
  else
    .next (s.issue t { word := f.word 0x3F, g := f.g, regs := [f.rs1.toNat], emu := if srWritable n then fieldErr (decide (f.rd ≠ 0#5) || (ok && srBad n v)) else some (1, 0) } fun s =>
      (s.writeSr t (s.strand t).inB1 n ((s.bank t).rg f.rs1.toNat)).afterExl t)

-- -------------------------------------------------------------------------------------------------------- restart

/-- NDL_TVDEF of a strand's course. -/
def State.tvdef (s : State) (t : Nat) : Word := s.rd R.ndlTvdef (panelOf t) (courseOf t % 4)

/-- A strand at reset: idle in WAITD, tvbase from NDL_TVDEF (R141, R149). -/
def State.freshStrand (s : State) (t : Nat) : Strand := { ({} : Strand) with tvbase := s.tvdef t, restAt := s.restNow t }

/-- The restart of R145: every item the strand holds is released, both banks, outbox and inbox are cleared, and the
strand is idle. Its watch registers and KNOTP, which the write does not name, are kept. -/
def State.restart (s : State) (t : Nat) : State :=
  let x := s.strand t
  let items := (x.bank0.item.toList ++ x.bank1.item.toList ++ (x.deferred.bind fun w => w.ll).toList)
  let s := items.foldl (fun s k => s.releaseHeld k) s
  let s := { s with yrn := { s.yrn with order := s.yrn.order.filter fun u => decide (u ≠ t) } }
  s.setStrand t { s.freshStrand t with wpaddr := x.wpaddr, wpctl := x.wpctl, knotp := x.knotp }

-- -------------------------------------------------------------------------------------------------------- debugger

/-- Is a DEBUG grant in force (R353)? -/
def State.dbgOpen (s : State) : Bool := s.sec.dbg

/-- A debug result (R166). -/
def State.dbg (s : State) (code : Nat) (v : Word := 0#32) : State := s.emit (.debug code v)

/-- A debug operation that needs the unlock and a halted strand (R166); what is reserved in it is judged first (R10). A strand of a
panel that cannot be reached is answered PANEL_DOWN (R326; log entry 102). -/
def State.dbgOp (s : State) (t : Nat) (body : State → State) (rsv : Bool := false) : State :=
  if rsv then s.dbg 4
  else if !s.dbgOpen then s.dbg 3
  else if !s.reachable (panelOf t) then s.emit .panelDown
  else if (s.strand t).halt = .running then s.dbg 1
  else body s

/-- DEBUG_HALT (R166, R167): the strand stops at its next instruction boundary; a blocked yarn operation is abandoned;
pins that ask for it go safe (R261). -/
def execDebugHalt (t : Nat) (s : State) : Host.Outcome State Fault Refusal :=
  if !s.dbgOpen then .next (s.dbg 3)
  else if !s.reachable (panelOf t) then .next (s.emit .panelDown)
  else if (s.strand t).halt ≠ .running then .next (s.dbg 0)
  else
    let s := s.setStrand t { (s.strand t).haltAs .debug (s.restNow t) with stepping := false }
    .next ((s.loseOwner t true).dbg 0)

/-- DEBUG_RESUME (R166). -/
def execDebugResume (t : Nat) (s : State) : Host.Outcome State Fault Refusal :=
  .next (s.dbgOp t fun s => (s.setStrand t { s.strand t with halt := .running }).dbg 0)

/-- DEBUG_STEP (R166): the strand runs until one instruction completes or traps. -/
def execDebugStep (t : Nat) (s : State) : Host.Outcome State Fault Refusal :=
  .next (s.dbgOp t fun s => (s.setStrand t { s.strand t with halt := .running, stepping := true }).dbg 0)

/-- The value a debug READ selector names (R328); none for an unlisted one. -/
def State.dbgRead (s : State) (t : Nat) (bk : Bool) (sel : Nat) : Option Word :=
  let b := (s.strand t).bk bk
  if sel < 0x020 then some (b.rg sel)
  else if sel = 0x0FF then some b.pc
  else if 0x100 ≤ sel && sel < 0x200 then if srListed (sel - 0x100) then some (s.readSr t bk (sel - 0x100)) else none
  else if 0x200 ≤ sel && sel < 0x240 then some (hlane (SMap.get b.hc 0#128 ((sel - 0x200) / 4)) (sel % 4))
  else if 0x240 ≤ sel && sel < 0x244 then some ((b.outbox.getD (sel - 0x240) none).getD 0#32)
  else if 0x244 ≤ sel && sel < 0x248 then some (b.inbox.getD (sel - 0x244) 0#32)
  else none

/-- A debug WRITE (R166, R328): none where the selector is unlisted or a reserved bit of the value is not zero. -/
def State.dbgWrite (s : State) (t : Nat) (bk : Bool) (sel : Nat) (v : Word) : Option State :=
  let x := s.strand t
  let b := x.bk bk
  let put (b : Bank) : Option State := some (s.setStrand t (x.setBk bk b))
  if sel < 0x020 then put (b.wg sel v)
  else if sel = 0x0FF then if v.toNat % 4 = 0 then put { b with pc := v } else none
  else if 0x100 ≤ sel && sel < 0x200 then
    let n := sel - 0x100
    if !srListed n || srBad n v then none else some (s.writeSr t bk n v)
  else if 0x200 ≤ sel && sel < 0x240 then
    let h := (sel - 0x200) / 4
    put (b.wh h (setLane (SMap.get b.hc 0#128 h) (sel % 4) v))
  else if 0x240 ≤ sel && sel < 0x244 then put { b with outbox := b.outbox.set (sel - 0x240) (some v) }
  else if 0x244 ≤ sel && sel < 0x248 then
    let i := sel - 0x244
    put { b with inbox := (b.inbox ++ List.replicate (i + 1 - b.inbox.length) 0#32).set i v }
  else none

/-- DEBUG_READ (R166). -/
def execDebugRead (d : DbgSel) (s : State) : Host.Outcome State Fault Refusal :=
  .next (s.dbgOp d.t (fun s => match s.dbgRead d.t d.bank d.sel with
    | some v => s.dbg 0 v
    | none => s.dbg 4) (s.dbgRead d.t d.bank d.sel).isNone)

/-- DEBUG_WRITE (R166). -/
def execDebugWrite (d : DbgSel) (val : Word) (s : State) : Host.Outcome State Fault Refusal :=
  .next (s.dbgOp d.t (fun s => match s.dbgWrite d.t d.bank d.sel val with
    | some s => s.dbg 0
    | none => s.dbg 4) (s.dbgWrite d.t d.bank d.sel val).isNone)

/-- DEBUG_TINK (R166): discards the one staged message of the named bank's outbox. -/
def execDebugTink (t : Nat) (bank : Bool) (s : State) : Host.Outcome State Fault Refusal :=
  .next (s.dbgOp t fun s =>
    let x := s.strand t
    let b := x.bk bank
    if staged b.outbox then (s.setStrand t (x.setBk bank { b with outbox := noOutbox })).dbg 0 else s.dbg 2)

end Sys2Proof.Machine
end

