-- ==== Sys2Proof/Machine/HookOps.lean ====
section
/-! DEFINITION. The path of a hook operation (R171–R177): decode with its waits and refusals, execution, and the
arrival of its result. -/

namespace Sys2Proof.Machine

/-- What decode finds in a hook opcode: which fields it uses, the hook registers it reads, a MOD outside its range
(EMU_MINOR), a range past h15 (EMU_FIELD), the refusal of its unit, the registers that refusal depends on, and the key that it
reads at decode (R178). -/
structure HookDec where
  hook : Nat
  func : Nat
  useHd : Bool := true
  useHa : Bool := true
  useHb : Bool := false
  useMd : Bool := false
  srcs : List Nat := []
  mdBad : Bool := false
  refuse : Option Nat := none
  refDeps : List Nat := []
  key : List Byte := []
  deriving DecidableEq, Repr

/-- The value of a source register: what the bank holds; for an operation that its unit has held, what the register held when it
arrived. -/
def State.hval (s : State) (t r : Nat) : HWord :=
  let x := s.strand t
  ((x.running.bind fun o => SMap.find o.caps r).getD (x.cur.rh r))

/-- Queue sizes of the hook units (R171). -/
def hookQueue (hook : Nat) : Nat := [32, 128, 16, 128, 32, 32, 32].getD hook 0

/-- Has the operation executed? -/
def HookOp.isReady (o : HookOp) : Bool := decide (o.wait = .ready)

/-- Operations of a course's strands that occupy the queue of a hook unit: one waiting on a miss has left it (R221). -/
def State.hookLoad (s : State) (c hook : Nat) : Nat :=
  sumN ((s.strands.filter fun e => decide (courseOf e.1 = c)).map fun e =>
    (e.2.ops.filter fun o => decide (o.hook = hook) && (match o.wait with | .miss _ _ => false | _ => true)).length)

/-- EMU outcome of a hook opcode before check 5 (R123, R136, R177). -/
def State.hookEmu (s : State) (t : Nat) (f : HFmt) (d : HookDec) : Option (Nat × Nat) :=
  if s.isFenced (panelOf t) 3 (courseOf t * 8 + d.hook) then some (3, 1)
  else if d.mdBad then some (1, 0)
  else fieldErr ((!d.useHd && decide (f.hd ≠ 0#4)) || (!d.useHa && decide (f.ha ≠ 0#4)) || (!d.useHb && decide (f.hb ≠ 0#4))
    || (!d.useMd && decide (f.md ≠ 0#4)) || d.srcs.any fun r => decide (15 < r))

/-- Waits of R173 cases 1 and 2. -/
def State.hookWaits (s : State) (t : Nat) (f : HFmt) (d : HookDec) : Bool :=
  let x := s.strand t
  decide (8 ≤ x.ops.length) || (d.useHd && !x.hookArrived [f.hd.toNat])

/-- Lookups in flight from hook 1 on a panel (R180). -/
def State.lookupsIn (s : State) (p : Nat) : Nat :=
  sumN ((s.strands.filter fun e => decide (panelOf e.1 = p)).map fun e => (e.2.ops.filter fun o => decide (o.hook = 1)).length)

/-- The item for which a hook operation acts: the running bank's; for a held operation, the one it was issued for. -/
def State.hookItem (s : State) (t : Nat) : Option Nat :=
  match (s.strand t).running with
  | some o => o.ll
  | none => if (s.bank t).hasItem then (s.bank t).item else none

/-- Is the operation one on a stolen item's lifeline or stash, which lies over a bridge that has failed (R12, log entry 93)? Hooks 3, 5
and 6 reach it, and FLOW_FIND and CSUM_PKT. -/
def State.hookCut (s : State) (t hook func : Nat) (it : Option Nat) : Bool :=
  (decide (hook = 3) || decide (5 ≤ hook) || (decide (hook = 1) && decide (func = 0x03)) || (decide (hook = 2) && decide (func = 0x05))) &&
    match it with | some k => s.overBridge t (k / 4096) | none => false

/-- Does the unit hold the operation (R173): a source has not arrived, an earlier operation of the strand at this unit has not
executed, or its item cannot be reached? -/
def State.mustHold (s : State) (t : Nat) (d : HookDec) : Bool :=
  let x := s.strand t
  !x.hookArrived d.srcs || (x.ops.any fun o => !o.isReady && decide (o.hook = d.hook)) || s.hookCut t d.hook d.func (s.hookItem t)

/-- Append an outstanding operation, with its bank, its item and the stash it reaches (R215): that of its item's panel, or the
strand's own. -/
def State.pushOp (s : State) (t : Nat) (o : HookOp) : State :=
  let x := s.strand t
  let it := s.hookItem t
  let home := match it with | some k => k / 4096 | none => panelOf t
  s.setStrand t { x with ops := x.ops ++ [{ o with bank := b2n x.inB1, ll := it, home := home }] }

/-- The unit keeps an operation (R173), with the sources that have arrived. -/
def State.holdOp (s : State) (t : Nat) (f : HFmt) (d : HookDec) : State :=
  let x := s.strand t
  let caps := (d.srcs.filter fun r => x.hookArrived [r]).foldl (fun (m : SMap HWord) r => SMap.put m r (x.cur.rh r)) []
  s.pushOp t { hook := d.hook, func := d.func, hd := if d.useHd then some f.hd.toNat else none, srcs := d.srcs, wait := .held, key := d.key, fmt := some f, caps := caps }

/-- What still keeps an operation at decode under case 3 of R173: a full queue, a register its refusal depends on, or for a lookup
the 4,096 lookups of its panel in flight (R180). -/
def State.keptBusy (s : State) (t hook : Nat) (deps : List Nat) (lookup : Bool) : Bool :=
  decide (hookQueue hook ≤ s.hookLoad (courseOf t) hook) || !(s.strand t).hookArrived deps || (lookup && decide (4096 ≤ s.lookupsIn (panelOf t)))

/-- A hook opcode at strand `t` (R123, R173, R175): `body` executes it, on a state whose pc has advanced, unless its unit holds it.
While the unit executes a held operation (`running`), the meaning is the body alone. -/
def State.hookIssue (s : State) (t : Nat) (f : HFmt) (d : HookDec) (body : State → State) (lookup : Bool := false) : State :=
  let w := f.word d.hook d.func
  let x := s.strand t
  if x.running.isSome then body s
  else
    let e := s.hookEmu t f d
    let dec : Dec := { word := w, g := f.g }
    if !s.mayIssue t || (x.busy.any fun b => decide (b.word ≠ w)) then s
    else if e.isSome || !x.canFetch then s.issue t { dec with emu := e } id
    else if s.hookWaits t f d then s
    else if s.keptBusy t d.hook d.refDeps lookup then
      s.setStrand t { x with busy := some (x.busy.getD { hook := d.hook, word := w, since := s.now, deps := d.refDeps, lookup := lookup }) }
    else
      let s := s.setStrand t { x with busy := none }
      match d.refuse with
      | some r => (s.count 5 (courseOf t) (if r = 1 then 1 else 3)).issue t { dec with emu := some (4, r) } id
      | none => s.issue t dec fun s => if s.mustHold t d then s.holdOp t f d else body s

/-- HOOK_BUSY_TIMEOUT (R173 case 3): a decode that has waited for BUSYMAX cycles, and still does, is refused with BUSY; one whose
unit has been fenced takes EMU_HOOK_ABSENT (R176). -/
def execHookBusyTimeout (t : Nat) (s : State) : Host.Outcome State Fault Refusal :=
  let x := s.strand t
  match x.busy with
  | none => .next s
  | some b =>
    let gone := s.isFenced (panelOf t) 3 (courseOf t * 8 + b.hook)
    let refuse (s : State) (e : Nat × Nat) : State :=
      s.issue t { word := b.word, g := BitVec.ofNat 4 (bits b.word.toNat 28 4), emu := some e } id
    if !s.mayIssue t || s.now < b.since + s.rf R.hkCfg (panelOf t) (courseOf t % 4) 0 12 * cycleU s.part then .next s
    else if gone then .next (refuse (s.setStrand t { x with busy := none }) (3, 1))
    else if !s.keptBusy t b.hook b.deps b.lookup then .next s
    else .next (refuse ((s.setStrand t { x with busy := none }).count 5 (courseOf t) 2) (4, 2))

/-- A result with a status (R177). -/
def hres (status : Nat) (l1 l2 l3 : Nat := 0) : HWord := mkLanes status l1 l2 l3

/-- Outcome of a hook operation that has executed: its result waits to arrive in HD. -/
def State.hookDone (s : State) (t hook func : Nat) (hd : BitVec 4) (srcs : List Nat) (v : HWord) : State :=
  s.pushOp t { hook := hook, func := func, hd := some hd.toNat, srcs := srcs, val := v }

/-- The first `n` bytes of hook registers from `r` on. -/
def State.hbytesOf (s : State) (t r n : Nat) : List Byte :=
  (((List.range ((n + 15) / 16)).flatMap fun i => hbytes (s.hval t (r + i)))).take n

/-- The registers HA..HA + n. -/
def regRange (a : BitVec 4) (n : Nat) : List Nat := (List.range (n + 1)).map fun i => a.toNat + i

end Sys2Proof.Machine
end

