-- ==== Sys2Proof/Machine/TblOps.lean ====
section
/-! DEFINITION. Search tables (ch. 9): keys, handles and homes (R190–R195), lookups (R86, R194), activity (R197), the
writes of an entry's two copies (R190), longest-prefix match (R198, R199) and sweep passes (R94). -/

namespace Sys2Proof.Machine

/-- One panel's copy of the tables. -/
def State.tp (s : State) (p : Nat) : TblPanel := if p = 0 then s.tbl.a else s.tbl.b
/-- Replace it. -/
def State.setTp (s : State) (p : Nat) (x : TblPanel) : State :=
  if p = 0 then { s with tbl := { s.tbl with a := x } } else { s with tbl := { s.tbl with b := x } }

/-- TBL_CFG.KIND (R189). -/
def State.tblKind (s : State) (n : Nat) : Nat := s.rf R.tblCfg 0 n 0 3
/-- TBL_CFG.RULE. -/
def State.tblRule (s : State) (n : Nat) : Bool := s.rb R.tblCfg 0 n 5
/-- Does the table keep activity: AGE = 1, or the L2 table (R197)? -/
def State.tblAge (s : State) (n : Nat) : Bool := decide (s.tblKind n = 6) || s.rb R.tblCfg 0 n 6
/-- Is the kind an exact-match kind? -/
def isEm (k : Nat) : Bool := decide (1 ≤ k) && decide (k ≤ 3)
/-- The engine of a table: EM0–EM3, or 4 for L2. -/
def State.tblEng (s : State) (n : Nat) : Nat := if s.tblKind n = 6 then 4 else s.rf R.tblCfg 0 n 3 2
/-- SEARCH unit index of a table's engine (R359): EM0–EM3, 4 LPM stages, 5 L2. -/
def State.tblUnit (s : State) (n : Nat) : Nat :=
  match s.tblKind n with | 6 => 5 | 4 => 4 | 5 => 4 | _ => s.rf R.tblCfg 0 n 3 2
/-- Can the engine of table `n` on panel `p` serve lookups? -/
def State.tblOk (s : State) (p n : Nat) : Bool := !s.isFenced p 4 (s.tblUnit n)
/-- Key width of a kind in bytes (R189). -/
def keyWidth (k : Nat) : Nat := match k with | 1 => 4 | 2 => 20 | 3 => 48 | 4 => 4 | 5 => 16 | 6 => 8 | _ => 0
/-- log2 of the buckets: BKT_LOG2, or 16 for L2 (R201). -/
def State.tblB (s : State) (n : Nat) : Nat := if s.tblKind n = 6 then 16 else s.rf R.tblCfg 0 n 8 5
/-- The bucket of a key (R192). -/
def State.tblBucket (s : State) (n : Nat) (key : List Byte) : Nat := crc32cUpd (s.rd R.tblSeed 0 n).toNat key % 2 ^ s.tblB n

/-- A handle (R195). -/
def mkHandle (n : Nat) (ovf : Bool) (way idx : Nat) : Nat := n * 2 ^ 19 + b2n ovf * 2 ^ 18 + way * 2 ^ 16 + idx
/-- TABLE of a handle. -/
def hTable (h : Nat) : Nat := bits h 19 6
/-- OVF of a handle. -/
def hOvf (h : Nat) : Bool := bit h 18
/-- BUCKET of a handle. -/
def hIdx (h : Nat) : Nat := bits h 0 16

/-- The home panel of an entry, as panel `p` sees it (R190): by parity; the survivor's when a panel is lost; its own
copy's while the bridge has failed. -/
def State.tblHome (s : State) (p idx : Nat) : Nat :=
  if s.up 0 && s.up 1 then (if s.md.bridge then idx % 2 else p) else if s.up 0 then 0 else if s.up 1 then 1 else p

/-- Both panels are powered and the bridge has failed (R190). -/
def State.split (s : State) : Bool := s.up 0 && s.up 1 && !s.md.bridge

/-- The entries as their homes hold them, as panel `p` sees it (R190). -/
def State.homeEnts (s : State) (p : Nat) : List (Nat × TblEntry) :=
  (s.tbl.a.ents.filter fun e => decide (s.tblHome p (hIdx e.1) = 0)) ++ (s.tbl.b.ents.filter fun e => decide (s.tblHome p (hIdx e.1) = 1))

/-- The entry of a key at its home that `q` selects. -/
def State.homeFind (s : State) (p n : Nat) (key : List Byte) (q : TblEntry → Bool) : Option (Nat × TblEntry) :=
  (s.homeEnts p).find? fun e => decide (hTable e.1 = n) && decide (e.2.key = key) && q e.2

/-- Is an entry valid in generation `v` (R86)? -/
def TblEntry.valid (e : TblEntry) (v : Nat) : Bool := decide (e.vmask = 15) || bit e.vmask (v % 4)

/-- A lookup under generation `v` in panel `p`'s copy (R86, R194): the handle and the entry. -/
def State.tblFind (s : State) (p n v : Nat) (key : List Byte) : Option (Nat × TblEntry) :=
  (s.tp p).ents.find? fun e => decide (hTable e.1 = n) && decide (e.2.key = key) && e.2.valid v

/-- The place of a new entry (R193): the lowest free way of its bucket, else the lowest free overflow entry of the
engine, which every table on it shares. Whether an overflow entry is free, its home's copy says (R190). -/
def State.tblPlace (s : State) (p n : Nat) (key : List Byte) : Option Nat :=
  let x := (s.tp p).ents
  let b := s.tblBucket n key
  match firstIdx 4 fun w => (SMap.find x (mkHandle n false w b)).isNone with
  | some w => some (mkHandle n false w b)
  | none =>
    let used (q : Nat) := (s.tp q).ents.filter fun e => hOvf e.1 && decide (s.tblEng (hTable e.1) = s.tblEng n)
    let a := used 0
    let b := used 1
    (firstIdx 8192 fun i => (if s.tblHome p i = 0 then a else b).all fun e => decide (hIdx e.1 ≠ i)).map fun i => mkHandle n true 0 i

/-- Overflow entries in use on an engine (TBL_OVF). -/
def State.ovfUse (s : State) (p eng : Nat) : Nat :=
  ((s.tp p).ents.filter fun e => hOvf e.1 && decide (s.tblEng (hTable e.1) = eng)).length

/-- Write one copy of an entry. -/
def State.putCopy (s : State) (p h : Nat) (e : Option TblEntry) : State :=
  let x := s.tp p
  s.setTp p { x with ents := match e with | some v => SMap.put x.ents h v | none => SMap.del x.ents h }

/-- Write an entry at its home, and its other copy over the bridge (R190). A host command's completion follows once both
copies are written. -/
def State.putEnt (s : State) (home h : Nat) (e : Option TblEntry) (jrec : Option Nat := none) (result : List Byte := []) : State :=
  let s := s.putCopy home h e
  let s := match e with
    | none => s.setTp home { s.tp home with act := SMap.del (s.tp home).act h }
    | some _ => s
  if s.joined then
    s.setTp home { s.tp home with copyQ := (s.tp home).copyQ ++ [{ handle := h, entry := e, jrec := jrec, result := result }] }
  else match jrec with
    | some r => s.finish r 0 result
    | none => s

/-- POSITION and EPOCH of a hit on panel `p` in domain AGEDOM: zero when it is not acquired. -/
def State.ageStamp (s : State) (p : Nat) : Nat × Nat :=
  let n := s.rf R.tblGcfg 0 0 0 4
  let e := (s.dom p n).epoch
  if e = 0 then (0, 0) else (s.est p n, e)

/-- The activity word of an entry. -/
def State.activity (s : State) (p h : Nat) : Activity := SMap.get (s.tp p).act {} h

/-- Apply a hit to an activity word at its home (R197). -/
def State.applyHit (s : State) (home h pos epoch : Nat) : State :=
  let a := s.activity home h
  let g := if a.hit then a.hitgen else (a.hitgen + 1) % 256
  s.setTp home { s.tp home with act := SMap.set (s.tp home).act {} h { pos := pos, epoch := epoch, hitgen := g, hit := true } }

/-- Does panel `p`'s copy still hold the key at the handle (R197)? -/
def State.holdsKey (s : State) (p h : Nat) (key : List Byte) : Bool :=
  match SMap.find (s.tp p).ents h with | some e => decide (e.key = key) | none => false

/-- A hit on panel `p`'s copy of an entry (R197): applied at its home, or posted over the bridge. An update whose handle no longer
holds the key is discarded. -/
def State.hitEnt (s : State) (p h : Nat) (key : List Byte) : State :=
  if !s.tblAge (hTable h) then s
  else
    let (pos, epoch) := s.ageStamp p
    let home := s.tblHome p (hIdx h)
    if home = p then (if s.holdsKey p h key then s.applyHit p h pos epoch else s)
    else s.setTp p { s.tp p with stream := (s.tp p).stream ++ [.hit h key pos epoch] }

/-- A new entry's activity word (R197). -/
def State.newActivity (s : State) (home h : Nat) : State :=
  if s.tblAge (hTable h) then
    let (pos, epoch) := s.ageStamp home
    s.setTp home { s.tp home with act := SMap.set (s.tp home).act {} h { pos := pos, epoch := epoch, hitgen := 0, hit := true } }
  else s

/-- Every entry of a table is freed, in both copies (R212). -/
def State.clearTable (s : State) (n : Nat) : State :=
  let g (x : TblPanel) : TblPanel :=
    { x with
      ents := SMap.drop x.ents fun h _ => decide (hTable h = n), act := SMap.drop x.act fun h _ => decide (hTable h = n)
      copyQ := x.copyQ.map fun c => if hTable c.handle = n then { c with entry := none } else c }
  { s with tbl := { s.tbl with a := g s.tbl.a, b := g s.tbl.b, lpm := SMap.drop s.tbl.lpm fun k _ => decide (k / 4 = n) } }

-- ------------------------------------------------------------------------------------------- longest-prefix match

/-- Address bits of an LPM kind. -/
def lpmBits (k : Nat) : Nat := if k = 4 then 32 else 128

/-- The prefixes under the root of a slot (R199). -/
def State.prefixes (s : State) (n slot : Nat) : List Prefix := SMap.get s.tbl.lpm [] (n * 4 + slot)

/-- Does a prefix cover an address of `w` bits? -/
def Prefix.covers (p : Prefix) (w addr : Nat) : Bool := decide (addr / 2 ^ (w - p.len) = p.addr / 2 ^ (w - p.len))

/-- The longest prefix that covers an address, from the root of generation `v` (R198, R199). -/
def State.lpmFind (s : State) (n v addr : Nat) : Option Prefix :=
  let w := lpmBits (s.tblKind n)
  (s.prefixes n (v % 4)).foldl (fun best p => if p.covers w addr then (match best with
    | some b => if b.len < p.len then some p else some b
    | none => some p) else best) none

-- -------------------------------------------------------------------------------------------- versions and sweeps

/-- The slot in STAGING. -/
def State.stagingSlot (s : State) : Nat := (s.chr.curGen + 1) % 4
/-- CHR_VSTAT.STAGE_READY (R94). -/
def State.stageReady (s : State) : Bool := s.chr.opened && s.chr.passes.isEmpty

/-- Write a word of a chart bank. -/
def State.setBankW (s : State) (slot w : Nat) (v : Word) : State :=
  { s with chr := { s.chr with words := SMap.set s.chr.words (if w = 0x3108 / 4 then 0xE00#32 else 0#32) (slot * 4096 + w) v } }

/-- The mask of a versioned entry changed by `f`; one left with mask 0 is free. -/
def maskEnt (f : Nat → Nat) (e : TblEntry) : Option TblEntry :=
  if e.vmask = 15 then some e else if f e.vmask = 0 then none else some { e with vmask := f e.vmask }

/-- Change the masks of every versioned entry of a copy, those among its entries that wait to be written to the other copy. -/
def maskEnts (x : TblPanel) (f : Nat → Nat) : TblPanel :=
  let g := x.ents.filterMap fun e => (maskEnt f e.2).map fun v => (e.1, v)
  { x with
    ents := g, act := SMap.drop x.act fun h _ => (SMap.find g h).isNone
    copyQ := x.copyQ.map fun c => { c with entry := c.entry.bind (maskEnt f) } }

/-- Words of slot `src` copied over slot `dst`, or cleared. -/
def copyBank (w : SMap Word) (src : Option Nat) (dst : Nat) : SMap Word :=
  let keep := SMap.drop w fun k _ => decide (k / 4096 = dst)
  match src with
  | none => keep
  | some q => (w.filter fun e => decide (e.1 / 4096 = q)).foldl (fun m e => SMap.put m (dst * 4096 + e.1 % 4096) e.2) keep

/-- Roots of slot `src` copied over slot `dst`, or cleared. -/
def copyRoots (m : SMap (List Prefix)) (src : Option Nat) (dst : Nat) : SMap (List Prefix) :=
  let keep := SMap.drop m fun k _ => decide (k % 4 = dst)
  match src with
  | none => keep
  | some q => (m.filter fun e => decide (e.1 % 4 = q)).foldl (fun m e => SMap.put m (e.1 / 4 * 4 + dst) e.2) keep

/-- The effect of a sweep pass (R94, R199). -/
def State.applySweep (s : State) (w : Sweep) : State :=
  match w with
  | .copy =>
    let st := s.stagingSlot
    let cur := s.chr.curGen % 4
    let f (v : Nat) : Nat := setBit v st (bit v cur)
    { s with
      tbl := { s.tbl with a := maskEnts s.tbl.a f, b := maskEnts s.tbl.b f, lpm := copyRoots s.tbl.lpm (some cur) st, lpmChg := [] }
      chr := { s.chr with words := copyBank s.chr.words (some cur) st } }
  | .retire slot =>
    let f (v : Nat) : Nat := setBit v slot false
    { s with
      tbl := { s.tbl with a := maskEnts s.tbl.a f, b := maskEnts s.tbl.b f, lpm := copyRoots s.tbl.lpm none slot }
      chr := { s.chr with words := copyBank s.chr.words none slot } }

/-- SWEEP_PASS_END (R94): the running pass has ended, and the next queued one starts. -/
def execSweepPassEnd (s : State) : Host.Outcome State Fault Refusal :=
  match s.chr.passes with
  | [] => .next s
  | w :: rest =>
    let s := s.applySweep w
    .next { s with chr := { s.chr with passes := rest } }

/-- CHR_VABORT.ABORT = 1 (R94): every staged change is discarded by a queued copy pass. -/
def State.abortChart (s : State) : State :=
  if s.chr.opened then { s with chr := { s.chr with passes := s.chr.passes ++ [.copy] } } else s

end Sys2Proof.Machine
end

