-- ==== Sys2Proof/Machine/Hook1.lean ====
section
/-! DEFINITION. Hook 1 (table, R180) and hook 2 (checksum, R181). -/

namespace Sys2Proof.Machine

/-- The generation a strand's lookups run under (R73, R180). -/
def State.lookGen (s : State) (t : Nat) : Nat :=
  match s.hookItem t with
  | some k => (s.ll k).item.vgen
  | none => s.chr.curGen

/-- The table a lookup names in HB lane 0, if it exists and is of one of the kinds (R180). -/
def State.lookTable (s : State) (t : Nat) (f : HFmt) (ok : Nat → Bool) : Option Nat :=
  let v := (hlane (s.hval t f.hb.toNat) 0).toNat
  if v < 64 && ok (s.tblKind v) then some v else none

/-- A lookup opcode of hook 1: with 4,096 lookups of the panel in flight it waits as case 3 of R173. -/
def State.lookup (s : State) (t : Nat) (f : HFmt) (d : HookDec) (body : State → State) : State :=
  s.hookIssue t f d body true

/-- The result of a lookup that found an entry. -/
def hitResult (h data : Nat) : HWord := mkLanes 0 h (data % 2 ^ 32) (data / 2 ^ 32)

/-- A lookup in an exact-match or L2 table: the operation keeps the handle and key, whose activity the delivery of the
result updates (R180, R197). -/
def State.emLook (s : State) (t func : Nat) (f : HFmt) (ok : Nat → Bool) (srcs : List Nat) (key : Nat → List Byte) : State :=
  match s.lookTable t f ok with
  | none => s.hookDone t 1 func f.hd srcs (hres 0x0F)
  | some n =>
    if !s.tblOk (panelOf t) n then s.hookDone t 1 func f.hd srcs (hres 0x0E)
    else
      let key := key (s.tblKind n)
      match s.tblFind (panelOf t) n (s.lookGen t) key with
      | none => s.pushOp t { hook := 1, func := func, hd := some f.hd.toNat, srcs := srcs, val := hres 0x01, ridx := mkHandle n false 0 0 }
      | some (h, e) => s.pushOp t { hook := 1, func := func, hd := some f.hd.toNat, srcs := srcs, val := hitResult h e.data, key := key, ridx := h, off := 1 }

/-- EM_LOOKUP (R180). -/
def execEmLookup (t : Nat) (f : HFmt) (s : State) : Host.Outcome State Fault Refusal :=
  let srcs := regRange f.ha f.md.toNat ++ [f.hb.toNat]
  .next (s.lookup t f { hook := 1, func := 0x00, useHb := true, useMd := true, srcs := srcs, mdBad := decide (2 < f.md.toNat) } fun s =>
    s.emLook t 0x00 f isEm srcs fun k => sliceZ (s.hbytesOf t f.ha.toNat (16 * (f.md.toNat + 1))) 0 (keyWidth k))

/-- The address in HA for an LPM table of a kind, first byte most significant. -/
def State.lpmAddr (s : State) (t : Nat) (f : HFmt) (k : Nat) : Nat := beVal (s.hbytesOf t f.ha.toNat (keyWidth k))

/-- LPM_LOOKUP (R180). -/
def execLpmLookup (t : Nat) (f : HFmt) (s : State) : Host.Outcome State Fault Refusal :=
  let srcs := [f.ha.toNat, f.hb.toNat]
  .next (s.lookup t f { hook := 1, func := 0x01, useHb := true, srcs := srcs } fun s =>
    match s.lookTable t f fun k => k = 4 || k = 5 with
    | none => s.hookDone t 1 0x01 f.hd srcs (hres 0x0F)
    | some n =>
      if !s.tblOk (panelOf t) n then s.hookDone t 1 0x01 f.hd srcs (hres 0x0E)
      else match s.lpmFind n (s.lookGen t) (s.lpmAddr t f (s.tblKind n)) with
        | none => s.hookDone t 1 0x01 f.hd srcs (hres 0x01)
        | some q => s.hookDone t 1 0x01 f.hd srcs (hitResult q.len q.data))

/-- The L2 key of a MAC address and a VLAN (R201). -/
def l2Key (mac : List Byte) (vid : Nat) : List Byte := sliceZ mac 0 6 ++ leBytes 2 (vid % 4096)

/-- L2_LOOKUP (R180). -/
def execL2Lookup (t : Nat) (f : HFmt) (s : State) : Host.Outcome State Fault Refusal :=
  let srcs := [f.ha.toNat, f.hb.toNat]
  .next (s.lookup t f { hook := 1, func := 0x02, useHb := true, srcs := srcs } fun s =>
    s.emLook t 0x02 f (fun k => k = 6) srcs fun _ =>
      l2Key (s.hbytesOf t f.ha.toNat 6) (bits (hlane (s.hval t f.ha.toNat) 1).toNat 16 12))

/-- FLOW_FIND (R180): looks in the home panel's stash, makes no read-set entry and takes no lock. While the store is
disabled there is no record to find. -/
def execFlowFind (t : Nat) (f : HFmt) (s : State) : Host.Outcome State Fault Refusal :=
  let srcs := regRange f.ha 2
  .next (s.lookup t f { hook := 1, func := 0x03, srcs := srcs } fun s =>
    let p := match s.hookItem t with | some k => k / 4096 | none => panelOf t
    let (r, s) := if s.flwEn p then s.flowLookup p (s.hbytesOf t f.ha.toNat 48) else (none, s)
    match r with
    | none => s.hookDone t 1 0x03 f.hd srcs (hres 0x01)
    | some (l, e) => s.hookDone t 1 0x03 f.hd srcs (hres 0x00 (l.ridx e)))

-- ------------------------------------------------------------------------------------------------- hook 2 (R181)

/-- An operation of hook 2 over MOD + 1 bytes of HA, whose running value is HD. -/
def State.sumOp (s : State) (t : Nat) (f : HFmt) (func : Nat) (op : HWord → List Byte → Nat) : State :=
  let srcs := [f.hd.toNat, f.ha.toNat]
  s.hookIssue t f { hook := 2, func := func, useMd := true, srcs := srcs } fun s =>
    s.hookDone t 2 func f.hd srcs (mkLanes (op (s.hval t f.hd.toNat) (s.hbytesOf t f.ha.toNat (f.md.toNat + 1))) 0 0 0)

/-- CSUM. -/
def execCsum (t : Nat) (f : HFmt) (s : State) : Host.Outcome State Fault Refusal :=
  .next (s.sumOp t f 0x00 fun v bs => onesSum (bits v.toNat 0 16) bs)

/-- CRC32C. -/
def execCrc32c (t : Nat) (f : HFmt) (s : State) : Host.Outcome State Fault Refusal :=
  .next (s.sumOp t f 0x01 fun v bs => crc32cUpd (bits v.toNat 0 32) bs)

/-- CRC32. -/
def execCrc32 (t : Nat) (f : HFmt) (s : State) : Host.Outcome State Fault Refusal :=
  .next (s.sumOp t f 0x02 fun v bs => crc32Upd (bits v.toNat 0 32) bs)

/-- CRC8. -/
def execCrc8 (t : Nat) (f : HFmt) (s : State) : Host.Outcome State Fault Refusal :=
  .next (s.sumOp t f 0x03 fun v bs => crc8Upd (bits v.toNat 0 8) bs)

/-- CRC16. -/
def execCrc16 (t : Nat) (f : HFmt) (s : State) : Host.Outcome State Fault Refusal :=
  .next (s.sumOp t f 0x04 fun v bs => crc16Upd (bits v.toNat 0 16) bs)

/-- The frame of the strand's item: empty without an item, and for WAKE and HOST items, whose LENGTH is 0. -/
def State.itemFrame (s : State) (t : Nat) : List Byte :=
  match s.hookItem t with
  | some k => (s.ll k).frame.take (s.winLen k)
  | none => []

/-- CSUM_PKT: bytes at or beyond LENGTH count as absent and set lane 0 [16]. -/
def execCsumPkt (t : Nat) (f : HFmt) (s : State) : Host.Outcome State Fault Refusal :=
  let srcs := [f.hd.toNat, f.ha.toNat]
  .next (s.hookIssue t f { hook := 2, func := 0x05, srcs := srcs } fun s =>
    let a := s.hval t f.ha.toNat
    let o := bits (hlane a 0).toNat 0 14
    let n := bits (hlane a 1).toNat 0 14
    let fr := s.itemFrame t
    let bs := (fr.drop o).take n
    s.hookDone t 2 0x05 f.hd srcs (mkLanes (onesSum (bits (s.hval t f.hd.toNat).toNat 0 16) bs + (if bs.length < n || (s.hookItem t).isNone then 65536 else 0)) 0 0 0))

/-- HASH64 (R181): SipHash-2-4 under the key in HB. -/
def execHash64 (t : Nat) (f : HFmt) (s : State) : Host.Outcome State Fault Refusal :=
  let srcs := regRange f.ha f.md.toNat ++ [f.hb.toNat]
  .next (s.hookIssue t f { hook := 2, func := 0x06, useHb := true, useMd := true, srcs := srcs, mdBad := decide (2 < f.md.toNat) } fun s =>
    let k := (s.hval t f.hb.toNat).toNat
    let h := sipHash24 (k % 2 ^ 64) (k / 2 ^ 64) (s.hbytesOf t f.ha.toNat (16 * (f.md.toNat + 1)))
    s.hookDone t 2 0x06 f.hd srcs (mkLanes (h % 2 ^ 32) (h / 2 ^ 32) 0 0))

end Sys2Proof.Machine
end

