-- ==== Sys2Proof/Machine/Hook3.lean ====
section
/-! DEFINITION. Hook 3 (flow): reads and staged effects (R182, R183). -/

namespace Sys2Proof.Machine

/-- Append the outcome of a read that `tryRead` has offered. -/
def State.pushRead (s : State) (t : Nat) (o : HookOp) : State :=
  let it := s.hookItem t
  let home := match it with | some k => k / 4096 | none => panelOf t
  let (o, s) := s.tryRead t { o with bank := b2n (s.strand t).inB1, ll := it, home := home }
  s.pushOp t o

/-- FLOW_READ (R182). -/
def execFlowRead (t : Nat) (f : HFmt) (s : State) : Host.Outcome State Fault Refusal :=
  let srcs := regRange f.ha 2
  .next (s.hookIssue t f { hook := 3, func := 0x00, srcs := srcs } fun s =>
    s.pushRead t { hook := 3, func := 0, hd := some f.hd.toNat, srcs := srcs, key := s.hbytesOf t f.ha.toNat 48 })

/-- FLOW_READX (R182). -/
def execFlowReadx (t : Nat) (f : HFmt) (s : State) : Host.Outcome State Fault Refusal :=
  .next (s.hookIssue t f { hook := 3, func := 0x01, srcs := [f.ha.toNat] } fun s =>
    s.pushRead t { hook := 3, func := 1, hd := some f.hd.toNat, srcs := [f.ha.toNat], ridx := bits (s.hval t f.ha.toNat).toNat 0 25 })

/-- MOD 12–14 is out of range for hook 3 (R182). -/
def flowMdBad (f : HFmt) : Bool := decide (12 ≤ f.md.toNat) && decide (f.md.toNat ≤ 14)

/-- Has a FLOW_INSERT been staged on read-set entry `i`? -/
def insertedOn (log : List StEntry) (i : Nat) : Option StEntry := log.find? fun e => decide (e.op = .insert) && decide (e.rsi = i)

/-- FLOW_GET by RSI (R182): the view of R110. -/
def State.getByRsi (s : State) (k i off : Nat) : HWord :=
  let l := s.ll k
  match l.rs[i]? with
  | none => hres 0x04
  | some r =>
    if r.absent && (insertedOn l.log i).isNone then hres 0x04
    else if 68 < off then hres 0x05
    else
      let st := if r.absent then List.replicate 80 0#8 else s.recState r.home r.ridx
      getVal (viewState st l.log i (if r.absent then ridxNone else r.ridx)) off

/-- FLOW_GET (R182). The committed value of a record that was deleted after the read is a free value (log entry 79). -/
def execFlowGet (t : Nat) (f : HFmt) (s : State) : Host.Outcome State Fault Refusal :=
  .next (s.hookIssue t f { hook := 3, func := 0x02, useHa := false, useHb := true, useMd := true, srcs := [f.hb.toNat], mdBad := flowMdBad f } fun s =>
    let v := s.hval t f.hb.toNat
    let off := bits v.toNat 0 7
    if f.md.toNat = 15 then
      if 68 < off then s.hookDone t 3 2 f.hd [f.hb.toNat] (hres 0x05)
      else s.pushRead t { hook := 3, func := 2, hd := some f.hd.toNat, srcs := [f.hb.toNat], ridx := bits v.toNat 32 25, off := off }
    else
      let r : HWord × State := match s.opLl t { hook := 3, bank := b2n (s.strand t).inB1 } with
        | some k =>
          let l := s.ll k
          if (l.rs.getD f.md.toNat {}).gone && decide (off ≤ 68) then
            (getVal (viewState (Config.freeBytes s.fresh 80) l.log f.md.toNat ridxNone) off, { s with fresh := s.fresh + 1 })
          else (s.getByRsi k f.md.toNat off, s)
        | none => (hres 0x04, s)
      r.2.hookDone t 3 2 f.hd [f.hb.toNat] r.1)

/-- Checks 1 to 4 of R183 for a staged operation: the status of the first that fails. `hb` is the HB value, zero for a
FUNC that does not use it. -/
def stageCheck (op : StOp) (item : Option Lifeline) (rsi hb : Nat) : Option Nat :=
  let blind := decide (rsi = 15)
  let w := bits hb 8 3
  let flowW := decide (op = .add) || decide (op = .set) || decide (op = .cas)
  let rsvHb := flowW && (decide (4 < w) || decide (bits hb 7 1 ≠ 0) || decide (bits hb 11 21 ≠ 0) ||
    (if blind then decide (bits hb 57 71 ≠ 0) else decide (bits hb 32 96 ≠ 0)))
  if rsvHb then some 0x11
  else match item with
    | none => if !blind || decide (op = .insert) || decide (op = .delete) then some 0x0C
      else if op = .cas then some 0x04
      else if 80 < bits hb 0 7 + widthBytes w then some 0x05 else none
    | some l =>
      let r := l.rs[rsi]?
      let ins := (insertedOn l.log rsi).isSome
      let notRead := if blind then !(decide (op = .add) || decide (op = .set)) else match r with
        | none => true
        | some r => if op = .insert then !r.absent || ins else r.absent && !ins
      if notRead then some 0x04
      else if flowW && (decide (80 < bits hb 0 7 + widthBytes w) || (decide (op = .cas) && decide (3 < w))) then some 0x05
      else if 16 ≤ l.log.length then some 0x03 else none

/-- The OPERAND of a stage-log entry (R111): HA whole for FLOW_ADD, FLOW_SET and FLOW_CAS (R182: operand HA, value HA), of which
applying the entry takes the low WIDTH bytes; zero for the others (DEDUCED). -/
def stageOperand (op : StOp) (ha : Nat) : Nat :=
  match op with
  | .add | .set | .cas => ha
  | _ => 0

/-- A blind operation without an item is applied at once (R183). -/
def State.applyBlind (s : State) (p : Nat) (e : StEntry) : State :=
  if s.hasRecord p e.target then (s.applyRec p e.target e).endCtx p e.target false else s

/-- Stage an operation that has passed checks 1 to 5 (R183, R223): the status, and the index used. -/
def State.stage (s : State) (k : Nat) (op : StOp) (rsi hb ha : Nat) : Nat × Nat × State :=
  let l := s.ll k
  let p := k / 4096
  let n := l.log.length
  let w := bits hb 8 3
  match op with
  | .insert =>
    let key := (s.ctx p (l.rs.getD rsi {}).ver).data.take 48
    let (r, s) := s.reserve p key
    match r with
    | none => (0x06, 0, s)
    | some (loc, i) =>
      let l := s.ll k
      (0x00, n, s.setLl k { l with log := l.log ++ [{ op := .insert, rsi := rsi, target := i, rsvWay := some loc }] })
  | _ =>
    let r := l.rs.getD rsi {}
    let target := if rsi = 15 then bits hb 32 25
      else match insertedOn l.log rsi with
        | some e => e.target
        | none => r.ridx
    let e : StEntry := { op := op, rsi := rsi, off := if op = .delete then 0 else bits hb 0 7, width := if op = .delete then 0 else w, target := target, operand := stageOperand op ha }
    (0x00, n, s.setLl k { l with log := l.log ++ [e] })

/-- A staged FUNC of hook 3 (R182, R183). -/
def State.stageOp (s : State) (t : Nat) (f : HFmt) (func : Nat) (op : StOp) : State :=
  let flowW := decide (op = .add) || decide (op = .set) || decide (op = .cas)
  let srcs := if flowW then [f.ha.toNat, f.hb.toNat] else []
  s.hookIssue t f { hook := 3, func := func, useHa := flowW, useHb := flowW, useMd := true, srcs := srcs, mdBad := flowMdBad f } fun s =>
    let hb := if flowW then (s.hval t f.hb.toNat).toNat else 0
    let ha := if flowW then (s.hval t f.ha.toNat).toNat else 0
    let rsi := f.md.toNat
    let done (s : State) (st i : Nat) : State := s.hookDone t 3 func f.hd srcs (hres (st + i * 256))
    match s.hookItem t with
    | none => match stageCheck op none rsi hb with
      | some st => done s st 0
      | none =>
        let w := bits hb 8 3
        done (s.applyBlind (panelOf t) { op := op, rsi := 15, off := bits hb 0 7, width := w, target := bits hb 32 25, operand := stageOperand op ha }) 0x00 0
    | some k =>
      if (s.ll k).state = .timedOut then
        match stageCheck op none 15 hb with
        | some 0x11 => done s 0x11 0
        | _ => done s 0x00 0
      else match stageCheck op (some (s.ll k)) rsi hb with
        | some st => done s st 0
        | none =>
          let (st, i, s) := s.stage k op rsi hb ha
          done s st i

/-- FLOW_ADD (R182). -/
def execFlowAdd (t : Nat) (f : HFmt) (s : State) : Host.Outcome State Fault Refusal := .next (s.stageOp t f 0x03 .add)
/-- FLOW_SET (R182). -/
def execFlowSet (t : Nat) (f : HFmt) (s : State) : Host.Outcome State Fault Refusal := .next (s.stageOp t f 0x04 .set)
/-- FLOW_CAS (R182). -/
def execFlowCas (t : Nat) (f : HFmt) (s : State) : Host.Outcome State Fault Refusal := .next (s.stageOp t f 0x05 .cas)
/-- FLOW_INSERT (R182). -/
def execFlowInsert (t : Nat) (f : HFmt) (s : State) : Host.Outcome State Fault Refusal := .next (s.stageOp t f 0x06 .insert)
/-- FLOW_DELETE (R182). -/
def execFlowDelete (t : Nat) (f : HFmt) (s : State) : Host.Outcome State Fault Refusal := .next (s.stageOp t f 0x07 .delete)

end Sys2Proof.Machine
end

