-- ==== Sys2Proof/Machine/Hook5.lean ====
section
/-! DEFINITION. Hook 5 (skein, R186), the edits of hook 6 (packet, R187), and the arrival of a hook operation's result
(R172–R174). -/

namespace Sys2Proof.Machine

/-- ALLOC (R186, R233): every bit of HA but the size is reserved (R4); with an item the buffer is tentative and belongs to the attempt. -/
def execAlloc (t : Nat) (f : HFmt) (s : State) : Host.Outcome State Fault Refusal :=
  .next (s.hookIssue t f { hook := 5, func := 0x00, useMd := true, srcs := [f.ha.toNat] } fun s =>
    let v := (s.hval t f.ha.toNat).toNat
    let it := s.hookItem t
    let full := match it with | some k => decide (8 ≤ (s.ll k).tents.length) | none => false
    let (st, a, p, s) := s.allocBuf (.strand t it.isSome full) f.md.toNat (bits v 0 17) (decide (2 ^ 17 ≤ v))
    if st = 0 then
      let s := match it with
        | some k => s.setLl k { s.ll k with tents := (s.ll k).tents ++ [(a, t)] }
        | none => s
      s.hookDone t 5 0x00 f.hd [f.ha.toNat] (hres 0x00 (a % 2 ^ 32) (bits a 32 8) (s.poolSize p))
    else s.hookDone t 5 0x00 f.hd [f.ha.toNat] (hres st))

/-- The status of a FREE applied at once (R236). -/
def freeStatus (r : Nat) : Nat := if r = 1 || r = 2 then 0x16 else 0x00

/-- FREE (R186, R236): a stage-log entry, or without an item applied at once. -/
def execFreeBuf (t : Nat) (f : HFmt) (s : State) : Host.Outcome State Fault Refusal :=
  .next (s.hookIssue t f { hook := 5, func := 0x01, srcs := [f.ha.toNat] } fun s =>
    let v := s.hval t f.ha.toNat
    let a := bits v.toNat 0 40
    let done (s : State) (st : Nat) : State := s.hookDone t 5 0x01 f.hd [f.ha.toNat] (hres st)
    if (s.bufferAt a).isNone then done s 0x0A
    else match s.hookItem t with
      | none =>
        let (r, s) := s.freeBufAt (panelOf t) a
        done s (freeStatus r)
      | some k =>
        let l := s.ll k
        if l.state = .timedOut then done s 0x00
        else if 16 ≤ l.log.length then done s 0x03
        else done (s.setLl k { l with log := l.log ++ [{ op := .bufFree, target := a }] }) 0x00)

-- ------------------------------------------------------------------------------------------------------ hook 6

/-- An edit of the item's frame (R187): `edit` answers the new frame, or none for RANGE. -/
def State.pktEdit (s : State) (t : Nat) (f : HFmt) (func : Nat) (srcs : List Nat) (edit : List Byte → Nat × Option (List Byte)) : State :=
  match s.hookItem t with
  | none => s.hookDone t 6 func f.hd srcs (hres 0x0C)
  | some k =>
    let fr := (s.ll k).frame.take (s.winLen k)
    match edit fr with
    | (st, none) => s.hookDone t 6 func f.hd srcs (hres st)
    | (st, some fr') =>
      if fr'.length = 0 || 16383 < fr'.length then s.hookDone t 6 func f.hd srcs (hres 0x0B)
      else (s.setLl k { s.ll k with frame := fr' }).hookDone t 6 func f.hd srcs (hres st fr'.length)

/-- Bits [13:0] of lane `l` of a hook register value. -/
def off14 (v : HWord) (l : Nat) : Nat := bits (hlane v l).toNat 0 14

/-- PKT_RD (R187): bytes at or beyond LENGTH read as zero. -/
def execPktRd (t : Nat) (f : HFmt) (s : State) : Host.Outcome State Fault Refusal :=
  .next (s.hookIssue t f { hook := 6, func := 0x00, useMd := true, srcs := [f.ha.toNat] } fun s =>
    match s.hookItem t with
    | none => s.hookDone t 6 0x00 f.hd [f.ha.toNat] (hres 0x0C)
    | some _ => s.hookDone t 6 0x00 f.hd [f.ha.toNat] (ofHbytes (sliceZ (s.itemFrame t) (off14 (s.hval t f.ha.toNat) 0) (f.md.toNat + 1))))

/-- PKT_WR (R187). -/
def execPktWr (t : Nat) (f : HFmt) (s : State) : Host.Outcome State Fault Refusal :=
  let srcs := [f.ha.toNat, f.hb.toNat]
  .next (s.hookIssue t f { hook := 6, func := 0x01, useHb := true, useMd := true, srcs := srcs } fun s =>
    let o := off14 (s.hval t f.hb.toNat) 0
    let n := f.md.toNat + 1
    let bs := s.hbytesOf t f.ha.toNat n
    s.pktEdit t f 0x01 srcs fun fr => if fr.length < o + n then (0x0B, none) else (0x00, some (overlay fr bs o)))

/-- PKT_INS (R187): a length outside 1–256 is a bad operand. -/
def execPktIns (t : Nat) (f : HFmt) (s : State) : Host.Outcome State Fault Refusal :=
  let srcs := [f.ha.toNat, f.hb.toNat]
  .next (s.hookIssue t f { hook := 6, func := 0x02, useHb := true, srcs := srcs } fun s =>
    let v := s.hval t f.hb.toNat
    let o := off14 v 0
    let n := bits (hlane v 1).toNat 0 9
    let bs := s.hbytesOf t f.ha.toNat (min n 16)
    s.pktEdit t f 0x02 srcs fun fr =>
      if n = 0 || 256 < n then (0x05, none)
      else if fr.length ≤ o then (0x0B, none)
      else (0x00, some (fr.take o ++ sliceZ bs 0 n ++ fr.drop o)))

/-- PKT_STRIP (R187). -/
def execPktStrip (t : Nat) (f : HFmt) (s : State) : Host.Outcome State Fault Refusal :=
  .next (s.hookIssue t f { hook := 6, func := 0x03, useHa := false, useHb := true, srcs := [f.hb.toNat] } fun s =>
    let v := s.hval t f.hb.toNat
    let o := off14 v 0
    let n := off14 v 1
    s.pktEdit t f 0x03 [f.hb.toNat] fun fr =>
      if fr.length < o + n then (0x0B, none) else (0x00, some (fr.take o ++ fr.drop (o + n))))

/-- PKT_MOVE (R187). -/
def execPktMove (t : Nat) (f : HFmt) (s : State) : Host.Outcome State Fault Refusal :=
  .next (s.hookIssue t f { hook := 6, func := 0x04, useHa := false, useHb := true, srcs := [f.hb.toNat] } fun s =>
    let v := s.hval t f.hb.toNat
    let d := off14 v 0
    let o := off14 v 1
    let n := off14 v 2
    s.pktEdit t f 0x04 [f.hb.toNat] fun fr =>
      if fr.length < o + n || fr.length < d + n then (0x0B, none) else (0x00, some (overlay fr ((fr.drop o).take n) d)))

end Sys2Proof.Machine
end

