-- ==== Sys2Proof/Machine/Acf.lean ====
section
/-! DEFINITION. The internal envelope (R64, R65) and its IEEE 1722 ACF mappings (R67–R69) by hook 6 (R187). The layouts
of the standard's own messages are PRESUMED from IEEE 1722-2016 (log entry 30). -/

namespace Sys2Proof.Machine

/-- The LEN values of a KIND on receive (R65). -/
def envLenOk (kind len : Nat) : Bool :=
  match kind with
  | 0 => decide (len ≤ 8)
  | 1 => decide (len ≤ 8) || [12, 16, 20, 24, 32, 48, 64].contains len
  | 2 => decide (1 ≤ len) && decide (len ≤ 2048)
  | _ => decide (len ≤ 8)

/-- Field of the envelope's word at byte `o` (R64). -/
def envF (fr : List Byte) (o lo w : Nat) : Nat := bits (leVal (sliceZ fr o 4)) lo w

/-- KIND, PORT, STATUS and LEN. -/
def envKind (fr : List Byte) : Nat := envF fr 0 4 4
/-- PORT. -/
def envPort (fr : List Byte) : Nat := envF fr 0 8 11
/-- STATUS. -/
def envStatus (fr : List Byte) : Nat := envF fr 0 24 8
/-- LEN. -/
def envLen (fr : List Byte) : Nat := envF fr 12 0 12
/-- Is it a remote frame? -/
def envRtr (fr : List Byte) : Bool := decide (envKind fr = 0) && decide (envF fr 4 30 1 = 1)

/-- Do VER, the reserved fields and the reserved codes of an envelope have the values of R64? -/
def envFieldsOk (fr : List Byte) : Bool :=
  let k := envKind fr
  decide (envF fr 0 0 4 = 1) && decide (k ≤ 3) && decide (envF fr 0 19 5 = 0) && decide (envF fr 12 14 18 = 0) &&
  (decide (k = 1) || decide (envF fr 12 12 2 = 0)) && (decide (k = 2) || decide (envF fr 8 0 32 = 0)) &&
  (match k with
    | 0 | 1 => decide (envF fr 4 31 1 = 0) && (decide (envF fr 4 29 1 = 1) || decide (envF fr 4 11 18 = 0)) && (decide (k = 0) || decide (envF fr 4 30 1 = 0))
    | 2 => decide (envF fr 4 13 3 = 0)
    | _ => decide (envF fr 4 6 2 = 0) && decide (envF fr 4 10 22 = 0))

/-- Data bytes that follow an envelope: none after a remote frame's. -/
def envData (fr : List Byte) : Nat := if envRtr fr then 0 else envLen fr

/-- Is port `p` a port of a KIND: a CAN port, or a LIN port for KIND LIN (R48)? -/
def envPortOk (kind p : Nat) : Bool :=
  if kind = 3 then decide (960 ≤ p) && decide (p < 1024) else decide (800 ≤ p) && decide (p < 960)

/-- Is a valid received envelope, with its data, what the frame holds (R187: NOT_ENV otherwise)? -/
def envValid (fr : List Byte) : Bool :=
  decide (32 ≤ fr.length) && envFieldsOk fr && envLenOk (envKind fr) (envLen fr) && decide (fr.length = 32 + envData fr)
    && (if envKind fr = 3 then decide (envStatus fr ≤ 6) else decide (envStatus fr = 0)) && envPortOk (envKind fr) (envPort fr)

/-- The message timestamp of R67, if the stamp's domain is a GPTP time domain and the stamp was taken in LOCKED or COAST:
the stamp's position with the upper bits that bring it within 2^47 ns of the domain's current time. The rule does not say which source makes
a domain a GPTP domain: the model asks for the kind of the source that is active now (log entry 88). -/
def State.acfTime (s : State) (p : Nat) (stamp : Nat) : Option Nat :=
  let n := bits stamp 64 4
  let st := bits stamp 68 2
  let c := s.dom p n
  let kind := s.rf R.domSrc 0 n (if c.secondary then 16 else 0) 3
  if s.domEn n && !s.domCyclic n && decide (kind = 1) && decide (st ≤ 1) then
    let base := c.full + (s.now - c.fullAt) / nsU
    let cur := Int.ofNat base + sdiff (s.est p n) (base % 2 ^ 48) 48
    some (((cur + sdiff (bits stamp 0 48) ((cur % (281474976710656 : Int)).toNat) 48) % (18446744073709551616 : Int)).toNat)
  else none

/-- The ACF common header: msg_type (7 bits) and msg_length in quadlets (9 bits), big-endian. -/
def acfHead (ty len : Nat) : List Byte := beBytes 2 (ty * 512 + len % 512)

/-- Bytes to the next quadlet. -/
def padOf (n : Nat) : Nat := (4 - n % 4) % 4

/-- GW_BUSID of a port. -/
def State.busId (s : State) (port : Nat) : Nat := s.rf R.gwBusid 0 (port - 800) 0 5

/-- ACF message types: CAN, CAN Brief, LIN, and the vendor-specific type. -/
def acfCan : Nat := 1
/-- ACF CAN Brief. -/
def acfBrief : Nat := 2
/-- ACF LIN. -/
def acfLin : Nat := 3
/-- Vendor-specific: the first user-defined type (log entry 30). -/
def acfVendor : Nat := 0x78

/-- The protected identifier of a LIN frame: parity bits 6 and 7 over the frame identifier (ISO 17987). -/
def linPid (fid : Nat) : Nat :=
  let b (i : Nat) : Nat := bits fid i 1
  fid + ((b 0 + b 1 + b 2 + b 4) % 2) * 64 + ((b 1 + b 3 + b 4 + b 5 + 1) % 2) * 128

/-- GW_ACFVS_ID in register byte order. -/
def State.vendorId (s : State) : List Byte := leBytes 4 (s.rd R.gwVsidLo 0 0).toNat ++ leBytes 2 (s.rd R.gwVsidHi 0 0).toNat

/-- The ACF messages of a valid envelope (R67, R68). -/
def State.acfMessages (s : State) (p : Nat) (fr : List Byte) : List Byte :=
  let k := envKind fr
  let data := (fr.drop 32).take (envData fr)
  let n := data.length
  let tm := s.acfTime p (leVal (sliceZ fr 16 16))
  let mtv := b2n tm.isSome
  let time := tm.getD 0
  let bus := s.busId (envPort fr)
  match k with
  | 2 =>
    let part := data.take 2012
    let first := acfHead acfVendor (8 + (part.length + 3) / 4) ++ s.vendorId ++ leBytes 2 1 ++ leBytes 2 0 ++
      leBytes 4 (envF fr 4 0 13 + mtv * 2 ^ 13 + envF fr 4 16 16 * 2 ^ 16) ++ leBytes 4 (envF fr 8 0 32) ++
      leBytes 4 (n + (envPort fr - 800) * 4096) ++ leBytes 8 time ++ part ++ List.replicate (padOf part.length) 0#8
    let rest := data.drop 2012
    first ++ (if rest.isEmpty then [] else
      acfHead acfVendor (3 + (rest.length + 3) / 4) ++ s.vendorId ++ leBytes 2 2 ++ leBytes 2 0 ++ rest ++ List.replicate (padOf rest.length) 0#8)
  | 3 =>
    acfHead acfLin (3 + (n + 3) / 4) ++ beBytes 1 (padOf n * 64 + mtv * 32 + bus) ++ beBytes 1 (linPid (envF fr 4 0 6)) ++ beBytes 8 time ++
      data ++ List.replicate (padOf n) 0#8
  | _ =>
    let brief := s.rb R.gwAcfcfg 0 0 0
    let m := if brief then 0 else mtv
    let flags := padOf n * 64 + m * 32 + b2n (envRtr fr) * 16 + envF fr 4 29 1 * 8 + envF fr 12 12 1 * 4 + b2n (decide (k = 1)) * 2 + envF fr 12 13 1
    acfHead (if brief then acfBrief else acfCan) ((if brief then 2 else 4) + (n + 3) / 4) ++ beBytes 1 flags ++ beBytes 1 bus ++
      (if brief then [] else beBytes 8 time) ++ beBytes 4 (envF fr 4 0 29) ++ data ++ List.replicate (padOf n) 0#8

/-- The AVTP PDU around ACF messages: NTSCF or TSCF. The header bits that the spec gives no source for are free. -/
def State.acfPdu (s : State) (tscf : Bool) (ha : HWord) (body : List Byte) : List Byte × State :=
  let (x, s) := s.freeN
  if tscf then
    (beBytes 1 0x05 ++ beBytes 1 (0x80 + bits x 0 1 + bits x 1 1 * 8) ++ leBytes 1 (bits ha.toNat 64 8) ++ beBytes 1 (bits x 2 1) ++
      (hbytes ha).take 8 ++ beBytes 4 (bits x 3 32) ++ beBytes 4 0 ++ beBytes 2 body.length ++ beBytes 2 0 ++ body, s)
  else
    (beBytes 1 0x82 ++ beBytes 2 (bits x 0 1 * 32768 + body.length % 2048) ++ beBytes 1 (bits x 1 8) ++ beBytes 8 (bits x 9 64) ++ body, s)

/-- ACF_PACK (R187). -/
def execAcfPack (t : Nat) (f : HFmt) (s : State) : Host.Outcome State Fault Refusal :=
  .next (s.hookIssue t f { hook := 6, func := 0x08, useMd := true, srcs := [f.ha.toNat], mdBad := decide (1 < f.md.toNat) } fun s =>
    let (pdu, s) := s.acfPdu (decide (f.md.toNat = 1)) (s.hval t f.ha.toNat) (s.acfMessages (panelOf t) (s.itemFrame t))
    s.pktEdit t f 0x08 [f.ha.toNat] fun fr =>
      if !envValid fr then (0x14, none)
      else if envKind fr = 2 && f.md.toNat = 0 then (0x05, none)
      else (0x00, some pdu))

/-- What ACF_UNPACK finds: the status, and on OK the envelope with its data, the bus identifier and the message's bytes. -/
structure AcfRes where
  status : Nat
  env : List Byte := []
  bus : Nat := 0
  size : Nat := 0
  deriving DecidableEq, Repr

/-- An envelope of R64 as ACF_UNPACK produces it, less its data: STATUS and STAMP zero, as a transmitted envelope must
carry them. -/
def mkEnv (kind port w1 af w3 : Nat) : List Byte :=
  leBytes 4 (1 + kind * 16 + (port % 2048) * 256) ++ leBytes 4 w1 ++ leBytes 4 af ++ leBytes 4 w3 ++ List.replicate 16 0#8

/-- A vendor-specific message (R68, R69) of `q` quadlets at the start of `m`, which reaches to the end of the frame. One too short to
hold FORMAT fails check 4. -/
def State.acfVendorMsg (s : State) (m : List Byte) (q port : Nat) : AcfRes :=
  let w (o lo n : Nat) : Nat := bits (leVal (sliceZ m o 4)) lo n
  let len := w 20 0 12
  let d := min len 2012
  let fmt := leVal (sliceZ m 8 2)
  let c := m.drop (4 * q)
  let cq := beVal (sliceZ c 0 2) % 512
  let cont := decide (beVal (sliceZ c 0 2) / 512 = acfVendor) && decide (sliceZ c 2 6 = s.vendorId) && decide (leVal (sliceZ c 8 2) = 2)
  let rest := len - d
  if sliceZ m 2 6 ≠ s.vendorId then { status := 0x10 }
  else if q < 3 then { status := 0x13 }
  else if leVal (sliceZ m 10 2) ≠ 0 || (fmt ≠ 1 && fmt ≠ 2) || (fmt = 1 && (w 12 14 2 ≠ 0 || w 20 20 12 ≠ 0)) ||
      (fmt = 1 && 0 < rest && cont && leVal (sliceZ c 10 2) ≠ 0) then { status := 0x11 }
  else if fmt = 2 || len = 0 || 2048 < len || 159 < w 20 12 8 then { status := 0x12 }
  else if q ≠ 8 + (d + 3) / 4 then { status := 0x13 }
  else
    if 0 < rest && !(cont && decide (cq = 3 + (rest + 3) / 4) && decide (4 * cq ≤ c.length)) then { status := 0x13 }
    else
      let data := (m.drop 32).take d ++ (c.drop 12).take rest
      { status := 0x00, env := mkEnv 2 port (w 12 0 13 + w 12 16 16 * 2 ^ 16) (w 16 0 32) len ++ data, bus := w 20 12 8, size := 4 * q + (if 0 < rest then 4 * cq else 0) }

/-- The ACF message at the start of `m` (R67, R69). `x` supplies what an ACF message does not carry: PORT, CHK and DIR of a
LIN frame, and the data length code of a remote frame. -/
def State.acfParse (s : State) (m : List Byte) (x : Nat) : AcfRes :=
  let ty := beVal (sliceZ m 0 2) / 512
  let q := beVal (sliceZ m 0 2) % 512
  let b2 := (byteAt m 2).toNat
  let b3 := (byteAt m 3).toNat
  let port := bits x 0 11
  let pad := bits b2 6 2
  if m.length < 4 || m.length < 4 * q then { status := 0x0B }
  else if ty = acfVendor then s.acfVendorMsg m q port
  else if ty = acfCan || ty = acfBrief then
    let h := if ty = acfCan then 16 else 8
    let idq := beVal (sliceZ m (h - 4) 4)
    let n := 4 * q - h - pad
    let fdf := bit b2 1
    let rtr := bit b2 4
    let kind := b2n fdf
    let bad := decide (4 * q < h + pad) || !envLenOk kind n || decide (bits b3 5 3 ≠ 0) || decide (bits idq 29 3 ≠ 0) ||
      (!bit b2 3 && decide (2048 ≤ idq)) || (!fdf && (bit b2 2 || bit b2 0)) || (rtr && (fdf || decide (n ≠ 0)))
    if bad then { status := 0x12 }
    else
      let len := if rtr then bits x 16 8 % 9 else n
      { status := 0x00, env := mkEnv kind port (idq % 2 ^ 29 + bits b2 3 1 * 2 ^ 29 + b2n rtr * 2 ^ 30) 0 (len + bits b2 2 1 * 2 ^ 12 + bits b2 0 1 * 2 ^ 13) ++ (m.drop h).take n, bus := bits b3 0 5, size := 4 * q }
  else if ty = acfLin then
    let n := 4 * q - 12 - pad
    if 4 * q < 12 + pad || !envLenOk 3 n then { status := 0x12 }
    else { status := 0x00, env := mkEnv 3 port (bits b3 0 6 + bits x 11 2 * 256) 0 n ++ (m.drop 12).take n, bus := bits b2 0 5, size := 4 * q }
  else { status := 0x12 }

/-- Counters of GW_ACF_ERR (R411). -/
def acfCounter (st : Nat) : Option Nat :=
  match st with | 0x10 => some 49 | 0x11 => some 50 | 0x12 => some 51 | 0x13 => some 52 | _ => none

/-- ACF_UNPACK (R187): the envelope is written into a buffer; the frame is unchanged. -/
def execAcfUnpack (t : Nat) (f : HFmt) (s : State) : Host.Outcome State Fault Refusal :=
  let srcs := [f.ha.toNat, f.hb.toNat]
  .next (s.hookIssue t f { hook := 6, func := 0x09, useHb := true, srcs := srcs } fun s =>
    let done (s : State) (v : HWord) : State := s.hookDone t 6 0x09 f.hd srcs v
    match s.hookItem t with
    | none => done s (hres 0x0C)
    | some _ =>
      let fr := s.itemFrame t
      let o := off14 (s.hval t f.ha.toNat) 0
      let a := bits (s.hval t f.hb.toNat).toNat 0 40
      let (x, s) := s.freeN
      let r := s.acfParse (fr.drop o) x
      if r.status ≠ 0x00 then
        let s := match acfCounter r.status with | some n => s.countP (panelOf t) n | none => s
        done s (hres r.status)
      else
        let room := match s.bufferAt a with | some (p, _) => s.poolSize p | none => 0
        if room < r.env.length then done s (hres 0x0B)
        else
          let next := if o + r.size + 4 ≤ fr.length then o + r.size else 0
          done (s.devWrite (panelOf t) a r.env) (hres 0x00 next r.bus r.env.length))

end Sys2Proof.Machine
end

