-- ==== Sys2Proof/Machine/Crypto.lean ====
section
/-! DEFINITION. The published algorithms of hook 0 (R178, R179): AES, GCM, CMAC, Keccak and the lattice arithmetic of
ML-DSA over q = 8,380,417. -/

namespace Sys2Proof.Machine

/-- The AES S-box as one number, entry i in byte i. -/
def sboxN : Nat := 0x16BB54B00F2D99416842E6BF0D89A18CDF2855CEE9871E9B948ED9691198F8E19E1DC186B95735610EF6034866B53E708A8BBD4B1F74DDE8C6B4A61C2E2578BA08AE7A65EAF4566CA94ED58D6D37C8E779E4959162ACD3C25C2406490A3A32E0DB0B5EDE14B8EE4688902A22DC4F816073195D643D7EA7C41744975FEC130CCDD2F3FF1021DAB6BCF5389D928F40A351A89F3C507F02F94585334D43FBAAEFD0CF584C4A39BECB6A5BB1FC20ED00D153842FE329B3D63B52A05A6E1B1A2C830975B227EBE28012079A059618C323C7041531D871F1E5A534CCF73F362693FDB7C072A49CAFA2D4ADF04759FA7DC982CA76ABD7FE2B670130C56F6BF27B777C63
/-- Its inverse. -/
def isboxN : Nat := 0x7D0C2155631469E126D677BA7E042B17619953833CBBEBC8B0F52AAE4D3BE0A0EF9CC9939F7AE52D0D4AB519A97F51605FEC8027591012B131C7078833A8DD1FF45ACD78FEC0DB9A2079D2C64B3E56FC1BBE18AA0E62B76F89C5291D711AF1476EDF751CE837F9E28535ADE72274AC9673E6B4F0CECFF297EADC674F4111913A6B8A130103BDAFC1020F3FCA8F1E2CD00645B3B80558E4F70AD3BC8C00ABD890849D8DA75746155EDAB9EDFD5048706C92B6655DCC5CA4D41698688664F6F87225D18B6D49A25B76B224D92866A12E084EC3FA420B954CEE3D23C2A632947B54CBE9DEC444438E3487FF2F9B8239E37CFBD7F3819EA340BF38A53630D56A0952
/-- Byte `i` of a number. -/
def byteOfN (n i : Nat) : Nat := (n >>> (8 * i)) % 256
/-- SubBytes of one byte. -/
def sbox (x : Nat) : Nat := byteOfN sboxN x
/-- InvSubBytes of one byte. -/
def isbox (x : Nat) : Nat := byteOfN isboxN x

/-- Multiply by x in GF(2^8). -/
def xtime (x : Nat) : Nat := if 128 ≤ x then ((2 * x) % 256) ^^^ 0x1B else 2 * x
/-- Multiplication in GF(2^8) by a small factor. -/
def gmul (a b : Nat) : Nat :=
  let a2 := xtime a
  let a4 := xtime a2
  let a8 := xtime a4
  (if bit b 0 then a else 0) ^^^ (if bit b 1 then a2 else 0) ^^^ (if bit b 2 then a4 else 0) ^^^ (if bit b 3 then a8 else 0)

/-- The key schedule: words of four bytes. -/
def aesExpandFrom : Nat → Nat → Nat → List (List Nat) → List (List Nat)
  | 0, _, _, ws => ws
  | n + 1, nk, rcon, ws =>
    let i := ws.length
    let prev := ws.getD (i - 1) []
    let (tmp, rcon') :=
      if i % nk = 0 then
        let r := prev.drop 1 ++ prev.take 1
        let sb := r.map sbox
        (match sb with | a :: l => (a ^^^ rcon) :: l | [] => [], xtime rcon)
      else if nk = 8 && i % nk = 4 then (prev.map sbox, rcon)
      else (prev, rcon)
    let w := List.zipWith (fun a b => a ^^^ b) (ws.getD (i - nk) []) tmp
    aesExpandFrom n nk rcon' (ws ++ [w])

/-- The round keys of a 16- or 32-byte key, 16 bytes each. -/
def aesKeys (key : List Nat) : List (List Nat) :=
  let nk := key.length / 4
  let rounds := nk + 6
  let ws0 := (List.range nk).map fun i => (key.drop (4 * i)).take 4
  let ws := aesExpandFrom (4 * (rounds + 1) - nk) nk 1 ws0
  (List.range (rounds + 1)).map fun r => ((ws.drop (4 * r)).take 4).flatMap id

/-- AddRoundKey. -/
def aesXor (a b : List Nat) : List Nat := List.zipWith (fun x y => x ^^^ y) a b
/-- ShiftRows on the column-major state. -/
def shiftRows (s : List Nat) : List Nat := (List.range 16).map fun i => s.getD ((i + 4 * (i % 4)) % 16) 0
/-- InvShiftRows. -/
def invShiftRows (s : List Nat) : List Nat := (List.range 16).map fun i => s.getD ((i + 12 * (i % 4)) % 16) 0
/-- MixColumns with the circulant of four factors. -/
def mixWith (m : List Nat) (s : List Nat) : List Nat :=
  (List.range 16).map fun i =>
    let c := 4 * (i / 4)
    let r := i % 4
    (List.range 4).foldl (fun a j => a ^^^ gmul (s.getD (c + j) 0) (m.getD ((j + 4 - r) % 4) 0)) 0

/-- Encrypt one block. -/
def aesEncBlock (key blk : List Nat) : List Nat :=
  let ks := aesKeys key
  let n := ks.length - 1
  let s := aesXor blk (ks.getD 0 [])
  let s := (List.range (n - 1)).foldl (fun s r => aesXor (mixWith [2, 3, 1, 1] (shiftRows (s.map sbox))) (ks.getD (r + 1) [])) s
  aesXor (shiftRows (s.map sbox)) (ks.getD n [])

/-- Decrypt one block. -/
def aesDecBlock (key blk : List Nat) : List Nat :=
  let ks := aesKeys key
  let n := ks.length - 1
  let s := aesXor blk (ks.getD n [])
  let s := (List.range (n - 1)).foldl (fun s r => mixWith [14, 11, 13, 9] (aesXor ((invShiftRows s).map isbox) (ks.getD (n - 1 - r) []))) s
  aesXor ((invShiftRows s).map isbox) (ks.getD 0 [])

/-- Bytes as numbers. -/
def toNats (bs : List Byte) : List Nat := bs.map BitVec.toNat
/-- Numbers as bytes. -/
def toBytes (l : List Nat) : List Byte := l.map (BitVec.ofNat 8)

/-- AES encryption of 16 bytes. -/
def aesEnc (key blk : List Byte) : List Byte := toBytes (aesEncBlock (toNats key) (toNats (sliceZ blk 0 16)))
/-- AES decryption of 16 bytes. -/
def aesDec (key blk : List Byte) : List Byte := toBytes (aesDecBlock (toNats key) (toNats (sliceZ blk 0 16)))

/-- Multiplication in GF(2^128) as GCM orders its bits. -/
def ghMul (x y : Nat) : Nat :=
  ((List.range 128).foldl (fun (zv : Nat × Nat) i =>
    (if bit x (127 - i) then zv.1 ^^^ zv.2 else zv.1, if zv.2 % 2 = 1 then (zv.2 / 2) ^^^ (0xE1 * 2 ^ 120) else zv.2 / 2)) (0, y)).1

/-- GHASH over whole blocks of bytes, the last one padded with zeros. -/
def ghash (h acc : Nat) (bs : List Byte) : Nat :=
  (List.range ((bs.length + 15) / 16)).foldl (fun a i => ghMul (a ^^^ beVal (sliceZ bs (16 * i) 16)) h) acc

/-- The keystream block of a counter. -/
def gcmBlock (key iv : List Byte) (n : Nat) : List Byte := aesEnc key (sliceZ iv 0 12 ++ beBytes 4 (n % 2 ^ 32))

/-- `n` keystream bytes from byte position `pos` of the message. -/
def gcmStream (key iv : List Byte) (pos n : Nat) : List Byte :=
  let b0 := pos / 16
  let blocks := (pos % 16 + n + 15) / 16
  ((List.range blocks).flatMap fun i => gcmBlock key iv (2 + b0 + i)).drop (pos % 16) |>.take n

/-- Exclusive or of byte lists. -/
def xorBytes (a b : List Byte) : List Byte := List.zipWith (fun x y => x ^^^ y) a b

/-- The GCM tag of all additional data and ciphertext. -/
def gcmTag (key iv aad ct : List Byte) : List Byte :=
  let h := beVal (aesEnc key (List.replicate 16 0#8))
  let a := ghash h (ghash h 0 aad) ct
  let a := ghMul (a ^^^ (aad.length * 8 * 2 ^ 64 + ct.length * 8)) h
  xorBytes (beBytes 16 a) (gcmBlock key iv 1)

/-- GCM encryption of a whole message: ciphertext and tag. -/
def gcmSeal (key iv aad msg : List Byte) : List Byte × List Byte :=
  let ct := xorBytes msg (gcmStream key iv 0 msg.length)
  (ct, gcmTag key iv aad ct)

/-- Doubling in GF(2^128) for the CMAC subkeys. -/
def cmacDbl (x : Nat) : Nat := if bit x 127 then ((2 * x) % 2 ^ 128) ^^^ 0x87 else 2 * x

/-- CMAC of a message. -/
def cmac (key msg : List Byte) : List Byte :=
  let k1 := cmacDbl (beVal (aesEnc key (List.replicate 16 0#8)))
  let k2 := cmacDbl k1
  let n := max 1 ((msg.length + 15) / 16)
  let last := msg.drop (16 * (n - 1))
  let m := if last.length = 16 then (beVal last) ^^^ k1 else (beVal (sliceZ (last ++ [0x80#8]) 0 16)) ^^^ k2
  let c := (List.range (n - 1)).foldl (fun c i => beVal (aesEnc key (beBytes 16 (c ^^^ beVal (sliceZ msg (16 * i) 16))))) 0
  aesEnc key (beBytes 16 (c ^^^ m))

/-- The round constants of Keccak. -/
def keccakRc : List Nat := [0x1, 0x8082, 0x800000000000808A, 0x8000000080008000, 0x808B, 0x80000001, 0x8000000080008081, 0x8000000000008009, 0x8A, 0x88, 0x80008009, 0x8000000A] ++ [0x8000808B, 0x800000000000008B, 0x8000000000008089, 0x8000000000008003, 0x8000000000008002, 0x8000000000000080, 0x800A, 0x800000008000000A, 0x8000000080008081, 0x8000000000008080, 0x80000001, 0x8000000080008008]
/-- Rotation offsets of Keccak, lane x + 5y. -/
def keccakRot : List Nat := [0, 1, 62, 28, 27, 36, 44, 6, 55, 20, 3, 10, 43, 25, 39, 41, 45, 15, 21, 8, 18, 2, 61, 56, 14]

/-- Rotate a lane. -/
def rotLane (x n : Nat) : Nat := if n = 0 then x else rotl64 x n

/-- One round of Keccak-f[1600]. -/
def keccakRound (a : List Nat) (rc : Nat) : List Nat :=
  let g (l : List Nat) (x y : Nat) : Nat := l.getD (x % 5 + 5 * (y % 5)) 0
  let c := (List.range 5).map fun x => g a x 0 ^^^ g a x 1 ^^^ g a x 2 ^^^ g a x 3 ^^^ g a x 4
  let d := (List.range 5).map fun x => c.getD ((x + 4) % 5) 0 ^^^ rotLane (c.getD ((x + 1) % 5) 0) 1
  let a := (List.range 25).map fun i => a.getD i 0 ^^^ d.getD (i % 5) 0
  -- rho and pi: B[y, 2x + 3y] = rot A[x, y]
  let b := (List.range 25).map fun i =>
    let x' := i % 5
    let y' := i / 5
    let x := (x' + 3 * y') % 5
    let y := x'
    rotLane (g a x y) (keccakRot.getD (x + 5 * y) 0)
  (List.range 25).map fun i =>
    let x := i % 5
    let y := i / 5
    let v := g b x y ^^^ ((2 ^ 64 - 1 - g b (x + 1) y) &&& g b (x + 2) y)
    if i = 0 then v ^^^ rc else v

/-- Keccak-f[1600] on 25 lanes. -/
def keccakF (a : List Nat) : List Nat := keccakRc.foldl keccakRound a

/-- Lanes of 200 state bytes, and back. -/
def lanesOf (bs : List Byte) : List Nat := (List.range 25).map fun i => leVal (sliceZ bs (8 * i) 8)
/-- The 200 bytes of 25 lanes. -/
def bytesOfLanes (l : List Nat) : List Byte := (List.range 25).flatMap fun i => leBytes 8 (l.getD i 0)

/-- Absorb whole blocks of `rate` bytes. -/
def keccakAbsorb (rate : Nat) (st : List Nat) (msg : List Byte) : List Nat :=
  (List.range (msg.length / rate)).foldl (fun st i => keccakF (List.zipWith (fun a b => a ^^^ b) st (lanesOf (sliceZ msg (rate * i) rate)))) st

/-- The padded message of a sponge: the suffix byte, zeros, and the last bit. -/
def spongePad (rate suffix : Nat) (msg : List Byte) : List Byte :=
  let n := rate - msg.length % rate
  if n = 1 then msg ++ [BitVec.ofNat 8 (suffix ^^^ 0x80)]
  else msg ++ [BitVec.ofNat 8 suffix] ++ List.replicate (n - 2) 0#8 ++ [0x80#8]

/-- `n` output bytes of a sponge from byte `pos`. -/
def spongeOut (rate suffix : Nat) (msg : List Byte) (pos n : Nat) : List Byte :=
  let st := keccakAbsorb rate (List.replicate 25 0) (spongePad rate suffix msg)
  let blocks := (pos + n + rate - 1) / rate
  let r := (List.range blocks).foldl (fun (acc : List Byte × List Nat) _ => (acc.1 ++ (bytesOfLanes acc.2).take rate, keccakF acc.2)) ([], st)
  (r.1.drop pos).take n

/-- SHA3-512. -/
def sha3_512 (msg : List Byte) : List Byte := spongeOut 72 0x06 msg 0 64

/-- The modulus of the lattice arithmetic (R179). -/
def latQ : Nat := 8380417

/-- Modular power. -/
def powMod : Nat → Nat → Nat → Nat
  | 0, _, _ => 1
  | fuel + 1, b, e => if e = 0 then 1 else
      let h := powMod fuel (b * b % latQ) (e / 2)
      if e % 2 = 1 then h * b % latQ else h

/-- Bit reversal of 8 bits. -/
def brv8 (x : Nat) : Nat := sumB 8 x
where
  /-- Reverse the low `n` bits. -/
  sumB : Nat → Nat → Nat
    | 0, _ => 0
    | n + 1, x => (x % 2) * 2 ^ n + sumB n (x / 2)

/-- ζ = 1753 to the bit-reversed power (FIPS 204). -/
def latZeta (m : Nat) : Nat := powMod 10 1753 (brv8 m)

/-- One layer of the forward transform: blocks of 2·len with zetas from index m. -/
def nttLayer (len : Nat) (w : List Nat) : List Nat :=
  let m0 := 128 / len
  (List.range (128 / len)).flatMap fun b =>
    let z := latZeta (m0 + b)
    let lo := (w.drop (2 * len * b)).take len
    let hi := ((w.drop (2 * len * b + len)).take len).map fun x => z * x % latQ
    List.zipWith (fun a t => (a + t) % latQ) lo hi ++ List.zipWith (fun a t => (a + latQ - t) % latQ) lo hi

/-- One layer of the inverse transform. -/
def inttLayer (len : Nat) (w : List Nat) : List Nat :=
  let m0 := 256 / len - 1
  (List.range (128 / len)).flatMap fun b =>
    let z := (latQ - latZeta (m0 - b)) % latQ
    let lo := (w.drop (2 * len * b)).take len
    let hi := (w.drop (2 * len * b + len)).take len
    List.zipWith (fun a t => (a + t) % latQ) lo hi ++ List.zipWith (fun a t => z * ((a + latQ - t) % latQ) % latQ) lo hi

/-- The forward number-theoretic transform of 256 coefficients. -/
def latNtt (w : List Nat) : List Nat := [128, 64, 32, 16, 8, 4, 2, 1].foldl (fun w l => nttLayer l w) w
/-- The inverse transform. -/
def latIntt (w : List Nat) : List Nat :=
  ([1, 2, 4, 8, 16, 32, 64, 128].foldl (fun w l => inttLayer l w) w).map fun x => 8347681 * x % latQ

end Sys2Proof.Machine
end

