-- ==== Sys2Proof/Machine/Learn.lean ====
section
/-! DEFINITION. Learning and ageing: learn requests (R202–R205), activity updates and copy writes over the bridge (R190, R197),
scan passes (R207, R208) and conditional deletes (R209, R210). -/

namespace Sys2Proof.Machine

-- -------------------------------------------------------------------------------------------------- L2 entry fields

/-- The table of kind L2, if there is one (R189). -/
def State.l2Table (s : State) : Option Nat := firstIdx 64 fun n => decide (s.tblKind n = 6)

/-- PORT of an L2 data word (R201). -/
def l2Port (d : Nat) : Nat := bits d 0 11

/-- 8 µs units modulo 2^24 of the timeout count. -/
def State.t8us (s : State) : Nat := (s.now / (8 * usU)) % 16777216
/-- Milliseconds modulo 2^16. -/
def State.tms (s : State) : Nat := (s.now / msU) % 65536

/-- Bytes 24–31 of an L2 entry (R201). -/
def mkAux (cand : Nat) (pend : Bool) (moves gstart wstart : Nat) : Nat :=
  cand % 2048 + b2n pend * 2 ^ 11 + (moves % 16) * 2 ^ 12 + (gstart % 2 ^ 24) * 2 ^ 16 + (wstart % 2 ^ 16) * 2 ^ 40

/-- A learn notice (R317): 0 NEW, 1 MOVED, 2 PINNED. -/
def State.learnNotice (s : State) (p h : Nat) (key : List Byte) (port prev code : Nat) : State :=
  s.postEvent 1 0 p (sliceZ key 0 8 ++ leBytes 4 h ++ leBytes 4 (port + prev * 2 ^ 11 + code * 2 ^ 22))

/-- GUARD of L2_LCFG0. -/
def State.l2Guard (s : State) : Nat := s.rf R.l2Lcfg0 0 0 0 12
/-- MTHR. -/
def State.l2Mthr (s : State) : Nat := s.rf R.l2Lcfg0 0 0 12 4
/-- MWIN. -/
def State.l2Mwin (s : State) : Nat := s.rf R.l2Lcfg0 0 0 16 16

/-- An L2 entry of a lost panel's buckets has its guard and window expired (R190): GSTART and WSTART as far back as they
reach. -/
def State.expireL2 (s : State) (p : Nat) : State :=
  let x := s.tp p
  let g := (s.t8us + 16777216 - 4095) % 16777216
  let w := (s.tms + 65536 - 60000) % 65536
  let ents := x.ents.map fun e => if s.l2Table = some (hTable e.1)
    then (e.1, { e.2 with aux := setBits (setBits e.2.aux 16 24 g) 40 16 w }) else e
  s.setTp p { x with ents := ents }

-- ------------------------------------------------------------------------------------------------------- learning

/-- Write an entry that the engine of panel `p` changes, at its home (R190). -/
def State.putHome (s : State) (p h : Nat) (e : TblEntry) : State := s.putEnt (s.tblHome p (hIdx h)) h (some e)

/-- The request inserts the address (R204). -/
def State.learnNew (s : State) (p n : Nat) (r : LearnReq) : State :=
  match s.tblPlace p n r.key with
  | none => s.countP p 24
  | some h =>
    let e : TblEntry := { key := r.key, vmask := 15, data := r.port + 2 ^ 13, aux := mkAux 0 false 0 s.t8us s.tms }
    ((s.putHome p h e).newActivity (s.tblHome p (hIdx h)) h).learnNotice p h r.key r.port 0 0

/-- The request moves the address, outside its guard (R204, R205). -/
def State.learnMove (s : State) (p h : Nat) (e : TblEntry) (port : Nat) : State :=
  let expired := decide (s.l2Mwin ≤ (s.tms + 65536 - bits e.aux 40 16) % 65536)
  let wstart := if expired then s.tms else bits e.aux 40 16
  let moves := min (if expired then 1 else bits e.aux 12 4 + 1) 15
  let pin := decide (s.l2Mthr ≤ moves)
  let data := setBit (setBits e.data 0 11 port) 12 pin
  let s := s.putHome p h { e with data := data, aux := mkAux 0 false moves s.t8us wstart }
  let s := (s.hitEnt p h e.key).learnNotice p h e.key port (l2Port e.data) 1
  if pin then ((s.learnNotice p h e.key port 0 2).countP p 29).countUnit p 4 5 else s

/-- The learn procedure of R204 on the engine of panel `p`. An overflow entry can have its home on the other panel (R190): the engine
reads and writes it there. -/
def State.learn (s : State) (p : Nat) (r : LearnReq) : State :=
  match s.l2Table with
  | none => s
  | some n =>
    match s.homeFind p n r.key (fun _ => true) with
    | none => s.learnNew p n r
    | some (h, e) =>
      let guarded := decide ((s.t8us + 16777216 - bits e.aux 16 24) % 16777216 < s.l2Guard)
      if l2Port e.data = r.port then
        let s := s.hitEnt p h r.key
        if guarded || !bit e.aux 11 then s else s.putHome p h { e with aux := setBit e.aux 11 false }
      else if bit e.data 11 || bit e.data 12 then s.countP p 28
      else if guarded then (s.putHome p h { e with aux := setBit (setBits e.aux 0 11 r.port) 11 true }).countP p 27
      else s.learnMove p h e r.port

/-- The home panel of a key of the L2 table before it has a place: that of its bucket (R203). -/
def State.learnHome (s : State) (p n : Nat) (key : List Byte) : Nat := s.tblHome p (s.tblBucket n key)

/-- Is it a learn request? -/
def L2Work.isSight : L2Work → Bool
  | .sight _ => true
  | _ => false

/-- The key of work of a learn engine. -/
def L2Work.key : L2Work → List Byte
  | .sight r => r.key
  | .insert _ k _ | .delete _ k | .modify _ k _ => k
  | .cdelete c => c.key

/-- A learn request is sent to the engine of its bucket's home panel, whose queue holds 1,024 (R202, R203). -/
def State.learnRequest (s : State) (p : Nat) (r : LearnReq) : State :=
  match s.l2Table with
  | none => s
  | some n =>
    let q := s.learnHome p n r.key
    let x := s.tp q
    if (x.learnQ.filter L2Work.isSight).length < 1024 then s.setTp q { x with learnQ := x.learnQ ++ [.sight r] } else s.countP q 25

-- --------------------------------------------------------------------------------------------- over the bridge

/-- ACTIVITY_UPDATE (R197): the oldest message of the other panel's activity stream is applied at home panel `panel`. An
update whose handle no longer holds the key is discarded. -/
def execActivityUpdate (panel : Nat) (s : State) : Host.Outcome State Fault Refusal :=
  let p := panel % 2
  let q := 1 - p
  match (s.tp q).stream with
  | [] => .next s
  | m :: rest =>
    if !s.joined then .next s
    else
      let s := s.setTp q { s.tp q with stream := rest }
      match m with
      | .hit h key pos epoch =>
        match SMap.find (s.tp p).ents h with
        | some e => if e.key = key && s.tblAge (hTable h) then .next (s.applyHit p h pos epoch) else .next s
        | none => .next s
      | .marker j =>
        .next (s.setTp p { s.tp p with cdels := (s.tp p).cdels.map fun c => if c.jrec = j then { c with ready := true } else c })

/-- REMOTE_COPY_WRITE (R190): the home panel `panel` writes the other copy of the entry it changed first, and the command
that changed it completes, unless it waits for a copy of another entry too. -/
def execRemoteCopyWrite (panel : Nat) (s : State) : Host.Outcome State Fault Refusal :=
  let p := panel % 2
  match (s.tp p).copyQ with
  | [] => .next s
  | c :: rest =>
    if !s.joined then .next s
    else
      let s := (s.setTp p { s.tp p with copyQ := rest }).putCopy (1 - p) c.handle c.entry
      match c.jrec with
      | some j => .next (if (s.tbl.a.copyQ ++ s.tbl.b.copyQ).any fun d => decide (d.jrec = some j) then s else s.finish j 0 c.result)
      | none => .next s

-- -------------------------------------------------------------------------------------------------------- scanning

/-- An idle candidate (R208). -/
def idleCand (h : Nat) (a : Activity) : List Byte :=
  leBytes 4 h ++ leBytes 4 (a.hitgen % 256) ++ leBytes 4 (a.pos % 2 ^ 32) ++ leBytes 4 (a.pos / 2 ^ 32 % 65536 + (a.epoch % 65536) * 65536)

/-- Would an IDLE event find its ring full (R317)? -/
def State.idleFull (s : State) : Bool := match s.eventRing 2 with | some r => s.ringFull r | none => false

/-- Visit one entry (R207): the state and its candidate, if it is idle. -/
def State.visit (s : State) (p h : Nat) : Option (List Byte) × State :=
  match SMap.find (s.tp p).ents h with
  | none => (none, s)
  | some e =>
    if s.tblKind (hTable h) = 6 && bit e.data 11 then (none, s)
    else
      let a := s.activity p h
      if a.hit then (none, s.setTp p { s.tp p with act := SMap.set (s.tp p).act {} h { a with hit := false } })
      else (some (idleCand h a), s)

/-- The pass goes on: three candidates make an event, which waits while the ring is full (the pass pauses). -/
def State.scanOn (s : State) (p : Nat) : List Nat → List (List Byte) → State
  | [], cands =>
    if cands.isEmpty then s.setTp p { s.tp p with scan := none, scanDue := some ((s.tp p).scanDue.getD s.now) }
    else if s.idleFull then s.setTp p { s.tp p with scan := some { todo := [], cands := cands } }
    else
      let s := s.postEvent 2 cands.length p cands.flatten
      s.setTp p { s.tp p with scan := none, scanDue := some ((s.tp p).scanDue.getD s.now) }
  | h :: todo, cands =>
    if 3 ≤ cands.length && s.idleFull then s.setTp p { s.tp p with scan := some { todo := h :: todo, cands := cands } }
    else
      let (s, cands) := if 3 ≤ cands.length then (s.postEvent 2 3 p cands.flatten, []) else (s, cands)
      let (c, s) := s.visit p h
      s.scanOn p todo (cands ++ c.toList)

/-- TBL_SCAN.PERIOD in time units. -/
def State.scanPeriod (s : State) : Nat := s.rf R.tblScan 0 0 0 16 * secU

/-- SCAN_PASS (R207): a pass that is due starts; one that is due while the pass before it runs waits for its end and is
counted as SCAN_OVERRUN. -/
def execScanPass (panel : Nat) (s : State) : Host.Outcome State Fault Refusal :=
  let p := panel % 2
  let x := s.tp p
  match x.scanDue with
  | none => .next s
  | some t =>
    if s.now < t || s.scanPeriod = 0 || !s.inService || !s.up p then .next s
    else if x.scan.isSome then .next ((s.setTp p { x with scanDue := none }).countP p 30)
    else
      let todo := (x.ents.filter fun e => s.tblAge (hTable e.1) && decide (s.tblHome p (hIdx e.1) = p)).map fun e => e.1
      let s := s.setTp p { x with scan := some { todo := todo }, scanDue := some (s.now + s.scanPeriod) }
      .next (s.scanOn p todo [])

/-- SCAN_RESUME (R207): a pass that paused on a full event ring goes on when the ring has room. -/
def execScanResume (panel : Nat) (s : State) : Host.Outcome State Fault Refusal :=
  let p := panel % 2
  match (s.tp p).scan with
  | none => .next s
  | some x => if s.idleFull || !s.inService || !s.up p then .next s else .next (s.scanOn p x.todo x.cands)

/-- The first pass of each panel is due PERIOD seconds after entry to RUN from CONFIG (R207). -/
def State.startScans (s : State) : State :=
  [0, 1].foldl (fun s p => s.setTp p { s.tp p with scan := none, scanDue := some (s.now + s.scanPeriod) }) s

/-- Leaving service stops a pass in progress, and the count starts afresh at the next entry to RUN (R207). -/
def State.stopScans (s : State) : State :=
  [0, 1].foldl (fun s p => s.setTp p { s.tp p with scan := none, scanDue := none }) s

-- -------------------------------------------------------------------------------------------------- conditional delete

/-- Checks 3–5 of R209 at the home panel: the status, and the entry freed on OK. -/
def State.cdelete (s : State) (p : Nat) (c : CdelReq) : State :=
  match SMap.find (s.tp p).ents c.handle with
  | none => s.finish c.jrec 0x02 []
  | some e =>
    if e.key ≠ c.key || e.vmask ≠ 15 then s.finish c.jrec 0x02 []
    else if (s.activity p c.handle).hitgen ≠ c.hitgen then s.finish c.jrec 0x06 []
    else s.putEnt p c.handle none (some c.jrec)

/-- CDELETE_DECIDE (R210): the home engine decides the first conditional delete whose marker has been reached; with the bridge
failed it completes each with NOT_READY (R190). -/
def execCdeleteDecide (panel : Nat) (s : State) : Host.Outcome State Fault Refusal :=
  let p := panel % 2
  match (s.tp p).cdels.find? fun c => c.ready || s.split with
  | none => .next s
  | some c =>
    let t := s.setTp p { s.tp p with cdels := (s.tp p).cdels.filter fun d => decide (d.jrec ≠ c.jrec) }
    .next (if s.split then t.finish c.jrec 0x04 [] else t.cdelete p c)

/-- A conditional delete that passed checks 1 and 2 goes to the home engine (R210): a marker is posted into the other panel's
activity stream; with one panel, or a handle that names no home, it is decided at once. -/
def State.startCdelete (s : State) (p : Nat) (c : CdelReq) : State :=
  if s.joined then
    let home := s.tblHome p (hIdx c.handle)
    let s := s.setTp home { s.tp home with cdels := (s.tp home).cdels ++ [c] }
    s.setTp (1 - home) { s.tp (1 - home) with stream := (s.tp (1 - home)).stream ++ [.marker c.jrec] }
  else s.cdelete (s.tblHome p (hIdx c.handle)) c

-- ------------------------------------------------------------------------------------- host commands and the queue

/-- Kinds of table commands by what R91 and R196 have them do. -/
inductive TblOp where
  | insert | delete | modify
  deriving DecidableEq, Repr

/-- Result bytes of a table command: the handle at R20. -/
def handleBytes (h : Nat) : List Byte := leBytes 4 h

/-- Insert an entry under a mask (R193), or TABLE_FULL. -/
def State.insertEnt (s : State) (rec n : Nat) (e : TblEntry) : State :=
  match s.tblPlace (s.tblHome 0 (s.tblBucket n e.key)) n e.key with
  | none => s.finish rec 0x03 []
  | some h =>
    let home := s.tblHome 0 (hIdx h)
    (s.newActivity home h).putEnt home h (some e) (some rec) (handleBytes h)

/-- An unversioned operation on an exact-match or L2 table (R91, R196, R206). -/
def State.unversioned (s : State) (o : TblOp) (rec n : Nat) (key : List Byte) (data : Nat) : State :=
  let l2 := decide (s.tblKind n = 6)
  let aux := if l2 then mkAux 0 false 0 s.t8us s.tms else 0
  match o with
  | .insert =>
    if (s.homeFind 0 n key fun _ => true).isSome then s.finish rec 0x01 []
    else s.insertEnt rec n { key := key, vmask := 15, data := data, aux := aux }
  | _ => match s.homeFind 0 n key fun e => decide (e.vmask = 15) with
    | none => s.finish rec 0x02 []
    | some (h, e) =>
      let home := s.tblHome 0 (hIdx h)
      if o = .delete then s.putEnt home h none (some rec) (handleBytes h)
      else s.putEnt home h (some { e with data := if l2 then setBit data 13 (bit e.data 13) else data, aux := aux }) (some rec) (handleBytes h)

/-- Is a bucket of the L2 table `n` held by a conditional delete that is not decided (R203)? -/
def State.bucketHeld (s : State) (n b : Nat) : Bool :=
  (s.tbl.a.cdels ++ s.tbl.b.cdels).any fun c => decide (hTable c.handle = n) && decide (s.tblBucket n c.key = b)

/-- Must a host command for a bucket of the L2 table wait behind work that came before it (R203, R206)? -/
def State.l2Waits (s : State) (n b : Nat) : Bool :=
  s.bucketHeld n b || (s.tbl.a.learnQ ++ s.tbl.b.learnQ).any fun w => decide (s.tblBucket n w.key = b)

/-- A host command takes its place in the queue of its bucket's engine (R206). -/
def State.queueL2 (s : State) (n : Nat) (key : List Byte) (w : L2Work) : State :=
  let q := s.learnHome 0 n key
  s.setTp q { s.tp q with learnQ := (s.tp q).learnQ ++ [w] }

/-- The engine of panel `p` handles one piece of work on the L2 table `n` (R204, R206); while the panels are split, a host command
completes with NOT_READY (R190). -/
def State.l2Work (s : State) (p n : Nat) : L2Work → State
  | .sight r => s.learn p r
  | .insert j k d => if s.split then s.finish j 0x04 [] else s.unversioned .insert j n k d
  | .delete j k => if s.split then s.finish j 0x04 [] else s.unversioned .delete j n k 0
  | .modify j k d => if s.split then s.finish j 0x04 [] else s.unversioned .modify j n k d
  | .cdelete c => if s.split then s.finish c.jrec 0x04 [] else s.startCdelete 0 c

/-- LEARN (R203, R204): the learn engine of a panel takes the oldest work of its queue whose bucket no conditional delete holds. -/
def execLearn (panel : Nat) (s : State) : Host.Outcome State Fault Refusal :=
  let p := panel % 2
  match s.l2Table with
  | none => .next s
  | some n =>
    match (s.tp p).learnQ.find? fun w => !s.bucketHeld n (s.tblBucket n w.key) with
    | none => .next s
    | some w => if s.up p then .next ((s.setTp p { s.tp p with learnQ := (s.tp p).learnQ.erase w }).l2Work p n w) else .next s

end Sys2Proof.Machine
end

