-- ==== Sys2Proof/Machine/Parser.lean ====
section
/-! DEFINITION. The Chart Reader: the parse graph and its limits (R75–R84), classification and merging (R85–R89), and cast-on
(R98, R103, R118, R202). -/

namespace Sys2Proof.Machine

/-- The listed words `[lo, lo + n)` of a chart bank, by offset from `lo`, in ascending order; unlisted words are zero. -/
def State.bankRange (s : State) (slot lo n : Nat) : List (Nat × Nat) :=
  (s.chr.words.filter fun e => decide (slot * 4096 + lo ≤ e.1) && decide (e.1 < slot * 4096 + lo + n)).map fun e => (e.1 - (slot * 4096 + lo), e.2.toNat)

/-- A field-table entry (R77): its index, HOFF, BYTES and KOFF. -/
structure FieldEnt where
  idx : Nat
  hoff : Nat
  n : Nat
  koff : Nat

/-- The enabled field-table entries of a parse state. -/
def State.fieldsOf (s : State) (slot st : Nat) : List FieldEnt :=
  (s.bankRange slot (0x2800 / 4) 64).filterMap fun e =>
    if bit e.2 31 && decide (bits e.2 0 8 = st) then some { idx := e.1, hoff := bits e.2 8 6, n := bits e.2 16 4 + 1, koff := bits e.2 24 7 } else none

/-- The next state for a select value (R76 step 6). -/
def State.nextState (s : State) (slot st sel : Nat) : Nat :=
  let w0 (i : Nat) : Nat := (s.bankW slot (0x800 / 4 + 2 * i)).toNat
  let hit := (s.bankRange slot (0x800 / 4) 2048).find? fun e =>
    decide (e.1 % 2 = 1) && bit e.2 16 && decide (bits (w0 (e.1 / 2)) 0 8 = st) && decide (sel &&& bits e.2 0 16 = bits (w0 (e.1 / 2)) 16 16 &&& bits e.2 0 16)
  match hit with
  | some e => bits (w0 (e.1 / 2)) 8 8
  | none => bits (s.bankW slot (2 * st)).toNat 8 8

/-- What a pass has gathered. -/
structure Parsed where
  key : List Byte := List.replicate 128 0#8
  src : SMap Nat := []            -- key byte: the frame offset it came from, plus 1
  present : Nat := 0
  exc : Nat := 0
  frag : Bool := false
  layers : List Nat := []
  vlans : Nat := 0
  labels : Nat := 0
  ip6 : Option (Nat × Nat) := none  -- offset and payload length of the nearest IPV6 header

/-- Set an exception flag. -/
def Parsed.flag (x : Parsed) (n : Nat) : Parsed := { x with exc := setBit x.exc n true }

/-- Extract a field of a header at `pos` of length `len` (R77). -/
def Parsed.extract (x : Parsed) (fr : List Byte) (pos len : Nat) (f : FieldEnt) : Parsed :=
  if f.hoff + f.n ≤ len && decide (pos + f.hoff + f.n ≤ fr.length) then
    { x with
      key := overlay x.key (sliceZ fr (pos + f.hoff) f.n) f.koff
      src := (List.range f.n).foldl (fun m i => SMap.put m (f.koff + i) (pos + f.hoff + i + 1)) x.src
      present := setBit x.present f.idx true }
  else x

/-- Key bytes that came from the frame offsets `v` are presented as zero (R83). -/
def Parsed.hide (x : Parsed) (v : List Nat) : Parsed :=
  { x with key := x.src.foldl (fun k e => if v.contains (e.2 - 1) then lset k e.1 0#8 else k) x.key }

/-- The Internet checksum of an IPv4 header is right when the ones' complement sum of its 16-bit words is all ones. -/
def ip4SumOk (hdr : List Byte) : Bool :=
  let sum := sumN ((List.range (hdr.length / 2)).map fun i => etherAt hdr (2 * i))
  decide (sum ≠ 0) && decide (sum % 65535 = 0)

/-- What the checks of R82 and R83 find in a header. -/
structure HdrCheck where
  exc : List Nat := []
  stop : Bool := false
  before : Bool := false                    -- stops before the header
  frag : Option (Bool × List Nat) := none   -- FRAG_FIRST and the frame offsets presented as zero
  ip6 : Option (Nat × Nat) := none

/-- The checks of R82 and R83 for a header of a kind at `pos`. -/
def checkHdr (fr : List Byte) (kind pos : Nat) (ip6 : Option (Nat × Nat)) : HdrCheck :=
  let be (o n : Nat) : Nat := beVal (sliceZ fr (pos + o) n)
  match kind with
  | 1 => if envFieldsOk (fr.drop pos) then {} else { exc := [10], stop := true, before := true }
  | 5 =>
    let ihl := be 0 1 % 16
    let tl := be 2 2
    let bad := decide (be 0 1 / 16 ≠ 4) || decide (ihl < 5) || decide (tl < ihl * 4) || decide (fr.length < pos + tl)
    let fo := be 6 2
    let off := fo % 8192
    let exc := (if bad then [6] else []) ++ (if ip4SumOk (sliceZ fr pos (ihl * 4)) then [] else [7]) ++ (if 65535 + ihl * 4 < off * 8 + tl then [9] else [])
    { exc := exc, stop := bad,
      frag := if bit fo 13 || off ≠ 0 then some (decide (off = 0), [2, 3, 6, 7, 10, 11].map fun o => pos + o) else none }
  | 6 =>
    let pl := be 4 2
    { exc := if be 0 1 / 16 ≠ 6 || pl = 0 || fr.length < pos + 40 + pl then [8] else [],
      stop := decide (be 0 1 / 16 ≠ 6) || decide (pl = 0) || decide (fr.length < pos + 40 + pl), ip6 := some (pos, pl) }
  | 19 =>
    let fw := be 2 2
    let off := fw / 8
    if bit fw 0 || off ≠ 0 then
      let end_ := match ip6 with | some (o, l) => o + 40 + l | none => fr.length
      { exc := if 65535 < off * 8 + (end_ - (pos + 8)) then [9] else [],
        frag := some (decide (off = 0), [pos + 2, pos + 3] ++ (match ip6 with | some (o, _) => [o + 4, o + 5] | none => [])) }
    else {}
  | _ => {}

/-- The parse of a frame from a state and an offset; `n` is the number of state visits left of the 64 (R76, R81). A header at which a limit ends
the parse is not examined by the checks of R82 (log entry 91). -/
def State.parseFrom (s : State) (slot : Nat) (fr : List Byte) (st pos : Nat) (x : Parsed) : Nat → Parsed
  | 0 => x.flag 5
  | n + 1 =>
    let w0 := (s.bankW slot (2 * st)).toNat
    let w1 := (s.bankW slot (2 * st + 1)).toNat
    let mode := bits w0 24 2
    let kind := bits w0 26 6
    let layer := bit w1 24
    let lo := pos + bits w1 0 6
    let lf := (byteAt fr lo).toNat
    let len := match mode with
      | 0 => bits w0 16 8
      | 1 => (if bit w1 6 then lf % 16 else lf) * 2 ^ bits w1 8 3 + bits w1 16 8
      | _ => 0
    if mode = 1 && decide (fr.length ≤ lo) then x.flag 0
    else if fr.length < pos + len then x.flag 0
    else if bits (s.bankW slot (0x3108 / 4)).toNat 0 10 < pos + len then x.flag 1
    else if layer && decide (16 ≤ x.layers.length) then x.flag 2
    else if kind = 3 && decide (4 ≤ x.vlans) then x.flag 3
    else if kind = 4 && decide (4 ≤ x.labels) then x.flag 4
    else
      let c := checkHdr fr kind pos x.ip6
      let x := c.exc.foldl (fun x e => x.flag e) x
      if c.before then x
      else
        let ent := pos % 1024 + kind * 2 ^ 10 + st * 2 ^ 16 + (match c.frag with | some (first, _) => 2 ^ 24 + b2n first * 2 ^ 25 | none => 0)
        let x := { x with
          layers := if layer then x.layers ++ [ent] else x.layers
          vlans := if kind = 3 then x.vlans + 1 else x.vlans
          labels := if kind = 4 then x.labels + 1 else x.labels
          ip6 := if c.ip6.isSome then c.ip6 else x.ip6 }
        let x := (s.fieldsOf slot st).foldl (fun x f => x.extract fr pos len f) x
        match c.frag with
        | some (_, v) => { x.hide v with frag := true }
        | none =>
          if c.stop || mode = 2 then x
          else
            let so := pos + bits w0 0 6
            let sw := if bit w0 6 then 2 else 1
            if fr.length < so + sw then x.flag 0
            else s.parseFrom slot fr (s.nextState slot st (beVal (sliceZ fr so sw))) (pos + len) x n

/-- The start state of a pass (R75). -/
def State.startState (s : State) (slot port : Nat) : Nat :=
  let w := (s.bankW slot (0x3100 / 4)).toNat
  let w2 := (s.bankW slot (0x3104 / 4)).toNat
  if 800 ≤ port && port < 1024 then bits w 8 8
  else match port with
    | 1024 => bits w 16 8 | 1025 => bits w 24 8 | 1026 => bits w2 0 8 | 1027 => bits w2 8 8 | _ => bits w 0 8

/-- The key area of a pass (R79). -/
def Parsed.area (x : Parsed) (ingress pass vgen : Nat) : List Byte :=
  leBytes 4 (ingress % 2048 + (pass % 4) * 2 ^ 11 + (vgen % 65536) * 65536) ++
  leBytes 4 (x.layers.length + 256 * b2n x.frag + x.exc * 65536) ++ leBytes 8 x.present ++ sliceZ x.key 16 112

-- ------------------------------------------------------------------------------------------------- classification

/-- The lookup key of a slot (R85). -/
def State.slotKey (s : State) (slot b : Nat) (area : List Byte) (width : Nat) : List Byte :=
  let seg (w lo : Nat) : List Byte := let v := (s.bankW slot (b + w)).toNat; sliceZ area (bits v lo (if lo = 0 then 7 else 8)) (bits v (lo + 8) 7)
  let raw := sliceZ (seg 1 0 ++ seg 1 16 ++ seg 2 0 ++ seg 2 16) 0 width
  raw.zipIdx.map fun e => e.1 &&& BitVec.ofNat 8 (bits (s.bankW slot (b + 6 + e.2 / 4)).toNat (8 * (e.2 % 4)) 8)

/-- One lookup slot (R85, R86): the record it hit, and whether its engine could not serve it. -/
def State.slotLook (s : State) (p vgen i : Nat) (area : List Byte) : Option (Nat × TblEntry) × Bool :=
  let slot := vgen % 4
  let b := 0x2900 / 4 + 32 * i
  let w0 := (s.bankW slot b).toNat
  let req := (s.bankW slot (b + 4)).toNat + (s.bankW slot (b + 5)).toNat * 2 ^ 32
  let n := bits w0 8 6
  if !bit w0 0 || leVal (sliceZ area 8 8) &&& req ≠ req || !isEm (s.tblKind n) || !s.tblRule n then (none, false)
  else if !s.tblOk p n then (none, true)
  else (s.tblFind p n vgen (s.slotKey slot b area (keyWidth (s.tblKind n))), false)

/-- The groups of R88: the V_ bit and the field's place. -/
def groups : List (Nat × Nat × Nat) := [(0, 8, 13), (1, 40, 12), (2, 21, 5), (3, 26, 14), (4, 52, 4)]

/-- The merge of R88 over the hits in order of precedence: the record built so far and the groups taken. -/
def mergeHits : List Nat → Nat → Nat → Nat × Nat
  | [], res, taken => (res, taken)
  | a :: rest, res, taken =>
    let (res, taken) := groups.foldl (fun (acc : Nat × Nat) g =>
      if bit a g.1 && !bit acc.2 g.1 then (setBits acc.1 g.2.1 g.2.2 (bits a g.2.1 g.2.2), setBit acc.2 g.1 true) else acc) (res, taken)
    if bit a 5 then (res, taken) else mergeHits rest res taken

/-- The merged record (R88). -/
def mergeRec (def_ : Nat) (hits : List Nat) (ingress pass odom : Nat) : Nat :=
  let (res, taken) := mergeHits hits def_ 0
  let own := bit taken 3 || bit def_ 3
  let od := if 1 < pass then odom else if own then bits res 26 14 else ingress * 8 + bits res 21 3
  let res := setBits res 26 14 od
  let mir := bit taken 4 || bit def_ 4
  setBits (setBits (setBits (if mir then res else setBits res 52 4 0) 0 8 0) 56 8 0) 0 5 (15 + 16 * b2n mir)

/-- Classification (R85–R88) on panel `p`: the state with the hits' activity, whether LKP_FAIL is set, and the merged record. -/
def State.classify (s : State) (p vgen ingress pass odom : Nat) (area : List Byte) : State × Bool × Nat :=
  let slot := vgen % 4
  let looks := (List.range 16).map fun i => (i, s.slotLook p vgen i area)
  let prec (i : Nat) : Nat := bits (s.bankW slot (0x2900 / 4 + 32 * i)).toNat 4 4
  let hits := (List.range 16).flatMap fun q => looks.filterMap fun e => if prec e.1 = q then e.2.1 else none
  let s' := hits.foldl (fun s h => s.hitEnt p h.1 h.2.key) s
  let def_ := (s.bankW slot (0x310C / 4 + 1)).toNat + (s.bankW slot (0x310C / 4 + 2)).toNat * 2 ^ 32
  (s', looks.any (fun e => e.2.2), mergeRec def_ (hits.map fun h => h.2.data) ingress pass odom)

-- ----------------------------------------------------------------------------------------------------------- cast-on

/-- The list of a class on a panel (R103): the next course of CASTMASK with the list enabled, after the one chosen last. -/
def State.castList (s : State) (p cls : Nat) (rr : SMap Nat) : Option Nat :=
  let mask := (s.rd R.carCls p cls).toNat
  let last := SMap.get rr 0 (p * 128 + cls)
  (rotateAfter (List.range 4) last).find? (fun c => bit mask c && s.listEn (128 * (4 * p + c) + cls))

/-- The learn request of a first pass (R202). -/
def State.castLearn (s : State) (p ingress : Nat) (area : List Byte) : State :=
  let c := (s.rd R.l2Lcfg1 0 0).toNat
  let field (f : Nat) : Option (List Byte) :=
    let w := (s.bankW (leVal (sliceZ area 2 2) % 4) (0x2800 / 4 + f)).toNat
    if bit (leVal (sliceZ area 8 8)) f then some (sliceZ area (bits w 24 7) (bits w 16 4 + 1)) else none
  if !bit c 6 || decide (1024 ≤ ingress) || !bit (s.rd R.l2Plrn 0 (ingress / 32)).toNat (ingress % 32) then s
  else match field (bits c 0 6) with
    | none => s
    | some mac =>
      if bit (byteAt mac 0).toNat 0 then s
      else
        let vid := if bit c 14 then (match field (bits c 8 6) with | some v => beVal (sliceZ v 0 2) % 4096 | none => 0) else 0
        s.learnRequest p { key := sliceZ mac 0 6 ++ leBytes 2 vid, port := ingress }

/-- A marker is assigned at cast-on of a first pass (R98): the state and the marker, or none when the window is full. -/
def State.assignMarker (s : State) (p d vgen : Nat) (v : Slot) : Option Nat × State :=
  let o := s.od p d
  if (o.next + 65536 - o.head) % 65536 < 512 then
    (some o.next, s.setOd p d { o.setSlot o.next v with next := (o.next + 1) % 65536, gens := SMap.put o.gens o.next vgen })
  else (none, s)

/-- The class of a program on a panel (R103). -/
def State.progClass (s : State) (p prog : Nat) : Nat := s.rf R.carPmap p prog 0 7

/-- Cast-on of a first pass (R89, R98, R103, R104, R202). -/
def State.castOn (s : State) (p : Nat) (w : WorkItem) (early : Bool) : State :=
  let drop := decide (bits w.action 8 2 = 1)
  if drop && early then s.countP p 11
  else
    let d := bits w.action 26 14
    match s.assignMarker p d w.vgen (if drop then .drop (some 11) else .pending) with
    | (none, s) => s.countP p 13
    | (some m, s) =>
      let w := { w with marker := m, odom := d, ord := true }
      if drop then s.advanceHead p d
      else
        let s := s.castLearn p w.ingress w.keyArea
        let cls := s.progClass p (bits w.action 40 12)
        match s.castList p cls s.car.castRr with
        | none => s.dropMark w 15
        | some c =>
          let s := { s with car := { s.car with castRr := SMap.set s.car.castRr 0 (p * 128 + cls) (c + 1) } }
          match s.appendItem { w with list := 128 * (4 * p + c) + cls } with
          | some s => s
          | none => s.dropMark w 14

/-- A recirculated frame leaves its next pass as a drop (R90, R118): its slot becomes DROP and the lifeline is freed. -/
def State.recircDrop (s : State) (k cause : Nat) : State :=
  let w := (s.ll k).item
  (s.freeLl k).dropMark w cause

/-- Cast-on of a later pass (R118): the item re-enters the list that its new program gives, still holding its lifeline. Its key area,
layer table and merged action record are the new pass's; the egress descriptor and the metadata stay as the last pass committed
them (R111). -/
def State.castAgain (s : State) (k : Nat) (frame area layers : List Byte) (action : Nat) : State :=
  let l := s.ll k
  let p := k / 4096
  if bits action 8 2 = 1 then s.recircDrop k 11
  else
    let cls := s.progClass p (bits action 40 12)
    match s.castList p cls s.car.recircRr with
    | none => s.recircDrop k 15
    | some c =>
      let s := { s with car := { s.car with recircRr := SMap.set s.car.recircRr 0 (p * 128 + cls) (c + 1) } }
      let w := { l.item with list := 128 * (4 * p + c) + cls, pass := l.item.pass + 1, attempt := 1, replay := false, ll := some k, length := frame.length, keyArea := area, layers := layers, action := action }
      let l := { l with state := .queued, item := w, keyArea := area, layers := layers, action := action, frame := frame, frame0 := frame, strand := none }
      (s.setLl k l).requeue w

-- ---------------------------------------------------------------------------------------------------------- the pass

/-- The lowest bit of `v` among the first 11. -/
def lowBit (v : Nat) : Option Nat := firstIdx 11 fun i => bit v i

/-- A parser's pass over a frame (R76, R84, R89). -/
def State.parse (s : State) (p : Nat) (x : ParseItem) : State :=
  let again := x.ll.map fun k => ((s.ll k).item, k)
  let vgen := match again with | some (w, _) => w.vgen | none => s.chr.curGen
  let pass := match again with | some (w, _) => w.pass + 1 | none => 1
  let slot := vgen % 4
  let r := s.parseFrom slot x.frame (s.startState slot x.port) 0 {} 64
  let s := match x.work with | some j => s.finish j 0 [] | none => s
  match lowBit (r.exc &&& (s.bankW slot (0x310C / 4)).toNat) with
  | some n => (match again with
    | some (_, k) => s.recircDrop k n
    | none => s.countP p n)
  | none =>
    let odom := match again with | some (w, _) => w.odom | none => 0
    let (s, fail, action) := s.classify p vgen x.ingress pass odom (r.area x.ingress pass vgen)
    let area := ({ r with exc := setBit r.exc 11 fail }).area x.ingress pass vgen
    let layers := sliceZ (r.layers.flatMap fun e => leBytes 4 e) 0 64
    match again with
    | some (_, k) => s.castAgain k x.frame area layers action
    | none =>
      let w : WorkItem := { kind := .frame, attempt := 1, pass := 1, buf := (x.cells.head?.map fun c => cellAddr p c).getD 0, cells := x.cells, length := x.frame.length, vgen := vgen, ingress := x.ingress, caston := s.tcount, born := s.now, panel := p, frame := x.frame, keyArea := area, layers := layers, action := action, stamp := x.stamp, cellsR := x.cellsR, cellsS := x.cellsS, rx := x.rx }
      (s.putDescriptor p w).castOn p w (bit (s.bankW slot (0x3108 / 4)).toNat 12)

/-- PARSE_PASS (R76): a parser of a panel takes the frame that waits longest. One released by the bind-off timeout in
recirculation is discarded there (R114). -/
def execParsePass (panel parser : Nat) (s : State) : Host.Outcome State Fault Refusal :=
  let p := panel % 2
  match SMap.get s.swt.parseQ [] p with
  | [] => .next s
  | x :: rest =>
    if !s.up p || s.isFenced p 8 (4 * p + parser % 4) then .next s
    else
      let s := { s with swt := { s.swt with parseQ := SMap.set s.swt.parseQ [] p rest } }
      if x.dead then .next s else .next (s.parse p x)

end Sys2Proof.Machine
end

