-- ==== Sys2Proof/Machine/Ports.lean ====
section
/-! DEFINITION. The external ports (ch. 3): links (R49), reception (R426), T1S source binding (R57), the envelopes of CAN and
LIN (R61–R66), and LIN responses (R62). -/

namespace Sys2Proof.Machine

-- ---------------------------------------------------------------------------------------------------- REC_MON

/-- Is a port and class monitored by the Row Counter (R391)? -/
def State.monitored (s : State) (port tc : Nat) : Bool :=
  (List.range 128).any fun m => s.rb R.recMon 0 m 19 && decide (s.rf R.recMon 0 m 0 11 = port) && s.rb R.recMon 0 m (11 + tc)

/-- Is a port monitored? -/
def State.monitoredPort (s : State) (port : Nat) : Bool :=
  (List.range 128).any fun m => s.rb R.recMon 0 m 19 && decide (s.rf R.recMon 0 m 0 11 = port)

-- ---------------------------------------------------------------------------------------------------------- links

/-- The port whose UP condition a port follows: a node-port's segment port (R425). -/
def linkPort (p : Nat) : Nat := if 32 ≤ p && p < 800 then segPort p else p

/-- The ports that share a link: a segment port and its node-ports. -/
def linkGroup (p : Nat) : List Nat := if 32 ≤ p && p < 800 then (List.range 8).map fun k => segPort p + k else [p]

/-- Set whether a port's own UP condition is met (R49). -/
def State.setCond (s : State) (p : Nat) (v : Bool) : State :=
  let atReset := !decide (p < 32)
  { s with swt := { s.swt with link := SMap.set s.swt.link false p (v != atReset) } }

/-- The frames queued to a port are dropped as LINK_DOWN (R49); a CAN frame whose attempts have begun is TX_ABANDON (R61). -/
def State.dropQueues (s : State) (port : Nat) : State :=
  let s := match SMap.find s.swt.canTx port with
    | none => s
    | some c =>
      let s := (s.forgetFrame c.frame).countPort port 8
      { s with swt := { s.swt with canTx := SMap.del s.swt.canTx port } }
  let l := (List.range 8).flatMap fun tc => s.queue (portPanel port) port tc
  l.foldl (fun s n => s.dropQueued n) s

/-- A port leaves UP (R49): WENT_DOWN, its queued frames are dropped, and a frame that a gate preempted is not resumed. -/
def State.leaveUp (s : State) (p : Nat) : State :=
  (linkGroup p).foldl (fun s q => if s.linkOf q = .up
    then
      let s := s.dropQueues q
      let tx := SMap.set s.swt.tx [] q ((SMap.get s.swt.tx [] q).filter fun x => x.cut.isNone)
      { s with swt := { s.swt with wentDown := SMap.set s.swt.wentDown false q true, verified := SMap.set s.swt.verified false q false, tx := tx } }
    else s) s

/-- A port's own UP condition fails. -/
def State.condDown (s : State) (p : Nat) : State := (s.leaveUp p).setCond p false

/-- PORT_LINK_DOWN (R49): an Ethernet port loses link or block lock, a T1S PHY reports a fault, a CAN port enters bus-off. -/
def execPortLinkDown (port : Nat) (s : State) : Host.Outcome State Fault Refusal :=
  let p := linkPort port
  if 960 ≤ p || !s.condUp p then .next s else .next (s.condDown p)

/-- PORT_LINK_UP (R49): an Ethernet port regains link, with the rate that USXGMII or SGMII resolved (R71), or a T1S PHY no
longer reports a fault. -/
def execPortLinkUp (port rate : Nat) (s : State) : Host.Outcome State Fault Refusal :=
  let p := linkPort port
  if 800 ≤ p || s.condUp p then .next s
  else
    let m := s.portModeOf p
    let s := s.setCond p true
    let sub := 4 ≤ p && p < 32 && ((m = 2 && rate ≤ 5) || (m = 4 && 3 ≤ rate && rate ≤ 5))
    .next (if sub then { s with swt := { s.swt with rate := SMap.set s.swt.rate 0 p rate } } else s)

/-- LIN_DOMINANT_TIMEOUT (R49): the bus of a LIN port has been dominant for longer than 100 ms. -/
def execLinDominantTimeout (port : Nat) (s : State) : Host.Outcome State Fault Refusal :=
  if port < 960 || 1024 ≤ port || !s.condUp port then .next s else .next (s.condDown port)

/-- LIN_RECESSIVE_RECOVERY (R49): the bus of a DOWN LIN port has been recessive for 10 ms. -/
def execLinRecessiveRecovery (port : Nat) (s : State) : Host.Outcome State Fault Refusal :=
  if port < 960 || 1024 ≤ port || s.condUp port then .next s else .next (s.setCond port true)

/-- CAN_BUSOFF_RECOVERY (R49): 128 occurrences of 11 recessive bits have passed on a bus-off CAN port. -/
def execCanBusoffRecovery (port : Nat) (s : State) : Host.Outcome State Fault Refusal :=
  if port < 800 || 960 ≤ port || s.condUp port then .next s else .next (s.setCond port true)

-- --------------------------------------------------------------------------------------------------- source binding

/-- A node-port's bound source in a slot (R57). -/
def State.boundAt (s : State) (p i : Nat) : Option Nat := match SMap.get s.swt.bound 0 (p * 2 + i) with | 0 => none | n + 1 => some n

/-- Write a source slot. -/
def State.setBound (s : State) (p i : Nat) (a : Option Nat) : State :=
  { s with swt := { s.swt with bound := SMap.set s.swt.bound 0 (p * 2 + i) (match a with | some x => x + 1 | none => 0) } }

/-- The node-port other than `p` on its panel that holds a source. -/
def State.boundElse (s : State) (p a : Nat) : Option Nat :=
  (s.swt.bound.find? fun e => decide (e.2 = a + 1) && decide (e.1 / 2 ≠ p) && decide (portPanel (e.1 / 2) = portPanel p)).map fun e => e.1 / 2

/-- A SPOOF event, at most one per node-port per 1 ms (R57, R317). -/
def State.spoofEvent (s : State) (p q : Nat) (src : List Byte) : State :=
  let last := SMap.get s.swt.spoofAt 0 p
  if last ≠ 0 && s.now < last - 1 + msU then s
  else
    let s := { s with swt := { s.swt with spoofAt := SMap.set s.swt.spoofAt 0 p (s.now + 1) } }
    s.postEvent 3 0 (portPanel p) (leBytes 4 (p + q * 2048) ++ sliceZ src 0 6)

/-- The table of R57: the state, and whether the frame is accepted. -/
def State.bindCheck (s : State) (p : Nat) (bs : List Byte) : State × Bool :=
  let src := sliceZ bs 6 6
  let a := leVal src
  let mode := s.rf R.npCfg 0 (p - 32) 1 2
  if bit (byteAt src 0).toNat 0 then (s.countPort p 4, false)
  else if s.boundAt p 0 = some a || s.boundAt p 1 = some a then (s, true)
  else match s.boundElse p a with
    | some q => ((s.countPort p 5).spoofEvent p q src, false)
    | none =>
      if mode = 0 then (s, true)
      else match if mode = 1 then firstIdx 2 fun i => (s.boundAt p i).isNone else none with
        | some i => (s.setBound p i (some a), true)
        | none => (s.countPort p 6, false)

-- ------------------------------------------------------------------------------------------------------- reception

/-- PRT_CFG.TSDOM. -/
def State.tsDom (s : State) (p : Nat) : Nat := s.rf R.prtCfg 0 p 21 4

/-- The envelope of a received CAN frame (R64, R65), or none where no CAN frame has those fields. -/
def canEnv (port kind : Nat) (ide rtr sec : Bool) (id : Nat) (brs esi : Bool) (sdt vcid af len : Nat) (data : List Byte) (stamp : HWord) : Option (List Byte) :=
  let n := if kind = 0 then min len 8 else len
  let ident := (if ide then id % 2 ^ 29 else id % 2 ^ 11) + b2n ide * 2 ^ 29
  let w1 := match kind with
    | 0 => ident + b2n rtr * 2 ^ 30
    | 1 => ident
    | _ => id % 2048 + b2n rtr * 2 ^ 11 + b2n sec * 2 ^ 12 + (sdt % 256) * 2 ^ 16 + (vcid % 256) * 2 ^ 24
  let w3 := n + (if kind = 1 then b2n brs * 2 ^ 12 + b2n esi * 2 ^ 13 else 0)
  if 3 ≤ kind || !envLenOk kind n then none
  else some ((mkEnv kind port w1 (if kind = 2 then af else 0) w3).take 16 ++ leBytes 16 stamp.toNat ++
    (if kind = 0 && rtr then [] else sliceZ data 0 n))

/-- STATUS codes of R63. -/
def linCode : LinStatus → Nat
  | .ok => 0 | .noResponse => 1 | .partialResponse => 2 | .checksumErr => 3 | .parityErr => 4 | .bitErr => 5 | .syncErr => 6

/-- The checksum of a LIN response (ISO 17987): the inverted sum with carry of the data bytes, and with the protected identifier for the
enhanced kind. -/
def linSum (enhanced : Bool) (pid : Nat) (data : List Byte) : Byte :=
  let add (a b : Nat) : Nat := (a + b) % 256 + (a + b) / 256
  ~~~ BitVec.ofNat 8 (data.foldl (fun a b => add a b.toNat) (if enhanced then pid else 0))

/-- The outcome of a response from a remote node (R63): no byte, no checksum byte, a wrong one, or the right one. -/
def linOutcome (enhanced : Bool) (pid : Nat) (data : List Byte) (checksum : Option Byte) : LinStatus :=
  if data.isEmpty then .noResponse
  else match checksum with
    | none => .partialResponse
    | some c => if c = linSum enhanced pid data then .ok else .checksumErr

/-- The envelope of a LIN frame seen on the bus (R63, R64): LEN is 0 after a parity or sync error, and after no response. -/
def linEnv (port : Nat) (status : LinStatus) (fid : Nat) (enhanced own : Bool) (data : List Byte) (stamp : HWord) : List Byte :=
  let n := if status = .noResponse || status = .parityErr || status = .syncErr then 0 else min data.length 8
  leBytes 4 (1 + 3 * 16 + port * 256 + linCode status * 2 ^ 24) ++ leBytes 4 (fid % 64 + b2n enhanced * 256 + b2n own * 512) ++
    leBytes 4 0 ++ leBytes 4 n ++ leBytes 16 stamp.toNat ++ data.take n

/-- Cells of a received frame: its descriptor cell (R100) and those of its bytes. -/
def rxCells (n : Nat) : Nat := 1 + cellsOf n

/-- In LIMP a frame whose port and class match no enabled MOD_SURV entry is dropped (R340). The class of a frame that has
not been parsed is a free choice. -/
def State.limpPass (s : State) (port : Nat) : Bool × State :=
  let (c, s) := s.freeN
  (s.md.surv.any fun e => bit e.2.toNat 19 && decide (bits e.2.toNat 0 11 = port) && bit e.2.toNat (11 + c % 8), s)

/-- The last steps of R426: survival filter, admission, and the parser's queue. -/
def State.rxTail (s : State) (port : Nat) (bs : List Byte) (stamp : HWord) : State :=
  let p := portPanel port
  let (pass, s) := if s.md.mode = .limp then s.limpPass port else (true, s)
  if !pass then s.countPort port 15
  else match s.admitIngress p (rxCells bs.length) with
    | none => s.countPort port 13
    | some (r, x) =>
      let (cs, s) := s.storeFrame p bs
      let it : ParseItem := { port := port, ingress := port, frame := bs, stamp := stamp, cellsR := r, cellsS := x, cells := cs, rx := some s.now }
      { s with swt := { s.swt with parseQ := SMap.set s.swt.parseQ [] p (SMap.get s.swt.parseQ [] p ++ [it]) } }

/-- Step 1 of R426 (R56, R425): the node-port to which a frame on a T1S segment is credited, or none where it is dropped. -/
def State.t1sCredit (s : State) (seg opp : Nat) (ok : Bool) : Option Nat × State :=
  let sp := 32 + 8 * seg
  if !ok || opp = 0 || s.rf R.t1sPlca 0 seg 0 4 ≤ opp then (none, s.countPort sp 2)
  else if !s.rb R.npCfg 0 (sp + opp - 32) 0 || !s.portEn (sp + opp) then (none, s.countPort (sp + opp) 3)
  else (some (sp + opp), s)

/-- Step 4 of R426 (R52): is the frame protected by an installed receive association, or of MKA's or PTP's EtherType? The EtherType
is read after up to two VLAN tags (log entry 88). -/
def State.macsecOk (s : State) (port : Nat) (bs : List Byte) (sec : Option Nat) : Bool :=
  let valid := match sec with | some an => (SMap.find s.sec.rxSa (port * 4 + an % 4)).isSome | none => false
  let ty := etherAt bs (rtagPos bs)
  !s.rb R.prtCfg 0 port 20 || valid || decide (ty = 0x888E) || decide (ty = 0x88F7)

/-- Steps 1–5 of R426 for an Ethernet or T1S frame: the ingress port, or none where the frame is dropped. -/
def State.rxEth (s : State) (f : RxFrame) (bs : List Byte) : Option Nat × State :=
  let t1s := 32 ≤ f.port && f.port < 800
  let (port, s) := if t1s then s.t1sCredit ((f.port - 32) / 8) f.opp f.oppOk else (some f.port, s)
  match port with
  | none => (none, s)
  | some p =>
    if s.maxFrm p < bs.length + 4 then (none, s.countPort p 0)
    else if !s.macsecOk p bs f.sec then (none, s.countPort p 1)
    else if t1s then
      let (s, ok) := s.bindCheck p bs
      (if ok then some p else none, s)
    else (some p, s)

/-- A CAN frame (R60, R61, R426): FORMAT_REJ where the port's mode excludes its format, else its envelope goes on. -/
def State.rxCan (s : State) (port kind : Nat) (env : Option (List Byte)) (stamp : HWord) : State :=
  match env with
  | none => s
  | some bs => if s.portModeOf port < min kind 2 then s.countPort port 7 else s.rxTail port bs stamp

/-- Does reception run (R339, R341)? A frame on a port that is not UP is not received. -/
def State.rxOpen (s : State) (port : Nat) : Bool :=
  decide (port < 1024) && s.inService && !s.md.sleeping && decide (s.linkOf (linkPort port) = .up)

/-- Is the frame host traffic (R301): addressed to HST_LADDR, with UDP destination port 4791? -/
def State.hostTraffic (s : State) (bs : List Byte) : Bool :=
  let o := rtagPos bs
  let addr := (List.range 4).flatMap fun i => leBytes 4 (s.rd R.hstLaddr 0 i).toNat
  if s.rb R.hstHcfg 0 0 1 then
    decide (etherAt bs o = 0x86DD) && decide ((byteAt bs (o + 8)).toNat = 17) && decide (sliceZ bs (o + 26) 16 = addr) && decide (etherAt bs (o + 44) = 4791)
  else
    let ihl := (byteAt bs (o + 2)).toNat % 16
    decide (etherAt bs o = 0x0800) && decide ((byteAt bs (o + 11)).toNat = 17) && decide (sliceZ bs (o + 18) 4 = addr.take 4) &&
      decide (etherAt bs (o + 2 + 4 * ihl + 2) = 4791)

-- ------------------------------------------------------------------------------------------------------------ LIN

/-- LIN_HEADER_RECEIVE (R62, R63): a header on the bus is answered from a loaded response, which is put on the bus and
delivered like every LIN frame; otherwise the response of a remote node is received: its data bytes, and its checksum byte if it came so
far. The checksum kind of a commander's frame is that of the schedule entry whose slot it is (R282); of any other remote frame it is a free
choice, and so is the FID's length, which no field gives: a response without a checksum byte stopped short. -/
def execLinHeaderReceive (port : Nat) (fid : BitVec 6) (response : LinRsp) (s : State) : Host.Outcome State Fault Refusal :=
  if port < 960 || 1024 ≤ port || !s.rxOpen port then .next s
  else
    let stamp := s.stamp (portPanel port) (s.tsDom port)
    match SMap.find s.swt.linResp (port * 64 + fid.toNat) with
    | some (r : List Byte) =>
      let enh := envF r 4 8 1 = 1
      let s := s.emit (.linResponse port fid.toNat (r.drop 32))
      .next (s.rxTail port (linEnv port .ok fid.toNat enh true (r.drop 32) stamp) stamp)
    | none =>
      let p := portPanel port
      let (b, s) := s.freeB
      let enh := match SMap.find s.tio.linSlot port with
        | some e => if s.portModeOf port = 0 && s.rf R.tioLsch p e 0 6 = fid.toNat then s.rb R.tioLsch p e 6 else b
        | none => b
      .next (s.rxTail port (linEnv port (linOutcome enh (linPid fid.toNat) response.data response.checksum) fid.toNat enh false response.data stamp) stamp)

end Sys2Proof.Machine
end

