-- ==== Sys2Proof/Machine/Egress.lean ====
section
/-! DEFINITION. Egress (ch. 12): admission (R247, R256), the scheduler (R250), credit-based shapers (R251), gates and the guard
band (R252, R253), preemption (R254), T1S transmission (R59), the CAN bus (R61) and the internal ports (R70). -/

namespace Sys2Proof.Machine

-- ------------------------------------------------------------------------------------------------------------- rates

/-- The line rate of an Ethernet port in Mbit/s (R50, R54). -/
def State.portRate (s : State) (p : Nat) : Nat :=
  if p < 4 then 100000
  else if 32 ≤ p then 10
  else match s.portModeOf p with
    | 0 => 25000
    | 1 => 10000
    | 3 => 2500
    | m => if m = 4 && SMap.get s.swt.rate 0 p = 0 then 1000
      else match SMap.get s.swt.rate 0 p with | 0 => 10000 | 1 => 5000 | 2 => 2500 | 3 => 1000 | 4 => 100 | _ => 10

/-- How long a frame occupies its line: its bytes with FCS, preamble and gap. -/
def State.txTime (s : State) (p len : Nat) : Nat := (len + 24) * 8 * usU / s.portRate p
/-- When a frame's last bit leaves, from its start: its bytes with FCS and preamble (R253). -/
def State.lastBit (s : State) (p len : Nat) : Nat := (len + 12) * 8 * usU / s.portRate p

-- ------------------------------------------------------------------------------------------------- credit-based shapers

/-- The shaper of a port and class (R251). -/
def State.cbsOf (s : State) (p port tc : Nat) : Option Nat :=
  if 800 ≤ port then none
  else firstIdx 256 fun q => s.rb R.egrCbs0 p q 14 && decide (s.rf R.egrCbs0 p q 0 11 = port) && decide (s.rf R.egrCbs0 p q 11 3 = tc)

/-- A shaper's state brought up to now: its credit falls while its class transmits, rises while the class waits with a frame,
within the limits of 802.1Q clause 8.6.8.2, and a positive credit is lost when the queue is empty. Rates are in kbit/s, so
that rate × time is in bits × 1.2 × 10^9. -/
def State.settleCbs (s : State) (p port q : Nat) (waiting : Bool) : Cbs :=
  let x := SMap.get s.swt.cbs {} (p * 256 + q)
  let idle := s.rf R.egrCbs1 p q 0 27
  let rate := s.portRate port * 1000
  let big := s.maxFrm port * 8 * 1200000000
  let hi := Int.ofNat (big * idle / rate)
  let lo := - Int.ofNat (big * (rate - idle) / rate)
  let b := max x.at_ (min s.now x.txFrom)
  let e := max b (min s.now x.txEnd)
  let c0 := if x.at_ < b then min hi (x.credit + Int.ofNat (idle * (b - x.at_))) else x.credit
  let c1 := if b < e then max lo (c0 - Int.ofNat ((rate - idle) * (e - b))) else c0
  let c2 := if s.now < x.txEnd then c1
    else if waiting then min hi (c1 + Int.ofNat (idle * (s.now - e)))
    else min c1 0
  { credit := c2, at_ := s.now, txEnd := x.txEnd, txFrom := x.txFrom }

/-- Store a shaper's state. -/
def State.putCbs (s : State) (p q : Nat) (x : Cbs) : State := { s with swt := { s.swt with cbs := SMap.set s.swt.cbs {} (p * 256 + q) x } }

/-- A frame joins a queue: a shaped class that had none begins to wait now. -/
def State.wakeCbs (s : State) (p port tc : Nat) : State :=
  match s.cbsOf p port tc with
  | some q => if (s.queue p port tc).isEmpty then s.putCbs p q (s.settleCbs p port q false) else s
  | none => s

/-- Is a class's credit, if it has a shaper, at least 0 (R250)? -/
def State.cbsOk (s : State) (p port tc : Nat) : Bool :=
  match s.cbsOf p port tc with
  | some q => decide (0 ≤ (s.settleCbs p port q true).credit)
  | none => true

/-- A shaped class transmits from one time to another, now or after an interruption (R254), in which it waits. -/
def State.startCbs (s : State) (p port tc start stop : Nat) : State :=
  match s.cbsOf p port tc with
  | some q => s.putCbs p q { s.settleCbs p port q true with txFrom := start, txEnd := stop }
  | none => s

-- -------------------------------------------------------------------------------------------------- gates and preemption

/-- The time until a domain's estimate reaches a target, if it moves towards it. -/
def State.timeTo (s : State) (p n target : Nat) : Option Nat :=
  let c := s.dom p n
  let d := sdiff target (s.est p n) 48
  if c.rate = 0 || decide ((0 < d) ≠ (0 < c.rate)) then (if d = 0 then some 0 else none)
  else some ((d.natAbs * 1200 * 4294967296) / c.rate.natAbs)

/-- The earliest pending GATE event of a port, with the time until its target is crossed (R253). -/
def State.nextGate (s : State) (port : Nat) : Option (Nat × Ev) :=
  let l := s.evs.filterMap fun e =>
    if e.kind = .gate && !bit e.operand 15 && decide (e.operand % 2048 = port) then (s.timeTo e.copy e.domain e.target).map fun t => (t, e) else none
  l.foldl (fun b x => match b with | none => some x | some y => if x.1 < y.1 then some x else some y) none

/-- The guard band (R253) for a frame of class `tc` whose last bit would leave after `dur`. -/
def State.guardOk (s : State) (port tc dur : Nat) : Bool :=
  match s.nextGate port with
  | none => true
  | some (t, e) =>
    let row := bits e.operand 11 4
    let mask := bits (s.rd R.egrGrow (portPanel port) (portLocal port) (row / 4)).toNat (8 * (row % 4)) 8
    bit mask tc || decide ((s.dom e.copy e.domain).state ≠ .locked) || decide (dur < t)

/-- Is preemption active on a port (R254)? -/
def State.preempting (s : State) (port : Nat) : Bool :=
  decide (4 ≤ port) && decide (port < 32) && s.rb R.egrPcfg (portPanel port) (portLocal port) 20 &&
    (s.rb R.egrPcfg (portPanel port) (portLocal port) 23 || SMap.get s.swt.verified false port)

/-- Is a class sent as preemptable? -/
def State.preemptable (s : State) (port tc : Nat) : Bool :=
  s.preempting port && !s.rb R.egrPcfg (portPanel port) (portLocal port) (12 + tc)

/-- PREEMPTION_VERIFICATION (R254): the verification of a port succeeds, after which its preemptable classes are sent so, or
fails and is counted as PMAC_VERIFY_FAIL. `ok` says which. -/
def execPreemptionVerification (port : Nat) (ok : Bool) (s : State) : Host.Outcome State Fault Refusal :=
  if port < 4 || 32 ≤ port || !s.rb R.egrPcfg (portPanel port) (portLocal port) 20 || s.rb R.egrPcfg (portPanel port) (portLocal port) 23
      || s.linkOf port ≠ .up || SMap.get s.swt.verified false port then .next s
  else if ok then .next { s with swt := { s.swt with verified := SMap.set s.swt.verified false port true } }
  else .next (s.countPort port 14)

-- ------------------------------------------------------------------------------------------------------- the scheduler

/-- The head frame of a queue, if it is complete at its egress station. -/
def State.headOf (s : State) (p port tc : Nat) : Option (Nat × FabFrame) :=
  match s.queue p port tc with
  | [] => none
  | n :: _ => match s.fabFrame n with
    | some f => if f.left = 0 then some (n, f) else none
    | none => none

/-- A port's gate for a class (R252). -/
def State.gateOpen (s : State) (port tc : Nat) : Bool :=
  !s.rb R.egrPcfg (portPanel port) (portLocal port) 24 || bit (s.gate port) tc

/-- Is a class of an Ethernet port eligible (R250), `express` limiting it to express classes? -/
def State.eligibleTx (s : State) (port : Nat) (express : Bool) (tc : Nat) : Bool :=
  let p := portPanel port
  match s.headOf p port tc with
  | none => false
  | some (_, f) =>
    let pm := s.preemptable port tc
    !(express && pm) && s.gateOpen port tc && (pm || !s.rb R.egrPcfg p (portLocal port) 24 || s.guardOk port tc (s.lastBit port f.bytes.length)) && s.cbsOk p port tc

/-- Take the head of a queue out. -/
def State.popQueue (s : State) (p port tc : Nat) : State := s.setQueue p port tc ((s.queue p port tc).drop 1)

/-- The DWRR round (R250): the class that sends and the round's state. `el` says which classes of the group are eligible, `len`
the length of their head frames, `w` their quantum. -/
def dwrrPick (el : Nat → Bool) (len w : Nat → Nat) (x : Dwrr) : Nat → Option (Nat × Dwrr)
  | 0 => none
  | n + 1 =>
    match x.cur with
    | some c =>
      let d := SMap.get x.deficit 0 c
      if el c && decide (len c ≤ d) then some (c, { x with deficit := SMap.set x.deficit 0 c (d - len c), last := c })
      else dwrrPick el len w { x with cur := none, last := c } n
    | none =>
      match (rotateAfter (List.range 8) (x.last + 1)).find? el with
      | none => none
      | some c => dwrrPick el len w { x with cur := some c, deficit := SMap.set x.deficit 0 c (SMap.get x.deficit 0 c + w c) } n

/-- The class that an Ethernet port sends next (R250), with the DWRR state that follows. -/
def State.pickClass (s : State) (port : Nat) (express : Bool) : Option (Nat × Option Dwrr) :=
  let p := portPanel port
  let sp := s.rf R.egrPcfg p (portLocal port) 0 8
  let el := s.eligibleTx port express
  match firstIdx 8 fun i => bit sp (7 - i) && el (7 - i) with
  | some i => some (7 - i, none)
  | none =>
    let len (c : Nat) : Nat := match s.headOf p port c with | some (_, f) => f.bytes.length | none => 0
    let w (c : Nat) : Nat := 256 * bits (s.rd R.egrWgt p (portLocal port)).toNat (4 * c) 4
    (dwrrPick (fun c => !bit sp c && el c) len w (SMap.get s.swt.dwrr {} (p * 1152 + port)) 1200).map fun r => (r.1, some r.2)

/-- Transmissions on a medium that have not ended. -/
def State.txBusy (s : State) (m : Nat) : List TxRec := (SMap.get s.swt.tx [] m).filter fun x => x.live s.now

/-- Record the start of a transmission on a medium. -/
def State.addTx (s : State) (m : Nat) (x : TxRec) : State := { s with swt := { s.swt with tx := SMap.set s.swt.tx [] m (s.txBusy m ++ [x]) } }

/-- The latency of a monitored port (R390, R392): from reception to the start of transmission, in ns. -/
def State.noteLatency (s : State) (p : Nat) (f : FabFrame) : State :=
  match f.rx with
  | none => s
  | some t0 =>
    if !s.monitoredPort f.port then s
    else
      let v := (s.now - t0) / nsU
      (s.histAdd p 1 f.port (histBin 1 v) 1).extreme p 0 f.port true (Int.ofNat v) (s.recStamp p)

/-- Line time of a number of bytes on a port. -/
def State.lineTime (s : State) (port n : Nat) : Nat := n * 8 * usU / s.portRate port

/-- What an interruption adds to a preempted frame (802.3br): the fragment's check sequence, a gap and a preamble. -/
def fragOver : Nat := 24

/-- When the present fragment of a preemptable frame may end (R254): after 64 × (1 + addFragSize) bytes with its check sequence, and its
preamble; at once where it has not started. -/
def State.fragEnd (s : State) (x : TxRec) : Nat :=
  if s.now ≤ x.fragAt then s.now
  else max s.now (x.fragAt + s.lineTime x.port (4 + 64 * (1 + s.rf R.egrPcfg (portPanel x.port) (portLocal x.port) 21 2)))

/-- Is enough of a frame left at time `t` for a last fragment of 64 bytes? -/
def State.fragLeft (s : State) (x : TxRec) (t : Nat) : Bool := decide (max t x.fragAt + s.lineTime x.port 76 ≤ x.until_)

/-- Can an express frame interrupt a transmission now (R254)? One that a closed gate has preempted already does not hold the line. -/
def State.canCut (s : State) (x : TxRec) : Bool :=
  x.preemptable && (if x.busy s.now then x.cut.isNone && decide (s.fragEnd x = s.now) && s.fragLeft x s.now else true)

/-- An express frame of a duration interrupts what is in progress: the interrupted frame goes on after it. -/
def TxRec.putOff (now dur cost : Nat) (x : TxRec) : TxRec :=
  if x.busy now then { x with until_ := x.until_ + dur + (if now ≤ x.fragAt then 0 else cost), fragAt := now + dur } else x

/-- The gate state of a port changes (R252): a closing gate preempts a preemptable frame of its class, as soon as its fragment may end and
if enough of it is left (R254); an opening one lets the frame it preempted go on when the line is free. -/
def State.gateTx (s : State) (port mask : Nat) : State :=
  if !s.rb R.egrPcfg (portPanel port) (portLocal port) 24 then s
  else
    let l := s.txBusy port
    let free := l.foldl (fun t x => max t x.until_) s.now
    let step (x : TxRec) : TxRec :=
      match x.cut with
      | some r => if bit mask x.tc then { x with cut := none, fragAt := free, until_ := free + r + s.lineTime port fragOver } else x
      | none =>
        let t := s.fragEnd x
        if x.preemptable && !bit mask x.tc && s.fragLeft x t then { x with cut := some (x.until_ - max t x.fragAt), until_ := t } else x
    let s := { s with swt := { s.swt with tx := SMap.set s.swt.tx [] port (l.map step) } }
    ((l.map step).filter fun x => x.preemptable).foldl (fun s x => s.startCbs (portPanel port) port x.tc x.fragAt x.until_) s

/-- What a port sends of a frame (R289, R292): all of it, unless it lies in DRAM and is not fetched whole when its transmission starts. Then
the rest may come in time, or the prefetch buffer runs out: the frame is truncated there and counted as FAB_LOSS. -/
def State.sent (s : State) (f : FabFrame) : List Byte × State :=
  if f.lines.length ≤ f.got then (f.bytes, s)
  else
    let (k, s) := s.freeN
    let n := f.got + k % (f.lines.length - f.got + 1)
    if n = f.lines.length then (f.bytes, s) else (f.bytes.take (64 * n), s.countPc f.port f.tc 3)

/-- An Ethernet or T1S port starts the head frame of a class on medium `m`; an express frame that preempts puts off the end of
the frame it interrupts. -/
def State.startTx (s : State) (m port tc : Nat) : State :=
  let p := portPanel port
  match s.headOf p port tc with
  | none => s
  | some (n, f) =>
    let (bs, s) := s.sent f
    let dur := s.txTime port bs.length
    let pm := s.preemptable port tc
    let late := (s.txBusy m).map (TxRec.putOff s.now dur (s.lineTime port fragOver))
    let s := (late.filter fun x => x.busy s.now).foldl (fun s x => s.startCbs p port x.tc x.fragAt x.until_) s
    let s := s.startCbs p port tc s.now (s.now + dur)
    let s := { s with swt := { s.swt with tx := SMap.set s.swt.tx [] m late } }
    let s := ((s.popQueue p port tc).delFrame n).addTx m { panel := p, port := port, tc := tc, gC := f.gC, xC := f.xC, until_ := s.now + dur, preemptable := pm, fragAt := s.now }
    (s.noteLatency p f).emit (.frame port tc bs)

/-- An Ethernet port 0–31 can start a frame: its line is free, or the preemptable frames alone that are in progress can be interrupted
(R254). -/
def State.ethTx (s : State) (port : Nat) : State :=
  let b := s.txBusy port
  if s.linkOf port ≠ .up || b.any (fun x => !s.canCut x) then s
  else match s.pickClass port (!b.isEmpty) with
    | none => s
    | some (tc, d) =>
      let k := portPanel port * 1152 + port
      let s := match d with | some x => { s with swt := { s.swt with dwrr := SMap.set s.swt.dwrr {} k x } } | none => s
      s.startTx port port tc

/-- The frames a T1S segment may still start in the opportunity in progress. -/
def State.setBurst (s : State) (seg n : Nat) : State := { s with swt := { s.swt with t1sBurst := SMap.set s.swt.t1sBurst 0 seg n } }

/-- A T1S segment in the NZ1024's own opportunity (R59), which `newOpp` begins: up to 1 + MAXBC frames, by strict priority of class over the
queues of all its node-ports, and round robin within a class. The opportunity ends when the segment has no frame to start. The rule does not
say whether a segment has one round-robin place or one for each class: the model keeps one for each class (log entry 88). -/
def State.t1sTx (s : State) (port : Nat) (newOpp : Bool) : State :=
  let sp := segPort port
  let seg := (sp - 32) / 8
  let s := if newOpp && (s.txBusy sp).isEmpty then s.setBurst seg (1 + s.rf R.t1sPlca 0 seg 12 3) else s
  let left := SMap.get s.swt.t1sBurst 0 seg
  if !(s.txBusy sp).isEmpty || s.linkOf sp ≠ .up || left = 0 then s
  else
    let pick (tc : Nat) : Option Nat :=
      (rotateAfter (List.range 8) (SMap.get s.swt.t1sLast 0 (seg * 8 + tc))).find? fun k => decide (s.linkOf (sp + k) = .up) && s.eligibleTx (sp + k) false tc
    match firstIdx 8 fun i => (pick (7 - i)).isSome with
    | none => s.setBurst seg 0
    | some i => match pick (7 - i) with
      | none => s
      | some k =>
        let s := (s.setBurst seg (left - 1)).startTx sp (sp + k) (7 - i)
        { s with swt := { s.swt with t1sLast := SMap.set s.swt.t1sLast 0 (seg * 8 + (7 - i)) (k + 1) } }

-- --------------------------------------------------------------------------------------------------------- fieldbus

/-- The checks of R66 on an envelope sent to a CAN or LIN port: the PORT counter of the first that fails; 99 for check 5. -/
def State.envCheck (s : State) (port : Nat) (bs : List Byte) : Option Nat :=
  let e := sliceZ bs 0 (max 32 bs.length)
  let k := envKind e
  let kindOk := if 960 ≤ port then decide (k = 3) else decide (k ≤ 2) && decide (k ≤ s.portModeOf port)
  let lenOk := (if k = 3 then decide (1 ≤ envLen e) && decide (envLen e ≤ 8) else envLenOk k (envLen e)) && decide (bs.length = 32 + envData e)
  if !envFieldsOk e || 1152 ≤ envPort e || envStatus e ≠ 0 || leVal (sliceZ e 16 16) ≠ 0 then some 9
  else if !kindOk then some 10
  else if envPort e ≠ port then some 11
  else if !lenOk then some 12
  else if s.linkOf port ≠ .up then some 99
  else none

/-- Is a class of a CAN port scheduled (R281)? -/
def State.canScheduled (s : State) (port tc : Nat) : Bool :=
  let p := portPanel port
  s.rb R.tioCcyc p 0 0 && (List.range 256).any fun e => s.rb R.tioCsch p e 10 && decide (s.rf R.tioCsch p e 0 7 = port - 800 - 80 * p) && decide (s.rf R.tioCsch p e 7 3 = tc)

/-- The schedule entries of a CAN port that have opened their class, and whose frame has not started (R281). -/
def State.canOpen (s : State) (port : Nat) : List Nat := SMap.get s.tio.canOpen [] port

/-- Is a class of a CAN port open: named by no entry, or opened by one? -/
def State.canMayStart (s : State) (port tc : Nat) : Bool :=
  !s.canScheduled port tc || (s.canOpen port).any fun e => decide (s.rf R.tioCsch (portPanel port) e 7 3 = tc)

/-- A frame of a class starts: the entry that opened the class first is used. -/
def State.canUse (s : State) (port tc : Nat) : State :=
  let l := (s.canOpen port).eraseP fun e => decide (s.rf R.tioCsch (portPanel port) e 7 3 = tc)
  { s with tio := { s.tio with canOpen := SMap.set s.tio.canOpen [] port l } }

/-- A CAN controller's attempt (R61): the frame in hand, else the head of the highest class that may start. Whether the attempt
wins arbitration and meets no error is a free choice. -/
def State.canTxTry (s : State) (port : Nat) : State :=
  let p := portPanel port
  if s.linkOf port ≠ .up then s
  else
    let s := match SMap.find s.swt.canTx port with
      | some _ => s
      | none =>
        match firstIdx 8 fun i => (s.headOf p port (7 - i)).isSome && s.canMayStart port (7 - i) with
        | none => s
        | some i => match s.headOf p port (7 - i) with
          | none => s
          | some (n, _) =>
            ({ s with swt := { s.swt with canTx := SMap.put s.swt.canTx port { frame := n, tc := 7 - i, first := s.now } } }).canUse port (7 - i)
    match SMap.find s.swt.canTx port with
    | none => s
    | some c =>
      let (ok, s) := s.freeB
      if !ok then s
      else
        let bs := match s.fabFrame c.frame with | some f => f.bytes | none => []
        let s := (s.popQueue p port c.tc).delFrame c.frame
        ({ s with swt := { s.swt with canTx := SMap.del s.swt.canTx port } }).emit (.canFrame port bs)

/-- TX_ABANDON (R61): 2 ms have passed since the first attempt without success, or the port is not UP. -/
def execTxAbandon (port : Nat) (s : State) : Host.Outcome State Fault Refusal :=
  match SMap.find s.swt.canTx port with
  | none => .next s
  | some c =>
    if s.now < c.first + 2 * msU && s.linkOf port = .up then .next s
    else
      let s := ((s.popQueue (portPanel port) port c.tc).delFrame c.frame).countPort port 8
      .next { s with swt := { s.swt with canTx := SMap.del s.swt.canTx port } }

/-- A LIN port takes the head envelope of its highest class (R62): with DIR = 1 it loads the response of its FID. The rule does not
say what becomes of one with DIR = 0: the model takes it off the queue without effect and without a count (log entry 88). -/
def State.linTx (s : State) (port : Nat) : State :=
  let p := portPanel port
  match firstIdx 8 fun i => (s.headOf p port (7 - i)).isSome with
  | none => s
  | some i => match s.headOf p port (7 - i) with
    | none => s
    | some (n, f) =>
      let s := (s.popQueue p port (7 - i)).delFrame n
      if envF f.bytes 4 9 1 = 1 then { s with swt := { s.swt with linResp := SMap.put s.swt.linResp (port * 64 + envF f.bytes 4 0 6) f.bytes } } else s

-- --------------------------------------------------------------------------------------------------- internal ports

/-- The highest class of an internal port's queues on a panel whose head is complete: strict priority. -/
def State.innerHead (s : State) (p port : Nat) : Option (Nat × Nat × FabFrame) :=
  (firstIdx 8 fun i => (s.headOf p port (7 - i)).isSome).bind fun i => (s.headOf p port (7 - i)).map fun h => (7 - i, h.1, h.2)

/-- The recirculation transmitter of a panel, 50 Gbit/s for its four queues (R244): the frame goes to a parser again (R90). -/
def State.recircTx (s : State) (p port : Nat) : State :=
  let m := 1152 + p
  if !(s.txBusy m).isEmpty || !s.up p then s
  else match s.innerHead p port with
    | none => s
    | some (tc, n, f) =>
      let s := (s.popQueue p port tc).delFrame n
      let s := s.addTx m { panel := p, port := port, tc := tc, gC := f.gC, xC := f.xC, until_ := s.now + f.bytes.length * 8 * usU / 50000, preemptable := false }
      let stamp := match f.ll with | some k => (s.ll k).item.stamp | none => 0#128
      let it : ParseItem := { port := port, ingress := f.ingress, frame := f.bytes, stamp := stamp, ll := f.ll, dead := f.dead }
      { s with swt := { s.swt with parseQ := SMap.set s.swt.parseQ [] p (SMap.get s.swt.parseQ [] p ++ [it]) } }

/-- A host virtual port (R306): a SEND with immediate on its QP, which must be in RTS with the link that serves it UP; until then the frame
waits. -/
def State.hostTx (s : State) (port : Nat) : State :=
  let q := port - 1028
  let p := s.innerPanel port 0
  if (s.qp q).state ≠ 1 || !s.up p || s.linkOf (2 * p) ≠ .up then s
  else match s.innerHead p port with
    | none => s
    | some (tc, n, f) => ((s.popQueue p port tc).delFrame n).qpPost q { kind := .send, psn := 0, npkts := 0, imm := f.ingress + tc * 2048, bytes := f.bytes }

/-- The receive mailbox (R327): 4 frames of at most 252 bytes; a frame placed in it sets SV_ATTN.MBX (R331). -/
def State.mboxTx (s : State) : State :=
  match (s.innerHead 0 1108).map (fun h => (0, h)) |>.orElse fun _ => (s.innerHead 1 1108).map fun h => (1, h) with
  | none => s
  | some (p, tc, n, f) =>
    let s := (s.popQueue p 1108 tc).delFrame n
    if 252 < f.bytes.length || 4 ≤ s.swt.mboxRx.length then s.count 0x11 0 4
    else ({ s with swt := { s.swt with mboxRx := s.swt.mboxRx ++ [f.bytes] } }).setAttn 0

/-- EGRESS_TRANSMIT (R250): a port starts the next frame of its queues, if it can; on a T1S segment, `x.newOpp` says that a new opportunity of
its own has begun. -/
def execEgressTransmit (x : TxSlot) (s : State) : Host.Outcome State Fault Refusal :=
  let port := x.port
  if port < 1024 && !s.up (portPanel port) then .next s
  else if port < 32 then .next (s.ethTx port)
  else if port < 800 then .next (s.t1sTx port x.newOpp)
  else if port < 960 then .next (s.canTxTry port)
  else if port < 1024 then .next (s.linTx port)
  else if port < 1028 then .next ((s.recircTx 0 port).recircTx 1 port)
  else if port < 1092 then .next (s.hostTx port)
  else if port = 1108 then .next s.mboxTx
  else .next s

-- -------------------------------------------------------------------------------------------------- egress admission

/-- Is the endpoint of a port configured (R70, R161)? -/
def State.epOk (s : State) (e : Nat) : Bool :=
  let c := s.sepCourse e
  let y := s.yCfg c (s.rf R.sepCfg 0 e 4 6)
  s.rb R.sepCfg 0 e 0 && bit y 16 && bit y 17

/-- Is a port ready to take a frame (R247 check 1)? In LIMP an external port must be named by a MOD_SURV entry (R340, log entry 100). -/
def State.egressUp (s : State) (port : Nat) : Bool :=
  if port < 1024 then
    decide (s.linkOf port = .up) && (decide (s.md.mode ≠ .limp) || s.md.surv.any fun e => bit e.2.toNat 19 && decide (bits e.2.toNat 0 11 = port))
  else if 1028 ≤ port && port < 1092 then decide ((s.qp (port - 1028)).state = 1)
  else if port = 1108 then true
  else if 1109 ≤ port && port < 1152 then s.epOk (port - 1109)
  else false

/-- A copy's mirror target, or the frame's own counter, is charged with a drop at admission (R247, R257). -/
def State.refuse (s : State) (f : FabFrame) (count : State → State) : State :=
  match f.mirror with | some k => s.count 0xA k 0 | none => count s

/-- The vector recovery algorithm over a sequence number (R256): whether the frame passes, and the entry's state. -/
def recover (r : Option FrerRec) (hist q now : Nat) : Bool × FrerRec :=
  match r with
  | none => (true, { seq := q, hist := 1, passed := now })
  | some x =>
    let d := (q + 65536 - x.seq) % 65536
    let b := (x.seq + 65536 - q) % 65536
    if b ≤ hist && bit x.hist b then (false, x)
    else if 0 < d && d < 32768 then (true, { seq := q, hist := if hist < d then 1 else (x.hist * 2 ^ d + 1) % 2 ^ (hist + 1), passed := now })
    else (true, { x with hist := if b ≤ hist then setBit x.hist b true else x.hist, passed := now })

/-- FRER recovery at admission (R256): the frame as it goes on, or none for a duplicate. -/
def State.frerRecover (s : State) (p : Nat) (f : FabFrame) : Option FabFrame × State :=
  match if f.port < 800 then s.frerEntry p f.port f.tc 15 else none with
  | none => (some f, s)
  | some r =>
    let key := p * 256 + r
    let o := rtagPos f.bytes
    if etherAt f.bytes o ≠ 0xF1C1 then
      let s := match SMap.find s.swt.frer key with
        | some x => { s with swt := { s.swt with frer := SMap.put s.swt.frer key { x with passed := s.now } } }
        | none => s
      (some f, s.count 9 key 1)
    else
      let (ok, x) := recover (SMap.find s.swt.frer key) (s.rf R.egrFrer1 p r 0 5) (etherAt f.bytes (o + 4)) s.now
      let s := { s with swt := { s.swt with frer := SMap.put s.swt.frer key x } }
      if !ok then (none, s.count 9 key 0)
      else (some (if s.rb R.egrFrer0 p r 17 then { f with bytes := f.bytes.take o ++ f.bytes.drop (o + 6) } else f), s)

/-- The queue depth of a monitored port and class at an admission (R390, R392). -/
def State.noteDepth (s : State) (p port tc : Nat) : State :=
  if s.monitored port tc then
    let v := (s.qUsed p port tc).1
    (s.histAdd p 2 (port * 8 + tc) (histBin 2 v) 1).extreme p 1 (port * 8 + tc) true (Int.ofNat v) (s.recStamp p)
  else s

/-- A frame is offered to the strand endpoint of an internal port: SEQ counts it (R161). -/
def State.offerEp (s : State) (port : Nat) : State :=
  if 1109 ≤ port && port < 1152 then
    { s with yrn := { s.yrn with epSeq := SMap.set s.yrn.epSeq 0 (port - 1109) ((SMap.get s.yrn.epSeq 0 (port - 1109) + 1) % 4294967296) } }
  else s

/-- The lines in which a frame of a gated port lies in DRAM pool buffers, to be fetched ahead (R289). The spec does not say which frames lie
there, nor in which buffers: both are free choices among the enabled DRAM pools of the panel (log entry 98). -/
def State.schedLines (s : State) (p port len : Nat) : List Nat × State :=
  let pools := idxs 32 fun n => s.poolEn n && !s.rb R.sknPcfg 0 n 1 && decide (s.poolHome n = p)
  if 32 ≤ port || !s.rb R.egrPcfg p (portLocal port) 24 || pools.isEmpty then ([], s)
  else
    let (b, s) := s.freeB
    let (i, s) := s.freeN
    let (k, s) := s.freeN
    let n := pools.getD (i % pools.length) 0
    let size := s.poolCount n * s.poolSize n
    if !b || size = 0 then ([], s)
    else ((List.range ((len + 63) / 64)).map fun j => s.poolBase n + (k % s.poolCount n * s.poolSize n + 64 * j) % size, s)

/-- The checks of R247 on a frame, in order (for a CAN or LIN port, those of R66 first). -/
def State.admitFrame (s : State) (n : Nat) (f : FabFrame) : State :=
  let q := s.egressPanel f.port f.panel
  let drop (g : FabFrame) (c : State → State) (s : State) : State := (s.forgetFrame n).refuse g c
  let env := if 800 ≤ f.port && f.port < 1024 then s.envCheck f.port f.bytes else none
  match env with
  | some 99 => drop f (fun s => s.countPc f.port f.tc 4) s
  | some c => drop f (fun s => s.countPort f.port c) s
  | none =>
    if !s.egressUp f.port || s.stationFenced (stationOf f.port q) then drop f (fun s => (s.offerEp f.port).countPc f.port f.tc 4) s
    else if f.port < 800 && s.maxFrm f.port < f.bytes.length + 4 then drop f (fun s => s.countPc f.port f.tc 5) s
    else
      let (r, s) := s.frerRecover q f
      match r with
      | none => drop f id s
      | some f => match s.admitCells q f.port f.tc f.dp (cellsOf f.bytes.length) with
        | none => drop f (fun s => s.countPc f.port f.tc f.dp) s
        | some (g, x) =>
          let (ls, s) := s.schedLines q f.port f.bytes.length
          if ls.any fun a => (s.lineAt q a false).isEmpty then drop f (fun s => s.countPc f.port f.tc 3) s
          else ((s.wakeCbs q f.port f.tc).enqueue q n { f with gC := g, xC := x, lines := ls, linesAt := s.now }).noteDepth q f.port f.tc

/-- EGRESS_ADMISSION (R247): a panel's admission stage decides the frame that arrived first. -/
def execEgressAdmission (panel : Nat) (s : State) : Host.Outcome State Fault Refusal :=
  let p := panel % 2
  match SMap.get s.swt.adm [] p with
  | [] => .next s
  | n :: rest =>
    let s := { s with swt := { s.swt with adm := SMap.set s.swt.adm [] p rest } }
    match s.fabFrame n with
    | none => .next s
    | some f => .next (s.admitFrame n f)

/-- FRER_RESET (R256): no frame has passed a recovery entry for RESET_TO ms. -/
def execFrerReset (panel entry : Nat) (s : State) : Host.Outcome State Fault Refusal :=
  let p := panel % 2
  let key := p * 256 + entry % 256
  match SMap.find s.swt.frer key with
  | none => .next s
  | some x =>
    if s.now < x.passed + s.rf R.egrFrer1 p (entry % 256) 5 11 * msU then .next s
    else .next (({ s with swt := { s.swt with frer := SMap.del s.swt.frer key } }).count 9 key 2)

end Sys2Proof.Machine
end

