-- ==== Sys2Proof/Machine/TioOps.lean ====
section
/-! DEFINITION. Capture streams and their records (R266–R268), edges placed on pins and PWM pairs (R270, R271), and the
work items of WAKE events and notices. -/

namespace Sys2Proof.Machine

/-- A work item of KIND WAKE (R100, R185). -/
def State.wakeItem (s : State) (list tag : Nat) : WorkItem :=
  { kind := .wake, list := list, attempt := 1, caston := s.tcount, born := s.now, panel := listPanel list, arg := tag % 65536 }

/-- The records of a panel that wait to be written. -/
def State.tioStore (s : State) (p : Nat) : List CapRec := if p = 0 then s.tio.storeA else s.tio.storeB
/-- Replace them. -/
def State.setTioStore (s : State) (p : Nat) (x : List CapRec) : State :=
  if p = 0 then { s with tio := { s.tio with storeA := x } } else { s with tio := { s.tio with storeB := x } }

/-- Ring bytes of a stream. -/
def State.streamSize (s : State) (p st : Nat) : Nat := 2 ^ (12 + s.rf R.tioScfg0 p st 1 4)
/-- Address of the record of SEQ `q`. -/
def State.recordAddr (s : State) (p st q : Nat) : Nat :=
  s.rf R.tioScfg1 p st 0 24 * 65536 + 32 * (q % (s.streamSize p st / 32))

/-- A capture record (R266–R268): its SEQ is consumed; it joins the store of 256 records waiting to be written, or is
discarded and counted as TIO_SLOST; and a notice is posted at each multiple of 2^NEVERY. -/
def State.capture (s : State) (p st kind level src data : Nat) (stamp : HWord) : State :=
  let key := p * 16 + st
  let q := max 1 (SMap.get s.tio.seq 0 key)
  let next := if q = 0xFFFFFFFF then 1 else q + 1
  let s := { s with tio := { s.tio with seq := SMap.set s.tio.seq 0 key next } }
  let a := s.recordAddr p st q
  let bs := leBytes 16 stamp.toNat ++ leBytes 4 q ++ leBytes 4 (kind + level * 8 + src * 16) ++ leBytes 8 data
  let en := s.rb R.tioScfg0 p st 0
  let s := if en && s.devOk p a 32 && (s.tioStore p).length < 256 then s.setTioStore p (s.tioStore p ++ [{ addr := a, bytes := bs, at_ := s.now }]) else s.count 0xC key 0
  if en && s.rb R.tioScfg0 p st 5 && q % 2 ^ s.rf R.tioScfg1 p st 24 4 = 0 then
    let l := s.rf R.tioScfg0 p st 6 10
    match if s.listEn l then s.appendItem (s.wakeItem l (s.rf R.tioScfg0 p st 16 16)) else none with
    | some s => s
    | none => s.count 0xC key 1
  else s

/-- The stream whose ring holds address `a`. -/
def State.streamAt (s : State) (p a : Nat) : Nat :=
  (firstIdx 16 fun st => let b := s.rf R.tioScfg1 p st 0 24 * 65536; s.rb R.tioScfg0 p st 0 && decide (b ≤ a) && decide (a < b + s.streamSize p st)).getD 0

/-- Key of a PWM pair (R271). -/
def pairKey (pin : Nat) : Nat := (pin / 128) * 64 + (pin % 128) / 2

/-- Set the delayed edge of a pair: `pin` goes high after the dead time (R271). -/
def State.setDead (s : State) (hi pin dom copy target : Nat) : State :=
  let p := hi / 128
  let m := (hi % 128) / 2
  let dt := s.rf R.tioPwm p m 0 12
  let d : DeadEdge := if s.rb R.tioPwm p m 12 then { pin := pin, due := (target + dt) % 2 ^ 48, byPos := true, domain := dom, copy := copy }
    else { pin := pin, due := s.now + dt * 375, byPos := false, domain := dom, copy := copy }
  { s with tio := { s.tio with dead := SMap.put s.tio.dead (pairKey hi) d } }

/-- An edge is placed on an OUTPUT or PWM_HI pin (R270, R271): ACTION 0 LOW, 1 HIGH, 2 TOGGLE, 3 HIZ. -/
def State.placeEdge (s : State) (pin action dom copy target : Nat) : State :=
  let o := (s.pin pin).out
  let hi := match action with | 0 => false | 1 => true | _ => decide (o ≠ 1)
  if s.pinMode pin = 3 then
    let s := s.noDead pin
    if hi then (s.drive (pin + 1) 0).setDead pin pin dom copy target
    else (s.drive pin 0).setDead pin (pin + 1) dom copy target
  else if action = 3 then s.drive pin 2
  else s.drive pin (b2n hi)

/-- A GATE event's action (R252). -/
def State.setGate (s : State) (panel operand : Nat) : State :=
  if bit operand 15 then
    let g := bits operand 0 6
    let w := s.rd R.egrSgate panel (g / 32)
    s.setRd R.egrSgate panel (g / 32) 0 (w32 (setBit w.toNat (g % 32) (bit operand 6)))
  else
    let port := bits operand 0 11
    let row := bits operand 11 4
    let m := s.rf R.egrGrow (portPanel port) (portLocal port) (8 * (row % 4)) 8 (row / 4)
    ({ s with swt := { s.swt with gates := SMap.set s.swt.gates 0xFF port m } }).gateTx port m

/-- Converter of a SAR input (R275). -/
def convOf (input : Nat) : Nat := input / 8

/-- A TRIGGER event's action (R275, R276): a SAR sequence joins the converter's queue of 4, or is counted as SAR_OVR; a
sigma-delta trigger writes one record of the filter output. -/
def State.trigger (s : State) (panel dom operand tag : Nat) : State :=
  let input := bits operand 0 6
  let st := bits operand 9 4
  if input < 32 then
    let c := convOf input
    let q := SMap.get s.tio.sar [] c
    if q.length < 4 then
      { s with tio := { s.tio with sar := SMap.set s.tio.sar [] c (q ++ [{ input := input, count := bits operand 6 3, stream := st, tag := tag, domain := dom, panel := panel }]) } }
    else s.count 0xE c 0
  else
    let n := input - 32
    s.capture panel st 3 0 n (SMap.get s.tio.sdmOut 0 n + tag * 2 ^ 32 + 2 ^ 48) (s.stamp panel dom)

end Sys2Proof.Machine
end

