-- ==== Sys2Proof/Machine/Events.lean ====
section
/-! DEFINITION. Scheduled events (R39–R46, R185): acceptance, lateness, policies, step rules, firing and cancelling. -/

namespace Sys2Proof.Machine

/-- 2^48. -/
def m48 : Nat := 281474976710656

/-- The comparison of R25 of two positions. -/
inductive Rel where
  | equal | after | before | unordered
  deriving DecidableEq, Repr

/-- R25. -/
def posRel (a b : Nat) : Rel :=
  let d := (a + m48 - b % m48) % m48
  if d = 0 then .equal else if d < 2 ^ 47 then .after else if 2 ^ 47 < d then .before else .unordered

/-- How the estimate of the event's copy stands to TARGET. -/
def State.evRel (s : State) (e : Ev) : Rel := posRel (s.est e.copy e.domain) e.target

/-- Is the crossing behind the estimate in the event's DIR (R44)? EITHER is never late. -/
def Ev.behind (e : Ev) (r : Rel) : Bool :=
  match e.dir with | 0 => decide (r = .after) | 1 => decide (r = .before) | _ => false

/-- Lateness in counts. -/
def State.lateness (s : State) (e : Ev) : Nat :=
  let x := s.est e.copy e.domain
  min 0xFFFFFFFF (if e.dir = 0 then (x + m48 - e.target) % m48 else (e.target + m48 - x) % m48)

/-- How TARGET stands to the estimate when it is reached from above: an estimate between two counts has not passed the lower. -/
def State.evRelUp (s : State) (e : Ev) : Rel :=
  posRel ((s.dom e.copy e.domain).estUp (s.rf R.domCoast 0 e.domain 16 8) s.now) e.target

/-- Has the crossing been found (R41)? From below, the estimate is EQUAL to or AFTER the target; from above, EQUAL or BEFORE. -/
def State.crossed (s : State) (e : Ev) : Bool :=
  let up := decide (s.evRel e = .equal) || decide (s.evRel e = .after)
  let down := decide (s.evRelUp e = .equal) || decide (s.evRelUp e = .before)
  e.here || match e.dir with
  | 0 => up
  | 1 => down
  | _ => if e.before then up else down

/-- What POLICY makes of a pending event in a state of its copy (R42). -/
inductive PolicyAct where
  | armed | held | still | cancel (status : Nat)
  deriving DecidableEq, Repr

/-- R42. -/
def policyAct (policy : Nat) (st : DomSt) : PolicyAct :=
  match st with
  | .locked => .armed
  | _ => match policy with
    | 0 => .held
    | 1 => (match st with | .coast => .armed | .stopped => .still | _ => .cancel 0x04)
    | _ => .cancel 0x03

/-- Replace the first event equal to `e`. -/
def replaceEv : List Ev → Ev → Option Ev → List Ev
  | [], _, _ => []
  | x :: l, e, r => if x = e then (match r with | some y => y :: l | none => l) else x :: replaceEv l e r

/-- Change or remove a pending event. -/
def State.setEv (s : State) (e : Ev) (r : Option Ev) : State := { s with evs := replaceEv s.evs e r }

/-- Can the Carriage of the list's panel be reached from the wheel's panel (R185)? -/
def State.listReach (s : State) (panel list : Nat) : Bool := s.reach panel (listPanel list)

/-- A fired WAKE is offered to its list (R104 row 6, R185): the state, and whether the event stays on the wheel. -/
def State.offerWake (s : State) (e : Ev) : State × Bool :=
  let l := e.operand % 1024
  if !s.listReach e.wheel l || !s.listEn l then (s.countP e.wheel 23, false)
  else match s.appendItem (s.wakeItem l e.tag) with
    | some s => (s, false)
    | none => (s, true)

/-- Is the event due: pending, not held back, and its crossing found (R41, R42)? -/
def State.due (s : State) (e : Ev) : Bool :=
  e.fired.isNone && !e.held && s.up e.wheel && decide (policyAct e.policy (s.dom e.copy e.domain).state = .armed) && s.crossed e

/-- When the crossing of a due event came: the estimate reached TARGET, or stood EQUAL to it when the event was accepted, released or
re-based. -/
def State.dueAt (s : State) (e : Ev) : Nat :=
  let c := s.dom e.copy e.domain
  max e.since (if e.here then 0 else c.at_ + c.reach (s.rf R.domCoast 0 e.domain 16 8) (sdiff e.target c.pos 48))

/-- Insert an event, with its place in the order of acceptance, behind those that are not later by `f`. -/
def insertEv (f : Ev → Nat) (e : Ev) : List Ev → List Ev
  | [] => [e]
  | x :: l => if f e < f x then e :: x :: l else x :: insertEv f e l

/-- Events in order of `f`; those equal in it stay in order of acceptance. -/
def sortEvs (f : Ev → Nat) (l : List Ev) : List Ev := l.foldl (fun r e => insertEv f e r) []

/-- Before an edge acts at an instant of the 312.5 ps grid, those of its pin that are due at earlier instants act (R270), whatever their
order of acceptance. -/
def State.placeBefore (s : State) (pin at_ : Nat) : State :=
  let before := s.evs.filter fun x => x.onPin pin && s.due x && !x.placed && decide (s.dueAt x / 375 < at_)
  (sortEvs (fun x => s.dueAt x / 375) before).foldl (fun s x =>
    (s.setEv x (some { x with placed := true })).placeEdge (x.operand % 256) (bits x.operand 8 2) x.domain x.copy x.target) s

/-- A pending event fires with a status (R41, R44, R45): its action, and its completion unless it is a WAKE, or was
decided at acceptance (`quiet`). It is no longer pending; a WAKE whose list cannot take it stays on the wheel. -/
def State.fire (s : State) (e : Ev) (status late : Nat) (quiet : Bool := false) : State :=
  match e.kind with
  | .wake =>
    let (s', stay) := (s.setEv e none).offerWake e
    if stay then (if quiet then { s with evs := s.evs ++ [{ e with fired := some status }] } else s.setEv e (some { e with fired := some status })) else s'
  | .pinEdge =>
    let s := (s.placeBefore (e.operand % 256) ((if quiet || status = 0x01 then s.now else s.dueAt e) / 375)).setEv e none
    let s := if e.placed then s else s.placeEdge (e.operand % 256) (bits e.operand 8 2) e.domain e.copy e.target
    if quiet then s else s.complete e status late
  | .trigger =>
    let s := (s.setEv e none).trigger e.wheel e.domain e.operand e.tag
    if quiet then s else s.complete e status late
  | .gate =>
    let s := (s.setEv e none).setGate e.wheel e.operand
    if quiet then s else s.complete e status late

/-- A pending event completes without firing. -/
def State.endEv (s : State) (e : Ev) (status : Nat) : State := (s.setEv e none).complete e status 0

/-- A pending event is judged against its copy (R42, R44): held, cancelled, late, or armed. `fresh` says that it is
released from HOLD or re-based, so that its crossing may lie behind the estimate. -/
def State.judge (s : State) (e : Ev) (fresh : Bool) : State :=
  if e.fired.isSome then s
  else match policyAct e.policy (s.dom e.copy e.domain).state with
    | .cancel st => s.endEv e st
    | .held => s.setEv e (some { e with held := true })
    | _ =>
      if (fresh || e.held) && e.behind (s.evRel e) then
        if e.noLate then s.endEv e 0x06 else s.fire e 0x01 (s.lateness e)
      else s.setEv e (some { e with held := false, since := if fresh || e.held then s.now else e.since, before := if fresh || e.held then decide (s.evRel e = .before) else e.before, here := if fresh || e.held then decide (s.evRel e = .equal) else e.here })

/-- The pending events of a domain copy, in order of acceptance. -/
def State.evsOf (s : State) (p n : Nat) : List Ev := s.evs.filter fun e => decide (e.copy = p) && decide (e.domain = n)

/-- After a change of state of a copy, its events are judged in order of acceptance. -/
def State.judgeAll (s : State) (p n : Nat) : State := (s.evsOf p n).foldl (fun s e => s.judge e false) s

/-- The step rules at an epoch increment, before any event is evaluated (R43): then every event is judged. -/
def State.stepEvents (s : State) (p n : Nat) (step : Int) : State :=
  let ep := (s.dom p n).epoch
  let s := (s.evsOf p n).foldl (fun s e =>
    if e.fired.isSome then s
    else match e.stepRule with
      | 0 => s.setEv e (some { e with epoch := ep })
      | 1 => s.setEv e (some { e with epoch := ep, target := ((Int.ofNat e.target + step) % (281474976710656 : Int)).toNat })
      | _ => s.endEv e 0x05) s
  (s.evsOf p n).foldl (fun s e => s.judge e (decide (e.stepRule = 0))) s

/-- A due event fires, FIRED or FIRED_ESTIMATE (R42). -/
def State.fireNow (s : State) (e : Ev) : State := s.fire e (if (s.dom e.copy e.domain).state = .locked then 0x00 else 0x02) 0

/-- The tick of 2.5 ns in which the crossing of a due event is found (R28, R45). -/
def State.dueTick (s : State) (e : Ev) : Nat := s.dueAt e / 3000

/-- The events of panel `p` whose crossing was found in a tick before this one have fired (R45): before a copy of the panel takes a new
estimate or a domain is disabled, they do, in order of tick and of acceptance. -/
def State.fireDue (s : State) (p : Nat) : State :=
  let l := s.evs.filter fun e => decide (e.wheel = p) && s.due e && decide (s.dueTick e < s.now / 3000)
  (sortEvs s.dueTick l).foldl (fun s e => s.fireNow (if s.evs.contains e then e else { e with placed := true })) s

/-- Is the event at place `i` of the order of acceptance the next of its panel to fire (R45): none was found in an earlier tick, and
none accepted earlier in the same tick? -/
def State.firesNext (s : State) (i : Nat) (e : Ev) : Bool :=
  s.evs.zipIdx.all fun x => decide (x.2 = i) || decide (x.1.wheel ≠ e.wheel) || !s.due x.1 ||
    decide (s.dueTick e < s.dueTick x.1) || (decide (s.dueTick e = s.dueTick x.1) && decide (i < x.2))

/-- EVENT_FIRE (R41, R42, R45): the pending event at a place of the acceptance order fires if its crossing is found and no other of its
panel is to fire before it. -/
def execEventFire (i : Nat) (s : State) : Host.Outcome State Fault Refusal :=
  match s.evs[i]? with
  | none => .next s
  | some e => if s.due e && s.firesNext i e then .next (s.fireNow e) else .next s

/-- WAKE_RETRY (R104 row 6): a fired WAKE is offered to its list again. -/
def execWakeRetry (i : Nat) (s : State) : Host.Outcome State Fault Refusal :=
  match s.evs[i]? with
  | none => .next s
  | some e =>
    if e.fired.isNone || !s.up e.wheel then .next s
    else
      let (s', stay) := (s.setEv e none).offerWake e
      if stay then .next s else .next s'

-- ------------------------------------------------------------------------------------------------- hook 4 (R184)

/-- Event kinds of R39. -/
def evKindOf : Nat → Option EvKind
  | 0 => some .pinEdge | 1 => some .trigger | 2 => some .gate | 3 => some .wake | _ => none

/-- Check 1 of R40 for the OPERAND (R185, R252, R269, R276). -/
def operandRsv (k : EvKind) (op : Nat) : Bool :=
  match k with
  | .pinEdge | .wake => decide (bits op 10 6 ≠ 0)
  | .trigger => decide (bits op 13 3 ≠ 0) || decide (40 ≤ bits op 0 6)
  | .gate => if bit op 15 then decide (bits op 7 8 ≠ 0) else decide (1152 ≤ bits op 0 11)

/-- Check 2 of R40 for the OPERAND: INVALID. `t` schedules. -/
def State.operandBad (s : State) (t : Nat) (k : EvKind) (op : Nat) : Bool :=
  let p := panelOf t
  match k with
  | .pinEdge =>
    let n := op % 256
    !s.inService || decide (n / 128 ≠ p) || !(decide (s.pinMode n = 2) || decide (s.pinMode n = 3)) ||
      !(s.rb R.tioPown p (n % 128) 9 && decide (s.rf R.tioPown p (n % 128) 0 9 = kOf t)) || (s.pin n).safe ||
      (decide (bits op 8 2 = 3) && decide (s.pinMode n = 3))
  | .wake => !s.listEn (op % 1024)
  | .gate => !(bit op 15) && decide (800 ≤ bits op 0 11)
  | .trigger =>
    let i := bits op 0 6
    let c := bits op 6 3
    let st := bits op 9 4
    !s.rb R.tioScfg0 p st 0 ||
    (if i < 32 then decide (i / 16 ≠ p) || decide (7 < i % 8 + c) || !s.rb R.tioAcfg p (i / 8 % 2) 0
    else decide ((i - 32) / 4 ≠ p) || decide (c ≠ 0) || !s.rb R.tioSdm p ((i - 32) % 4) 0)

/-- The panel whose wheel or comparators an event occupies (R40, R252). -/
def wheelOf (t : Nat) (k : EvKind) (op : Nat) : Nat :=
  match k with
  | .gate => if bit op 15 then panelOf t else portPanel (bits op 0 11)
  | _ => panelOf t

/-- EVT_SCHED's checks and effect (R40, R42, R44, R185): HD lane 0, and the state. -/
def State.schedule (s : State) (t d : Nat) : Nat × State :=
  let n := bits d 64 4
  let pol := bits d 71 2
  let dir := bits d 75 2
  let op := bits d 80 16
  match evKindOf (bits d 68 3) with
  | none => (0x16, s)
  | some k =>
    if bits d 78 2 ≠ 0 || bits d 112 16 ≠ 0 || pol = 3 || bits d 73 2 = 3 || dir = 3 || operandRsv k op then (0x16, s)
    else if !s.domEn n || (dir ≠ 0 && !s.domCyclic n) || s.operandBad t k op then (0x15, s)
    else
      let w := wheelOf t k op
      let p := panelOf t
      let c := s.dom p n
      let target := bits d 0 48
      let off := (target + m48 - s.est p n) % m48
      let e : Ev := { target := target, epoch := bits d 48 16, domain := n, kind := k, policy := pol, stepRule := bits d 73 2, dir := dir, noLate := bit d 77, operand := op, tag := bits d 96 16, strand := t, wheel := w, copy := w, before := false, since := s.now }
      let pinEvs := s.evs.filter fun x => x.onPin (op % 256)
      if c.epoch = 0 then (0x13, s)
      else if e.epoch ≠ c.epoch then (0x12, s)
      else if 2 ^ 46 < off && off < m48 - 2 ^ 46 then (0x14, s)
      else if k = .pinEdge && (4 ≤ pinEvs.length || pinEvs.any fun x => decide (x.domain = n) && decide (x.epoch = e.epoch) && decide (x.target = target)) then (0x11, s)
      else if k ≠ .pinEdge && 4096 ≤ (s.evs.filter fun x => decide (x.wheel = w) && decide (x.kind ≠ .pinEdge)).length then (0x10, s)
      else match policyAct pol (s.dom w n).state with
        | .cancel st => (st, s)
        | .held => (0x100, { s with evs := s.evs ++ [{ e with held := true }] })
        | _ =>
          if e.behind (s.evRel e) then
            if e.noLate then (0x06, s) else (0x01, s.fire e 0x01 0 true)
          else (0x100, { s with evs := s.evs ++ [{ e with before := decide (s.evRel e = .before), here := decide (s.evRel e = .equal) }] })

/-- POS_READ (R184). -/
def execPosRead (t : Nat) (f : HFmt) (s : State) : Host.Outcome State Fault Refusal :=
  .next (s.hookIssue t f { hook := 4, func := 0x00, useHa := false, useMd := true } fun s =>
    let n := f.md.toNat
    let v := if (s.dom (panelOf t) n).epoch = 0 then mkStamp 0 0 n 3 (s.dom (panelOf t) n).origin 0xFFFF else s.stamp (panelOf t) n
    s.hookDone t 4 0x00 f.hd [] v)

/-- POS_ADD (R184). -/
def execPosAdd (t : Nat) (f : HFmt) (s : State) : Host.Outcome State Fault Refusal :=
  let srcs := [f.ha.toNat, f.hb.toNat]
  .next (s.hookIssue t f { hook := 4, func := 0x01, useHb := true, srcs := srcs } fun s =>
    let a := (s.hval t f.ha.toNat).toNat
    let b := (s.hval t f.hb.toNat).toNat
    let v := if bits b 48 80 ≠ 0 then a else setBits a 0 48 ((bits a 0 48 + bits b 0 48) % m48)
    s.hookDone t 4 0x01 f.hd srcs (BitVec.ofNat 128 v))

/-- The comparison of POS_CMP (R26, R184). -/
def posCmp (a b : Nat) : HWord :=
  if bits a 64 4 ≠ bits b 64 4 then hres 0x24
  else if bits a 48 16 ≠ bits b 48 16 || bits a 70 1 ≠ bits b 70 1 then hres 0x25
  else
    let d := (bits a 0 48 + m48 - bits b 0 48) % m48
    let code := match posRel (bits a 0 48) (bits b 0 48) with | .equal => 0x20 | .after => 0x21 | .before => 0x22 | .unordered => 0x23
    mkLanes code (d % 2 ^ 32) (d / 2 ^ 32) 0

/-- POS_CMP (R184). -/
def execPosCmp (t : Nat) (f : HFmt) (s : State) : Host.Outcome State Fault Refusal :=
  let srcs := [f.ha.toNat, f.hb.toNat]
  .next (s.hookIssue t f { hook := 4, func := 0x02, useHb := true, srcs := srcs } fun s =>
    s.hookDone t 4 0x02 f.hd srcs (posCmp (s.hval t f.ha.toNat).toNat (s.hval t f.hb.toNat).toNat))

/-- EVT_SCHED (R184, R185). -/
def execEvtSched (t : Nat) (f : HFmt) (s : State) : Host.Outcome State Fault Refusal :=
  .next (s.hookIssue t f { hook := 4, func := 0x03, srcs := [f.ha.toNat] } fun s =>
    let (v, s) := s.schedule t (s.hval t f.ha.toNat).toNat
    s.hookDone t 4 0x03 f.hd [f.ha.toNat] (hres v))

/-- Does a cancel by TAG of strand `t` reach the event: pending, and its crossing not yet found (R45)? -/
def State.cancels (s : State) (t tag : Nat) (e : Ev) : Bool :=
  decide (e.strand = t) && decide (e.tag = tag) && e.fired.isNone && !s.due e

/-- EVT_CANCEL (R45, R184): an event whose crossing is found in this tick fires first, and the cancel does not reach
it. -/
def execEvtCancel (t : Nat) (f : HFmt) (s : State) : Host.Outcome State Fault Refusal :=
  .next (s.hookIssue t f { hook := 4, func := 0x04, srcs := [f.ha.toNat] } fun s =>
    let tag := bits (s.hval t f.ha.toNat).toNat 0 16
    let n := (s.evs.filter fun e => s.cancels t tag e).length
    let s' := { s with evs := s.evs.filter fun e => !s.cancels t tag e }
    s'.hookDone t 4 0x04 f.hd [f.ha.toNat] (hres (if n = 0 then 0x17 else 0x07 + min n 255 * 256)))

/-- A completion entry (R185). -/
def EvDone.word (d : EvDone) : HWord :=
  mkLanes (d.status + d.domain * 256 + d.kind * 4096 + d.tag * 65536) (d.pos % 2 ^ 32) (d.pos / 2 ^ 32 + d.epoch * 65536) d.late

/-- EVT_POLL (R184). -/
def execEvtPoll (t : Nat) (f : HFmt) (s : State) : Host.Outcome State Fault Refusal :=
  .next (s.hookIssue t f { hook := 4, func := 0x05, useHa := false } fun s =>
    match SMap.get s.evDone [] t with
    | [] => s.hookDone t 4 0x05 f.hd [] (hres 0x17)
    | d :: rest => { s with evDone := SMap.set s.evDone [] t rest }.hookDone t 4 0x05 f.hd [] d.word)

end Sys2Proof.Machine
end

