-- ==== Sys2Proof/Machine/Hook0.lean ====
section
/-! DEFINITION. Hook 0 (crypto): the crypto context and its operations (R178) and the lattice operations (R179). -/

namespace Sys2Proof.Machine

/-- The key of a slot of the strand's panel, if one of `n` bytes is loaded. -/
def State.keyOf (s : State) (t slot n : Nat) : Option (List Byte) :=
  match SMap.find s.sec.keys (panelOf t * 1024 + slot) with
  | some k => if k.length = n then some k else none
  | none => none

/-- The slot number in bits [9:0] of a hook register's lane 0. -/
def State.slotIn (s : State) (t : Nat) (r : BitVec 4) : Nat := bits (s.hval t r.toNat).toNat 0 10

/-- The crypto context of the running bank. -/
def State.cctx (s : State) (t : Nat) : CryptoCtx := (s.bank t).crypto

/-- The mode that CTX_INIT sets by MOD (R178). -/
def initMode (md : Nat) : CMode :=
  if md ≤ 1 then .gcm else if md ≤ 3 then .cmac else if md = 4 then .sha3 else if md = 5 then .shake128 else .shake256

/-- What a held operation of hook 0 will make of the context's mode and of whether it has started. -/
def heldCtx (c : CryptoCtx) (o : HookOp) : CryptoCtx :=
  match o.func with
  | 0x00 => { mode := initMode ((o.fmt.map fun f => f.md.toNat).getD 0) }
  | 0x02 | 0x03 | 0x08 | 0x13 => { c with started := true }
  | 0x05 => { c with started := false }
  | _ => c

/-- The context as decode judges a refusal by it (R175): the operations that the unit still holds come first. -/
def State.cctxSeen (s : State) (t : Nat) : CryptoCtx :=
  let x := s.strand t
  (x.ops.filter fun o => decide (o.hook = 0) && decide (o.wait = .held) && decide (o.bank = b2n x.inB1)).foldl heldCtx (s.cctx t)

/-- A key that an operation reads at decode; a held operation has kept it. -/
def State.decKey (s : State) (t : Nat) (key : Option (List Byte)) : Option (List Byte) :=
  match (s.strand t).running with
  | some o => some o.key
  | none => key

/-- Write the crypto context; between commands both copies agree (R172). -/
def State.setCctx (s : State) (t : Nat) (c : CryptoCtx) : State :=
  s.setBank t { s.bank t with crypto := c, cryptoC := c }

/-- An operation without HD is outstanding until it completes. -/
def State.cryptoDone (s : State) (t func : Nat) (srcs : List Nat) : State :=
  s.pushOp t { hook := 0, func := func, srcs := srcs }

/-- Is the context in GCM mode? -/
def isGcm (c : CryptoCtx) : Bool := decide (c.mode = .gcm)
/-- Is it in CMAC mode? -/
def isCmac (c : CryptoCtx) : Bool := decide (c.mode = .cmac)
/-- Is it in a Keccak mode? -/
def isKeccak (c : CryptoCtx) : Bool := decide (c.mode = .sha3) || decide (c.mode = .shake128) || decide (c.mode = .shake256)

/-- The refusal CONTEXT (R175). -/
def ctxRefuse (ok : Bool) : Option Nat := if ok then none else some 3

/-- CTX_INIT (R178). -/
def execCtxInit (t : Nat) (f : HFmt) (s : State) : Host.Outcome State Fault Refusal :=
  let md := f.md.toNat
  let len := if md % 2 = 0 then 16 else 32
  let keyed := decide (md ≤ 3)
  let key := s.decKey t (s.keyOf t (s.slotIn t f.ha) len)
  .next (s.hookIssue t f { hook := 0, func := 0x00, key := key.getD [], useHd := false, useHb := true, useMd := true, srcs := if keyed then [f.ha.toNat, f.hb.toNat] else [], mdBad := decide (6 < md), refuse := if keyed && key.isNone then some 1 else none, refDeps := if keyed then [f.ha.toNat] else [] } fun s =>
    let c : CryptoCtx :=
      if md ≤ 1 then { mode := .gcm, key := key.getD [], iv := s.hbytesOf t f.hb.toNat 12 }
      else if md ≤ 3 then { mode := .cmac, key := key.getD [] }
      else { mode := initMode md }
    (s.setCctx t c).cryptoDone t 0x00 [])

/-- AAD (R178). -/
def execAad (t : Nat) (f : HFmt) (s : State) : Host.Outcome State Fault Refusal :=
  let c := s.cctx t
  .next (s.hookIssue t f { hook := 0, func := 0x01, useHd := false, useMd := true, srcs := [f.ha.toNat], refuse := ctxRefuse (isGcm (s.cctxSeen t) && !(s.cctxSeen t).started) } fun s =>
    (s.setCctx t { c with aad := c.aad ++ s.hbytesOf t f.ha.toNat (f.md.toNat + 1) }).cryptoDone t 0x01 [f.ha.toNat])

/-- The bytes ENC or DEC gives: the input with the keystream at the message's position. -/
def gcmXor (c : CryptoCtx) (bs : List Byte) : List Byte := xorBytes bs (gcmStream c.key c.iv c.msg.length bs.length)

/-- ENC (R178). -/
def execEnc (t : Nat) (f : HFmt) (s : State) : Host.Outcome State Fault Refusal :=
  let c := s.cctx t
  .next (s.hookIssue t f { hook := 0, func := 0x02, useMd := true, srcs := [f.ha.toNat], refuse := ctxRefuse (isGcm (s.cctxSeen t)) } fun s =>
    let ct := gcmXor c (s.hbytesOf t f.ha.toNat (f.md.toNat + 1))
    (s.setCctx t { c with msg := c.msg ++ ct, started := true }).hookDone t 0 0x02 f.hd [f.ha.toNat] (ofHbytes (sliceZ ct 0 16)))

/-- DEC (R178). -/
def execDec (t : Nat) (f : HFmt) (s : State) : Host.Outcome State Fault Refusal :=
  let c := s.cctx t
  .next (s.hookIssue t f { hook := 0, func := 0x03, useMd := true, srcs := [f.ha.toNat], refuse := ctxRefuse (isGcm (s.cctxSeen t)) } fun s =>
    let ct := s.hbytesOf t f.ha.toNat (f.md.toNat + 1)
    (s.setCctx t { c with msg := c.msg ++ ct, started := true }).hookDone t 0 0x03 f.hd [f.ha.toNat] (ofHbytes (sliceZ (gcmXor c ct) 0 16)))

/-- MAC (R178). -/
def execMac (t : Nat) (f : HFmt) (s : State) : Host.Outcome State Fault Refusal :=
  let c := s.cctx t
  .next (s.hookIssue t f { hook := 0, func := 0x04, useHd := false, useMd := true, srcs := [f.ha.toNat], refuse := ctxRefuse (isCmac (s.cctxSeen t)) } fun s =>
    (s.setCctx t { c with msg := c.msg ++ s.hbytesOf t f.ha.toNat (f.md.toNat + 1) }).cryptoDone t 0x04 [f.ha.toNat])

/-- The tag of a GCM or CMAC context. -/
def ctxTag (c : CryptoCtx) : List Byte := if isGcm c then gcmTag c.key c.iv c.aad c.msg else cmac c.key c.msg

/-- TAG (R178): the context returns to the state it had after CTX_INIT. -/
def execTag (t : Nat) (f : HFmt) (s : State) : Host.Outcome State Fault Refusal :=
  let c := s.cctx t
  .next (s.hookIssue t f { hook := 0, func := 0x05, useHa := false, refuse := ctxRefuse (isGcm (s.cctxSeen t) || isCmac (s.cctxSeen t)) } fun s =>
    (s.setCctx t { c with started := false, aad := [], msg := [], outPos := 0 }).hookDone t 0 0x05 f.hd [] (ofHbytes (ctxTag c)))

/-- TAGCHK (R178): the first n = MOD + 1 bytes, n = 4–16. -/
def execTagchk (t : Nat) (f : HFmt) (s : State) : Host.Outcome State Fault Refusal :=
  let c := s.cctx t
  let n := f.md.toNat + 1
  .next (s.hookIssue t f { hook := 0, func := 0x06, useMd := true, srcs := [f.ha.toNat], mdBad := decide (n < 4), refuse := ctxRefuse (isGcm (s.cctxSeen t) || isCmac (s.cctxSeen t)) } fun s =>
    s.hookDone t 0 0x06 f.hd [f.ha.toNat] (hres (if (ctxTag c).take n = s.hbytesOf t f.ha.toNat n then 0x00 else 0x0D)))

/-- ABSORB (R178). -/
def execAbsorb (t : Nat) (f : HFmt) (s : State) : Host.Outcome State Fault Refusal :=
  let c := s.cctx t
  .next (s.hookIssue t f { hook := 0, func := 0x07, useHd := false, useMd := true, srcs := [f.ha.toNat], refuse := ctxRefuse (isKeccak (s.cctxSeen t) && !(s.cctxSeen t).started) } fun s =>
    (s.setCctx t { c with msg := c.msg ++ s.hbytesOf t f.ha.toNat (f.md.toNat + 1) }).cryptoDone t 0x07 [f.ha.toNat])

/-- `n` output bytes of a Keccak context from its position; SHA3-512 gives 64 bytes, then zeros. -/
def keccakOut (c : CryptoCtx) (n : Nat) : List Byte :=
  match c.mode with
  | .sha3 => sliceZ (sha3_512 c.msg) c.outPos n
  | .shake128 => spongeOut 168 0x1F c.msg c.outPos n
  | _ => spongeOut 136 0x1F c.msg c.outPos n

/-- SQUEEZE (R178). -/
def execSqueeze (t : Nat) (f : HFmt) (s : State) : Host.Outcome State Fault Refusal :=
  let c := s.cctx t
  .next (s.hookIssue t f { hook := 0, func := 0x08, useHa := false, refuse := ctxRefuse (isKeccak (s.cctxSeen t)) } fun s =>
    (s.setCctx t { c with started := true, outPos := c.outPos + 16 }).hookDone t 0 0x08 f.hd [] (ofHbytes (keccakOut c 16)))

/-- One AES block under the key slot in HB lane 0 (R178). -/
def State.aesOp (s : State) (t : Nat) (f : HFmt) (func : Nat) (op : List Byte → List Byte → List Byte) : State :=
  let key := s.decKey t (s.keyOf t (s.slotIn t f.hb) (if f.md = 0#4 then 16 else 32))
  s.hookIssue t f { hook := 0, func := func, key := key.getD [], useHb := true, useMd := true, srcs := [f.ha.toNat, f.hb.toNat], mdBad := decide (1 < f.md.toNat), refuse := if key.isNone then some 1 else none, refDeps := [f.hb.toNat] } fun s =>
    s.hookDone t 0 func f.hd [f.ha.toNat, f.hb.toNat] (ofHbytes (op (key.getD []) (s.hbytesOf t f.ha.toNat 16)))

/-- AES_ENC (R178). -/
def execAesEnc (t : Nat) (f : HFmt) (s : State) : Host.Outcome State Fault Refusal := .next (s.aesOp t f 0x09 aesEnc)

/-- AES_DEC (R178). -/
def execAesDec (t : Nat) (f : HFmt) (s : State) : Host.Outcome State Fault Refusal := .next (s.aesOp t f 0x0A aesDec)

/-- May a lattice operation use the polynomial at a strand address (R179): 1 KiB aligned, in course shared SRAM, not in
an executable region? -/
def State.polyOk (s : State) (t a : Nat) : Bool :=
  decide (a % 1024 = 0) && decide (0x00200000 ≤ a) && decide (a < 0x00300000) && !bit (s.strand t).xmask ((a - 0x00200000) / 65536)

/-- The 256 coefficients of a polynomial. -/
def State.polyRead (s : State) (t a : Nat) : List Nat :=
  (List.range 256).map fun i => leVal (s.memRead t (a + 4 * i) 4)

/-- Write a polynomial. -/
def State.polyWrite (s : State) (t a : Nat) (w : List Nat) : State :=
  s.memWrite t a (w.flatMap fun x => leBytes 4 x)

/-- Coefficients with the undefined ones (R179) replaced by free values. -/
def State.freeWhere (s : State) (bad : Nat → Bool) (w : List Nat) : List Nat × State :=
  (w.zipIdx).foldl (fun acc e =>
    if bad e.2 then
      let (v, s) := acc.2.freeW
      (acc.1 ++ [v.toNat], s)
    else (acc.1 ++ [e.1], acc.2)) ([], s)

/-- A lattice operation that answers a status (R179). -/
def State.latOp (s : State) (t : Nat) (f : HFmt) (func : Nat) (md : Bool) (refuse : Option Nat) (addrs : List Nat)
    (body : State → State) : State :=
  s.hookIssue t f { hook := 0, func := func, useMd := md, srcs := [f.ha.toNat], mdBad := md && decide (1 < f.md.toNat), refuse := refuse } fun s =>
    if addrs.all fun a => s.polyOk t a then (body s).hookDone t 0 func f.hd [f.ha.toNat] (hres 0x00)
    else s.hookDone t 0 func f.hd [f.ha.toNat] (hres 0x0B)

/-- A strand address in lane `l` of HA. -/
def State.haLane (s : State) (t : Nat) (f : HFmt) (l : Nat) : Nat := (hlane (s.hval t f.ha.toNat) l).toNat

/-- LAT_NTT (R178, R179): in place; MOD 0 forward, 1 inverse. With a coefficient of q or above every coefficient of the
result depends on it, so each is undefined. -/
def execLatNtt (t : Nat) (f : HFmt) (s : State) : Host.Outcome State Fault Refusal :=
  let a := s.haLane t f 0
  .next (s.latOp t f 0x10 true none [a] fun s =>
    let w := s.polyRead t a
    let bad := w.any fun x => decide (latQ ≤ x)
    let (r, s) := s.freeWhere (fun _ => bad) (if f.md = 0#4 then latNtt w else latIntt w)
    s.polyWrite t a r)

/-- A coefficient-wise operation on two polynomials (R178, R179). -/
def State.latPoint (s : State) (t a b c : Nat) (op : Nat → Nat → Nat) : State :=
  let x := s.polyRead t b
  let y := s.polyRead t c
  let (r, s) := s.freeWhere (fun i => decide (latQ ≤ x.getD i 0) || decide (latQ ≤ y.getD i 0)) (List.zipWith op x y)
  s.polyWrite t a r

/-- LAT_PMUL (R178, R179). -/
def execLatPmul (t : Nat) (f : HFmt) (s : State) : Host.Outcome State Fault Refusal :=
  let a := s.haLane t f 0
  let b := s.haLane t f 1
  let c := s.haLane t f 2
  .next (s.latOp t f 0x11 false none [a, b, c] fun s => s.latPoint t a b c fun x y => x * y % latQ)

/-- LAT_PADD (R178, R179): MOD 0 sum, 1 difference. -/
def execLatPadd (t : Nat) (f : HFmt) (s : State) : Host.Outcome State Fault Refusal :=
  let a := s.haLane t f 0
  let b := s.haLane t f 1
  let c := s.haLane t f 2
  .next (s.latOp t f 0x12 true none [a, b, c] fun s =>
    s.latPoint t a b c fun x y => if f.md = 0#4 then (x + y) % latQ else (x + latQ - y) % latQ)

/-- Rejection sampling of 23-bit values below q from a byte stream: the values and the bytes used. -/
def rejSample : Nat → List Byte → List Nat → Nat → List Nat × Nat
  | 0, _, acc, used => (acc, used)
  | n + 1, bs, acc, used =>
    if acc.length = 256 then (acc, used)
    else match bs with
      | a :: b :: c :: rest =>
        let v := (a.toNat + b.toNat * 256 + c.toNat * 65536) % 2 ^ 23
        rejSample n rest (if v < latQ then acc ++ [v] else acc) (used + 3)
      | _ => (acc, used)

/-- LAT_EXPAND (R178, R179): from a SHAKE128 context, whose output position moves on by the bytes used. The stream is
taken 1,024 samples deep, of which 256 are accepted but for an event of probability below 2^−1000, in which the rest of
the polynomial is free (log entry 21). -/
def execLatExpand (t : Nat) (f : HFmt) (s : State) : Host.Outcome State Fault Refusal :=
  let a := s.haLane t f 0
  let c := s.cctx t
  .next (s.latOp t f 0x13 false (ctxRefuse (decide ((s.cctxSeen t).mode = .shake128))) [a] fun s =>
    let r := rejSample 1024 (keccakOut c 3072) [] 0
    let z := s.freeWhere (fun i => decide (r.1.length ≤ i)) (r.1 ++ List.replicate (256 - r.1.length) 0)
    (z.2.setCctx t { c with started := true, outPos := c.outPos + r.2 }).polyWrite t a z.1)

end Sys2Proof.Machine
end

