-- ==== Sys2Proof/Machine/HookRun.lean ====
section
/-! DEFINITION. The units at work (R172–R174): the execution of an operation that its unit has held, and the arrival of a result. -/

namespace Sys2Proof.Machine

/-- The meaning of a FUNC of a hook, by number (R178–R187). -/
def hookMeaning (hook func t : Nat) (f : HFmt) (s : State) : Host.Outcome State Fault Refusal :=
  match hook, func with
  | 0, 0x00 => execCtxInit t f s
  | 0, 0x01 => execAad t f s
  | 0, 0x02 => execEnc t f s
  | 0, 0x03 => execDec t f s
  | 0, 0x04 => execMac t f s
  | 0, 0x05 => execTag t f s
  | 0, 0x06 => execTagchk t f s
  | 0, 0x07 => execAbsorb t f s
  | 0, 0x08 => execSqueeze t f s
  | 0, 0x09 => execAesEnc t f s
  | 0, 0x0A => execAesDec t f s
  | 0, 0x10 => execLatNtt t f s
  | 0, 0x11 => execLatPmul t f s
  | 0, 0x12 => execLatPadd t f s
  | 0, 0x13 => execLatExpand t f s
  | 1, 0x00 => execEmLookup t f s
  | 1, 0x01 => execLpmLookup t f s
  | 1, 0x02 => execL2Lookup t f s
  | 1, 0x03 => execFlowFind t f s
  | 2, 0x00 => execCsum t f s
  | 2, 0x01 => execCrc32c t f s
  | 2, 0x02 => execCrc32 t f s
  | 2, 0x03 => execCrc8 t f s
  | 2, 0x04 => execCrc16 t f s
  | 2, 0x05 => execCsumPkt t f s
  | 2, 0x06 => execHash64 t f s
  | 3, 0x00 => execFlowRead t f s
  | 3, 0x01 => execFlowReadx t f s
  | 3, 0x02 => execFlowGet t f s
  | 3, 0x03 => execFlowAdd t f s
  | 3, 0x04 => execFlowSet t f s
  | 3, 0x05 => execFlowCas t f s
  | 3, 0x06 => execFlowInsert t f s
  | 3, 0x07 => execFlowDelete t f s
  | 4, 0x00 => execPosRead t f s
  | 4, 0x01 => execPosAdd t f s
  | 4, 0x02 => execPosCmp t f s
  | 4, 0x03 => execEvtSched t f s
  | 4, 0x04 => execEvtCancel t f s
  | 4, 0x05 => execEvtPoll t f s
  | 5, 0x00 => execAlloc t f s
  | 5, 0x01 => execFreeBuf t f s
  | 6, 0x00 => execPktRd t f s
  | 6, 0x01 => execPktWr t f s
  | 6, 0x02 => execPktIns t f s
  | 6, 0x03 => execPktStrip t f s
  | 6, 0x04 => execPktMove t f s
  | 6, 0x08 => execAcfPack t f s
  | 6, 0x09 => execAcfUnpack t f s
  | _, _ => .next s

/-- Can a unit execute operation `i`, which it has held: every source has arrived, and the strand's earlier operations at this unit
have executed (R173), and its item can be reached? -/
def State.canRun (s : State) (t i : Nat) : Bool :=
  let x := s.strand t
  match x.ops[i]? with
  | none => false
  | some o => decide (o.wait = .held) && !s.hookCut t o.hook o.func o.ll && (o.srcs.all fun r => (SMap.find o.caps r).isSome) &&
      (x.ops.take i).all fun q => decide (q.hook ≠ o.hook) || q.isReady

/-- Does the operation act for an item that its bank no longer holds (a replay has taken it away, R117)? -/
def Strand.lostItem (x : Strand) (o : HookOp) : Bool :=
  match o.ll with
  | none => false
  | some k => let b := x.bk (decide (o.bank = 1)); !b.hasItem || decide (b.item ≠ some k)

/-- A unit executes operation `i`, which it has held: its meaning runs in the operation's bank, and its outcome takes its place. An
operation whose item has gone answers NO_ITEM and does nothing (DEDUCED, log entry 92). -/
def State.runOp (s : State) (t i : Nat) : State :=
  let x := s.strand t
  match x.ops[i]? with
  | none => s
  | some o => match o.fmt with
    | none => s
    | some f =>
      if x.lostItem o then s.setStrand t { x with ops := x.ops.set i (o.answer (hres 0x0C)) }
      else
        let rest := x.ops.eraseIdx i
        let s' := s.setStrand t { x with ops := rest, inB1 := decide (o.bank = 1), running := some o }
        match hookMeaning o.hook o.func t f s' with
        | .next s =>
          let y := s.strand t
          s.setStrand t { y with ops := y.ops.take i ++ y.ops.drop rest.length ++ (y.ops.take rest.length).drop i, inB1 := x.inB1, running := none }
        | _ => s

/-- The units execute the strand's held operations that can execute, in the order in which they were issued. -/
def State.runHeld (s : State) (t : Nat) : Nat → State
  | 0 => s
  | n + 1 =>
    match firstIdx (s.strand t).ops.length fun i => s.canRun t i with
    | none => s
    | some i => (s.runOp t i).runHeld t n

/-- The units execute what they held of every strand: the bridge is back (R372). -/
def State.runAllHeld (s : State) : State := (s.strands.map (·.1)).foldl (fun s t => s.runHeld t 8) s

/-- A result arrives in a source register of the operations that wait for it. -/
def Strand.capture (x : Strand) (bank r : Nat) (v : HWord) : Strand :=
  { x with ops := x.ops.map fun o =>
      if o.wait = .held && decide (o.bank = bank) && o.srcs.contains r && (SMap.find o.caps r).isNone then { o with caps := SMap.put o.caps r v } else o }

/-- May operation `i` of a strand's outstanding operations deliver its result: it has executed, and the earlier operations of
its unit have delivered theirs (R173)? -/
def Strand.opMayArrive (x : Strand) (i : Nat) : Bool :=
  match x.ops[i]? with
  | none => false
  | some o => o.isReady && (x.ops.take i).all fun q => decide (q.hook ≠ o.hook)

/-- HOOK_RESULT_ARRIVE (R172, R173, R174): the result is written to HD, committed with its arrival, and the hit
information of a lookup is recorded (R180, R197); operations that waited for it, or behind it, execute. -/
def execHookResultArrive (t i : Nat) (s : State) : Host.Outcome State Fault Refusal :=
  let x := s.strand t
  match x.ops[i]? with
  | none => .next s
  | some o =>
    if !x.opMayArrive i then .next s
    else
      let b := decide (o.bank = 1)
      let x := { x with ops := x.ops.eraseIdx i }
      let x := match o.hd with
        | some r => (x.setBk b ((x.bk b).wh r o.val)).capture o.bank r o.val
        | none => x
      let s := s.setStrand t x
      let s := if o.hook = 1 && o.off = 1 then s.hitEnt (panelOf t) o.ridx o.key else s
      .next (s.runHeld t 8)

end Sys2Proof.Machine
end

