-- ==== Sys2Proof/Machine/Chart.lean ====
section
/-! DEFINITION. Chart versions (R92–R95) and strand endpoints (R161). -/

namespace Sys2Proof.Machine

-- ------------------------------------------------------------------------------------------------------- validation

/-- Do the lookup slots of a bank pass R93? -/
def State.slotsValid (s : State) (slot : Nat) : Bool :=
  let w (i k : Nat) : Nat := (s.bankW slot (0x2900 / 4 + 32 * i + k)).toNat
  let on := idxs 16 fun i => bit (w i 0) 0
  let prec (i : Nat) : Nat := bits (w i 0) 4 4
  let segs (i : Nat) : List (Nat × Nat) := [(1, 0), (1, 16), (2, 0), (2, 16)].map fun e => (bits (w i e.1) e.2 (if e.2 = 0 then 7 else 8), bits (w i e.1) (e.2 + 8) 7)
  let table (i : Nat) : Nat := bits (w i 0) 8 6
  (on.all fun i => on.all fun j => decide (i = j) || decide (prec i ≠ prec j)) &&
  on.all fun i => isEm (s.tblKind (table i)) && s.tblRule (table i) &&
    decide (sumN ((segs i).map (·.2)) ≤ keyWidth (s.tblKind (table i))) && (segs i).all fun e => decide (e.1 + e.2 ≤ 128)

/-- Do the field table and the states of a bank pass R93? -/
def State.graphValid (s : State) (slot : Nat) : Bool :=
  ((s.bankRange slot (0x2800 / 4) 64).all fun e => !bit e.2 31 || (decide (16 ≤ bits e.2 24 7) && decide (bits e.2 24 7 + bits e.2 16 4 + 1 ≤ 128))) &&
  (s.bankRange slot 0 512).all fun e => !(decide (e.1 % 2 = 1) && bit e.2 24) ||
    (let w0 := (s.bankW slot (e.1 - 1)).toNat; !(decide (bits w0 24 2 = 0) && decide (bits w0 16 8 = 0)))

/-- Validation of a bank (R93). -/
def State.chartValid (s : State) (slot : Nat) : Bool :=
  let lim := (s.bankW slot (0x3108 / 4)).toNat
  s.slotsValid slot && s.graphValid slot && decide (bits lim 10 2 ≠ 0) && decide (64 ≤ bits lim 0 10) && decide (bits lim 0 10 ≤ 512)

-- ----------------------------------------------------------------------------------------------------------- commits

/-- The generation in STAGING. -/
def State.stagingGen (s : State) : Nat := (s.chr.curGen + 1) % 65536

/-- A commit (R92) with EXPECT: the first check that matches decides, and LAST records it. -/
def State.commitChart (s : State) (expect : Nat) : State :=
  let last (k : Nat) : State := { s with chr := { s.chr with last := k } }
  if expect ≠ s.stagingGen then last 2
  else if s.chr.draining.isSome then last 3
  else if !s.stageReady then last 4
  else if !s.md.bridge && s.up 0 && s.up 1 then last 6
  else if !s.chartValid (expect % 4) then last 5
  else { s with chr := { s.chr with last := 1, draining := some s.chr.curGen, curGen := expect, passes := s.chr.passes ++ [.copy] } }

/-- Frames of a generation in flight on a panel (R95): those that hold a marker that HEAD has not passed. -/
def State.genCount (s : State) (p g : Nat) : Nat :=
  sumN ((s.odoms.filter fun e => decide (e.1 / 16384 = p)).map fun e => (e.2.gens.filter fun x => decide (x.2 = g)).length)

/-- GENERATION_RETIRE (R95): the DRAINING generation has no frame left on any powered panel; a retire pass is queued. -/
def execGenerationRetire (s : State) : Host.Outcome State Fault Refusal :=
  match s.chr.draining with
  | none => .next s
  | some g =>
    let busy (p : Nat) : Bool := s.reachable p && decide (s.genCount p g ≠ 0)
    if busy 0 || busy 1 then .next s
    else .next { s with chr := { s.chr with draining := none, passes := s.chr.passes ++ [.retire (g % 4)] } }

-- --------------------------------------------------------------------------------------------------------- endpoints

/-- ENDPOINT_DELIVERY (R161): endpoint `e` delivers the frame that waits longest in the highest class, if its yarn has room: a
buffer is allocated and filled, and a 4-word message is sent. -/
def execEndpointDelivery (e : Nat) (s : State) : Host.Outcome State Fault Refusal :=
  let c := s.sepCourse e
  let p := coursePanel c
  let key := c * 64 + s.rf R.sepCfg 0 e 4 6
  if 43 ≤ e || !s.epOk e || !s.up p || 8 ≤ (s.yarn key).count then .next s
  else match s.innerHead p (1109 + e) with
    | none => .next s
    | some (tc, n, f) =>
      let s := (s.popQueue p (1109 + e) tc).delFrame n
      let q := SMap.get s.yrn.epSeq 0 e
      let s := s.offerEp (1109 + e)
      let len := f.bytes.length
      match s.allocBuf (.endpoint e) (s.rf R.sepCfg 0 e 10 4) len false with
      | (0, a, _, s) =>
        let s := s.devWrite p a f.bytes
        let m := [w32 a, w32 (a / 2 ^ 32 % 256 + (len % 16384) * 256 + tc * 2 ^ 22), w32 f.ingress, w32 q]
        .next (s.setYarn key { s.yarn key with transit := (s.yarn key).transit ++ [m] })
      | (_, _, _, s) => .next (s.count 6 e 0)

end Sys2Proof.Machine
end

