-- ==== Sys2Proof/Machine/HostOps.lean ====
section
/-! DEFINITION. The host engine's transport and rings (R300–R309) and its failover (R305, R315, R316): acknowledgements,
retransmission, the rate law, RDMA from the host, doorbells and the fetching of commands. -/

namespace Sys2Proof.Machine

/-- HST_HCFG.FAILOVER. -/
def State.failoverEn (s : State) : Bool := s.rb R.hstHcfg 0 0 0

/-- The panel whose host engine serves the queue pairs (R301). -/
def State.hostPanel (s : State) : Nat := b2n s.hst.port2

/-- Is a QP in RTS, with its engine's panel in service (R301, R302)? -/
def State.qpOpen (s : State) (n : Nat) : Bool := decide ((s.qp n).state = 1) && s.up s.hostPanel

/-- A QP enters ERROR (R302): its rings stop, its work requests are discarded and a QP_ERROR event is raised. -/
def State.qpError (s : State) (n cause : Nat) : State :=
  let q := s.qp n
  let s := s.setQp n { q with state := 2, sq := [], rnr := false }
  s.postEvent 7 0 s.hostPanel (leBytes 4 (n % 64 + cause * 256))

/-- The cause of a QP that ran out of retransmissions: RETRY, or BOTH_LINKS_DOWN where port 0 and port 2 are down (R317). -/
def State.retryCause (s : State) : Nat := if s.linkOf 0 = .up || s.linkOf 2 = .up then 0 else 3

/-- Send every request again, from the first unacknowledged PSN (R302). -/
def State.resendAll (s : State) (n : Nat) : State := (s.qp n).sq.foldl (fun s w => s.sendWqe n w) s

/-- Retransmit from the first unacknowledged PSN; after RETRY times without progress the QP enters ERROR (R302). -/
def State.retransmit (s : State) (n : Nat) : State :=
  let q := s.qp n
  if s.rf R.hstQp0 0 n 3 3 ≤ q.tries then s.qpError n s.retryCause
  else (s.setQp n { q with tries := q.tries + 1, sentAt := s.now }).resendAll n

/-- Is PSN `a` behind PSN `b`? -/
def psnBehind (a b : Nat) : Bool := decide (8388608 ≤ (a + 16777216 - b % 16777216) % 16777216)

/-- The requests of a send queue whose last packet `psn` acknowledges, and the rest, with what it acknowledges of the first. A READ is
answered by its data, not by an acknowledgement. -/
def ackSplit (psn : Nat) : List Wqe → List Wqe × List Wqe
  | [] => ([], [])
  | w :: ws =>
    if w.kind = .read || psnBehind psn w.psn then ([], w :: ws)
    else if psnBehind psn ((w.psn + w.npkts - 1) % 16777216) then ([], { w with acks := max w.acks ((psn + 16777217 - w.psn) % 16777216) } :: ws)
    else let r := ackSplit psn ws; (w :: r.1, r.2)

/-- The peer has acknowledged every packet up to `psn`. -/
def State.acked (s : State) (n psn : Nat) : State :=
  let q := s.qp n
  let r := ackSplit psn q.sq
  let progress := decide (r.2 ≠ q.sq)
  let s := s.setQp n { q with sq := r.2, tries := if progress then 0 else q.tries, rnrTries := if progress then 0 else q.rnrTries, rnr := q.rnr && !progress, sentAt := if progress then s.now else q.sentAt }
  r.1.foldl (fun s w => match w.jrec with | some j => s.jrnlWritten j | none => s) s

/-- The data of a READ with first PSN `psn` arrives: it acknowledges what was sent before it. Data out of its turn is discarded (none). -/
def State.readDone (s : State) (n psn : Nat) : Option State :=
  let s := s.acked n ((psn + 16777215) % 16777216)
  let q := s.qp n
  match q.sq with
  | w :: ws => if w.kind = .read && decide (w.psn = psn) then some (s.setQp n { q with sq := ws, tries := 0, rnrTries := 0, rnr := false, sentAt := s.now }) else none
  | [] => none

/-- A packet marked CE: one congestion notification packet in any 50 µs goes to the peer (R304). -/
def State.noteCe (s : State) (n : Nat) (ce : Bool) : State :=
  let q := s.qp n
  if ce && (match q.cnpAt with | none => true | some t => decide (t + 50 * usU ≤ s.now)) then
    (s.setQp n { q with cnpAt := some s.now }).emit (.cnp (s.wire n 0))
  else s

/-- ACK_RECEIVE (R302): an acknowledgement, a sequence-error NAK, an RNR NAK, or another NAK, as the syndrome of the
acknowledgement header codes it ([6:5] 0 ACK, 1 RNR NAK, 3 NAK with code 0 for a sequence error; log entry 40). -/
def execAckReceive (qp psn : Nat) (syndrome : BitVec 8) (ce : Bool) (s : State) : Host.Outcome State Fault Refusal :=
  let n := qp % 64
  let v := syndrome.toNat
  if !s.qpOpen n then .next s
  else
    let s := s.noteCe n ce
    .next (match bits v 5 2 with
      | 0 => s.acked n psn
      | 1 =>
        let s := s.acked n ((psn + 16777215) % 16777216)
        if (s.qp n).sq.isEmpty then s else s.setQp n { s.qp n with rnr := true, rnrAt := s.now }
      | 3 =>
        if bits v 0 5 = 0 then
          let s := s.acked n ((psn + 16777215) % 16777216)
          if (s.qp n).sq.isEmpty then s else s.retransmit n
        else s.qpError n 2
      | _ => s)

/-- ACK_TIMEOUT (R302): no acknowledgement within 4.096 µs × 2^ACKTO. -/
def execAckTimeout (qp : Nat) (s : State) : Host.Outcome State Fault Refusal :=
  let n := qp % 64
  let q := s.qp n
  if s.qpOpen n && !q.sq.isEmpty && !q.rnr && decide (q.sentAt + 4915200 * 2 ^ s.rf R.hstQp0 0 n 6 5 ≤ s.now) then .next (s.retransmit n)
  else .next s

/-- RNR_RETRY (R302): a retry every 10 µs, up to RETRY times. -/
def execRnrRetry (qp : Nat) (s : State) : Host.Outcome State Fault Refusal :=
  let n := qp % 64
  let q := s.qp n
  if s.qpOpen n && q.rnr && decide (q.rnrAt + 10 * usU ≤ s.now) then
    if s.rf R.hstQp0 0 n 3 3 ≤ q.rnrTries then .next (s.qpError n 1)
    else .next ((s.setQp n { q with rnr := false, rnrTries := q.rnrTries + 1, sentAt := s.now }).resendAll n)
  else .next s

/-- The line rate of R304. -/
def lineRate : Rat := 100000

/-- CNP_RECEIVE (R304): at most one is acted on per QP in 50 µs. -/
def execCnpReceive (qp : Nat) (s : State) : Host.Outcome State Fault Refusal :=
  let n := qp % 64
  let q := s.qp n
  let open_ := match q.cutAt with | none => true | some t => decide (t + 50 * usU ≤ s.now)
  if s.qpOpen n && open_ then
    let g : Rat := 1 / ((2 : Nat) ^ s.rf R.hstCc 0 0 0 4 : Nat)
    let rmin : Rat := ((100 * s.rf R.hstCc 0 0 18 10 : Nat) : Rat)
    .next (s.setQp n { q with rt := q.rc, rc := max rmin (q.rc * (1 - q.alpha / 2)), alpha := q.alpha + g * (1 - q.alpha), n := 0, cutAt := some s.now, tickAt := s.now })
  else .next s

/-- RATE_INCREASE (R304): 55 µs have passed in which no CNP was acted on. -/
def execRateIncrease (qp : Nat) (s : State) : Host.Outcome State Fault Refusal :=
  let n := qp % 64
  let q := s.qp n
  if s.qpOpen n && decide (q.tickAt + 55 * usU ≤ s.now) then
    let g : Rat := 1 / ((2 : Nat) ^ s.rf R.hstCc 0 0 0 4 : Nat)
    let rt := if 5 < q.n + 1 then min lineRate (q.rt + ((s.rf R.hstCc 0 0 4 14 : Nat) : Rat)) else q.rt
    .next (s.setQp n { q with alpha := q.alpha * (1 - g), n := q.n + 1, rt := rt, rc := min lineRate ((q.rc + rt) / 2), tickAt := s.now })
  else .next s

-- ------------------------------------------------------------------------------------------- RDMA from the host

/-- Is index `a` behind index `b` (R308)? -/
def idxBehind (a b : Nat) : Bool := decide (2147483648 ≤ idxDiff a b)

/-- A write of 8 bytes at an aligned address of the doorbell region (R308): it updates a ring's index, or is counted as DB_BAD. -/
def State.ringDoorbell (s : State) (n off : Nat) (bs : List Byte) : State :=
  let w := leVal (sliceZ bs 0 4)
  let idx := leVal (sliceZ bs 4 4)
  let r := w % 256
  let g := s.ring r
  let cmd := decide (s.ringKind r = 0)
  let mine := if cmd then g.prod else g.cons
  let other := if cmd then g.cons else g.prod
  let far := !idxBehind idx other && decide (s.ringSize r < idxDiff idx other)
  if decide (bs.length ≠ 8) || decide (off % 8 ≠ 0) || decide (256 ≤ w) || !s.ringEn r || decide (s.ringQp r ≠ n) || idxBehind idx mine || far then
    s.count 0x10 n 1
  else s.setRing r (if cmd then { g with prod := idx } else { g with cons := idx })

/-- The memory window an RKEY names (R303): the lowest-numbered enabled one. -/
def State.window (s : State) (rkey : Word) : Option Nat :=
  firstIdx 8 fun w => s.rb R.hstMwin0 0 w 0 && decide (s.rd R.hstMwin2 0 w = rkey)

/-- The device addresses `len` bytes at `va` of a window stand for, if they lie in it (R303). -/
def State.mwinAddr (s : State) (w va len : Nat) : Option Nat :=
  if va + len ≤ 2 ^ s.rf R.hstMwin0 0 w 2 5 then some (s.rf R.hstMwin1 0 w 0 24 * 65536 + va) else none

/-- What an RDMA WRITE does: the doorbell region, or a window; `none` for a remote access error, with no change
(R298, R303). -/
def State.hostWrite (s : State) (n : Nat) (rkey : Word) (va : Nat) (bs : List Byte) : Option State :=
  if rkey = s.rd R.hstDbkey 0 0 then (if va + bs.length ≤ 4096 then some (s.ringDoorbell n va bs) else none)
  else match s.window rkey with
    | none => none
    | some w =>
      if !s.rb R.hstMwin0 0 w 1 then none
      else match s.mwinAddr w va bs.length with
        | none => none
        | some a => if s.devOk s.hostPanel a bs.length then some ((s.devWrite s.hostPanel a bs).askDram s.hostPanel 4 a bs.length true) else none

/-- What an RDMA READ returns; `none` for a remote access error. -/
def State.hostRead (s : State) (rkey : Word) (va len : Nat) : Option (List Byte) :=
  if rkey = s.rd R.hstDbkey 0 0 then (if va + len ≤ 4096 then some (List.replicate len 0#8) else none)
  else match s.window rkey with
    | none => none
    | some w => match s.mwinAddr w va len with
      | none => none
      | some a => s.devRead s.hostPanel a len

/-- An RDMA READ of a window asks DRAM for its lines, through the HOST port (R289). -/
def State.askRead (s : State) (rkey : Word) (va len : Nat) : State :=
  match (s.window rkey).bind fun w => s.mwinAddr w va len with
  | some a => s.askDram s.hostPanel 4 a len false
  | none => s

/-- Acknowledge a message (R302): every 16 packets and at its end. -/
def State.ackMsg (s : State) (n psn k : Nat) : State :=
  let s := ((List.range ((k - 1) / 16)).foldl (fun s i => s.emit (.rdmaAck (s.wire n ((psn + 16 * i + 15) % 16777216)))) s)
  s.emit (.rdmaAck (s.wire n ((psn + k - 1) % 16777216)))

/-- A write from the host on a QP in RTS (R302): in PSN order it is applied or NAKed with a remote access error (code 2),
a gap is answered with a sequence-error NAK (code 0), a duplicate is acknowledged again. -/
def State.respondWrite (s : State) (n psn : Nat) (rkey : Word) (va : Nat) (bs : List Byte) (ce : Bool) : State :=
  if !s.qpOpen n then s
  else
    let s := s.noteCe n ce
    let q := s.qp n
    let k := s.npkts n bs.length
    if psn = q.epsn then match s.hostWrite n rkey va bs with
      | none => s.emit (.rdmaNak (s.wire n psn) 2)
      | some s => (s.setQp n { s.qp n with epsn := (psn + k) % 16777216 }).ackMsg n psn k
    else if psnBehind psn q.epsn then s.ackMsg n psn k
    else s.emit (.rdmaNak (s.wire n q.epsn) 0)

/-- RDMA_WRITE (R303): a host RDMA WRITE to a region is applied or NAKed. -/
def execRdmaWrite (qp psn : Nat) (rkey : Word) (va : Nat) (bytes : List Byte) (ce : Bool) (s : State) : Host.Outcome State Fault Refusal :=
  .next (s.respondWrite (qp % 64) psn rkey va bytes ce)

/-- DOORBELL (R308): an RDMA WRITE at offset `off` of the doorbell region under key `rkey`. -/
def execDoorbell (qp psn : Nat) (rkey : Word) (off : Nat) (bytes : List Byte) (ce : Bool) (s : State) : Host.Outcome State Fault Refusal :=
  .next (s.respondWrite (qp % 64) psn rkey off bytes ce)

/-- RDMA_READ (R303): a host RDMA READ is answered or NAKed; a duplicate one is executed again. -/
def execRdmaRead (qp psn : Nat) (rkey : Word) (va len : Nat) (ce : Bool) (s : State) : Host.Outcome State Fault Refusal :=
  let n := qp % 64
  if !s.qpOpen n then .next s
  else
    let s := s.noteCe n ce
    let q := s.qp n
    if psn = q.epsn || psnBehind psn q.epsn then
      match s.hostRead rkey va len with
      | none => .next (s.emit (.rdmaNak (s.wire n psn) 2))
      | some bs =>
        let s := if psn = q.epsn then s.setQp n { q with epsn := (psn + s.npkts n len) % 16777216 } else s
        .next ((s.askRead rkey va len).emit (.rdmaResp (s.wire n psn) bs))
    else .next (s.emit (.rdmaNak (s.wire n q.epsn) 0))

-- ---------------------------------------------------------------------------------------------------------- rings

/-- The READ of a command ring's entries that is outstanding. -/
def State.fetchOut (s : State) (r : Nat) : Option Wqe := (s.qp (s.ringQp r)).sq.find? fun w => decide (w.ring = some r)

/-- Commands in flight, or being fetched, whose completions go to ring `pr` (R309). -/
def State.pairLoad (s : State) (pr : Nat) : Nat :=
  sumN ((idxs 256 fun r => decide (s.ringKind r = 0) && decide (s.ringPair r = pr)).map fun r =>
    (s.ring r).inflight + (match s.fetchOut r with | some w => w.len / 64 | none => 0))

/-- Entries a fetch of command ring `r` may read now (R309): up to BATCH + 1, not across the wrap, at most 32 in flight,
with a free entry in its completion ring for every command in flight. -/
def State.fetchable (s : State) (r : Nat) : Nat :=
  let g := s.ring r
  let pr := s.ringPair r
  let free := if s.ringEn pr then s.ringSize pr - min (s.ringSize pr) (idxDiff (s.ring pr).prod (s.ring pr).cons) else 0
  min (min (idxDiff g.prod g.cons) (s.rf R.hstRaux 0 r 16 5 + 1))
    (min (s.ringSize r - g.cons % s.ringSize r) (min (32 - g.inflight) (free - s.pairLoad pr)))

/-- A fetch begins, where none is outstanding and there are entries to read. -/
def State.fetchStart (s : State) (r : Nat) : State :=
  let k := s.fetchable r
  if (s.fetchOut r).isSome || k = 0 || SMap.get s.hst.pausedWork false r then s
  else s.qpPost (s.ringQp r) { kind := .read, psn := 0, npkts := 0, rkey := s.ringKey r, va := s.ringVa r + 64 * ((s.ring r).cons % s.ringSize r), len := 64 * k, ring := some r }

/-- COMMAND_FETCH (R309): one RDMA READ of a batch of entries, which stays outstanding and is retransmitted by R302 until its answer comes.
`ans` says what comes now: the data, a NAK, by which the QP enters ERROR, or nothing; and whether the answer is marked (R304). -/
def execCommandFetch (ring : Nat) (ans : ReadAns) (s : State) : Host.Outcome State Fault Refusal :=
  let r := ring % 256
  let n := s.ringQp r
  if !s.ringEn r || s.ringKind r ≠ 0 || !s.qpOpen n then .next s
  else
    let s := s.fetchStart r
    match s.fetchOut r with
    | none => .next s
    | some w => match ans.rsp with
      | .lost => .next s
      | .nak => .next ((s.noteCe n ans.ce).qpError n 2)
      | .data => match (s.noteCe n ans.ce).readDone n w.psn with
        | none => .next (s.noteCe n ans.ce)
        | some s =>
          let g := s.ring r
          let k := w.len / 64
          if w.va = s.ringVa r + 64 * (g.cons % s.ringSize r) then
            .next (s.setRing r { g with cons := (g.cons + k) % 4294967296, ready := g.ready + k, inflight := g.inflight + k })
          else .next s

/-- A ring is enabled (R307, R312): its indices start at 0, so that no completion of an earlier use of it has a slot any more, and the
first command sets its expected SEQ. -/
def State.enableRing (s : State) (r : Nat) : State :=
  let old := s.hst.jrnl.filter fun e => decide (e.2.state = .done) && (decide (e.2.ring = r) || decide (s.ringPair e.2.ring = r))
  (old.foldl (fun (s : State) (e : Nat × JRec) => s.jrnlWritten e.1) s).setRing r {}

/-- The transition a write of HST_QPCTL.STATE requests (R302): RESET to RTS and ERROR to RESET; a write of the state that
stands requests none. `none` for any other. -/
def State.setQpState (s : State) (n v : Nat) : Option State :=
  let q := s.qp n
  if v = q.state then some s
  else if q.state = 0 && v = 1 then
    some (s.setQp n { ({} : Qp) with state := 1, spsn := s.rf R.hstQp1 0 n 0 24 1, epsn := s.rf R.hstQp1 0 n 0 24 2, sentAt := s.now, tickAt := s.now })
  else if q.state = 2 && v = 0 then some (s.setQp n {})
  else none

-- ------------------------------------------------------------------------------------------------------- failover

/-- The serving engine resumes every ring from its journal (R316): stored completions are written again to their slots, where
the QP does not still hold that write as unacknowledged. Commands read and not started stay ready, and a started one goes on from
its recorded step. -/
def State.resumeJournal (s : State) : State :=
  s.hst.jrnl.foldl (fun s (e : Nat × JRec) =>
    let j := e.2
    let pr := s.ringPair j.ring
    if j.state = .done && !(s.qp (s.ringQp pr)).sq.any (fun w => decide (w.jrec = some e.1)) then
      let i := j.slot % s.ringSize pr
      let phase := if (j.slot / s.ringSize pr) % 2 = 0 then 128 else 0
      let bs := j.entry.take 3 ++ [byteAt j.entry 3 ||| BitVec.ofNat 8 phase] ++ j.entry.drop 4
      s.qpPost (s.ringQp pr) { kind := .write, psn := 0, npkts := 0, rkey := s.ringKey pr, va := s.ringVa pr + 64 * i, bytes := bs, jrec := some e.1 }
    else s) s

/-- The QPs move to the other link (R305): each goes on from its first unacknowledged PSN, and the journal is resumed. -/
def State.moveQps (s : State) (port2 : Bool) : State :=
  let s := { s with hst := { s.hst with port2 := port2 } }
  let s := (List.range 64).foldl (fun s n =>
    let q := s.qp n
    if q.state = 1 then (s.setQp n { q with tries := 0, rnr := false, sentAt := s.now }).resendAll n else s) s
  s.resumeJournal

/-- FAILOVER (R305): with FAILOVER = 1 and port 0 DOWN or Panel A lost, the engine on Panel B takes over on port 2. -/
def State.takeOver (s : State) : State :=
  if s.failoverEn && !s.hst.port2 && s.up 1 && (!s.up 0 || decide (s.linkOf 0 = .down)) then s.moveQps true else s

/-- FAILOVER (R305). -/
def execFailover (s : State) : Host.Outcome State Fault Refusal := .next s.takeOver

/-- A write of FAILBACK while port 0 is UP (R305). -/
def State.failBack (s : State) : State :=
  if s.hst.port2 && s.up 0 && decide (s.linkOf 0 = .up) then s.moveQps false else s

end Sys2Proof.Machine
end

