-- ==== Sys2Proof/Machine/Recorder.lean ====
section
/-! DEFINITION. The Row Counter (ch. 21): histograms and extremes at the end of an interval, the life histograms, flushing to
flash, and what a boot reads back. Records enter the ring in Machine/Post.lean. -/

namespace Sys2Proof.Machine

/-- The four records of a histogram (R389, R390), unless it is all zero (R391). -/
def State.histRecords (s : State) (panel kind src origin : Nat) : State :=
  let key := ((panel * 16 + kind) * 65536 + src) * 32
  let bin (b : Nat) : Nat := SMap.get s.rcd.hist 0 (key + b)
  if (List.range 32).all fun b => bin b = 0 then s
  else (List.range 4).foldl (fun s part => s.record kind 0 part origin src ((List.range 8).flatMap fun i => leBytes 4 (bin (8 * part + i)))) s

/-- The sources of the histograms of a kind that panel `p` has kept, in ascending order. -/
def State.histSrcs (s : State) (p kind : Nat) : List Nat :=
  ((s.rcd.hist.filter fun e => decide (e.1 / 32 / 65536 = p * 16 + kind)).map fun e => e.1 / 32 % 65536).eraseDups

/-- A panel builds `n` records in its staging region, REC_STGA or REC_STGB, through the RECORDER port (R289, R391). The spec gives their form
there no layout: the bytes are free (log entry 98). -/
def State.stageRecords (s : State) (p n : Nat) : State :=
  let a := s.rf R.recStg 0 p 0 24 * 65536
  let k := min 65536 (64 * n)
  let bs := Config.freeBytes s.fresh k
  (({ s with fresh := s.fresh + 1 }).devWrite p a (sliceZ bs 0 k)).askDram p 6 a k true

/-- The records a panel builds at the end of an interval (R391): kinds 1–4, 7 and 8; its accumulators are cleared. -/
def State.endInterval (s : State) (p : Nat) : State :=
  let q := s.rcd.seq
  let s := if !s.up p then s else
    let s := [1, 2, 3, 4].foldl (fun s k => (s.histSrcs p k).foldl (fun s src => s.histRecords p k src p) s) s
    let s := (List.range 64).foldl (fun s u =>
      let w (i : Nat) : Nat := SMap.get s.rcd.counts 0 ((p * 64 + u) * 8 + i)
      if (List.range 6).all fun i => w i = 0 then s
      else s.record 7 0 0 p u ((List.range 6).flatMap fun i => leBytes 4 (w i))) s
    let s := (s.rcd.ext.filter fun e => decide (e.1 / 65536 / 16 = p)).foldl (fun s (e : Nat × (Int × HWord)) =>
      s.record 8 0 0 p ((e.1 / 65536 % 16) * 4096 + e.1 % 4096) (leBytes 8 (e.2.1 % 18446744073709551616).toNat ++ leBytes 16 e.2.2.toNat)) s
    if s.rcd.seq = q then s else s.stageRecords p (s.rcd.seq - q)
  { s with rcd := { s.rcd with
    hist := SMap.drop s.rcd.hist fun k _ => decide (k / 32 / 65536 / 16 = p) && decide (k / 32 / 65536 % 16 ≤ 4),
    counts := SMap.drop s.rcd.counts fun k _ => decide (k / 8 / 64 = p),
    ext := SMap.drop s.rcd.ext fun k _ => decide (k / 65536 / 16 = p) } }

/-- The extremes of the AON sensor and rail, kept under 2. -/
def State.endAonInterval (s : State) : State :=
  let s := (s.rcd.ext.filter fun e => decide (e.1 / 65536 / 16 = 2)).foldl (fun s (e : Nat × (Int × HWord)) =>
    s.record 8 0 0 2 ((e.1 / 65536 % 16) * 4096 + e.1 % 4096) (leBytes 8 (e.2.1 % 18446744073709551616).toNat ++ leBytes 16 e.2.2.toNat)) s
  { s with rcd := { s.rcd with ext := SMap.drop s.rcd.ext fun k _ => decide (k / 65536 / 16 = 2) } }

/-- Time units in a minute. -/
def minU : Nat := 60 * secU

/-- INTERVAL_END (R391): REC_CFG.INTERVAL minutes have passed since the last. -/
def execIntervalEnd (s : State) : Host.Outcome State Fault Refusal :=
  if s.rcd.intervalAt + s.rf R.recCfg 0 0 8 8 * minU ≤ s.now then
    let s := ((s.endInterval 0).endInterval 1).endAonInterval
    .next { s with rcd := { s.rcd with intervalAt := s.now } }
  else .next s

/-- Panel of a sensor or rail number; 2 for the AON domain (R389). -/
def sensorPanel (n : Nat) : Nat := if n < 6 then 0 else if n < 12 then 1 else 2
/-- The same for a rail. -/
def railPanel (n : Nat) : Nat := if n = 4 then 2 else n % 2

/-- Bin of a temperature in 0.01 °C (R390). -/
def tempBin (t : Int) : Nat := if t < -3600 then 0 else min 31 ((t + 4200) / 600).toNat
/-- Bin of a voltage in mV (R390). -/
def voltBin (v : Nat) : Nat := if v < 560 then 0 else min 31 ((v - 550) / 10)

/-- Is there power where a sensor or rail of panel `p` lies? -/
def State.sampled (s : State) (p : Nat) : Bool := decide (p = 2) || (s.pan p).pg

/-- LIFE_SAMPLE (R390, R392): the 13 temperatures, in 0.01 °C, and the 5 rails, in mV, are sampled. -/
def execLifeSample (temps : List Int) (volts : List Nat) (s : State) : Host.Outcome State Fault Refusal :=
  let s := (List.range 13).foldl (fun s i => match temps[i]? with
    | some t =>
      let p := sensorPanel i
      if s.sampled p then
        ((s.histAdd 0 5 i (tempBin t) 1).extreme p 4 i true t (s.recStamp p)).extreme p 5 i false t (s.recStamp p)
      else s
    | none => s) s
  .next ((List.range 5).foldl (fun s i => match volts[i]? with
    | some v =>
      let p := railPanel i
      if s.sampled p then
        ((s.histAdd 0 6 i (voltBin v) 1).extreme p 6 i true (Int.ofNat v) (s.recStamp p)).extreme p 7 i false (Int.ofNat v) (s.recStamp p)
      else s
    | none => s) s)

-- --------------------------------------------------------------------------------------------------------- flash

/-- Sectors of the fatal area (R394). -/
def State.fatals (s : State) : Nat := s.rf R.recCfg 0 0 20 8

/-- Program flash record `n` (sector × 64 + slot). -/
def State.progRec (s : State) (n : Nat) (bs : List Byte) : State :=
  { s with rcd := { s.rcd with flash := SMap.set s.rcd.flash [] n bs } }

/-- Write the HEADER record of a sector (R394), with the SEQ reserve in force; its SEQ is left open. -/
def State.writeHeader (s : State) (k : Nat) (bad : Bool) : State :=
  let c := s.rcd
  let s := { s with rcd := { c with sectorSeq := c.sectorSeq + 1, bad := SMap.set c.bad false k bad } }
  let (q, s) := s.freeN
  let bs := leBytes 8 q ++ leBytes 16 (s.recStamp 2).toNat ++ leBytes 4 (12 + 2 * 4096) ++
    leBytes 4 c.sectorSeq ++ leBytes 4 (SMap.get c.erases 0 k) ++ leBytes 8 c.reserve ++ leBytes 4 c.lostf ++ leBytes 4 c.lost ++ leBytes 1 (b2n bad) ++ leBytes 7 0
  s.progRec (k * 64) (bs ++ leBytes 4 (crc32c bs))

/-- Is a flash record valid: its CRC matches bytes 0–59 (R387)? -/
def recValid (bs : List Byte) : Bool := decide (bs.length = 64) && decide (leVal (sliceZ bs 60 4) = crc32c (bs.take 60))

/-- Severity and kind of a record. -/
def recSev (bs : List Byte) : Nat := bits (leVal (sliceZ bs 24 4)) 6 3
/-- Kind of a record. -/
def recKind (bs : List Byte) : Nat := bits (leVal (sliceZ bs 24 4)) 0 6
/-- COPIED of a record (R388). -/
def recCopied (bs : List Byte) : Bool := bit (leVal (sliceZ bs 24 4)) 11
/-- The record with COPIED set and its CRC remade (R395). -/
def recCopy (bs : List Byte) : List Byte :=
  let b := overlay (bs.take 60) (leBytes 4 (setBit (leVal (sliceZ bs 24 4)) 11 true)) 24
  b ++ leBytes 4 (crc32c b)

/-- The next log sector after `k` that is not bad. -/
def State.nextSector (s : State) (k : Nat) : Nat → Nat
  | 0 => k
  | n + 1 =>
    let k' := if k + 1 < 4096 then max (k + 1) s.fatals else s.fatals
    if SMap.get s.rcd.bad false k' then s.nextSector k' n else k'

/-- Open log sector `k` (R395): the valid records of severity 1 or 2 not yet copied are kept, the sector is erased, its header
written, and they are rewritten at its head. -/
def State.openSector (s : State) (k : Nat) : State :=
  let keep := ((List.range 63).filterMap fun i => SMap.find s.rcd.flash (k * 64 + i + 1)).filter fun bs =>
    recValid bs && (decide (recSev bs = 1) || decide (recSev bs = 2)) && !recCopied bs
  let s := { s with rcd := { s.rcd with flash := SMap.drop s.rcd.flash fun n _ => decide (n / 64 = k), erases := SMap.set s.rcd.erases 0 k (SMap.get s.rcd.erases 0 k + 1) } }
  let s := s.writeHeader k false
  let s := { s with rcd := { s.rcd with logSector := some k, logSlot := 1 } }
  keep.foldl (fun s bs => { s.progRec (k * 64 + s.rcd.logSlot) (recCopy bs) with rcd := { (s.progRec (k * 64 + s.rcd.logSlot) (recCopy bs)).rcd with logSlot := s.rcd.logSlot + 1 } }) s

/-- Move the head of the log to a new sector. With `bad` the first one fails: it is marked BAD and skipped, with an alert. -/
def State.advanceLog (s : State) (bad : Bool) : State :=
  let start := match s.rcd.logSector with | some k => k | none => s.fatals - 1
  let k := s.nextSector start 4096
  if bad then
    let s := (s.writeHeader k true).recAlert 3 0
    s.openSector (s.nextSector k 4096)
  else s.openSector k

/-- Append a record at the head of the log. -/
def State.logRec (s : State) (bs : List Byte) : State :=
  let room := match s.rcd.logSector with | some _ => decide (s.rcd.logSlot < 64) | none => false
  let s := if room then s else s.advanceLog false
  match s.rcd.logSector with
  | some k => { s.progRec (k * 64 + s.rcd.logSlot) bs with rcd := { (s.progRec (k * 64 + s.rcd.logSlot) bs).rcd with logSlot := s.rcd.logSlot + 1 } }
  | none => s

/-- Write a record of severity 3 or 4 to the next free slot of the fatal area; a full area loses it (R395). -/
def State.fatalRec (s : State) (seq : Nat) (bs : List Byte) : State :=
  let c := s.rcd
  let (k, i) := if c.fatSlot < 64 && decide (0 < c.fatSlot) then (c.fatSector, c.fatSlot) else if c.fatSlot = 0 then (c.fatSector, 0) else (c.fatSector + 1, 0)
  if s.fatals ≤ k then
    ({ s with rcd := { c with lostf := min (c.lostf + 1) 0xFFFFFFFF } }).recAlert 1 seq
  else
    let s := if i = 0 then s.writeHeader k false else s
    let i := max i 1
    let s := s.progRec (k * 64 + i) bs
    { s with rcd := { s.rcd with fatSector := k, fatSlot := i + 1 } }

/-- The life histograms as records (R391). -/
def State.lifeRecords (s : State) : State :=
  let s := (List.range 13).foldl (fun s i => s.histRecords 0 5 i 2) s
  (List.range 5).foldl (fun s i => s.histRecords 0 6 i 2) s

/-- A flush (R394, R396): the life records are made, a new reserve is taken when SEQ has come within 2^16 of it, and every
unflushed record is written in SEQ order. -/
def State.flushRing (s : State) (bad : Bool) : State :=
  let s := s.lifeRecords
  let near := decide (s.rcd.reserve ≤ s.rcd.seq + 65536)
  let s := if near then { s with rcd := { s.rcd with reserve := s.rcd.reserve + 16777216 } } else s
  let s := if near || bad then s.advanceLog bad else s
  let recs := ((s.rcd.ring.map fun e => e.2).filter fun r => !r.flushed) ++ s.rcd.buf
  let s := (recs.mergeSort fun a b => decide (a.seq ≤ b.seq)).foldl (fun s (r : RecSlot) => if 3 ≤ r.sev then s.fatalRec r.seq r.bytes else s.logRec r.bytes) s
  { s with rcd := { s.rcd with ring := s.rcd.ring.map fun e => (e.1, { e.2 with flushed := true }), buf := [], flushDue := false, flushedAt := s.now } }

/-- FLUSH (R394): every REC_CFG.FLUSH minutes, or when one is due. With `bad` the next sector it opens fails. -/
def execFlush (bad : Bool) (s : State) : Host.Outcome State Fault Refusal :=
  if s.rcd.flushDue || decide (s.rcd.flushedAt + s.rf R.recCfg 0 0 0 8 * minU ≤ s.now) then .next (s.flushRing bad) else .next s

/-- A flash record as the partition holds it; a slot never programmed reads as erased. -/
def State.flashRec (s : State) (n : Nat) : List Byte := (SMap.find s.rcd.flash n).getD (List.replicate 64 0xFF#8)

-- ----------------------------------------------------------------------------------------------- flash, byte by byte

/-- Where the Row Counter partition of the flash starts (R394), and its length. -/
def recPart : Nat := 0x4400000
/-- Length of the Row Counter partition. -/
def recPartLen : Nat := 0x1000000

/-- Does a flash address lie in the Row Counter partition? -/
def inRecPart (a : Nat) : Bool := decide (recPart ≤ a) && decide (a < recPart + recPartLen)

/-- One byte of the xSPI flash; a byte never programmed reads as erased. -/
def State.flashGet (s : State) (a : Nat) : Byte :=
  if inRecPart a then byteAt (s.flashRec ((a - recPart) / 64)) ((a - recPart) % 64) else SMap.get s.flash 0xFF#8 a

/-- `n` bytes of flash from address `a`. -/
def State.flashBytes (s : State) (a n : Nat) : List Byte := (List.range n).map fun i => s.flashGet (a + i)

/-- Program flash bytes: a bit goes from 1 to 0 (log entry 42). -/
def State.flashProg (s : State) : Nat → List Byte → State
  | _, [] => s
  | a, b :: bs => ({ s with flash := SMap.set s.flash 0xFF#8 a (s.flashGet a &&& b) }).flashProg (a + 1) bs

/-- Erase the 4 KiB sector that starts at `a`. -/
def State.flashErase (s : State) (a : Nat) : State :=
  { s with flash := SMap.drop s.flash fun k _ => decide (a ≤ k) && decide (k < a + 4096) }

/-- The life bins a boot loads (R391): from the valid LIFE record with the highest SEQ for each source and part. -/
def State.loadLife (s : State) : State :=
  let newest (kind src part : Nat) : Option (List Byte) := s.rcd.flash.foldl (fun (best : Option (List Byte)) (e : Nat × List Byte) =>
    let h := leVal (sliceZ e.2 24 4)
    if recValid e.2 && decide (bits h 0 6 = kind) && decide (bits h 16 16 = src) && decide (bits h 9 2 = part) &&
        (match best with | none => true | some b => decide (leVal (sliceZ b 0 8) < leVal (sliceZ e.2 0 8))) then some e.2 else best) none
  let s := { s with rcd := { s.rcd with hist := SMap.drop s.rcd.hist fun k _ => decide (5 ≤ k / 32 / 65536 % 16) } }
  ([(5, 13), (6, 5)] : List (Nat × Nat)).foldl (fun s kn =>
    (List.range kn.2).foldl (fun s src =>
      (List.range 4).foldl (fun s part => match newest kn.1 src part with
        | some bs => (List.range 8).foldl (fun s i => s.histAdd 0 kn.1 src (8 * part + i) (leVal (sliceZ bs (28 + 4 * i) 4))) s
        | none => s) s) s) s

/-- What the Row Counter holds when the AON domain starts (R396): an empty ring, SEQ at the highest valid reserve in the
partition and a header with a reserve 2^24 higher, the life bins of flash. -/
def State.bootRecorder (s : State) : State :=
  let top := s.rcd.flash.foldl (fun (m : Nat) (e : Nat × List Byte) => if recValid e.2 && decide (recKind e.2 = 12) then max m (leVal (sliceZ e.2 36 8)) else m) 1
  let c := s.rcd
  let s := { s with rcd := { c with
    seq := top, reserve := top + 16777216, ring := [], newest := none, buf := [], lost := 0, lostf := 0,
    flushDue := false, flushedAt := s.now, intervalAt := s.now, hist := [], counts := [], ext := [] } }
  s.loadLife.advanceLog false

end Sys2Proof.Machine
end

