-- ==== Sys2Proof/Machine/Domains.lean ====
section
/-! DEFINITION. Position domains (R22–R38): observations of their sources, the state machine of R32, steps, enabling and
disabling, split and rejoin. -/

namespace Sys2Proof.Machine

/-- Source kind of a domain (R22). -/
def State.srcKind (s : State) (n : Nat) (sec : Bool) : Nat := s.rf R.domSrc 0 n (if sec then 16 else 0) 3
/-- Selector of a source. -/
def State.srcSel (s : State) (n : Nat) (sec : Bool) : Nat := s.rf R.domSrc 0 n (if sec then 19 else 3) 11
/-- Increment of a source per observation, in 1/256 counts. -/
def State.srcInc (s : State) (n : Nat) (sec : Bool) : Nat := (s.rd (if sec then R.domSinc else R.domInc) 0 n).toNat
/-- Panel on which a selector lies (R11, R22). -/
def selPanel (kind sel : Nat) : Nat :=
  match kind with | 1 => portPanel sel | 2 => sel / 4 | 3 => sel / 128 | 6 => sel / 128 | _ => sel / 16
/-- DOM_STEPTH. -/
def State.stepTh (s : State) (n : Nat) : Nat := (s.rd R.domStepth 0 n).toNat
/-- LOSS_TO in time units. -/
def State.lossTo (s : State) (n : Nat) : Nat := s.rf R.domCoast 0 n 0 8 * 4 * msU
/-- SLEW. -/
def State.slewPpm (s : State) (n : Nat) : Nat := s.rf R.domCoast 0 n 16 8
/-- DOM_MOTION.AMAX. -/
def State.amax (s : State) (n : Nat) : Nat := s.rf R.domMotion 0 n 16 16
/-- VSTOP in units of rates, times a second's time units. -/
def State.vstopS (s : State) (n : Nat) : Nat := s.rf R.domMotion 0 n 0 16 * 65536 * rateScale.toNat
/-- Does a source kind count edges? -/
def isEdge (kind : Nat) : Bool := decide (kind = 2) || decide (kind = 3) || decide (kind = 6)

/-- A source's record in a copy. -/
def DomCopy.src (c : DomCopy) (sec : Bool) : SrcRec := if sec then c.sec else c.prim
/-- Replace it. -/
def DomCopy.setSrc (c : DomCopy) (sec : Bool) (r : SrcRec) : DomCopy := if sec then { c with sec := r } else { c with prim := r }
/-- A position of 48 bits from a sum. -/
def pos48 (x : Int) : Nat := (x % 281474976710656).toNat

/-- The next epoch (R26). -/
def nextEpoch (e : Nat) : Nat := if e = 0xFFFF then 1 else e + 1

/-- The position a source has now (R36): gPTP time goes on at its last rate; the others stand at their last observation. -/
def State.srcNow (s : State) (p n : Nat) (sec : Bool) : Nat :=
  let r := (s.dom p n).src sec
  match s.srcKind n sec, r.lastT with
  | 1, some t => pos48 (Int.ofNat (r.pos / 256) + r.lastV.getD 4294967296 * Int.ofNat (s.now - t) / rateScale)
  | _, some _ => r.pos / 256
  | _, none => s.est p n

/-- The copies that a transition of panel `p`'s copy moves (R24): both while they are joined, so that they stay in step. -/
def State.domCopies (s : State) (p n : Nat) : List Nat :=
  if (s.dom 0 n).split || (s.dom 1 n).split then [p] else [0, 1]

/-- An epoch increment of a copy to position `pos` at time `t` (R36, R43, R397): the step is stored, STEPPED is set, a
STEP record is written once for joined copies, and the step rules of pending events apply. -/
def State.stepCopy (s : State) (p n : Nat) (c : DomCopy) (pos : Nat) (t : Nat) (step : Int) (cause : Nat) : State :=
  let old := (s.dom p n).epoch
  let ep := nextEpoch c.epoch
  let s := s.fireDue p
  let s := s.setDom p n { c with epoch := ep, pos := pos, at_ := t, slew := 0, step := pos48 step, stepEpoch := ep, stepped := true }
  let s := if p = s.domHome n || c.split then
      s.record 10 1 0 p (n + 16 * b2n c.origin) (leBytes 8 ((step % 18446744073709551616).toNat) ++ leBytes 2 old ++ leBytes 2 ep ++ leBytes 1 cause)
    else s
  s.stepEvents p n step

/-- Replace a copy: the events found due before this tick fire, and the others are judged after the change of state. -/
def State.moveCopy (s : State) (p n : Nat) (c : DomCopy) : State := ((s.fireDue p).setDom p n c).judgeAll p n

/-- The AUTO_SWITCH transition (R32): a copy in COAST whose secondary has delivered RELOCK plausible observations locks
on it. AUTO_SWITCH is taken as it stood when the copy entered COAST (R47). -/
def State.autoSwitch (s : State) (p n : Nat) (unc : Nat) : State :=
  let c := s.dom p n
  if c.state = .coast && c.auto && !c.secondary && decide (s.srcKind n true ≠ 0) && decide (c.sec.need ≤ c.sec.run) && decide (0 < c.sec.run) then
    let v := s.srcNow p n true
    let step := sdiff v (s.est p n) 48
    s.stepCopy p n { c with state := .locked, cause := .none, secondary := true, rate := c.sec.lastV.getD 0, unc := unc, uncAt := s.now } v s.now step 4
  else s

/-- A copy in LOCKED or STOPPED moves to COAST (R30, R32): the bound grows from its value at entry, and the active
source starts a new run. The estimate goes on at its last rate, with no fraction of a count lost once the last correction has
been applied in full. R31 does not say which rate is the last of a copy that was STOPPED: the model takes 0, the rate at which it
stood (log entry 87). `unc` is the bound should the copy lock on its secondary at once. -/
def State.coastCopy (s : State) (p n : Nat) (cause : DomCause) (unc : Nat) : State :=
  let c := s.dom p n
  if c.state = .locked || c.state = .stopped then
    let r := { c.src c.secondary with run := 0, runV := none }
    let lost := decide (cause = .sourceLost) || decide (cause = .edgeOverdue) || decide (cause = .secondaryMoving)
    let rate := if c.state = .stopped then 0 else c.rate
    let whole := decide (c.state = .locked) && decide (slewed c.slew c.rate (s.slewPpm n) (s.now - c.at_) = c.slew)
    let pos := if whole then pos48 (Int.ofNat c.pos + c.slew) else s.est p n
    let at_ := if whole then c.at_ else s.now
    let s := s.moveCopy p n { c.setSrc c.secondary r with state := .coast, auto := s.rb R.domCtl 0 n 3, cause := cause, pos := pos, at_ := at_, rate := rate, slew := 0, uncAt := s.now, coastAt := s.now, lost := c.lost || lost }
    s.autoSwitch p n unc
  else s

/-- Every copy that panel `p`'s keeps in step with it moves to COAST (R24, R32). -/
def State.coastAll (s : State) (p n : Nat) (cause : DomCause) : State :=
  let (u, s) := s.freeN
  (s.domCopies p n).foldl (fun s q => s.coastCopy q n cause (u % 65536)) s

/-- A copy in COAST moves to FAULT (R32). -/
def State.faultCopy (s : State) (p n : Nat) (cause : DomCause) : State :=
  let c := s.dom p n
  let clr (r : SrcRec) : SrcRec := { r with run := 0, runV := none }
  s.moveCopy p n { c with state := .fault, cause := cause, pos := s.est p n, at_ := s.now, rate := 0, slew := 0, prim := clr c.prim, sec := clr c.sec }

/-- A dropped observation (R23, R34, R35): counted in DOM_OVR, it breaks the source's run, and moves a LOCKED or STOPPED
copy to COAST if the source is active. -/
def State.dropObs (s : State) (p n : Nat) (sec : Bool) (cause : DomCause) (unc : Nat) : State :=
  let c := s.dom p n
  let r := { c.src sec with run := 0, runV := none }
  let c := { c.setSrc sec r with ovr := min (c.ovr + 1) 0xFFFFFFFF, overrate := c.overrate || decide (cause = .overrate) }
  let s := s.setDom p n c
  if sec = c.secondary then s.coastCopy p n cause unc else s

/-- Is the secondary source reporting (R33)? -/
def State.reporting (s : State) (p n : Nat) : Bool :=
  let r := (s.dom p n).sec
  decide (s.srcKind n true ≠ 0) && decide (2 ≤ r.accepted) && (match r.lastT, r.lastV with
    | some t, some v =>
      let gap := s.now - t
      decide (gap ≤ s.lossTo n) && (!isEdge (s.srcKind n true) || decide (gap * v.natAbs * 512 ≤ 3 * s.srcInc n true * rateScale.toNat))
    | _, _ => false)

/-- Is the secondary's velocity below VSTOP? -/
def State.secSlow (s : State) (p n : Nat) : Bool :=
  decide (((s.dom p n).sec.lastV.getD 0).natAbs * secU < s.vstopS n)

/-- A correction applied at an observation, for the jitter histogram and its extreme (R390, R392). -/
def State.noteCorrection (s : State) (p n : Nat) (c : Int) : State :=
  (s.histAdd p 4 n (histBin 4 c.natAbs) 1).extreme p 3 n true (Int.ofNat c.natAbs) (s.recStamp p)

/-- A plausible in-rate observation of a source has been counted in its record: what it does to the copy (R29, R32,
R36). `val` is the source's position at time `t`. A QUAD or PULSE source without an absolute reference counts from 0 at every acquisition
from FAULT (R23, R36). The rules give no position for a HALL source at its first acquisition: the model counts it from 0 too (log entry 87). -/
def State.applyObs (s : State) (p n : Nat) (sec : Bool) (t unc : Nat) : State :=
  let c := s.dom p n
  let r := c.src sec
  let val := r.pos / 256
  let est := c.est (s.slewPpm n) t
  let rate := r.lastV.getD (if s.domCyclic n then 0 else 4294967296)
  let corr := sdiff val est 48
  if sec ≠ c.secondary then
    if sec && c.state = .stopped && s.reporting p n && !s.secSlow p n then s.coastCopy p n .secondaryMoving unc
    else s.autoSwitch p n unc
  else match c.state with
    | .locked | .stopped =>
      let cause := if c.state = .stopped then .none else c.cause
      let c := { c with state := .locked, cause := cause, rate := rate, unc := unc, uncAt := s.now }
      if s.domCyclic n then
        let rem := c.slew - slewed c.slew (s.dom p n).rate (s.slewPpm n) (t - c.at_)
        (s.noteCorrection p n (corr - rem)).moveCopy p n { c with pos := pos48 (Int.ofNat val - rem), at_ := t, slew := rem }
      else if s.srcKind n sec = 1 && decide (s.stepTh n < corr.natAbs) then (s.noteCorrection p n corr).stepCopy p n c val t corr 1
      else (s.noteCorrection p n corr).moveCopy p n { c with pos := est, at_ := t, slew := corr }
    | .fault =>
      if r.run < r.need then s
      else
        let first := decide (c.epoch = 0)
        let k := s.srcKind n sec
        let val := if (decide (k = 2) && !r.ref) || decide (k = 6) || (first && (decide (k = 3) || decide (k = 5))) then 0 else val
        let c := c.setSrc sec { r with pos := val * 256 }
        s.stepCopy p n { c with state := .locked, cause := .none, rate := rate, unc := unc, uncAt := s.now } val t (if first then 0 else sdiff val est 48) 0
    | .coast =>
      if r.run < r.need then s
      else
        let c := { c with state := .locked, cause := .none, rate := rate, unc := unc, uncAt := s.now }
        let s := s.noteCorrection p n corr
        if s.stepTh n < corr.natAbs then s.stepCopy p n c val t corr 3
        else if s.domCyclic n then s.moveCopy p n { c with pos := est, at_ := t, slew := corr }
        else s.moveCopy p n { c with pos := est, at_ := t, slew := corr }

/-- Is an acceleration within AMAX (R35)? `dt` is the interval. -/
def State.accelOk (s : State) (n : Nat) (v : Int) (prev : Option Int) (dt : Nat) : Bool :=
  match prev with
  | none => true
  | some u => decide ((v - u).natAbs * secU * secU ≤ s.amax n * 16777216 * dt * rateScale.toNat)

/-- The velocity of `d` counts × 256 in `dt`. -/
def velocity (d : Int) (dt : Nat) : Int := if dt = 0 then 0 else d * rateScale / (256 * Int.ofNat dt)

/-- An observation that moves a source by `d` (in 1/256 counts) or to a position `val` (in counts): R34 for edges, the
test of R35, the run and the source's own position (R23), and then the copy. R35 names DOM_INC for a PULSE source of a time domain; the model
tests a secondary one against DOM_SINC, its own increment (R23, log entry 87). -/
def State.takeObs (s : State) (p n : Nat) (sec : Bool) (t unc : Nat) (d : Int) (val : Option Nat) (fixedV : Option Int) (ok : Bool) : State :=
  let kind := s.srcKind n sec
  let c := s.dom p n
  let r := c.src sec
  let act := decide (sec = c.secondary)
  let dt := match r.lastT with | some u => t - u | none => 0
  let maxRate := s.rf R.domLimit 0 n 16 16
  let tooFast := isEdge kind && r.lastT.isSome && (decide (dt < 24000) || (decide (maxRate ≠ 0) && decide (dt * maxRate < 1200000000)))
  if tooFast then s.dropObs p n sec .overrate unc
  else
    let d := match val with | some v => sdiff v (r.pos / 256) 48 * 256 | none => d
    let v := match fixedV with
      | some v => some v
      | none => r.lastT.map fun _ => velocity d dt
    let pulseDt := match r.pulseT with | some u => some (t - u) | none => none
    let good := ok && (if kind = 6 && !s.domCyclic n then (match pulseDt with
        | none => true
        | some x => decide ((Int.ofNat x * 256 - Int.ofNat (s.srcInc n sec) * 1200).natAbs * 1000 ≤ s.srcInc n sec * 1200))
      else if kind = 1 || kind = 5 then true
      else (match v with | some v => s.accelOk n v r.runV dt | none => true))
    let s := s.setDom p n (c.setSrc sec { r with pulseT := some t })
    if !good then s.dropObs p n sec .implausible unc
    else
      let pos := match val with
        | some x => x * 256
        | none => if !act && r.run = 0 then s.est p n * 256 else ((Int.ofNat r.pos + d) % (72057594037927936 : Int)).toNat
      let need := if r.run = 0 then s.rf R.domCtl 0 n 4 4 else r.need
      let r := { r with run := r.run + 1, need := need, lastT := some t, lastV := if v.isSome then v else r.lastV, runV := if r.run = 0 then none else v, pos := pos, accepted := r.accepted + 1, pulseT := some t }
      (s.setDom p n (c.setSrc sec r)).applyObs p n sec t unc

/-- The index pulse of a QUAD source (R23, R36). -/
def State.indexObs (s : State) (p n : Nat) (sec : Bool) (t : Nat) : State :=
  let c := s.dom p n
  let r := c.src sec
  let live := decide (sec = c.secondary) && (decide (c.state = .locked) || decide (c.state = .stopped))
  let x := if live then c.est (s.slewPpm n) t else r.pos / 256
  let f := x % 16777216
  let e : Int := if f < 8388608 then - Int.ofNat f else Int.ofNat (16777216 - f)
  let r := { r with ref := true, pos := if live then pos48 (Int.ofNat x + e) * 256 else ((Int.ofNat r.pos + e * 256) % (72057594037927936 : Int)).toNat }
  let c := c.setSrc sec r
  if !live then s.setDom p n c
  else if s.stepTh n < e.natAbs then s.stepCopy p n c (pos48 (Int.ofNat x + e)) t e 2
  else s.moveCopy p n { c with pos := x, at_ := t, slew := e }

/-- The forward order of Hall states (R273). -/
def hallOrder : List Nat := [1, 3, 2, 6, 4, 5]

/-- The Hall state a source has read in a copy. -/
def DomCopy.hall (c : DomCopy) (sec : Bool) : Nat := if sec then c.hallS else c.hallP
/-- Note it. -/
def DomCopy.setHall (c : DomCopy) (sec : Bool) (h : Nat) : DomCopy := if sec then { c with hallS := h } else { c with hallP := h }

/-- One copy takes an observation (R23, R35, R273, R277, R278). `first` marks the first copy that takes it. -/
def State.observeCopy (s : State) (p n : Nat) (sec : Bool) (x : Obs) (t unc : Nat) (first : Bool) : State :=
  let inc := Int.ofNat (s.srcInc n sec)
  let c := s.dom p n
  match x with
  | .gptp ns ppb slave cap =>
    let s := if slave && cap then s.setDom p n { c with full := ns, fullAt := t } else s
    s.takeObs p n sec t unc 0 (some (ns % m48)) (some (4294967296 + 4294967296 * ppb / 1000000000)) (slave && cap && decide (ppb.natAbs ≤ 200000))
  | .quad fwd => s.takeObs p n sec t unc (if fwd then inc else - inc) none none true
  | .index => s.indexObs p n sec t
  | .hall st =>
    let h := st.toNat
    if h = 0 || h = 7 then s.dropObs p n sec .invalidPattern unc
    else
      let prev := c.hall sec
      let s := s.setDom p n (c.setHall sec h)
      let j := ((hallOrder.idxOf h) + 6 - hallOrder.idxOf prev) % 6
      if prev = 0 || prev = h then s
      else if j = 1 then s.takeObs p n sec t unc inc none none true
      else if j = 5 then s.takeObs p n sec t unc (- inc) none none true
      else if first then s.count 0xD n 0 else s
  | .resolver angle amp =>
    let sel := s.srcSel n sec
    if amp < s.rf R.tioAcfg (sel / 16) (sel / 8 % 2) 1 14 then s
    else
      let e := c.est (s.slewPpm n) t
      let val := if c.epoch = 0 then angle.toNat else pos48 (Int.ofNat e + sdiff angle.toNat (e % 16777216) 24)
      s.takeObs p n sec t unc 0 (some val) none true
  | .mains _ =>
    let e := c.est (s.slewPpm n) t
    s.takeObs p n sec t unc 0 (some (if c.epoch = 0 then ((c.src sec).pos / 256 + 16777216) % m48 else (e + 8388608) / 16777216 * 16777216 % m48)) none true
  | .pulse => s.takeObs p n sec t unc inc none none true

/-- The kind of source an observation comes from (R22). -/
def obsKind : Obs → Nat
  | .gptp _ _ _ _ => 1 | .quad _ => 2 | .index => 2 | .hall _ => 3 | .resolver _ _ => 4 | .mains _ => 5 | .pulse => 6

/-- The copies that take an observation: both while they are joined, and during a split the copy of the source's panel. -/
def State.obsCopies (s : State) (n : Nat) (sec : Bool) : List Nat :=
  let q := selPanel (s.srcKind n sec) (s.srcSel n sec)
  if (s.dom 0 n).split || (s.dom 1 n).split then [q] else [0, 1]

/-- A crossing of a MAINS input qualifies (R277): its half-cycle's peak, and the interval since the previous crossing. -/
def State.mainsOk (s : State) (input amp t : Nat) : Bool :=
  let last := SMap.get s.tio.lastX 0 input
  let dt := t - (last - 1)
  decide (s.rf R.tioAcfg (input / 16) (input / 8 % 2) 1 14 ≤ amp) && decide (last ≠ 0) && decide (secU ≤ dt * 65) && decide (dt * 45 ≤ secU)

/-- An observation of a source of domain `n` at time `t` (R35). -/
def State.observe (s : State) (n : Nat) (sec : Bool) (x : Obs) (t : Nat) : State :=
  let kind := s.srcKind n sec
  if !s.domEn n || kind ≠ obsKind x || !s.up (selPanel kind (s.srcSel n sec)) then s
  else
    let (u, s) := s.freeN
    ((s.obsCopies n sec).zipIdx).foldl (fun s e => s.observeCopy e.1 n sec x t (u % 65536) (decide (e.2 = 0))) s

/-- An over-rate edge dropped at the pin (R34, R265). -/
def State.overrateAt (s : State) (n : Nat) (sec : Bool) : State :=
  let (u, s) := s.freeN
  (s.obsCopies n sec).foldl (fun s p => s.dropObs p n sec .overrate (u % 65536)) s

/-- SOURCE_OBSERVATION (R35). A mains crossing that does not qualify is no observation (R277). -/
def execSourceObservation (n : Nat) (secondary : Bool) (x : Obs) (s : State) : Host.Outcome State Fault Refusal :=
  let n := n % 16
  match x with
  | .mains amp =>
    if s.srcKind n secondary ≠ 5 then .next s
    else
      let i := s.srcSel n secondary % 32
      let ok := s.mainsOk i amp s.now
      let s := { s with tio := { s.tio with lastX := SMap.set s.tio.lastX 0 i (s.now + 1) } }
      .next (if ok then s.observe n secondary x s.now else s)
  | _ => .next (s.observe n secondary x s.now)

/-- The active source of a copy, its kind and the time since its last accepted observation. -/
def State.activeGap (s : State) (p n : Nat) : Nat × Option Nat :=
  let c := s.dom p n
  (s.srcKind n c.secondary, (c.src c.secondary).lastT.map fun t => s.now - t)

/-- SOURCE_LOST (R32). -/
def execSourceLost (panel n : Nat) (s : State) : Host.Outcome State Fault Refusal :=
  let p := panel % 2
  let n := n % 16
  match s.activeGap p n with
  | (kind, some gap) =>
    if s.domEn n && s.up p && decide ((s.dom p n).state = .locked) && !isEdge kind && decide (s.lossTo n < gap) then .next (s.coastAll p n .sourceLost) else .next s
  | _ => .next s

/-- A copy in LOCKED moves to STOPPED, its position held (R31, R32). -/
def State.stopCopy (s : State) (p n : Nat) : State :=
  let c := s.dom p n
  s.moveCopy p n { c with state := .stopped, cause := .none, pos := s.est p n, at_ := s.now, slew := 0, uncAt := s.now }

/-- Every copy that panel `p`'s keeps in step with it moves from LOCKED to STOPPED (R24). -/
def State.stopAll (s : State) (p n : Nat) : State := (s.domCopies p n).foldl (fun s q => s.stopCopy q n) s

/-- Every copy that panel `p`'s keeps in step with it moves from COAST to FAULT (R24). -/
def State.faultAll (s : State) (p n : Nat) (cause : DomCause) : State := (s.domCopies p n).foldl (fun s q => s.faultCopy q n cause) s

/-- EDGE_OVERDUE (R33). -/
def execEdgeOverdue (panel n : Nat) (s : State) : Host.Outcome State Fault Refusal :=
  let p := panel % 2
  let n := n % 16
  let c := s.dom p n
  match s.activeGap p n with
  | (kind, some gap) =>
    let v := ((c.src c.secondary).lastV.getD 0).natAbs
    let overdue := decide (3 * s.srcInc n c.secondary * rateScale.toNat < gap * v * 512) || decide (s.lossTo n < gap)
    if !(s.domEn n && s.up p && decide (c.state = .locked) && isEdge kind && overdue) then .next s
    else if !s.domCyclic n then .next (s.coastAll p n .edgeOverdue)
    else if !c.secondary && s.reporting p n then
      .next (if s.secSlow p n then s.stopAll p n else s.coastAll p n .secondaryMoving)
    else if v * secU * secU ≤ s.amax n * 16777216 * gap * rateScale.toNat + s.vstopS n * secU then .next (s.stopAll p n)
    else .next (s.coastAll p n .edgeOverdue)
  | _ => .next s

/-- UNC_LIMIT (R32). The rule does not say how an unknown bound stands to FAULT_UNC: the model takes it to exceed every bound but the code
0xFFFF itself (log entry 87). -/
def execUncLimit (panel n : Nat) (s : State) : Host.Outcome State Fault Refusal :=
  let p := panel % 2
  let n := n % 16
  let past := match uncBound (s.rf R.domLimit 0 n 0 16) with
    | none => false
    | some lim => match uncBound (s.unc p n) with
      | none => true
      | some b => decide (lim < b)
  if s.domEn n && s.up p && decide ((s.dom p n).state = .coast) && past then .next (s.faultAll p n .uncLimit) else .next s

/-- COAST_LIMIT (R32). -/
def execCoastLimit (panel n : Nat) (s : State) : Host.Outcome State Fault Refusal :=
  let p := panel % 2
  let n := n % 16
  if s.domEn n && s.up p && decide ((s.dom p n).state = .coast) && decide (s.rf R.domCoast 0 n 24 8 * 100 * msU < s.now - (s.dom p n).coastAt) then
    .next (s.faultAll p n .coastLimit)
  else .next s

/-- The 3-bit Hall state of a source's pins; 0 where it has none. -/
def State.hallPins (s : State) (n : Nat) (sec : Bool) : Nat :=
  if s.srcKind n sec ≠ 3 then 0
  else
    let q := s.srcSel n sec
    let h := b2n (s.pin q).level + 2 * b2n (s.pin (q + 1)).level + 4 * b2n (s.pin (q + 2)).level
    if h = 7 then 0 else h

/-- DOM_CTL.EN goes to 1 (R32, R47, R273): FAULT, epoch 0, NOT_ACQUIRED, on both copies. -/
def State.enableDom (s : State) (n : Nat) : State :=
  let old (p : Nat) := s.dom p n
  let c (p : Nat) : DomCopy := { hallP := s.hallPins n false, hallS := s.hallPins n true, split := !s.joined && s.up 0 && s.up 1, origin := !s.joined && decide (p ≠ s.domHome n), overrate := (old p).overrate, lost := (old p).lost, stepped := (old p).stepped, step := (old p).step, stepEpoch := (old p).stepEpoch, posHi := (old p).posHi }
  (s.setDom 0 n (c 0)).setDom 1 n (c 1)

/-- DOM_CTL.EN goes to 0 (R45): every pending event of the domain is cancelled with CANCELLED_DISABLED; one found due before this tick,
and a WAKE that has fired and waits for its list, are no longer pending. -/
def State.disableDom (s : State) (n : Nat) : State :=
  let s := ((s.fireDue 0).fireDue 1).cancelEvs (fun e => decide (e.domain = n) && e.fired.isNone) 0x08
  let c (p : Nat) : DomCopy :=
    let d := s.dom p n
    { overrate := d.overrate, lost := d.lost, stepped := d.stepped, ovr := d.ovr, step := d.step, stepEpoch := d.stepEpoch, posHi := d.posHi }
  (s.setDom 0 n (c 0)).setDom 1 n (c 1)

/-- The primary is resumed by a CONFIG rewrite of DOM_CTL (R32, R47). -/
def State.resumePrimary (s : State) (n : Nat) : State :=
  [0, 1].foldl (fun s p =>
    let c := s.dom p n
    if !c.secondary then s
    else
      let r := c.prim
      let val := s.srcNow p n false
      let step := sdiff val (s.est p n) 48
      s.stepCopy p n { c with secondary := false, rate := if c.state = .locked then r.lastV.getD 0 else c.rate } val s.now step 4) s

/-- The copies of every enabled domain split (R32, R38), unless they have split before; the non-home copy enters COAST, and locks on a
secondary that AUTO_SWITCH lets it take. -/
def State.splitDomains (s : State) : State :=
  let (u, s) := s.freeN
  (List.range 16).foldl (fun s n =>
    if !s.domEn n || (s.dom 0 n).split || (s.dom 1 n).split then s
    else
      let h := s.domHome n
      let s := s.setDom h n { s.dom h n with split := true }
      let q := 1 - h
      let c := s.dom q n
      let s := s.moveCopy q n { c with split := true, origin := true, state := .coast, auto := s.rb R.domCtl 0 n 3, cause := .split, pos := s.est q n, at_ := s.now, slew := 0, rate := if c.state = .locked || c.state = .coast then c.rate else 0, unc := s.unc q n, uncAt := s.now, coastAt := s.now }
      s.autoSwitch q n (u % 65536)) s

/-- The copies of every enabled domain join again (R38): both take the position and source of the copy of panel `keep n`,
and the larger epoch plus one. With `lost`, the other copy was lost with its panel: it has no estimate of its own, so that the position
takes no step. A domain never acquired on either copy stays in epoch 0, which means just that (R26, log entry 87). -/
def State.rejoinDomains (s : State) (keep : Nat → Nat) (lost : Bool) : State :=
  (List.range 16).foldl (fun s n =>
    if !s.domEn n then s
    else
      let k := keep n
      let c := s.dom k n
      let s := if lost then s.setDom (1 - k) n { c with overrate := (s.dom (1 - k) n).overrate, lost := (s.dom (1 - k) n).lost } else s
      let ep := max (s.dom 0 n).epoch (s.dom 1 n).epoch
      let pos := s.est k n
      let go (s : State) (p : Nat) :=
        let step := sdiff pos (s.est p n) 48
        s.stepCopy p n { c with epoch := ep, split := false, origin := false, overrate := (s.dom p n).overrate, lost := (s.dom p n).lost } pos s.now step 5
      if ep = 0 then (s.setDom k n { c with split := false, origin := false }).setDom (1 - k) n { c with split := false, origin := false }
      else
        let s := go s (1 - k)
        s.stepCopy k n { c with epoch := ep, split := false, origin := false } pos s.now 0 5) s

end Sys2Proof.Machine
end

