-- ==== Sys2Proof/Machine/Tio.lean ====
section
/-! DEFINITION. Measurement and control (ch. 13): the input path (R264, R265), decoders (R272, R273), SENT (R274), converters
(R275–R279), the delayed edges of PWM pairs (R271), control of pins (R262, R263) and bus schedules (R280–R282). -/

namespace Sys2Proof.Machine

-- -------------------------------------------------------------------------------------------------------- input path

/-- TIO_PCFG.GLITCH of a pin in time units. -/
def State.glitchTime (s : State) (n : Nat) : Nat := s.rf R.tioPcfg (n / 128) (n % 128) 7 10 * 5 * nsU
/-- TIO_PCFG.TSDOM of a pin. -/
def State.pinDom (s : State) (n : Nat) : Nat := s.rf R.tioPcfg (n / 128) (n % 128) 21 4

/-- The (domain, source) pairs that pin `n` feeds as a HALL or PULSE source. -/
def State.pinSources (s : State) (n : Nat) : List (Nat × Bool) :=
  ((List.range 16).flatMap fun d => [(d, false), (d, true)]).filter fun e =>
    let k := s.srcKind e.1 e.2
    let q := s.srcSel e.1 e.2
    s.domEn e.1 && ((decide (k = 3) && decide (q ≤ n) && decide (n < q + 3)) || (decide (k = 6) && decide (q = n)))

/-- The decoders that read pin `n`, with the line: 0 A, 1 B, 2 index (R272). -/
def State.pinDecoders (s : State) (n : Nat) : List (Nat × Nat) :=
  (List.range 4).filterMap fun d =>
    let p := n / 128
    let b := s.rf R.tioQcfg p d 1 7
    if s.rb R.tioQcfg p d 0 && decide (b ≤ n % 128) && decide (n % 128 < b + 3) && (decide (n % 128 < b + 2) || s.rb R.tioQcfg p d 8)
    then some (4 * p + d, n % 128 - b) else none

/-- The (domain, source) pairs that a decoder feeds. -/
def State.decoderSources (s : State) (d : Nat) : List (Nat × Bool) :=
  ((List.range 16).flatMap fun n => [(n, false), (n, true)]).filter fun e => s.domEn e.1 && decide (s.srcKind e.1 e.2 = 2) && decide (s.srcSel e.1 e.2 = d)

/-- A delivered edge of a decoder line (R272): a count forward when A leads B, swapped by REV, or the index's rising edge. -/
def State.decoderEdge (s : State) (d line t : Nat) : State :=
  let p := d / 4
  let b := 128 * p + s.rf R.tioQcfg p (d % 4) 1 7
  let la := (s.pin b).level
  let lb := (s.pin (b + 1)).level
  let obs : Option Obs := match line with
    | 2 => if (s.pin (b + 2)).level then some .index else none
    | k => some (.quad ((if k = 0 then la != lb else la == lb) != s.rb R.tioQcfg p (d % 4) 9))
  match obs with
  | none => s
  | some x => (s.decoderSources d).foldl (fun s e => s.observe e.1 e.2 x t) s

/-- A delivered edge of a HALL or PULSE source's pin (R22, R273). -/
def State.sourceEdge (s : State) (e : Nat × Bool) (n t : Nat) : State :=
  if s.srcKind e.1 e.2 = 6 then (if (s.pin n).level then s.observe e.1 e.2 .pulse t else s)
  else
    let q := s.srcSel e.1 e.2
    if [q, q + 1, q + 2].any fun i => (s.pin i).rawAt.isSome then s
    else
      let v := b2n (s.pin q).level + 2 * b2n (s.pin (q + 1)).level + 4 * b2n (s.pin (q + 2)).level
      s.observe e.1 e.2 (.hall (BitVec.ofNat 3 v)) t

/-- The EDGE record of a delivered edge, if CAPEDGE selects it (R260, R267). The interval of a pin's first edge is a free
choice. -/
def State.captureEdge (s : State) (n t : Nat) (stamp : HWord) : State :=
  let x := s.pin n
  let m := s.pinMode n
  let sel := bit (s.rf R.tioPcfg (n / 128) (n % 128) 5 2) (if x.level then 0 else 1)
  let (d, s) := match x.lastDel with
    | some t0 => (min ((t - t0) / 375) 0xFFFFFFFF, s)
    | none => let (f, s) := s.freeN; (f % 2 ^ 32, s)
  let s := s.setPin n { s.pin n with lastDel := some t }
  if 1 ≤ m && m ≤ 4 && sel then s.capture (n / 128) (s.rf R.tioPcfg (n / 128) (n % 128) 17 4) 0 (b2n x.level) n d stamp else s

/-- The stamp of an edge whose raw transition came at `t` (R28, R37, R264): that of its tick, after the observations and steps of the tick. `raw` is
the stamp as it stood at the transition; it names the domain, and stands where the estimates of that tick are no longer kept. -/
def State.edgeStamp (s : State) (n t : Nat) (raw : HWord) : HWord :=
  if s.now < t + pastU then s.stampAt (n / 128) (bits raw.toNat 64 4) t else raw

/-- A level is accepted by the glitch filter (R264, R265): the edge at `t` is delivered, or dropped as over-rate. Its stamp follows the
observation that it makes itself (R28). -/
def State.acceptEdge (s : State) (n t : Nat) (raw : HWord) : State :=
  let x := s.pin n
  let tooSoon := match x.lastAcc with | some t0 => decide (t < t0 + 20 * nsU) | none => false
  let s := s.setPin n { x with level := x.raw, rawAt := none, lastAcc := some t, overrate := x.overrate || tooSoon }
  let input := decide (s.pinMode n = 1)
  let srcs := if input then s.pinSources n else []
  let decs := if input then s.pinDecoders n else []
  if tooSoon then
    let s := s.count 0xB n 1
    (srcs ++ decs.flatMap fun d => s.decoderSources d.1).foldl (fun s e => s.overrateAt e.1 e.2) s
  else
    let s := decs.foldl (fun s d => s.decoderEdge d.1 d.2 t) s
    let s := srcs.foldl (fun s e => s.sourceEdge e n t) s
    s.captureEdge n t (s.edgeStamp n t raw)

/-- Has the raw level of a pin held through its filter? -/
def State.heldLong (s : State) (n : Nat) : Bool :=
  match (s.pin n).rawAt with | some t => decide (t + s.glitchTime n ≤ s.now) | none => false

/-- PIN_EDGE_ACCEPT (R264): the level has held unchanged for GLITCH × 5 ns. -/
def execPinEdgeAccept (pin : Nat) (s : State) : Host.Outcome State Fault Refusal :=
  let n := pin % 256
  let x := s.pin n
  match x.rawAt with
  | none => .next s
  | some t => if s.heldLong n && s.up (n / 128) then .next (s.acceptEdge n t x.rawStamp) else .next s

/-- A raw transition to a level that differs from the pin's raw level (R264). The new level waits for its PIN_EDGE_ACCEPT, with the
filter bypassed too, so that lines which change at one sample are taken together (R273; log entry 81). A pulse too short for the filter is
discarded; a HALL source that waited for this pin then reads its state again. -/
def State.rawChange (s : State) (n : Nat) (level : Bool) : State :=
  let x := s.pin n
  let s := match x.rawAt with
    | some t => if s.heldLong n then s.acceptEdge n t x.rawStamp else s
    | none => s
  let x := s.pin n
  let s := s.setPin n { x with raw := level }
  if level = x.level then
    let s := (s.setPin n { s.pin n with rawAt := none, glitch := true }).count 0xB n 0
    let halls := if s.pinMode n = 1 then (s.pinSources n).filter fun e => decide (s.srcKind e.1 e.2 = 3) else []
    halls.foldl (fun s e => s.sourceEdge e n s.now) s
  else s.setPin n { s.pin n with rawAt := some s.now, rawStamp := s.stamp (n / 128) (s.pinDom n) }

/-- PIN_TRANSITION (R264): the level of an input changes. -/
def execPinTransition (pin : Nat) (level : Bool) (s : State) : Host.Outcome State Fault Refusal :=
  let n := pin % 256
  if !s.up (n / 128) || (s.pin n).raw = level then .next s else .next (s.rawChange n level)

-- ----------------------------------------------------------------------------------------------------- control of pins

/-- Is control of a pin lost (R261): an OUTPUT or PWM_HI pin without an owner, or a lost owner? -/
def State.pinLost (s : State) (n : Nat) : Bool :=
  match s.pinOwner n with
  | some t => s.ownerLost t || (decide ((s.strand t).halt = .debug) && s.rb R.tioPcfg (n / 128) (n % 128) 25)
  | none => decide (s.pinMode n = 2) || decide (s.pinMode n = 3)

/-- TIO_PSTAT.SAFE is cleared unless the owner is still lost (R262). -/
def State.clearSafe (s : State) (n : Nat) : State := if s.pinLost n then s else s.setPin n { s.pin n with safe := false }

/-- A pin drives its safe level, or Hi-Z as its mode lays down (R260, R263). -/
def State.safeLevel (s : State) (n : Nat) : State :=
  let m := s.pinMode n
  s.drive n (if m = 1 || m = 5 then 2 else s.pinSafe n)

/-- Every pin of a panel at its safe level, its pending edges withdrawn (R263). -/
def State.safePins (s : State) (p : Nat) : State :=
  let s := { s with tio := { s.tio with dead := SMap.drop s.tio.dead fun k _ => decide (k / 64 = p) } }
  (List.range 128).foldl (fun s j => s.safeLevel (128 * p + j)) s

/-- Strand control of pins begins (R263): SAFE is cleared on every pin whose owner is not lost, and set on an output that has none. -/
def State.runPins (s : State) (pins : List Nat) : State :=
  pins.foldl (fun s n => if s.pinLost n then (if s.pinMode n = 2 || s.pinMode n = 3 then s.setPin n { s.pin n with safe := true } else s) else s.setPin n { s.pin n with safe := false }) s

/-- LIMP (R263): every pin outside the survival set is handled as when control is lost (R262). -/
def State.limpPins (s : State) (pins : List Nat) : State :=
  pins.foldl (fun s n => if s.rb R.tioPown (n / 128) (n % 128) 10 then s else s.losePin n) s

/-- Every pin of a panel that has no power is Hi-Z (R263). -/
def State.dropPins (s : State) (p : Nat) : State :=
  let pins := SMap.drop s.tio.pins fun k _ => decide (k / 128 = p)
  { s with tio := { s.tio with pins := pins, dead := SMap.drop s.tio.dead fun k _ => decide (k / 64 = p) } }

/-- DEAD_TIME_EXPIRE (R271): the delayed edge of a pair fires, after its time or when the estimate has crossed its position. -/
def execDeadTimeExpire (panel pair : Nat) (s : State) : Host.Outcome State Fault Refusal :=
  let k := panel % 2 * 64 + pair % 64
  match SMap.find s.tio.dead k with
  | none => .next s
  | some d =>
    let r := posRel (s.est d.copy d.domain) d.due
    let due := if d.byPos then decide (r = .equal) || decide (r = .after) else decide (d.due ≤ s.now)
    if due && s.up (panel % 2) then .next (({ s with tio := { s.tio with dead := SMap.del s.tio.dead k } }).drive d.pin 1) else .next s

-- -------------------------------------------------------------------------------------------------------------- SENT

/-- The CRC-4 table of SAE J2716: polynomial x^4 + x^3 + x^2 + 1. -/
def sentTable : List Nat := [0, 13, 7, 10, 14, 3, 9, 4, 1, 12, 6, 11, 15, 2, 8, 5]

/-- The CRC-4 of the data nibbles, seed 5: the legacy method, or the recommended one with a zero nibble appended (R274). -/
def sentCrc (legacy : Bool) (l : List Nat) : Nat :=
  let c := l.foldl (fun c n => n ^^^ sentTable.getD c 0) 5
  if legacy then c else sentTable.getD c 0

/-- A pulse in whole ticks, the nearest, when a sync pulse of 56 ticks is `sync` long. -/
def sentTicks (sync len : Nat) : Nat := (len * 112 + sync) / (2 * sync)

/-- Is the length of a pulse that of a nibble: 12 to 27 ticks? -/
def sentNibOk (n : Nat) : Bool := decide (12 ≤ n) && decide (n ≤ 27)

/-- SENT_FRAME (R274): `sync` is the length of the sync pulse, and then come those of the pulses after it: the status nibble's, the data nibbles',
and the `tail`, which is the CRC's and, where PAUSE allows one, a pause; all in 0.1 ns; `sinceNs` is the time since the falling edge that began the sync pulse. A status or CRC nibble that the pulses do
not give is free. -/
def execSentFrame (receiver sync : Nat) (status : Option Nat) (data tail : List Nat) (sinceNs : Nat) (s : State) : Host.Outcome State Fault Refusal :=
  let r := receiver % 32
  let p := r / 16
  let c := (s.rd R.tioSent p (r % 16)).toNat
  let pin := 128 * p + bits c 0 7
  if !bit c 7 || s.pinMode pin ≠ 5 || !s.up p then .next s
  else
    let nom := 56 * bits c 8 10 * 1000
    let prev := SMap.get s.tio.sentSync 0 r
    let diff (a b : Nat) : Nat := max a b - min a b
    let badSync := decide (nom < 4 * diff sync nom) || (decide (prev ≠ 0) && decide (prev < 64 * diff sync prev))
    let k := bits c 18 3
    let ticks := (status.toList ++ data ++ tail).map (sentTicks sync)
    let nibs := ticks.take (k + 2)
    let badLen := !(decide (ticks.length = k + 2) || (bit c 22 && decide (ticks.length = k + 3)))
    let bad := badSync || badLen || !nibs.all sentNibOk
    let (f1, s) := s.freeN
    let (f2, s) := s.freeN
    let given (i f : Nat) : Nat := match ticks[i]? with | some n => if sentNibOk n then n - 12 else f % 16 | none => f % 16
    let stat := given 0 f1
    let crc := if badLen then f2 % 16 else given (k + 1) f2
    let nib := if bad then [] else ((nibs.drop 1).take k).map fun n => n - 12
    let word := sumN (nib.zipIdx.map fun e => e.1 * 2 ^ (4 * e.2 + 4))
    let crcBad := !bad && decide (sentCrc (bit c 21) nib ≠ crc)
    let d := stat + word + crc * 2 ^ 32 + b2n crcBad * 2 ^ 36 + b2n bad * 2 ^ 37
    let s := { s with tio := { s.tio with sentSync := SMap.set s.tio.sentSync 0 r sync } }
    .next (s.capture p (bits c 23 4) 1 0 r d (s.stampAt p (s.pinDom pin) (s.now - sinceNs * nsU)))

-- --------------------------------------------------------------------------------------------------------- converters

/-- arctan(2^−i) in 2^−48 turns. -/
def atanTable : List Int :=
  [35184372088832, 20770547670515, 10974586953444, 5570871696862, 2796246208089, 1399486241028, 699913886760, 349978300884,
   174991820497, 87496244017, 43748163730, 21874087080, 10937044192, 5468522177, 2734261099, 1367130551, 683565276,
   341782638, 170891319, 85445659, 42722830, 21361415, 10680707, 5340354, 2670177, 1335088, 667544, 333772, 166886, 83443,
   41722, 20861, 10430, 5215, 2608, 1304]

/-- One rotation towards the x axis: the vector and the angle turned so far. -/
def cordicStep (v : Int × Int × Int) (e : Int × Nat) : Int × Int × Int :=
  let (x, y, a) := v
  if 0 ≤ y then (x + y / 2 ^ e.2, y - x / 2 ^ e.2, a + e.1) else (x - y / 2 ^ e.2, y + x / 2 ^ e.2, a - e.1)

/-- atan2(y, x) to the nearest of 2^24 counts per turn. -/
def atan2 (y x : Int) : Nat :=
  let (x', y', a0) := if x < 0 then (-x, -y, (140737488355328 : Int)) else (x, y, 0)
  let (_, _, a) := (atanTable.zipIdx).foldl cordicStep (x' * 1099511627776, y' * 1099511627776, a0)
  (((a + 8388608) / 16777216) % 16777216).toNat

/-- A resolver's angle and amplitude (R278): the cosine, taken 200 ns after the sine, is corrected to the first order for the
motion of `d` counts over that time. -/
def resolve (a b : Nat) (d : Int) : Nat × Nat :=
  let y := Int.ofNat (a % 16384) - 8192
  let x0 := Int.ofNat (b % 16384) - 8192
  let x := x0 * 1000000 + y * d * 6283185 / 16777216
  (atan2 (y * 1000000) x, Nat.sqrt (y.natAbs * y.natAbs + x0.natAbs * x0.natAbs))

/-- A sample of a MAINS input (R277). A phase-locked loop tracks the fundamental; the rule gives the loop no response, so the phase it has after
the sample is a free value (log entry 89). The half-cycle's peak follows that phase, and so does a positive-going crossing of the fundamental,
which is judged as an observation of the domains that name the input. -/
def State.mainsSample (s : State) (input code : Nat) : State :=
  let (x, s) := s.freeN
  let last := SMap.get s.tio.phase 0 input
  let ph := x % 16777216
  let c := code % 16384
  let up := decide (8388608 < last) && decide (ph < 8388608)
  let cross := up || (decide (last ≠ 0) && decide (last ≤ 8388608) && decide (8388608 ≤ ph))
  let mag := max c 8192 - min c 8192
  let peak := SMap.get s.tio.peak 0 input
  let s := { s with tio := { s.tio with phase := SMap.set s.tio.phase 0 input (ph + 1), peak := SMap.set s.tio.peak 0 input (if cross then mag else max peak mag) } }
  if !up then s
  else
    let ok := s.mainsOk input peak s.now
    let s := { s with tio := { s.tio with lastX := SMap.set s.tio.lastX 0 input (s.now + 1) } }
    if !ok then s
    else (((List.range 16).flatMap fun n => [(n, false), (n, true)]).filter fun e => decide (s.srcKind e.1 e.2 = 5) && decide (s.srcSel e.1 e.2 = input)).foldl
      (fun s e => s.observe e.1 e.2 (.mains peak) s.now) s

/-- SOURCE_SAMPLE (R275, R277, R278): a source input is converted; `a` is the code of a MAINS input or of the sine, `b` of the
cosine. -/
def execSourceSample (input a b : Nat) (s : State) : Host.Outcome State Fault Refusal :=
  let i := input % 32
  if !s.rb R.tioAcfg (i / 16) (i / 8 % 2) 0 || !s.up (i / 16) then .next s
  else
    let s := if (List.range 16).any fun n => s.domEn n && ((decide (s.srcKind n false = 5) && decide (s.srcSel n false = i)) || (decide (s.srcKind n true = 5) && decide (s.srcSel n true = i)))
      then s.mainsSample i a else s
    let res := ((List.range 16).flatMap fun n => [(n, false), (n, true)]).filter fun e => decide (s.srcKind e.1 e.2 = 4) && decide (s.srcSel e.1 e.2 = i)
    .next (res.foldl (fun s e =>
      let c := s.dom (i / 16) e.1
      let (ang, amp) := resolve a b (c.rate * Int.ofNat (200 * nsU) / rateScale)
      s.observe e.1 e.2 (.resolver (BitVec.ofNat 24 ang) amp) s.now) s)

/-- SAR_CONVERSION (R275, R276): a converter serves the oldest trigger sequence of its queue, one record for each input, 200 ns
apart. -/
def execSarConversion (converter : Nat) (codes : List Nat) (s : State) : Host.Outcome State Fault Refusal :=
  let c := converter % 4
  match SMap.get s.tio.sar [] c with
  | [] => .next s
  | q :: rest =>
    if !s.up (c / 2) then .next s
    else
      let s := { s with tio := { s.tio with sar := SMap.set s.tio.sar [] c rest } }
      .next ((List.range (q.count + 1)).foldl (fun s i =>
        s.capture q.panel q.stream 2 0 (q.input + i) (codes.getD i 0 % 16384 + q.tag % 65536 * 65536) (s.stampAt q.panel q.domain (s.now + i * 200 * nsU))) s)

/-- A bit of the stream enters the integrators: a one counts up, a zero down (log entry 89). -/
def SdmFilter.push (f : SdmFilter) (b : Bool) : SdmFilter :=
  let i1 := if b then f.i1 + 1 else f.i1 - 1
  let i2 := f.i2 + i1
  { f with i1 := i1, i2 := i2, i3 := f.i3 + i2 }

/-- The differences give an output of 25 bits. -/
def SdmFilter.output (f : SdmFilter) (now : Nat) : BitVec 25 × SdmFilter :=
  let a := f.i3 - f.d1
  let b := a - f.d2
  (b - f.d3, { f with d1 := f.i3, d2 := a, d3 := b, at_ := now })

/-- The least time in which SDMn_CLK clocks in the bits of one output: 156.25 MHz / DIV when the NZ1024 drives it, else 25 MHz at most. -/
def sdmTime (c : Nat) : Nat := (bits c 8 8 + 1) * (if bit c 1 then bits c 2 5 * 7680 else 40 * nsU)

/-- SDM_OUTPUT (R279): the DEC + 1 bits since the last output have been sampled, and the sinc3 filter of an enabled input gives an output; with
FREE = 1 it is recorded. -/
def execSdmOutput (input : Nat) (bitstream : List Bool) (s : State) : Host.Outcome State Fault Refusal :=
  let n := input % 8
  let p := n / 4
  let c := (s.rd R.tioSdm p (n % 4)).toNat
  let f := SMap.get s.tio.sdm {} n
  if !bit c 0 || !s.up p || bitstream.length ≠ bits c 8 8 + 1 || s.now < f.at_ + sdmTime c then .next s
  else
    let (v, f) := (bitstream.foldl SdmFilter.push f).output s.now
    let w := (v.signExtend 32).toNat
    let s := { s with tio := { s.tio with sdm := SMap.set s.tio.sdm {} n f, sdmOut := SMap.set s.tio.sdmOut 0 n w } }
    .next (if bit c 7 then s.capture p (bits c 16 4) 3 0 n w (s.stamp p (bits c 20 4)) else s)

-- ------------------------------------------------------------------------------------------------------ bus schedules

/-- The synchronised time, in ns, that a schedule of a panel follows in LOCKED and COAST (R280): the estimate with its upper bits. -/
def State.schedTime (s : State) (p n : Nat) : Nat :=
  let c := s.dom p n
  let base := c.full + (s.now - c.fullAt) / nsU
  (Int.ofNat base + sdiff (s.est p n) base 48).toNat

/-- A schedule brought up to now (R280): a cycle begins at a multiple of its length `len` (ns); in FAULT and in epoch 0 cycles follow one
another on the panel's reference clock from the last boundary (from time 0 where there was none); after an epoch increment the cycle in
progress completes on the reference clock, and the next begins at the first boundary of the new epoch after that. -/
def State.schedNow (s : State) (key p n len : Nat) : Sched :=
  let c := s.dom p n
  let ep := c.epoch
  let free := decide (c.state = .fault) || decide (ep = 0)
  let from_ := match SMap.find s.tio.sched key with | some r => r.start | none => 0
  let last := if free then s.now - (s.now - from_) % (len * nsU) else s.now - s.schedTime p n % len * nsU
  match SMap.find s.tio.sched key with
  | none => { epoch := ep, start := last }
  | some r =>
    if r.epoch = ep then (if r.start + len * nsU / 2 ≤ last then { epoch := ep, start := last } else r)
    else if r.start + len * nsU ≤ last then { epoch := ep, start := last } else r

/-- Store a schedule. -/
def State.putSched (s : State) (key : Nat) (r : Sched) : State := { s with tio := { s.tio with sched := SMap.put s.tio.sched key r } }

/-- CAN_SCHEDULE_ENTRY (R281): an entry's offset in the cycle has come, and earlier entries of its port at the same offset have
been served; it opens its class for one frame, unless its queue is empty. -/
def execCanScheduleEntry (panel entry : Nat) (s : State) : Host.Outcome State Fault Refusal :=
  let p := panel % 2
  let e := entry % 256
  let dom := s.rf R.tioCcyc p 0 1 4
  let len := s.rf R.tioCcyc p 0 5 20 * 1000
  let r := s.schedNow p p dom len
  let off (i : Nat) : Nat := s.rf R.tioCsch p i 11 20
  let port (i : Nat) : Nat := s.rf R.tioCsch p i 0 7
  let first := (List.range e).all fun i => !(s.rb R.tioCsch p i 10 && decide (port i = port e) && decide (off i = off e)) || (r.done.contains i && !(s.canOpen (800 + 80 * p + port e)).contains i)
  if !s.rb R.tioCcyc p 0 0 || !s.rb R.tioCsch p e 10 || !s.up p || !s.inService || r.done.contains e || s.now < r.start + off e * usU || !first then .next s
  else
    let s := s.putSched p { r with done := r.done ++ [e] }
    let q := 800 + 80 * p + port e
    let tc := s.rf R.tioCsch p e 7 3
    .next (if (s.queue p q tc).isEmpty then s else { s with tio := { s.tio with canOpen := SMap.set s.tio.canOpen [] q (s.canOpen q ++ [e]) } })

/-- SLOT of a LIN port's entry in ms. -/
def State.linSlotMs (s : State) (p l i : Nat) : Nat := s.rf R.tioLsch p (s.rf R.tioLport p l 5 9 + i) 8 8

/-- LIN_SLOT_START (R282): the next slot of a commander's schedule has come; its header is sent, or is counted as LIN_SLIP when
the previous frame is still on the bus. How long a frame stays on the bus is a free choice. -/
def execLinSlotStart (port : Nat) (s : State) : Host.Outcome State Fault Refusal :=
  if port < 960 || 1024 ≤ port then .next s
  else
    let p := portPanel port
    let l := (port - 960) % 32
    let n := s.rf R.tioLport p l 14 7
    let at_ (i : Nat) : Nat := sumN ((List.range i).map fun j => s.linSlotMs p l j)
    let r := s.schedNow port p (s.rf R.tioLport p l 1 4) (max 1 (at_ n) * 1000000)
    match firstIdx n fun i => !r.done.contains i with
    | none => .next s
    | some i =>
      if !s.rb R.tioLport p l 0 || s.portModeOf port ≠ 0 || s.linkOf port ≠ .up || !s.inService || s.now < r.start + at_ i * msU then .next s
      else
        let s := s.putSched port { r with done := r.done ++ [i] }
        if s.now < SMap.get s.tio.linBusy 0 port then .next (s.countPort port 16)
        else
          let (d, s) := s.freeN
          let s := { s with tio := { s.tio with linBusy := SMap.set s.tio.linBusy 0 port (s.now + d) } }
          let e := s.rf R.tioLport p l 5 9 + i
          let s := { s with tio := { s.tio with linSlot := SMap.put s.tio.linSlot port e } }
          .next (s.emit (.linHeader port (s.rf R.tioLsch p e 0 6)))

end Sys2Proof.Machine
end

