-- ==== Sys2Proof/Machine/Panel.lean ====
section
/-! DEFINITION. What a panel takes with it when it is reset or lost (R335, R369, R411), the mirrors of flow records
(R226–R228), the search tables across a loss and a rejoin (R190), and the rewriting of mirrored DRAM (R287). -/

namespace Sys2Proof.Machine

/-- Keep the entries of a map whose key does not satisfy `q`. -/
def keepOut {β : Type} (m : SMap β) (q : Nat → Bool) : SMap β := SMap.drop m fun k _ => q k

/-- The panel of a counter's instance (R411), where it has one. -/
def State.ctrPanel (s : State) (set inst : Nat) : Option Nat :=
  match set with
  | 1 => if inst / 8 < 1024 then some (portPanel (inst / 8)) else none
  | 2 => some (portPanel inst)
  | 3 => some inst
  | 4 => some (inst / 52)
  | 5 => some (inst / 4)
  | 6 => some (coursePanel (s.sepCourse inst))
  | 7 => some (s.poolHome inst)
  | 8 | 9 => some (inst / 256)
  | 0xA | 0xC => some (inst / 16)
  | 0xB => some (inst / 128)
  | 0xD => some (s.domHome inst)
  | 0xE => some (inst / 2)
  | 0xF => some (inst / 4)
  | _ => none

/-- Is key `k` of `mem.dev` a byte that panel `p` holds? -/
def State.devOf (s : State) (p k : Nat) : Bool :=
  if isDram k then decide (keyPanel k = p) else decide (s.devLoc k = .buffer p)

/-- The switch core and ports of panel `p` cease to exist (R258). -/
def State.resetSwitch (s : State) (p : Nat) : State :=
  let s := s.loseCross
  let w := s.swt
  let po (k : Nat) : Bool := decide (k < 1024) && decide (portPanel k = p)
  let gone := (w.frames.filter fun e => decide (e.2.station / 8 = p) || decide (e.2.panel = p)).map (·.1)
  { s with swt := { w with
    link := keepOut w.link po, wentDown := keepOut w.wentDown po, rate := keepOut w.rate po, spareIn := keepOut w.spareIn po,
    bound := keepOut w.bound fun k => po (k / 2), spoofAt := keepOut w.spoofAt po, parseQ := keepOut w.parseQ fun k => decide (k = p),
    frames := keepOut w.frames fun k => gone.contains k,
    streams := keepOut w.streams fun k => decide (streamIn k / 8 = p) || decide (streamOut k / 8 = p),
    inter := keepOut w.inter fun k => decide (k / 8 = p), lanes := keepOut w.lanes fun k => decide (k / 8 = p),
    slotA := if p = 0 then 0 else w.slotA, slotB := if p = 1 then 0 else w.slotB,
    adm := keepOut w.adm fun k => decide (k = p), qs := keepOut w.qs fun k => decide (k / 8 / 1152 = p),
    tx := keepOut w.tx fun k => po k || decide (k = 1152 + p), dwrr := keepOut w.dwrr fun k => decide (k / 1152 = p),
    cbs := keepOut w.cbs fun k => decide (k / 256 = p), meters := keepOut w.meters fun k => decide (k / 256 = p),
    blocked := keepOut w.blocked fun k => decide (k / 256 = p), frerSeq := keepOut w.frerSeq fun k => decide (k / 256 = p),
    frer := keepOut w.frer fun k => decide (k / 256 = p), verified := keepOut w.verified po,
    t1sLast := keepOut w.t1sLast fun k => decide (portPanel (32 + k / 8 * 8) = p), t1sBurst := keepOut w.t1sBurst fun k => decide (portPanel (32 + k * 8) = p), canTx := keepOut w.canTx po,
    linResp := keepOut w.linResp fun k => po (k / 64), gates := keepOut w.gates po } }

/-- The pins, receivers, converters, streams and schedules of panel `p` (R263). -/
def State.resetTio (s : State) (p : Nat) : State :=
  let s := s.dropPins p
  let t := s.tio
  let po (k : Nat) : Bool := decide (portPanel k = p)
  { s with tio := { t with
    sentSync := keepOut t.sentSync fun k => decide (k / 16 = p), sar := keepOut t.sar fun k => decide (k / 2 = p),
    sdmOut := keepOut t.sdmOut fun k => decide (k / 4 = p), peak := keepOut t.peak fun k => decide (k / 16 = p),
    lastX := keepOut t.lastX fun k => decide (k / 16 = p), phase := keepOut t.phase fun k => decide (k / 16 = p),
    seq := keepOut t.seq fun k => decide (k / 16 = p),
    storeA := if p = 0 then [] else t.storeA, storeB := if p = 1 then [] else t.storeB,
    canOpen := keepOut t.canOpen po, sched := keepOut t.sched fun k => decide (k = p) || (decide (960 ≤ k) && po k),
    linBusy := keepOut t.linBusy po, linSlot := keepOut t.linSlot po, sdm := keepOut t.sdm fun k => decide (k / 4 = p) } }

/-- DRM_MAP and DRM_MSZ of panel `p` hold what the other panel's hold (R299). -/
def State.shareMap (s : State) (p : Nat) : State :=
  (s.setRd R.drmMap p 0 0 (s.rd R.drmMap (1 - p) 0)).setRd R.drmMsz p 0 0 (s.rd R.drmMsz (1 - p) 0)

/-- Everything panel `p` holds is gone: its registers and counters (R411), strands, lifelines, ordering domains, lists, yarns,
flow state, memories, tables, keys, faults, ports and pins. A strand of the other panel that holds an item of a lost
lifeline gets TIMED_OUT at its bind-off (R370). -/
def State.resetPanel (s : State) (p : Nat) : State :=
  let st (t : Nat) : Bool := decide (t / 416 = p)
  let s := { s with ctrs := keepOut s.ctrs fun k => decide (s.ctrPanel (k / 64 / 16384) (k / 64 % 16384) = some p) }
  let s := (s.resetSwitch p).resetTio p
  let s := { s with mem := { s.mem with
    scratch := keepOut s.mem.scratch fun k => decide (k / 65536 / 52 = p),
    sram := keepOut s.mem.sram fun k => decide (k / 1048576 / 4 = p),
    dev := keepOut s.mem.dev fun k => s.devOf p k } }
  let held := s.lls.filterMap fun e => match e.2.strand with
    | some t => if decide (e.1 / 4096 = p) && !st t then some (e.1, { e.2 with state := LlState.timedOut }) else none
    | none => none
  let s := { s with
    regs := keepOut s.regs fun a => decide (0x01000000 * (p + 1) ≤ a) && decide (a < 0x01000000 * (p + 2)),
    doms := keepOut s.doms fun k => decide (k / 16 = p),
    evs := (s.evs.filter fun (e : Ev) => decide (e.wheel ≠ p)).map fun (e : Ev) => if e.copy = p then { e with copy := 1 - p } else e,
    evDone := keepOut s.evDone st,
    odoms := keepOut s.odoms fun k => decide (k / 16384 = p),
    lls := held.foldl (fun (m : SMap Lifeline) (e : Nat × Lifeline) => SMap.put m e.1 e.2) (keepOut s.lls fun k => decide (k / 4096 = p)),
    strands := keepOut s.strands st,
    car := { s.car with
      lists := keepOut s.car.lists fun l => decide (listPanel l = p), spill := keepOut s.car.spill fun l => decide (listPanel l = p), spillNext := keepOut s.car.spillNext fun l => decide (listPanel l = p),
      holdA := if p = 0 then [] else s.car.holdA, holdB := if p = 1 then [] else s.car.holdB,
      castRr := keepOut s.car.castRr fun k => decide (k / 128 = p), recircRr := keepOut s.car.recircRr fun k => decide (k / 128 = p) },
    yrn := { s.yrn with
      yarns := keepOut s.yrn.yarns fun k => if k < 512 then decide (k / 64 / 4 = p) else decide ((k - 512) / 16 / 4 = p),
      order := s.yrn.order.filter fun t => !st t,
      stirAt := keepOut s.yrn.stirAt fun c => decide (c / 4 = p), knotAt := keepOut s.yrn.knotAt fun c => decide (c / 4 = p),
      epSeq := keepOut s.yrn.epSeq fun e => decide (coursePanel (s.sepCourse e) = p) },
    skn := { s.skn with
      chg := keepOut s.skn.chg st, epChg := keepOut s.skn.epChg fun e => decide (coursePanel (s.sepCourse e) = p),
      frees := s.skn.frees.filter fun e => decide (e.1 ≠ p) },
    flt := { s.flt with
      fenced := keepOut s.flt.fenced fun k => decide (k / 4096 / 64 = p) && decide (k % 262144 ≠ 2 * 4096 + 7 * 256) && decide (k / 4096 % 64 ≠ 16),
      moving := keepOut s.flt.moving fun n => decide (n / 52 = p), slots := keepOut s.flt.slots fun k => decide (k / 8 = p),
      queue := keepOut s.flt.queue fun k => decide (k = p), restartAt := keepOut s.flt.restartAt fun k => decide (k / 4096 / 64 = p) && decide (k / 4096 % 64 ≠ 15) },
    drm := { s.drm with
      trainedAt := keepOut s.drm.trainedAt fun c => decide (c / 4 = p), temp := keepOut s.drm.temp fun c => decide (c / 4 = p),
      startAt := keepOut s.drm.startAt fun c => decide (c / 4 = p), deferAt := keepOut s.drm.deferAt fun c => decide (c / 4 = p),
      errTrain := keepOut s.drm.errTrain fun c => decide (c / 4 = p), nrq := keepOut s.drm.nrq fun c => decide (c / 4 = p),
      reqs := keepOut s.drm.reqs fun c => decide (c / 4 = p), reading := keepOut s.drm.reading fun c => decide (c / 4 = p),
      rows := keepOut s.drm.rows fun k => decide (k / 16 / 4 = p), acts := keepOut s.drm.acts fun k => decide (k / 16 / 4 = p),
      bank := keepOut s.drm.bank fun c => decide (c / 4 = p), scrub := keepOut s.drm.scrub fun c => decide (c / 4 = p),
      scrubAt := keepOut s.drm.scrubAt fun c => decide (c / 4 = p),
      rate := keepOut s.drm.rate fun c => decide (c / 4 = p), mr4At := keepOut s.drm.mr4At fun c => decide (c / 4 = p),
      refAt := keepOut s.drm.refAt fun c => decide (c / 4 = p), due := keepOut s.drm.due fun c => decide (c / 4 = p) },
    sec := { s.sec with
      keys := keepOut s.sec.keys fun k => decide (k / 1024 = p),
      rxSa := keepOut s.sec.rxSa fun k => decide (portPanel (k / 4) = p), txSa := keepOut s.sec.txSa fun k => decide (portPanel (k / 4) = p),
      mainA := if p = 0 then [] else s.sec.mainA, mainB := if p = 1 then [] else s.sec.mainB },
    rcd := { s.rcd with
      hist := keepOut s.rcd.hist fun k => decide (k / 32 / 65536 / 16 = p) && decide (k / 32 / 65536 % 16 ≤ 4),
      counts := keepOut s.rcd.counts fun k => decide (k / 8 / 64 = p), ext := keepOut s.rcd.ext fun k => decide (k / 65536 / 16 = p) },
    swa := { s.swa with
      run := keepOut s.swa.run fun k => decide (k = p), cycleAt := keepOut s.swa.cycleAt fun k => decide (k = p),
      next := keepOut s.swa.next fun k => decide (k = p),
      last := keepOut s.swa.last fun k => decide (k = p), cycles := keepOut s.swa.cycles fun k => decide (k = p),
      results := keepOut s.swa.results fun k => decide (k / 8 / 512 = p), seq := keepOut s.swa.seq fun k => decide (k = p),
      on := keepOut s.swa.on fun k => decide (k = p), aon := if p = 0 then none else s.swa.aon } }
  let s := (((s.markGoneIf p fun _ => true).setFlw p {}).setTp p {}).rerunHome p
  if s.up (1 - p) then s.shareMap p else s

-- ---------------------------------------------------------------------------------------------------- flow mirrors

/-- Does an entry of the mirror index on panel `q` name a mirror in use (R226, R227): one of the other panel's records, or an adopted
one? What is left of a mirror that was freed out of reach, or discarded, is free. -/
def State.mirLive (s : State) (q : Nat) (e : IdxEntry) : Bool :=
  let own := match SMap.find (s.flw (1 - q)).mirSlots e.ridx with
    | some r => s.recKey (1 - q) (r - 1)
    | none => if SMap.get (s.flw q).adoptUsed false e.ridx then s.recKey q (0x1000000 + e.ridx) else none
  e.valid && match own with | some k => decide (s.flowSig q k = e.sig) | none => false

/-- Allocate a mirror for a record (R226): a slot in the other panel's region, with its key in that region's index. -/
def State.allocMirror (s : State) (p ridx : Nat) : Option State :=
  let q := 1 - p
  if s.log2m q < 2 || !s.joined then none
  else match s.recKey p ridx with
    | none => none
    | some key =>
      let b := crc32cUpd (s.rd R.flwSeed q 0).toNat key % 2 ^ (s.log2m q - 2)
      let way := firstIdx 4 fun w => match s.devRead p (s.mirWayAddr q b w) 16 with
        | some bs => !s.mirLive q (IdxEntry.ofBytes bs)
        | none => false
      let free (m : Nat) : Bool := decide (m < 2 ^ s.log2m q) && (SMap.find (s.flw p).mirSlots m).isNone && !SMap.get (s.flw q).adoptUsed false m
      let (c, s) := s.freeN
      let c := c % 2 ^ s.log2m q
      match way, (if free c then some c else firstIdx (2 ^ s.log2m q) free) with
      | some w, some m =>
        let s := s.setFlw p { s.flw p with mirSlots := SMap.put (s.flw p).mirSlots m (ridx + 1) }
        let s := s.devWrite p (s.mirWayAddr q b w) ({ sig := s.flowSig q key, ridx := m, valid := true, ms := true, ver := s.recVer p ridx } : IdxEntry).bytes
        some (s.mirrorRec p ridx)
      | _, _ => none

/-- Set the MS bit of a record's index entry. -/
def State.setMs (s : State) (p ridx : Nat) (v : Bool) : State :=
  match s.entryOf p ridx with
  | some (l, e) => s.setEntry p l { e with ms := v }
  | none => s

/-- The home rewrites every mirror of panel `p` (R227), and MIRSYNC returns to 1. -/
def State.rewriteMirrors (s : State) (p : Nat) : State :=
  let s := (s.flw p).mirSlots.foldl (fun s (e : Nat × Nat) => s.mirrorRec p (e.2 - 1)) s
  s.setFlw p { s.flw p with mirsync := true }

/-- Mirrors for every record of panel `p` with MS = 1, on a panel that has come back (R227). -/
def State.remakeMirrors (s : State) (p : Nat) : State :=
  let s := (s.flw p).used.foldl (fun s (e : Nat × Bool) => match s.entryOf p e.1 with
    | some (_, x) => if x.ms then (s.allocMirror p e.1).getD s else s
    | none => s) s
  s.setFlw p { s.flw p with mirsync := true }

/-- A record becomes absent (R228): its index entry, record index and context go, and it is counted. -/
def State.absentRec (s : State) (p ridx : Nat) (key : List Byte) : State :=
  let s := s.markGone p ridx
  let b := s.flowBucket p key
  let f := s.flw p
  if 0x1000000 ≤ ridx then
    ((s.setAdopt p (SMap.set f.adoptUsed false (ridx - 0x1000000) false)).dropCtx p ridx).countP p 37
  else
  let ovf := keepOut f.ovf fun i => match SMap.find f.ovf i with | some e => decide (e.ridx = ridx) && e.valid && decide (e.bucket = b) | none => false
  let s := s.setFlw p { f with ovf := ovf, used := SMap.set f.used false ridx false }
  let s := [0, 1, 2, 3].foldl (fun s w => match s.entryAt p (.way b w) with
    | some e => if e.valid && decide (e.ridx = ridx) then s.setEntry p (.way b w) {} else s
    | none => s) s
  (s.dropCtx p ridx).countP p 37

/-- A must-survive record made absent is rebuilt from its mirror into a new record index (R228); where its mirror cannot be read, it
stays absent and is counted as MS_LOST (log entry 95). -/
def State.rebuildRec (s : State) (p ridx : Nat) (key : List Byte) : State :=
  match (s.flw p).mirSlots.find? fun e => decide (e.2 = ridx + 1) with
  | none => s
  | some (m, _) =>
    let lost (s : State) : State := (s.setFlw p { s.flw p with mirSlots := SMap.del (s.flw p).mirSlots m }).countP p 38
    match s.devRead p (s.mirBase (1 - p) + m * 128) 128 with
    | none => lost s
    | some old => match s.reserve p key with
    | (none, s) => lost s
    | (some (loc, i), s) =>
      let s := (s.makeRecord p loc i key).devWrite p (s.recAddr p i) old
      (s.setFlw p { s.flw p with mirSlots := SMap.put (s.flw p).mirSlots m (i + 1) }).setMs p i true

/-- The records of panel `p` that DRAM still serves, with their keys, adopted ones among them (R227). -/
def State.liveRecs (s : State) (p : Nat) : List (Nat × List Byte) :=
  (((s.flw p).used.filter fun (e : Nat × Bool) => e.2).map (fun (e : Nat × Bool) => e.1) ++
    ((s.flw p).adoptUsed.filter fun (e : Nat × Bool) => e.2).map (fun (e : Nat × Bool) => 0x1000000 + e.1)).filterMap fun i =>
      (s.recKey p i).map fun k => (i, k)

/-- Do memory failures leave a record, with the bucket of its index entry (R228)? -/
def State.recServed (s : State) (p ridx : Nat) (key : List Byte) : Bool :=
  s.devOk p (s.recAddr p ridx) 128 &&
    s.devOk p (if 0x1000000 ≤ ridx then s.mirWayAddr p (s.flowHash p key % 2 ^ (s.log2m p - 2)) 0 else s.wayAddr p (s.flowBucket p key) 0) 64

-- -------------------------------------------------------------------------------------------------- search tables

/-- Table commands whose copy writes are all done complete (R190), each once. -/
def State.finishCopies (s : State) (l : List CopyWr) : State :=
  (l.filterMap fun c => c.jrec.map fun j => (j, c.result)).eraseDups.foldl (fun s e => s.finish e.1 0 e.2) s

/-- The survivor `q` of a loss becomes home for every entry (R190): copy writes that the lost panel had not made are made,
its own are complete, conditional deletes are decided anew, host commands that waited at the lost engine wait at its own, and L2 guards
and windows count as expired. -/
def State.adoptTables (s : State) (q : Nat) : State :=
  let p := 1 - q
  let lost := s.tp p
  let own := (s.tp q).copyQ
  let s := s.setTp q { s.tp q with copyQ := [], stream := [], cdels := [], learnQ := (s.tp q).learnQ ++ lost.learnQ.filter fun w => !w.isSight }
  let s := lost.copyQ.foldl (fun s c => s.putCopy q c.handle c.entry) s
  (s.finishCopies (lost.copyQ ++ own)).expireL2 q

/-- Conditional deletes that waited on either panel are decided by the survivor (R316). -/
def State.redoCdels (s : State) (q : Nat) (l : List CdelReq) : State := l.foldl (fun s c => s.cdelete q c) s

/-- At a rejoin after a bridge failure every bucket is rewritten from its home copy (R190). -/
def State.rewriteTables (s : State) : State :=
  let home (h : Nat) : Nat := hIdx h % 2
  let pick (p : Nat) : SMap TblEntry := keepOut (s.tp p).ents fun h => decide (home h ≠ p)
  let merged := (pick 1).foldl (fun m e => SMap.put m e.1 e.2) (pick 0)
  let qs := (s.tp 0).copyQ ++ (s.tp 1).copyQ
  let s := [0, 1].foldl (fun s p => s.setTp p { s.tp p with ents := merged, copyQ := [], act := keepOut (s.tp p).act fun h => decide (home h ≠ p) }) s
  s.finishCopies qs

/-- A panel that has come back takes its copy from the survivor `q`, with the activity words of the entries it is home of
(R190, R404). -/
def State.copyTables (s : State) (q : Nat) : State :=
  let p := 1 - q
  let x := s.tp q
  let s := s.setTp p { s.tp p with ents := x.ents, act := keepOut x.act fun h => decide (hIdx h % 2 ≠ p), scan := none, scanDue := x.scanDue }
  s.setTp q { x with act := keepOut x.act fun h => decide (hIdx h % 2 = p) }

-- -------------------------------------------------------------------------------------------------- mirrored DRAM

/-- Write panel `src`'s copy of the mirrored bytes whose offsets satisfy `q` over the other copy (R287); a byte whose copy lies on a
fenced channel is not copied, since it cannot be read. -/
def State.copyMirror (s : State) (src : Nat) (q : Nat → Bool) : State :=
  let m0 := s.mirOff 0
  let m (k : Nat) : Nat := s.keyOff k - m0
  let inR (c k : Nat) : Bool :=
    isDram k && decide (keyPanel k = c) && decide (m0 ≤ s.keyOff k) && decide (m k < s.msize) && q (m k) && !s.isFenced src 5 (s.chanOf src (s.keyOff k))
  let kept := keepOut s.mem.dev (inR (1 - src))
  let dev := (s.mem.dev.filter fun e => inR src e.1).foldl (fun d e => cellSet d (s.mirKey (m e.1) (1 - src)) e.2) kept
  { s with mem := { s.mem with dev := dev } }

/-- The mirror rewrite of a rejoin ends (R287): each marked block, or the whole, has been written over, blocks that both
panels marked are counted as MIRR_DIVERGE, RESYNC := 0 and MSYNC := 1. -/
def State.endResync (s : State) : State :=
  let s := match s.drm.whole with
    | some p => s.copyMirror p fun _ => true
    | none => s.drm.marked.foldl (fun s (e : Nat × Nat) =>
        let s := s.copyMirror (if e.2 = 2 then 1 else 0) fun m => decide (m / 65536 = e.1)
        if e.2 = 3 then s.countP 1 39 else s) s
  let any := (List.range 8).any fun c => s.isFenced (c / 4) 5 c
  { s with drm := { s.drm with marked := [], whole := none, resync := false, msync := !any } }

end Sys2Proof.Machine
end

