-- ==== Sys2Proof/Machine/Swatch.lean ====
section
/-! DEFINITION. The slices of the swatch, their results, and cutting a slice short (R378, R381, R382, R385). -/

namespace Sys2Proof.Machine

/-- Kind of a slice (R378, R385). -/
def sliceKind (n : Nat) : Nat :=
  if n < 52 then 1 else if n < 364 then 2 else if n < 368 then 3 else if n < 372 then 4 else if n < 376 then 5
  else if n < 384 then 6 else if n < 412 then 7 else if n < 414 then 8 else if n < 436 then 9 else if n < 440 then 10 else 11

/-- MEM and slice of the `j`-th SRAM slice of a panel, as the INDEX of R359 (R363). -/
def sramIndex (j : Nat) : Nat :=
  let go : List (Nat × Nat) → Nat → Nat := fun l j =>
    (l.foldl (fun (acc : Option Nat × Nat) e => match acc.1 with
      | some _ => acc
      | none => if acc.2 < e.2 then (some (e.1 * 256 + acc.2), 0) else (none, acc.2 - e.2)) (none, j)).1.getD 0
  go [(0, 96), (1, 64), (2, 64), (3, 16), (4, 16), (5, 52), (6, 4)] j

/-- INDEX of the unit a slice of panel `p` tests (R359, R385). -/
def sliceIndex (p n : Nat) : Nat :=
  match sliceKind n with
  | 1 => 52 * p + n
  | 2 => sramIndex (n - 52)
  | 3 => 4
  | 4 => n - 368
  | 5 => 4 * p + (n - 372)
  | 6 => 8 * p + (n - 376)
  | 7 => (4 * p + (n - 384) / 7) * 8 + (n - 384) % 7
  | 8 => 2 * p + (n - 412)
  | 9 => let j := n - 414; if j < 8 then (2 * p + j / 4) * 8 + j % 4 else (4 + 14 * p + (j - 8)) * 8
  | 10 => 4 * p + (n - 436)
  | _ => 7 * 256

/-- UNIT a slice kind tests (R359, R383); none for a converter. -/
def kindUnit (k : Nat) : Option Nat :=
  match k with | 1 => some 1 | 2 => some 2 | 3 => some 4 | 4 => some 4 | 5 => some 8 | 6 => some 7 | 7 => some 3 | 9 => some 6 | 10 => some 5 | 11 => some 2 | _ => none

/-- Coverage of a complete slice, 0.1 % units: stuck-at and transition (R378). -/
def kindCov (k : Nat) : Nat × Nat :=
  match k with
  | 1 => (985, 920) | 2 => (1000, 1000) | 3 => (970, 880) | 4 => (850, 600) | 5 => (970, 900) | 6 => (990, 950)
  | 7 => (900, 750) | 10 => (1000, 1000) | 11 => (1000, 1000) | _ => (0, 0)

/-- Word `w` of a slice's result. -/
def State.resWord (s : State) (p n w : Nat) : Word := SMap.get s.swa.results 0#32 ((p * 512 + n) * 8 + w)

/-- Write a result (R385): the words, then SEAL; every FAIL and INCOMPLETE goes to the Row Counter too. `outcome` is 1 PASS,
2 FAIL, 3 INCOMPLETE; `origin` 0 PERIODIC, 1 BOOT, 2 EXTENDED, 3 RETEST. -/
def State.putResult (s : State) (p n outcome origin sa tr dur pat misr cause : Nat) : State :=
  let missed := if outcome = 3 then min 0xFFFF (bits (s.resWord p n 6).toNat 8 16 + 1) else 0
  let seq := SMap.get s.swa.seq 0 p + 1
  let ws := [sliceKind n + sliceIndex p n * 256 + outcome * 2 ^ 20 + origin * 2 ^ 22, sa + tr * 1024, dur, pat, misr, seq, cause + missed * 256]
  let bs := ws.flatMap fun w => leBytes 4 (w % 2 ^ 32)
  let all := ws ++ [crc32c bs]
  let s := { s with swa := { s.swa with
    seq := SMap.set s.swa.seq 0 p seq,
    results := (List.range 8).foldl (fun m w => SMap.set m 0#32 ((p * 512 + n) * 8 + w) (w32 (all.getD w 0))) s.swa.results } }
  let s := s.countP p (44 + outcome)
  if outcome = 1 then s else s.record 11 (if outcome = 2 then 2 else 0) 0 (if n = 440 then 2 else p) n bs

/-- SWT_CFG.CYCLE in time units. -/
def State.cycleLen (s : State) (p : Nat) : Nat := s.rf R.swtCfg p 0 1 12 * secU

/-- When the running cycle of a panel began. -/
def State.cycleStart (s : State) (p : Nat) : Nat := SMap.get s.swa.cycleAt 0 p

/-- A cycle begins at time `t` (R379); the AON_SRAM slice runs alongside Panel A's. -/
def State.beginCycle (s : State) (p t : Nat) : State :=
  let s := { s with swa := { s.swa with cycleAt := SMap.put s.swa.cycleAt p t, next := SMap.set s.swa.next 0 p 0 } }
  if p = 0 && s.swa.aon.isNone && !s.ringFenced then { s with swa := { s.swa with aon := some { slice := 440, start := s.now } } } else s

/-- The turn passes to the next slice; after the last one the cycle has ended, and one that ends late starts the next at once and
is counted. -/
def State.nextSlice (s : State) (p n : Nat) : State :=
  let s := { s with swa := { s.swa with next := SMap.set s.swa.next 0 p (n + 1) } }
  if n + 1 < 440 then s
  else
    let s := { s with swa := { s.swa with cycles := SMap.set s.swa.cycles 0 p (min (SMap.get s.swa.cycles 0 p + 1) 4194303) } }
    if s.cycleStart p + s.cycleLen p < s.now then (s.countP p 48).beginCycle p s.now else s

/-- A slice cut short (R381, R382): what it moved is restored, and it is INCOMPLETE; how far it came is open. `cause` is 1 ERROR,
2 MODE, 3 SPARE_NEEDED. -/
def State.cutRun (s : State) (p : Nat) (r : SliceRun) (cause : Nat) : State :=
  let c := kindCov (sliceKind r.slice)
  let (a, s) := s.freeN
  let (b, s) := s.freeN
  let (pat, s) := s.freeN
  let (m, s) := s.freeN
  s.putResult p r.slice 3 0 (a % (c.1 + 1)) (b % (c.2 + 1)) ((s.now - r.start) / usU) (pat % 2 ^ 32) (m % 2 ^ 32) cause

/-- Cut panel `p`'s slice short. -/
def State.cutSlice (s : State) (p cause : Nat) : State :=
  match SMap.find s.swa.run p with
  | none => s
  | some r => (({ s with swa := { s.swa with run := SMap.del s.swa.run p } }).cutRun p r cause).nextSlice p r.slice

/-- Cut the AON_SRAM slice short. -/
def State.cutAon (s : State) (cause : Nat) : State :=
  match s.swa.aon with
  | none => s
  | some r => ({ s with swa := { s.swa with aon := none } }).cutRun 0 r cause

/-- The swatch starts on a panel, with its first cycle (R339, R379). -/
def State.startSwatchOn (s : State) (p : Nat) : State :=
  if s.up p && s.rb R.swtCfg p 0 0 then ({ s with swa := { s.swa with on := SMap.set s.swa.on false p true } }).beginCycle p s.now else s

/-- The swatch starts at entry to RUN (R339, R379). -/
def State.startSwatch (s : State) : State := (s.startSwatchOn 0).startSwatchOn 1

/-- The swatch runs only in RUN and DEGRADED (R379, R381). -/
def State.stopSwatch (s : State) : State :=
  let s := ((s.cutSlice 0 2).cutSlice 1 2).cutAon 2
  { s with swa := { s.swa with on := [] } }

end Sys2Proof.Machine
end

