-- ==== Sys2Proof/Machine/Modes.lean ====
section
/-! DEFINITION. The mode controller (R20, R21, R332–R342): its transitions and what each entry does. -/

namespace Sys2Proof.Machine

/-- The mode a trigger is judged against (R334): during the entry to SLEEP, SLEEP. -/
def State.judged (s : State) : Mode := if s.md.sleeping then .sleep else s.md.mode

/-- The MOD_STAT word (R343). -/
def State.modStat (s : State) : Nat :=
  s.md.mode.code + s.md.prev * 16 + s.md.cause * 256 + b2n (s.up 0) * 2 ^ 16 + b2n (s.up 1) * 2 ^ 17

/-- A transition completes (R334): MOD_STAT, SV_ATTN.MODE and a MODE event. -/
def State.enterMode (s : State) (m : Mode) (c : MCause) : State :=
  let s := { s with md := { s.md with prev := s.md.mode.code, mode := m, cause := c.code, held := false } }
  (s.setAttn 1).postEvent 8 0 0 (leBytes 4 s.modStat)

/-- BOOT, held (R333, R337, R330). -/
def State.holdBoot (s : State) (c : MCause) (dev : Nat) : State :=
  let s := s.enterMode .boot c
  ({ s with md := { s.md with held := true, bootDev := dev } }).setAttn 5

/-- Time units of an AON cycle, 25 MHz (R418). -/
def aonCycleU : Nat := 48000

/-- Is any unit fenced (R333)? -/
def State.anyFenced (s : State) : Bool := s.flt.fenced.any fun e => e.2

/-- RUN, DEGRADED and LIMP are left: the swatch and the scans stop (R207, R379). -/
def State.leaveService (s : State) : State := s.stopSwatch.stopScans

/-- Entry to RUN (R339, R263), and in the same step to DEGRADED where a unit is fenced, a panel is down or the bridge has
failed (R333). -/
def State.toRun (s : State) (c : MCause) : State :=
  let fresh := decide (s.md.mode = .config)
  let s := (s.enterMode .run c).runPins (List.range 256)
  let s := if fresh then s.startScans.startSwatch else s
  if s.anyFenced || !s.joined then s.enterMode .degraded .error else s

/-- Entry to LIMP (R340, R330): the swatch stops (R379), the scans go on (R207). -/
def State.toLimp (s : State) (c : MCause) : State := ((s.stopSwatch.enterMode .limp c).limpPins (List.range 256)).setAttn 5

/-- Entry to SERVICE (R342): pins at their safe levels, and the grants of the token take effect. -/
def State.toService (s : State) (c : MCause) : State := ((s.enterMode .service c).safePins 0).safePins 1

/-- SLEEP is accepted (R341): reception and cast-on stop. The cause stands until the entry completes. -/
def State.toSleep (s : State) (c : MCause) : State :=
  let s := s.leaveService
  { s with md := { s.md with sleeping := true, sleepAt := s.now, cause := c.code } }

/-- The conditions for MODE RUN in DEGRADED (R333). -/
def State.runOk (s : State) : Bool := s.joined && !s.anyFenced && (s.flw 0).mirsync && (s.flw 1).mirsync && s.drm.msync

/-- A Selvage mode command is judged in this AON cycle (R334). -/
def State.noteSel (s : State) : State := { s with md := { s.md with selCycle := some (s.now / aonCycleU) } }

/-- Does a Selvage mode command stand among commands that wait (R334): a MODE operation of the Selvage port, or its write of MOD_CMD?
`page` is the Selvage page as the first of them finds it. -/
def selWaiting : Nat → List Instr → Bool
  | _, [] => false
  | page, c :: l =>
    let modCmd := R.modCmd.addr 0 0
    match c with
    | .resetA r | .resetB r | .svLimp r | .svSleep r | .svWake r => (decide (r.addr.toNat < 5) && decide (r.len = 0#6)) || selWaiting page l
    | .modCmdWrite w _ => decide (w.who = .selvage) || w.rival.isSome || selWaiting page l
    | .registerWrite a => (decide (a.addr = modCmd) && (decide (a.who = .selvage) || a.rival.isSome)) || selWaiting page l
    | .wrS ⟨r, _⟩ =>
      let a := page * 4194304 + 4 * r.addr.toNat
      (decide (a ≤ modCmd) && decide (modCmd < a + 4 * r.len.toNat)) || selWaiting page l
    | .setpage r => selWaiting (if r.addr.toNat < 1024 && r.len = 0#6 then r.addr.toNat else page) l
    | _ => selWaiting page l

/-- Does a Selvage mode command wait in the queue? Commands that wait together are taken at one time, so that it is judged in the same
AON cycle as the command that is taken now (log entry 44). -/
def State.selWaits (s : State) : Bool := selWaiting s.sv.page s.pending

/-- A mode command (R21, R333, R334): is it accepted, and the state. A host command judged in the AON cycle of a Selvage mode
command, before it or after it, is refused. -/
def State.modeCommand (s : State) (target : Nat) (selvage : Bool) : Bool × State :=
  let cyc := s.now / aonCycleU
  if !selvage && (decide (s.md.selCycle = some cyc) || s.selWaits) then (false, s)
  else
    let s := if selvage then s.noteSel else s
    let c : MCause := if selvage then .selvageCmd else .hostCmd
    let m := s.judged
    let serving := decide (m = .config) || decide (m = .run) || decide (m = .degraded)
    match target with
    | 3 => if m = .config || (m = .degraded && s.runOk) then (true, s.toRun c) else (false, s)
    | 5 => if serving then (true, s.toLimp c) else (false, s)
    | 6 => if serving || (m = .limp && selvage) then (true, s.toSleep c) else (false, s)
    | 7 => if m = .config && s.sec.token.isSome then (true, s.toService c) else (false, s)
    | _ => (false, s)

/-- A panel in reset: it drives VID code 20 (R414) and waits for the conditions of R335. -/
def State.offPanel (s : State) (p : Nat) : State :=
  s.setPan p { s.pan p with phase := .off, vid := 20, vidAt := s.now }

/-- The current owner as the fuses give it (R344): the highest-numbered valid slot. -/
def State.fusedOwner (s : State) : Option (Nat × List Byte) := s.sec.owners.getLast?

/-- SHAKE256 (FIPS 202). -/
def shake256 (msg : List Byte) (n : Nat) : List Byte := spongeOut 136 0x1F msg 0 n

/-- The bytes of an ASCII string. -/
def ascii (t : String) : List Byte := t.toList.map fun c => BitVec.ofNat 8 c.toNat

/-- The owner hash in force, zero where unowned. -/
def State.ownerHash (s : State) : List Byte := match s.sec.bootOwner with | some (_, h) => h | none => List.replicate 64 0#8

/-- The identity key's seed (R350). -/
def idSeed : List Byte := shake256 (Config.pufSeed ++ ascii "ID") 32
/-- The attestation key's seed (R350). -/
def State.atSeed (s : State) : List Byte := shake256 (Config.pufSeed ++ ascii "AT" ++ s.ownerHash) 32
/-- The certificate for the attestation key that the device signs with its identity key at a boot (R351). -/
def State.signCert (s : State) : State := { s with sec := { s.sec with cert := Config.certificate idSeed (Config.mldsaPublic s.atSeed) } }

/-- Every device-wide block and what belongs to no panel goes with both panels (R335). -/
def State.resetDevice (s : State) : State :=
  let s := (s.resetPanel 0).resetPanel 1
  let s := { s with
    regs := keepOut s.regs fun a => decide (0x00800000 ≤ a) && decide (a < 0x01000000),
    ctrs := keepOut s.ctrs fun k => decide (k / 64 / 16384 ≠ 0x11),
    doms := [], evs := [], evDone := [], odoms := [], lls := [], car := {}, yrn := {}, skn := {}, mem := {}, drm := {}, chr := {}, tbl := {}, swt := { s.swt with frames := [], streams := [] }, hst := {},
    sec := { s.sec with token := none, verifying := false, last := 0, dbg := false, bootOwner := s.fusedOwner, seed := s.sec.seed + 1, digest := [], bootCfg := [], rafOn := false, rafSci := [], svn := keepOut s.sec.svn fun c => decide (c = 1) },
    md := { s.md with bridge := true, surv := [], survPins := [], sleeping := false } }
  ((s.offPanel 0).offPanel 1).signCert

/-- The device restarts in BOOT from step 3 of R336 with both panels in reset and their boot causes cleared (R333). -/
def State.bootAfresh (s : State) (c : MCause) : State :=
  let s := (s.resetDevice).enterMode .boot c
  let s := [0, 1].foldl (fun s p => s.setPan p { s.pan p with bootCause := 0, begun := false }) s
  { s with md := { s.md with bootDev := 0, aonDone := some s.now } }

/-- The device is held in BOOT by an error that no panel survives, or that LIMP cannot carry (R333, R367). -/
def State.bootHeld (s : State) (c : MCause) (dev : Nat) : State := s.resetDevice.holdBoot c dev

end Sys2Proof.Machine
end

