-- ==== Sys2Proof/Machine/Faults.lean ====
section
/-! DEFINITION. Fail-operational behaviour (ch. 19): fencing a unit (R176, R228, R298, R360, R363), losing a panel (R370),
losing and retraining the bridge (R372), and the darning controllers' recoveries (R365–R367). -/

namespace Sys2Proof.Machine

-- -------------------------------------------------------------------------------------------------------- reports

/-- The first eight bytes of a FAULT body (R374). -/
def faultHead (r : Recov) (action slot : Nat) : List Byte :=
  leBytes 4 (r.sev + r.unit * 256 + r.index * 65536 + action * 2 ^ 28) ++
  leBytes 4 (r.detect + slot * 256 + b2n r.queued * 2048 + min 65535 r.replayed * 65536)

/-- Post a FAULT event (R374). ACTION: 1 DARNED, 2 FENCED, 3 RESTORED, 4 REPLAYED, 5 ESCALATED, 6 MOOT, 7 SPARE_LOW,
8 PANEL_LOST, 9 BRIDGE_DOWN, 10 REJOINED. -/
def State.fault (s : State) (p : Nat) (r : Recov) (action slot : Nat) : State :=
  s.postEvent 5 0 p (faultHead r action slot ++ leBytes 16 r.stamp.toNat ++ leBytes 8 r.recseq)

/-- The stamp of a detection (R374): domain FLT_CFG.STAMPDOM of the panel. -/
def State.faultStamp (s : State) (p : Nat) : HWord := s.stamp p (s.rf R.fltCfg p 0 0 4)

/-- An error is written to the Row Counter (R375, R389), and one of severity 2 or higher sets SV_ATTN.FAULT (R331). -/
def State.writeError (s : State) (p : Nat) (r : Recov) : Recov × State :=
  let r := { r with stamp := s.faultStamp p, recseq := s.rcd.seq }
  let s := s.record 9 r.sev 0 (if r.unit = 15 || r.unit = 16 then 2 else p) r.unit (faultHead r 0 7)
  (r, if 2 ≤ r.sev then s.setAttn 2 else s)

/-- Where a copy of the repair log starts in flash (R376). -/
def logCopy (c : Nat) : Nat := 0x4210000 + 0x8000 * c

/-- An entry of the repair log as its 16 bytes (R376). -/
def RepEntry.bytes (e : RepEntry) : List Byte :=
  let b := leBytes 4 (e.unit + e.panel * 64 + e.index * 256 + e.kind * 2 ^ 20) ++ leBytes 4 (e.addr % 65536 + e.spare % 256 * 65536) ++ leBytes 4 e.seq
  b ++ leBytes 4 (crc32c b)

/-- The entry that 16 bytes hold, where their CRC is valid (R376). -/
def repParse (bs : List Byte) : Option RepEntry :=
  let w0 := leVal (sliceZ bs 0 4)
  let w1 := leVal (sliceZ bs 4 4)
  if leVal (sliceZ bs 12 4) = crc32c (sliceZ bs 0 12) then
    some { unit := bits w0 0 6, panel := bits w0 6 1, index := bits w0 8 12, kind := bits w0 20 4, addr := bits w1 0 16, spare := bits w1 16 8, seq := leVal (sliceZ bs 8 4) }
  else none

/-- The entries of the repair log that either copy has programmed, ascending. -/
def State.logUsed (s : State) : List Nat :=
  ((((s.flash.filter fun e => decide (logCopy 0 ≤ e.1) && decide (e.1 < logCopy 2)).map fun e => (e.1 - logCopy 0) % 0x8000 / 16).eraseDups).mergeSort fun a b => decide (a ≤ b))

/-- Entry `i` of the repair log, from whichever copy has a valid CRC (R376). -/
def State.logEntry (s : State) (i : Nat) : Option RepEntry :=
  match repParse (s.flashBytes (logCopy 0 + 16 * i) 16) with
  | some e => some e
  | none => repParse (s.flashBytes (logCopy 1 + 16 * i) 16)

/-- Is an entry of the repair log valid in neither copy (R376)? -/
def State.logBroken (s : State) : Bool := s.logUsed.any fun i => (s.logEntry i).isNone

/-- The repair log as a boot finds it in flash (R376). -/
def State.readLog (s : State) : State := { s with flt := { s.flt with log := s.logUsed.filterMap s.logEntry } }

/-- Append an entry to the repair log, and to both of its copies in flash while they have room (R376). -/
def State.logRepair (s : State) (p unit index kind addr spare : Nat) : State :=
  let e : RepEntry := { unit := unit, panel := p, index := index, kind := kind, addr := addr, spare := spare, seq := (match s.flt.log.getLast? with | some x => x.seq | none => 0) + 1 }
  let i := match s.logUsed.getLast? with | some x => x + 1 | none => 0
  let s := { s with flt := { s.flt with log := s.flt.log ++ [e] } }
  if i < 2048 then (s.flashProg (logCopy 0 + 16 * i) e.bytes).flashProg (logCopy 1 + 16 * i) e.bytes else s

/-- Mark a unit as fenced. -/
def State.markFenced (s : State) (p unit index : Nat) : State :=
  { s with flt := { s.flt with fenced := SMap.set s.flt.fenced false (unitKey p unit index) true } }

-- --------------------------------------------------------------------------------------------------- items, frames

/-- An item whose damaged data cannot be replayed is released as a drop, counted as BIND_TIMEOUT (R364). -/
def State.dropLl (s : State) (k : Nat) : State :=
  let l := s.ll k
  match l.state with
  | .running =>
    let s := s.discardAttempt k
    let s := s.endWork l.item 0x0D []
    let s := s.setLl k { s.ll k with state := .timedOut, item := { l.item with work := none } }
    let s := match l.strand with | some t => s.rerunLocks t | none => s
    s.dropMark l.item 16
  | .queued =>
    let s := s.discardAttempt k
    let s := s.endWork l.item 0x0D []
    ((s.killQueued k).freeLl k).dropMark l.item 16
  | .recirc => ((((s.discardAttempt k).killRecirc k).freeLl k).dropMark l.item 16)
  | .done | .committing => ((s.discardAttempt k).freeLl k).dropMark l.item 16
  | _ => s

/-- The items a strand holds, in either bank. -/
def State.itemsOf (s : State) (t : Nat) : List Nat := (s.strand t).bank0.item.toList ++ (s.strand t).bank1.item.toList

/-- Replay a list of items (R364): how many, and the state. -/
def State.replayAll (s : State) (l : List Nat) : Nat × State := (l.length, l.foldl (fun s k => s.replay k) s)

/-- Is one of the cells in slice `i` of the packet buffer? -/
def inSlice (i : Nat) (cs : List Nat) : Bool := cs.any fun c => decide (c / 1024 = i)

/-- The frames with cells in a fenced slice `i` of the packet buffer (R363, R364): one that waits for a parser is dropped as ING_CONG,
an item as BIND_TIMEOUT, and a frame handed off as FAB_LOSS. Which egress cells a queued frame has is open. -/
def State.loseCells (s : State) (p i : Nat) : State :=
  let q := SMap.get s.swt.parseQ [] p
  let s := { s with swt := { s.swt with parseQ := SMap.set s.swt.parseQ [] p (q.filter fun x => !inSlice i x.cells) } }
  let s := (q.filter fun x => inSlice i x.cells).foldl (fun s (x : ParseItem) => s.countPort x.port 13) s
  let s := (s.car.lists.filter fun e => decide (listPanel e.1 = p)).foldl (fun s (e : Nat × List WorkItem) =>
    let hit (w : WorkItem) : Bool := w.ll.isNone && inSlice i w.cells
    (e.2.filter hit).foldl (fun s w => s.discardHead w) (s.setItems e.1 ((s.items e.1).filter fun w => !hit w))) s
  let s := (s.car.spill.filter fun e => decide (listPanel e.1 = p)).foldl (fun s (e : Nat × List WorkItem) =>
    (e.2.filter fun w => inSlice i w.cells).foldl (fun s w => s.discardHead w) (s.setSpilled e.1 ((s.spilled e.1).filter fun w => !inSlice i w.cells))) s
  let s := ((s.holdQ p).filter fun w => inSlice i w.cells).foldl (fun s w => s.discardHead w) (s.setHoldQ p ((s.holdQ p).filter fun w => !inSlice i w.cells))
  let s := (s.lls.filter fun e => decide (e.1 / 4096 = p) && inSlice i e.2.item.cells).foldl (fun s (e : Nat × Lifeline) => s.dropLl e.1) s
  (s.swt.frames.filter fun e => decide (e.2.panel = p)).foldl (fun s (e : Nat × FabFrame) =>
    if e.2.cells.isEmpty then
      let (b, s) := s.freeB
      if b then s.fabLoss e.1 else s
    else if inSlice i e.2.cells then s.fabLoss e.1 else s) s

/-- Items that lay in a fenced part of a store are discarded, their markers DROP with BIND_TIMEOUT (R363); which they are
is open. -/
def State.loseSomeItems (s : State) (l : List WorkItem) : List WorkItem × State :=
  l.foldl (fun (acc : List WorkItem × State) w =>
    let (b, s) := acc.2.freeB
    if b then (acc.1, s.discardHead w) else (acc.1 ++ [w], s)) ([], s)

/-- The on-chip items of a panel's lists after a Carriage store slice is lost. -/
def State.loseStore (s : State) (p : Nat) : State :=
  (s.car.lists.filter fun e => decide (listPanel e.1 = p)).foldl (fun s (e : Nat × List WorkItem) =>
    let (keep, s) := s.loseSomeItems (s.items e.1)
    (s.setItems e.1 keep).stirWork s) s

-- -------------------------------------------------------------------------------------------------------- fencing

/-- The supervisor role passes to S0 of the lowest-numbered working needle of the course (R163). -/
def State.moveSupv (s : State) (c : Nat) : State :=
  if !s.isFenced (coursePanel c) 1 (needleOf (s.supv c)) then s
  else match firstIdx 12 fun n => !s.isFenced (coursePanel c) 1 (c * 13 + n) with
    | some n => (if s.knotted c then s else s.stir c).setRd R.yrnSupv (coursePanel c) (c % 4) 0 (w32 (8 * n))
    | none => s

/-- Fence a needle (R261, R360, R364): its items are replayed, its pins lose control and the supervisor role moves. -/
def State.fenceNeedle (s : State) (p n : Nat) : Nat × State :=
  if n % 13 = 12 then
    let s := s.markFenced p 1 n
    (0, { s with flt := { s.flt with needleSpare := SMap.put s.flt.needleSpare (n / 13) true } })
  else
    let ts := (List.range 8).map fun i => n * 8 + i
    let s0 := s
    let s := { s with flt := { s.flt with moving := SMap.del s.flt.moving n } }
    let s := (s.markFenced p 1 n).stirWork s0
    let (k, s) := s.replayAll (ts.flatMap fun t => s.itemsOf t)
    let s := ts.foldl (fun s t => s.loseOwner t) s
    (k, s.moveSupv (n / 13))

/-- Fence a hook unit (R176, R364): operations in flight complete with FENCED, and their items are replayed. -/
def State.fenceHook (s : State) (p i : Nat) : Nat × State :=
  let c := i / 8
  let s := s.markFenced p 3 i
  let ts := (courseStrands c).filter fun t => (s.strand t).ops.any fun o => decide (o.hook = i % 8)
  let s := ts.foldl (fun s t =>
    let x := s.strand t
    s.setStrand t { x with ops := x.ops.map fun o => if o.hook = i % 8 then { o.answer (mkLanes 0xFF 0 0 0) with off := 0 } else o }) s
  s.replayAll (ts.flatMap fun t => s.itemsOf t)

/-- Does a search operation use SEARCH unit `e` (R359)? -/
def State.usesEngine (s : State) (e : Nat) (o : HookOp) : Bool :=
  decide (o.hook = 1) && decide (o.val ≠ hres 0x0F) && (match o.func with
    | 1 => decide (e = 4)
    | 0 | 2 => decide (s.tblUnit (hTable o.ridx) = e)
    | _ => false)

/-- Fence SEARCH unit `e` (R360, R363): its lookups give LKP_FAIL, and the items with an operation in flight to it are replayed (R364). -/
def State.fenceSearch (s : State) (p e : Nat) : Nat × State :=
  let s := s.markFenced p 4 e
  let ts := (((List.range 4).flatMap fun c => courseStrands (4 * p + c)).filter fun t => (s.strand t).ops.any fun o => s.usesEngine e o)
  s.replayAll (ts.flatMap fun t => s.itemsOf t)

/-- Fence a course whole (R363): its strands' items are replayed and their pins lose control. -/
def State.fenceCourse (s : State) (c : Nat) : Nat × State :=
  let (k, s) := s.replayAll ((courseStrands c).flatMap fun t => s.itemsOf t)
  (k, (courseStrands c).foldl (fun s t => s.loseOwner t) s)

/-- Fence a workbasket slice (R228): its contexts go, so that items that read them fail check 1, and a DIRTY one takes its record with
it. -/
def State.fenceBasket (s : State) (p sl : Nat) : State :=
  ((s.flw p).ctxs.filter fun e => decide (ctxSlice e.1 = sl)).foldl (fun s (e : Nat × Ctx) =>
    let r := e.2.ridx
    let key := s.recKey p r
    let s := (s.setCtx p e.1 {}).markGoneIf p fun i => decide (i = r) && decide (r ≠ ridxNone) && decide (e.2.state ≠ .filling)
    if e.2.state = .dirty then
      let s := s.absentRec p r (key.getD [])
      match key with | some k => s.rebuildRec p r k | none => s
    else s) s

/-- Free buffers of DRAM pools that can no longer be reached leave their free lists and are counted as POISONED (R238,
R298). -/
def State.poisonPools (s : State) : State :=
  (List.range 32).foldl (fun s n =>
    if !s.poolEn n || (s.pool n).gone then s
    else
      let x := s.pool n
      let free := ((List.range (s.poolCount n - x.next)).map fun i => x.next + i) ++ x.freed
      let ok (i : Nat) : Bool := s.devOk (s.poolHome n) (s.poolBase n + i * s.poolSize n) (s.poolSize n)
      let keep := free.filter ok
      if keep.length = free.length then s
      else ((s.setPool n { x with next := s.poolCount n, freed := keep }).noteLow n).countN 7 n 5 (free.length - keep.length)) s

/-- One of the requests of strand `t`'s window access `id` has completed (R289); with the last, its result may arrive. -/
def State.accDone (s : State) (t id : Nat) : State :=
  let x := s.strand t
  match x.dram with
  | none => s
  | some d =>
    if d.id ≠ id then s
    else if 1 < d.left then s.setStrand t { x with dram := some { d with left := d.left - 1 } }
    else
      let b := x.bk (decide (d.bank = 1))
      let x := { x.setBk (decide (d.bank = 1)) { b with pend := b.pend.map fun p => { p with dram := false } } with dram := none }
      s.setStrand t { x with fenceWait := x.fenceWait && !x.quiet }

/-- Strand `t`'s window access `id` is completed with poison (R298): the instruction takes ACCESS with detail POISON (R139), as if it had
changed nothing. -/
def State.accPoison (s : State) (t id : Nat) : State :=
  let x := s.strand t
  match x.dram with
  | none => s
  | some d =>
    if d.id ≠ id then s
    else
      let one := decide (d.bank = 1)
      let b := x.bk one
      let b := { b with pend := b.pend.filter fun p => !p.dram }
      let b := match d.undo with | some (r, v) => b.wg r v | none => b
      let s := s.setStrand t { x.setBk one b with dram := none, inB1 := one }
      let s := s.takeTrap t .access 4 0 d.word d.addr d.pc
      let y := s.strand t
      s.setStrand t { y with inB1 := x.inB1, fenceWait := y.fenceWait && !y.quiet }

/-- A request to a channel that has been fenced (R298): a frame that was to be fetched is dropped as FAB_LOSS; a strand's access to a mirrored
line goes on with the other copy (R287), any other is poisoned. -/
def State.failReq (s : State) (r : DramReq) : State :=
  let s := match r.frame with | some n => s.fabLoss n | none => s
  match r.who with
  | none => s
  | some (t, id) =>
    match s.lineAt r.panel r.addr false with
    | [] => s.accPoison t id
    | l :: _ => if r.write then s.accDone t id else s.pushReqs [(l.1, { r with ca := l.2, at_ := s.now, passed := 0 })]

/-- Frames with bytes in grains that cannot be read are dropped as FAB_LOSS (R298). -/
def State.loseSched (s : State) : State :=
  (s.swt.frames.filter fun e => e.2.lines.any fun a => (s.lineAt (portPanel e.2.port) a false).isEmpty).foldl (fun s (e : Nat × FabFrame) => s.fabLoss e.1) s

/-- Capture records addressed to grains that cannot be written are discarded and counted (R266, R298). -/
def State.loseCaptures (s : State) (p : Nat) : State :=
  let st := s.tioStore p
  let ok (e : CapRec) : Bool := s.devOk p e.addr 32
  (st.filter fun e => !ok e).foldl (fun s e => s.count 0xC (p * 16 + s.streamAt p e.addr) 0) (s.setTioStore p (st.filter ok))

/-- Every request outstanding to a fenced channel completes (R298). -/
def State.failReqs (s : State) (p c : Nat) : State :=
  let l := SMap.get s.drm.reading [] c ++ SMap.get s.drm.reqs [] c
  let s := { s with drm := { s.drm with reqs := SMap.del s.drm.reqs c, reading := SMap.del s.drm.reading c } }
  ((l.foldl (fun s r => s.failReq r) s).loseSched).loseCaptures p

/-- Fence a DRAM channel (R228, R298). -/
def State.fenceChannel (s : State) (p c : Nat) : State :=
  let recs := s.liveRecs p
  let s := s.markFenced p 5 c
  let s := s.setRd R.drmCstat p (c % 4) 0 (w32 (setBits (s.rd R.drmCstat p (c % 4)).toNat 0 2 3))
  let gone := recs.filter fun e => !s.recServed p e.1 e.2
  let s := gone.foldl (fun s e => (s.absentRec p e.1 e.2).rebuildRec p e.1 e.2) s
  let s := { s with drm := { s.drm with msync := false, startAt := SMap.del s.drm.startAt c, nrq := SMap.del s.drm.nrq c, due := SMap.del s.drm.due c } }
  (s.failReqs p c).poisonPools

/-- The lifelines that the effective reservations of a panel's strands keep (R156): what a fenced slice takes from them is counted as
LL_RES_CUT. -/
def State.llKept (s : State) (p : Nat) : Nat := sumN ((List.range 416).map fun k => s.llResEff (416 * p + k))

/-- Fence an SRAM slice (R363): `m` is MEM, `i` the slice. A lifeline that is COMMITTING completes from the copy of its stage log. -/
def State.fenceSram (s : State) (p m i : Nat) : Nat × State :=
  let kept := s.llKept p
  let s := s.markFenced (if m = 7 then 0 else p) 2 (m * 256 + i)
  match m with
  | 0 => (0, s.loseCells p i)
  | 1 => (0, s.fenceBasket p i)
  | 2 => s.fenceSearch p (i / 16)
  | 3 => (0, (s.lls.filter fun e => decide (e.1 / 4096 = p) && decide (e.1 % 4096 / 256 = i) && decide (e.2.state ≠ .committing)).foldl (fun s (e : Nat × Lifeline) => s.dropLl e.1) (s.countN 3 p 53 (kept - s.llKept p)))
  | 4 => s.fenceCourse (4 * p + i / 4)
  | 5 => s.fenceNeedle p (52 * p + i)
  | 6 => (0, s.loseStore p)
  | 7 => (0, { s with rcd := { s.rcd with ring := [], newest := none } })
  | _ => (0, s)

/-- The ports of a station. -/
def stationPorts (st : Nat) : List Nat := (List.range 1024).filter fun q => portPanel q = st / 8 && stationOf q (st / 8) = st

/-- Fence a station (R258): its ports go DOWN, its internal ports with them, and what it carried is lost. -/
def State.fenceStation (s : State) (p st : Nat) : State :=
  let s := (stationPorts st).foldl (fun s q => s.leaveUp q) s
  let inner := if st % 8 = 7 then s.swt.qs.filter fun e => decide (e.1 / 8 / 1152 = st / 8) && decide (1028 ≤ e.1 / 8 % 1152) else []
  let s := (inner.flatMap (·.2)).foldl (fun s n => s.dropQueued n) s
  ((s.markFenced p 7 st).loseReseq st).loseStation st

/-- UNIT_FENCE (R360): a unit with no spare is fenced and its work moves elsewhere; the number of items replayed. -/
def State.fenceUnit (s : State) (p unit index : Nat) : Nat × State :=
  match unit with
  | 1 => s.fenceNeedle p index
  | 2 => s.fenceSram p (index / 256) (index % 256)
  | 3 => s.fenceHook p index
  | 4 => s.fenceSearch p index
  | 5 => (0, s.fenceChannel p index)
  | 6 => (0, (s.leaveUp (index / 8)).markFenced p 6 index)
  | 7 => (0, s.fenceStation p (index % 16))
  | 10 => (0, (s.leaveUp index).markFenced p 10 index)
  | _ => (0, s.markFenced p unit index)

/-- A fence in RUN makes the device DEGRADED (R333, R367). -/
def State.degrade (s : State) : State := if s.md.mode = .run && !s.md.sleeping then s.enterMode .degraded .error else s

-- ---------------------------------------------------------------------------------------------------- severity 3, 4

/-- A recovery slot (R365). -/
def State.slot (s : State) (p i : Nat) : Option Recov := SMap.find s.flt.slots (p * 8 + i)
/-- Fill a slot. -/
def State.setSlot (s : State) (p i : Nat) (r : Recov) : State := { s with flt := { s.flt with slots := SMap.put s.flt.slots (p * 8 + i) r } }
/-- Free a slot. -/
def State.clearSlot (s : State) (p i : Nat) : State := { s with flt := { s.flt with slots := SMap.del s.flt.slots (p * 8 + i) } }
/-- Suspend every lower recovery that does not wait (R366). -/
def State.suspendBelow (s : State) (p sev : Nat) : State :=
  (List.range 5).foldl (fun s i => match s.slot p i with
    | some r => if r.sev < sev && !r.waits then s.setSlot p i { r with susp := true } else s
    | none => s) s

/-- A severity-3 recovery takes slot `i` of a panel's darning controller; every lower one stops (R366). -/
def State.holdSlot (s : State) (p i : Nat) (r : Recov) : State := (s.suspendBelow p 3).setSlot p i r

/-- The slot a severity-3 recovery runs in: a free one, or slot 4 (R366). -/
def State.slotFor (s : State) (p : Nat) : Nat := (firstIdx 4 fun i => (s.slot p i).isNone).getD 4

/-- A severity-4 error (R367): LIMP, or BOOT, held or not. -/
def State.deviceError (s : State) : State :=
  let one := s.up 0 || s.up 1
  let s := ((s.cutSlice 0 1).cutSlice 1 1).cutAon 1
  match s.judged with
  | .config => if one then s.toLimp .error else s.bootAfresh .error
  | .service => s.bootAfresh .error
  | .run | .degraded => if one then s.toLimp .error else s.bootHeld .error 0
  | .limp => s.bootHeld .error 0
  | _ => s

/-- WORK items whose lifelines were lost are dispatched again from their commands (R316). -/
def State.redoWork (s : State) (recs : List Nat) : State :=
  recs.foldl (fun s r => match SMap.find s.hst.jrnl r with
    | none => s
    | some j => s.offerWork j.ring (s.workItem r j)) s

/-- The journal records of WORK items that live on panel `p`. -/
def State.workOn (s : State) (p : Nat) : List Nat :=
  let ofLl := (s.lls.filter fun e => decide (e.1 / 4096 = p)).filterMap fun e => e.2.item.work
  let ofItem := ((s.car.lists ++ s.car.spill).filter fun e => decide (listPanel e.1 = p)).flatMap fun e => e.2.filterMap fun w => w.work
  let held := (s.hst.heldWork.filter fun e => decide (listPanel e.2.list = p)).filterMap fun e => e.2.work
  (ofLl ++ ofItem ++ held).eraseDups

/-- Panel `p` is lost and the other survives (R370): the steps of its table, in order. -/
def State.losePanel (s : State) (p detect : Nat) : State :=
  let q := 1 - p
  let (r, s) := s.writeError q { sev := 3, unit := 14, index := p, detect := detect }
  let s := s.countUnit q 14 3
  let s := (s.cutSlice p 1)
  let s := if p = 0 then s.cutAon 1 else s
  -- step 1
  let s := s.setPan p { s.pan p with phase := .off, vid := 20, vidAt := s.now }
  let s := ((s.fault q r 8 4).holdSlot q 4 r).degrade
  -- step 2
  let s := s.splitDomains
  let s := { s with doms := keepOut s.doms fun k => decide (k / 16 = p) }
  -- step 3
  let cdels := (s.tp p).cdels ++ (s.tp q).cdels
  let s := (s.adoptTables q).redoCdels q cdels
  -- step 4
  let lost := s.flw p
  let used : SMap Bool := if lost.mirsync then lost.mirSlots.map fun e => (e.1, true) else []
  let s := s.setFlw q { s.flw q with mirSlots := [], mirsync := false }
  let s := s.setAdopt q (used.foldl (fun (m : SMap Bool) (e : Nat × Bool) => SMap.put m e.1 true) (s.flw q).adoptUsed)
  let s := { s with drm := { s.drm with msync := false, resync := false, marked := [], whole := none } }
  -- step 5
  let mine := (s.lls.filter fun e => decide (e.1 / 4096 = q) && (match e.2.strand with | some t => decide (t / 416 = p) | none => false)).map (·.1)
  let s := (s.replayAll mine).2
  let work := s.workOn p
  let s := s.setHeldWork (s.hst.heldWork.filter fun e => decide (listPanel e.2.list ≠ p))
  -- steps 6 and 7
  let s := s.severLinks
  let s := (s.resetPanel p)
  let s := (List.range 32).foldl (fun s n => if s.poolEn n && s.poolHome n = p then (s.setPool n { gone := true }).noteLow n else s) s
  let s := if s.failoverEn && !s.hst.port2 && p = 0 then s.takeOver else if s.hostPanel = p then { s with hst := { s.hst with qps := [] } } else s
  let s := s.resumeJournal
  s.redoWork work

/-- A severity-3 error takes panel `p` out (R333, R335, R367), by a cause other than a deliberate reset. -/
def State.takePanel (s : State) (p detect : Nat) : State :=
  let r : Recov := { sev := 3, unit := 14, index := p, detect := detect }
  if !s.up p then s
  else if s.up (1 - p) then match s.judged with
    | .config | .service => ((s.writeError (1 - p) r).2.countUnit (1 - p) 14 3).bootAfresh .panelReset
    | .run | .degraded | .limp => s.losePanel p detect
    | _ => s
  else match s.judged with
    | .off | .boot | .sleep => s
    | _ => ((s.writeError p { r with sev := 4 }).2.setPan p { s.pan p with phase := .off }).deviceError

/-- The bridge fails (R372): each panel serves alone. -/
def State.failBridge (s : State) (detect : Nat) : State :=
  if !s.joined then s
  else
    let (ra, s) := s.writeError 0 { sev := 3, unit := 13, index := 0, detect := detect }
    let (rb, s) := s.writeError 1 { sev := 3, unit := 13, index := 0, detect := detect }
    let s := (s.countUnit 0 13 3).countUnit 1 13 3
    match s.judged with
    | .config | .service => s.bootAfresh .error
    | _ =>
      let s := ((s.cutSlice 0 1).cutSlice 1 1).cutAon 1
      let s := s.loseCross
      let s := { s with md := { s.md with bridge := false, retrainAt := s.now } }
      let s := s.splitDomains.severLinks
      let s := s.setFlw 0 { s.flw 0 with mirsync := false }
      let s := s.setFlw 1 { s.flw 1 with mirsync := false }
      let s := { s with drm := { s.drm with msync := false } }
      let i := s.slotFor 0
      let j := s.slotFor 1
      ((((s.fault 0 ra 9 i).holdSlot 0 i ra).fault 1 rb 9 j).holdSlot 1 j rb).degrade

/-- The panels rejoin after a retraining that passes (R372). -/
def State.rejoinBridge (s : State) : State :=
  let s := { s with md := { s.md with bridge := true } }
  let s := (s.rejoinDomains (fun n => s.domHome n) false).rewriteTables
  let s := (s.rewriteMirrors 0).rewriteMirrors 1
  let s := { s with drm := { s.drm with resync := true } }
  let s := s.applyFrees.runAllHeld
  let r (p : Nat) : Recov := { sev := 3, unit := 13, index := 0, detect := 5, stamp := s.faultStamp p }
  (s.fault 0 (r 0) 10 7).fault 1 (r 1) 10 7

-- ------------------------------------------------------------------------------------------------------- recoveries

/-- The queue of a panel's darning controller. -/
def State.errQueue (s : State) (p : Nat) : List Recov := SMap.get s.flt.queue [] p
/-- Replace it. -/
def State.setErrQueue (s : State) (p : Nat) (l : List Recov) : State := { s with flt := { s.flt with queue := SMap.set s.flt.queue [] p l } }

/-- Order of the queue: severity, highest first, then arrival (R365). -/
def joinQueue (r : Recov) : List Recov → List Recov
  | [] => [r]
  | x :: xs => if x.sev < r.sev then r :: x :: xs else x :: joinQueue r xs

/-- Does a slice that runs on the panel hold the spare needle of course `c`, or the spare lane of station `st` (R381)? -/
def State.sliceHolds (s : State) (p unit index : Nat) : Bool :=
  match SMap.find s.swa.run p with
  | none => false
  | some r => match sliceKind r.slice with
    | 1 => decide (unit = 1) && decide (sliceIndex p r.slice / 13 = index / 13)
    | 6 => decide (unit = 7) && decide (sliceIndex p r.slice = index % 16)
    | 2 => decide (unit = 2) && decide (sliceIndex p r.slice = index)
    | _ => false

/-- Does the error lie in the unit the running slice tests (R381)? -/
def State.sliceTests (s : State) (p unit index : Nat) : Bool :=
  match SMap.find s.swa.run p with
  | none => false
  | some r => decide (kindUnit (sliceKind r.slice) = some unit) && decide (sliceIndex p r.slice = index)

/-- Spare rows and columns of a slice still free (R360). -/
def State.spareLeft (s : State) (p index : Nat) (col : Bool) : Bool :=
  if col then decide (SMap.get s.flt.cols 0 (p * 4096 + index) < 2) else decide (SMap.get s.flt.rows 0 (p * 4096 + index) < 16)

/-- Use a spare row or column. -/
def State.useRow (s : State) (p index : Nat) (col : Bool) : State :=
  let k := p * 4096 + index
  if col then { s with flt := { s.flt with cols := SMap.put s.flt.cols k (SMap.get s.flt.cols 0 k + 1) } }
  else { s with flt := { s.flt with rows := SMap.put s.flt.rows k (SMap.get s.flt.rows 0 k + 1) } }

/-- A damaged row of a search engine reads as absent until it is rebuilt (R211, R360). -/
def State.dropRows (s : State) (p unit row : Nat) : State :=
  s.setTp p { s.tp p with ents := keepOut (s.tp p).ents fun h => decide (s.tblUnit (hTable h) = unit) && decide (hIdx h = row) && !hOvf h }

/-- The entries of SEARCH unit `unit` that a failing row or column of a search slice holds read as absent (R211, R360); which they are is
open. -/
def State.dropSome (s : State) (p unit : Nat) : State :=
  ((s.tp p).ents.filter fun e => decide (s.tblUnit (hTable e.1) = unit)).foldl (fun s (e : Nat × TblEntry) =>
    let (b, s) := s.freeB
    if b then s.setTp p { s.tp p with ents := SMap.del (s.tp p).ents e.1 } else s) s

/-- The damaged rows are rebuilt from the other panel's copy, once the panels are joined (R372). -/
def State.rebuildRows (s : State) (p unit : Nat) : State :=
  if !s.joined then s else
  let more := (s.tp (1 - p)).ents.filter fun e => decide (s.tblUnit (hTable e.1) = unit)
  s.setTp p { s.tp p with ents := more.foldl (fun (m : SMap TblEntry) (e : Nat × TblEntry) => SMap.put m e.1 e.2) (s.tp p).ents }

/-- Is a spare free for a unit (R359, R360)? SEARCH rebuilds from the other panel's copy; a PORT's PHY is
reset, and a lockstep pair or a Carriage slice restarts. -/
def State.canDarn (s : State) (p : Nat) (r : Recov) : Bool :=
  match r.unit with
  | 1 => decide (r.index % 13 ≠ 12) && !SMap.get s.flt.needleSpare false (r.index / 13)
  | 2 => s.spareLeft p r.index false || s.spareLeft p r.index true
  | 4 => s.up 0 && s.up 1
  | 6 => decide (r.index / 8 < 4) && !SMap.get s.flt.sdSpare false (r.index / 8)
  | 7 => !SMap.get s.flt.laneSpare false (r.index % 16)
  | 9 | 10 | 11 | 12 | 15 => true
  | _ => false

/-- Steps of a darning as it begins: the spare is taken, and what it replaces stops (R51, R258, R360, R362). -/
def State.beginDarn (s : State) (p : Nat) (r : Recov) : Recov × State :=
  let r := { r with darn := true }
  match r.unit with
  | 1 => (r, { s with flt := { s.flt with needleSpare := SMap.put s.flt.needleSpare (r.index / 13) true, moving := SMap.put s.flt.moving r.index true } })
  | 2 =>
    let col := if s.spareLeft p r.index r.col then r.col else !r.col
    let s := s.useRow p r.index col
    ({ r with col := col }, if r.index / 256 = 2 then s.dropSome p (r.index % 256 / 16) else s)
  | 4 => (r, s.dropRows p r.index r.addr)
  | 6 => ({ r with waits := true }, (({ s with flt := { s.flt with sdSpare := SMap.put s.flt.sdSpare (r.index / 8) true } }).condDown (r.index / 8)))
  | 7 => (r, ({ s with flt := { s.flt with laneSpare := SMap.put s.flt.laneSpare (r.index % 16) true } }).loseLane (r.index % 16))
  | 10 => ({ r with waits := true }, s.condDown (linkPort r.index))
  | _ => (r, s)

/-- Is a unit re-tested after its fence (R361)? -/
def State.retests (s : State) (p unit : Nat) : Bool :=
  s.rb R.fltCfg p 0 5 && (decide (unit = 3) || decide (unit = 4) || decide (unit = 8) || decide (unit = 10))

/-- A needle scratch slice with no spare left is fenced, and its needle is handled as a NEEDLE error (R363). -/
def State.asNeedle (s : State) (p : Nat) (r : Recov) : Recov × State :=
  if r.unit = 2 && r.index / 256 = 5 && !s.canDarn p r then
    ({ r with unit := 1, index := 52 * p + r.index % 256 }, (s.markFenced p 2 r.index).logRepair p 2 r.index 4 r.addr 0)
  else (r, s)

/-- A recovery begins its steps in slot `i` (R360, R364). -/
def State.begin (s : State) (p i : Nat) (r : Recov) : State :=
  if r.sev ≤ 1 then
    match r.item with
    | none => s.setSlot p i r
    | some k =>
      if r.frameData then (s.dropLl k).setSlot p i r
      else ((s.replay k).setSlot p i { r with replayed := 1 })
  else
    let (r, s) := s.asNeedle p r
    let s := if s.sliceHolds p r.unit r.index then s.cutSlice p 3 else s
    if s.canDarn p r then
      let (r, s) := s.beginDarn p r
      s.setSlot p i r
    else
      let (n, s) := s.fenceUnit p r.unit r.index
      (s.setSlot p i { r with fenced := true, replayed := n, waits := s.retests p r.unit }).degrade

/-- Is a unit under recovery, and where (R365): its slot, or the queue? -/
def State.underRecovery (s : State) (p unit index : Nat) : Option (Option Nat × Recov) :=
  let hit (r : Recov) : Bool := decide (r.unit = unit) && decide (r.index = index)
  match firstIdx 5 fun i => match s.slot p i with | some r => hit r | none => false with
  | some i => (s.slot p i).map fun r => (some i, r)
  | none => ((s.errQueue p).find? hit).map fun r => (none, r)

/-- A unit is fenced at once, with no spare and no re-test (R365): the fence is reported and logged. -/
def State.fenceNow (s : State) (p : Nat) (r : Recov) : State :=
  let (n, s) := s.fenceUnit p r.unit r.index
  ((s.degrade).fault p { r with fenced := true, replayed := n } 2 7).logRepair p r.unit r.index 4 r.addr 0

/-- An item whose own data took a severity-1 error is replayed, or dropped where the data is its frame's (R364). -/
def State.mendItem (s : State) (r : Recov) : State :=
  match r.item with
  | none => s
  | some k => if r.sev ≤ 1 then (if r.frameData then s.dropLl k else s.replay k) else s

/-- An error of severity 1 or 2 takes a free slot, joins the queue, or has its unit fenced at once (R365, R366). -/
def State.admitError (s : State) (p : Nat) (r : Recov) : State :=
  match firstIdx 4 fun i => (s.slot p i).isNone with
  | some i => (s.suspendBelow p r.sev).begin p i r
  | none =>
    if (s.errQueue p).length < 32 then s.setErrQueue p (joinQueue { r with queued := true } (s.errQueue p))
    else ((s.countP p 40).mendItem r).fenceNow p r

/-- An error raised to severity 3 takes out the unit's panel, one raised to 4 the device (R366). -/
def State.severe (s : State) (p sev detect : Nat) : State :=
  if 4 ≤ sev then s.deviceError else s.takePanel p detect

/-- A new error of severity 1 or higher in a unit under recovery is raised by one (R366). -/
def State.escalate (s : State) (p : Nat) (at_ : Option Nat) (old r : Recov) : State :=
  let r := { r with sev := r.sev + 1 }
  let (r, s) := (s.countP p 41).writeError p r
  let s := if s.sliceTests p r.unit r.index then s.cutSlice p 1 else s
  let s := s.fault p r 5 (at_.getD 7)
  if old.sev < r.sev then
    let s := match at_ with
      | some i => s.clearSlot p i
      | none => s.setErrQueue p ((s.errQueue p).filter fun x => !(decide (x.unit = r.unit) && decide (x.index = r.index)))
    if 3 ≤ r.sev then s.severe p r.sev 10 else s.admitError p r
  else s

/-- A lockstep mismatch or a Carriage fault within `win` of the last one on the unit (R360)? -/
def State.again (s : State) (p unit index win : Nat) : Bool :=
  match SMap.get s.flt.restartAt 0 (unitKey p unit index) with
  | 0 => false
  | t + 1 => decide (s.now < t + win)

/-- An error is recorded, then recovered, queued or escalated (R358, R365–R367). -/
def State.raiseError (s : State) (p : Nat) (r : Recov) : State :=
  let s := s.countUnit p r.unit (min r.sev 4)
  if r.sev = 0 then s
  else
    let noteAt (s : State) : State := { s with flt := { s.flt with restartAt := SMap.put s.flt.restartAt (unitKey p r.unit r.index) (s.now + 1) } }
    match r.unit with
    | 13 => match s.underRecovery p 13 0 with
      | some (at_, old) => s.escalate p at_ old r
      | none => s.failBridge r.detect
    | 14 => s.takePanel r.index r.detect
    | 16 => (s.writeError p { r with sev := 4 }).2.deviceError
    | 15 =>
      let s := { s with sv := { s.sv with kept := none } }
      if s.again p 15 0 (10 * secU) then (s.writeError p { r with sev := 4 }).2.deviceError
      else
        let (r, s) := s.writeError p r
        if s.up p then (noteAt s).admitError p r else noteAt s
    | _ =>
      let pair := decide (r.unit = 11) || decide (r.unit = 12)
      let twice := s.again p r.unit r.index secU
      let s := if pair then s.countP p (32 + r.unit) else s
      if 4 ≤ r.sev then (s.writeError p r).2.deviceError
      else if 3 ≤ r.sev || (pair && twice) then
        ((s.writeError p { r with sev := 3 }).2).takePanel p r.detect
      else
        let s := if s.sliceTests p r.unit r.index && decide (2 ≤ r.sev) then s.cutSlice p 1 else s
        match s.underRecovery p r.unit r.index with
        | some (at_, old) => s.escalate p at_ old r
        | none =>
          let (r, s) := s.writeError p r
          let s := if pair || r.unit = 9 then noteAt s else s
          if r.unit = 9 && twice then
            match firstIdx 4 fun i => (s.slot p i).isNone with
            | some i =>
              let (n, s) := s.fenceUnit p 9 r.index
              (s.setSlot p i { r with fenced := true, replayed := n }).degrade
            | none => s.fenceNow p r
          else s.admitError p r

/-- ERROR_DETECTED (R358): a unit of a panel in service, or of the AON domain, reports an error. -/
def execErrorDetected (e : ErrIn) (s : State) : Host.Outcome State Fault Refusal :=
  let p := e.panel % 2
  if e.unit < 1 || 16 < e.unit || (e.unit < 15 && !s.up p) then .next s
  else .next (s.raiseError p { sev := min e.sev 4, unit := e.unit, index := e.index % 4096, detect := e.detect, item := e.item, frameData := e.frameData, addr := e.addr, col := e.col })

/-- The last spare of a kind is gone (R373). -/
def State.lastSpare (s : State) (p : Nat) (r : Recov) : Bool :=
  match r.unit with
  | 1 | 6 | 7 => true
  | 2 => !s.spareLeft p r.index r.col
  | _ => false

/-- Kind of the repair-log entry of a substitution (R376). -/
def repKind (r : Recov) : Nat := match r.unit with | 1 => 3 | 2 => if r.col then 1 else 0 | _ => 2

/-- A recovery closes (R360, R374, R376): its slot is freed, a FAULT event is posted, and a substitution or a fence that lasts is
written to the repair log. -/
def State.close (s : State) (p i : Nat) (r : Recov) (action : Nat) : State :=
  let s := s.clearSlot p i
  let s := if 2 ≤ r.sev || s.rb R.fltCfg p 0 4 then s.fault p r action i else s
  let s := if action = 1 && (r.unit = 1 || r.unit = 2 || r.unit = 6 || r.unit = 7) then
      let s := s.logRepair p r.unit r.index (repKind r) r.addr (match r.unit with | 2 => SMap.get (if r.col then s.flt.cols else s.flt.rows) 0 (p * 4096 + r.index) - 1 | _ => 0)
      if s.lastSpare p r then s.fault p r 7 i else s
    else s
  if action = 2 then s.logRepair p r.unit r.index 4 r.addr 0 else s

/-- The strands of needle `n` whose state could not be read without error as it was copied to the spare (R362): bit `i` of `mask` is
strand `i`. Their items are withdrawn and replayed, and they stop as HALTED_DOUBLE. -/
def State.stopUnread (s : State) (n mask : Nat) : State :=
  (List.range 8).foldl (fun s i =>
    if bit mask i then ((s.replayAll (s.itemsOf (n * 8 + i))).2).haltStrand (n * 8 + i) .double else s) s

/-- RECOVERY_CLOSE (R360): the recovery in a slot finishes its last step. For a recovery that waits on link training `outcome` 2
(modulo 8) says that the link did not come up; for a darning it says that the spare failed. For a needle, `outcome` / 8 names the
strands whose state could not be read (R362). A severity-3 recovery has posted its event as it began. -/
def execRecoveryClose (panel slot outcome : Nat) (s : State) : Host.Outcome State Fault Refusal :=
  let p := panel % 2
  let i := slot % 5
  match s.slot p i with
  | none => .next s
  | some r =>
    if r.susp || (r.fenced && r.waits) then .next s
    else if 3 ≤ r.sev then .next (s.clearSlot p i)
    else if r.sev ≤ 1 then .next (s.close p i r 4)
    else if r.fenced then .next (s.close p i r 2)
    else if outcome % 8 = 2 then
      let (n, s) := s.fenceUnit p r.unit r.index
      let r := { r with fenced := true, darn := false, replayed := n, waits := s.retests p r.unit }
      let s := s.degrade
      if r.waits then .next (s.setSlot p i r) else .next (s.close p i r 2)
    else
      let s := if r.unit = 1 then ({ s with flt := { s.flt with moving := SMap.del s.flt.moving r.index } }).stopUnread r.index (outcome / 8)
        else if r.unit = 4 then s.rebuildRows p r.index
        else if r.unit = 2 && r.index / 256 = 2 then s.rebuildRows p (r.index % 256 / 16)
        else if r.unit = 6 then { s with swt := { s.swt with spareIn := SMap.set s.swt.spareIn false (r.index / 8) true } } else s
      .next (s.close p i r (if r.unit = 9 then 3 else 1))

/-- RECOVERY_START (R365): a queued error takes a slot when one frees. -/
def execRecoveryStart (panel : Nat) (s : State) : Host.Outcome State Fault Refusal :=
  let p := panel % 2
  match s.errQueue p, firstIdx 4 fun i => (s.slot p i).isNone with
  | r :: rest, some i => .next (((s.setErrQueue p rest).suspendBelow p r.sev).begin p i r)
  | _, _ => .next s

/-- RECOVERY_RESUME (R366): the suspended recoveries resume at their next steps when no higher one runs; one whose unit no longer
exists is closed as MOOT. -/
def execRecoveryResume (panel : Nat) (s : State) : Host.Outcome State Fault Refusal :=
  let p := panel % 2
  let running (sev : Nat) : Bool := (List.range 5).any fun i => match s.slot p i with | some r => !r.susp && !r.waits && decide (sev < r.sev) | none => false
  .next ((List.range 5).foldl (fun s i => match s.slot p i with
    | some r =>
      if !r.susp || running r.sev then s
      else if s.isFenced p r.unit r.index && !r.fenced then ((s.clearSlot p i).countP p 42).fault p r 6 i
      else s.setSlot p i { r with susp := false, step := min 15 (r.step + 1) }
    | none => s) s)

/-- A unit passes its re-test (R361): it is restored. -/
def State.restoreUnit (s : State) (p unit index : Nat) : State :=
  { s with flt := { s.flt with fenced := SMap.del s.flt.fenced (unitKey p unit index) } }

/-- The result of a re-test (R361, R383, R385), ORIGIN 3 RETEST; PORT results are not kept. -/
def State.retestResult (s : State) (p unit index : Nat) (pass : Bool) : State :=
  match firstIdx 440 fun n => decide (kindUnit (sliceKind n) = some unit) && decide (sliceIndex p n = index) with
  | none => s
  | some n =>
    let c := kindCov (sliceKind n)
    let (d, s) := s.freeN
    let (pat, s) := s.freeN
    let (m, s) := s.freeN
    s.putResult p n (if pass then 1 else 2) 3 c.1 c.2 (d % 2 ^ 32) (pat % 2 ^ 32) (m % 2 ^ 32) 0

/-- RETEST_COMPLETE (R361): the re-test of a fenced unit ends. -/
def execRetestComplete (panel unit index : Nat) (pass : Bool) (s : State) : Host.Outcome State Fault Refusal :=
  let p := panel % 2
  match firstIdx 5 fun i => match s.slot p i with | some r => decide (r.unit = unit) && decide (r.index = index) && r.fenced && r.waits | none => false with
  | none => .next s
  | some i => match s.slot p i with
    | none => .next s
    | some r =>
      let s := s.retestResult p unit index pass
      if pass then
        let s := s.restoreUnit p unit index
        let s := if unit = 4 then s.rebuildRows p index else s
        .next (s.close p i { r with waits := false } 3)
      else .next (s.close p i { r with waits := false } 2)

/-- PANEL_LOSS (R370): the AON domain has detected the loss of a panel other than by its inputs or a Selvage command: a supply
below its range, or, with `refclk`, a reference that differs from the crystal. Without its crystal the AON domain does not check
references (R418). -/
def execPanelLoss (x : PanelFail) (s : State) : Host.Outcome State Fault Refusal :=
  if x.refclk && !s.md.crystalOk then .next s else .next (s.takePanel (x.panel % 2) (if x.refclk then 8 else 7))

/-- BRIDGE_FAILURE (R372). -/
def execBridgeFailure (s : State) : Host.Outcome State Fault Refusal := .next (s.failBridge 5)

/-- BRIDGE_RETRAIN (R372): every 100 ms while the bridge has failed; a pass rejoins the panels. -/
def execBridgeRetrain (pass : Bool) (s : State) : Host.Outcome State Fault Refusal :=
  if s.md.bridge || !s.up 0 || !s.up 1 || decide (s.now < s.md.retrainAt + 100 * msU) then .next s
  else
    let s := { s with md := { s.md with retrainAt := s.now } }
    .next (if pass then s.rejoinBridge else s)

/-- CRYSTAL_FAIL (R418): without its crystal the AON domain goes on from its internal oscillator and reports a severity-4 error of
the mode controller; with it again (`ok`), the internal oscillator is left. -/
def execCrystalFail (ok : Bool) (s : State) : Host.Outcome State Fault Refusal :=
  if ok then .next { s with md := { s.md with crystalOk := true } }
  else if !s.md.crystalOk then .next s
  else
    let s := { s with md := { s.md with crystalOk := false } }
    .next ((s.writeError 0 { sev := 4, unit := 16, index := 1, detect := 8 }).2.deviceError)

end Sys2Proof.Machine
end

