-- ==== Sys2Proof/Machine/Dram.lean ====
section
/-! DEFINITION. The DRAM controllers (ch. 14): the command order of a channel (R293), refresh (R294, R295), read errors (R296),
training (R297) and the rewriting of mirrored DRAM (R287). The address map is in Machine/DevMem.lean, fencing a channel in
Machine/Faults.lean. -/

namespace Sys2Proof.Machine

/-- The channel, 0–7, of local channel `n` of panel `p`. -/
def chanNo (p n : Nat) : Nat := 4 * p + n
/-- DRM_CSTAT.POSTP. -/
def State.postp (s : State) (c : Nat) : Nat := s.rf R.drmCstat (c / 4) (c % 4) 3 4
/-- Set a field of DRM_CSTAT. -/
def State.setCstat (s : State) (c lo w v : Nat) : State :=
  s.setRd R.drmCstat (c / 4) (c % 4) 0 (w32 (setBits (s.rd R.drmCstat (c / 4) (c % 4)).toNat lo w v))

/-- Level of the CAPTURE port (R292): 0 NORMAL, 1 HIGH, 2 PANIC. -/
def State.captureLevel (s : State) (p : Nat) : Nat :=
  let slack := 256 - (s.tioStore p).length
  if slack ≤ s.rf R.drmQosCap p 0 10 10 then 2 else if slack ≤ s.rf R.drmQosCap p 0 0 10 then 1 else 0

/-- The frames of a panel's gated classes that lie in DRAM pool buffers (R289). -/
def State.schedFrames (s : State) (p : Nat) : SMap FabFrame := s.swt.frames.filter fun e => !e.2.lines.isEmpty && decide (portPanel e.2.port = p)

/-- Level of the SCHED port (R292) by the fill of the prefetch buffer. A level counts only while something is still to be fetched: an empty
buffer with nothing to fetch is no slack that has run out (DESIGN CHOICE, log entry 98). -/
def State.schedLevel (s : State) (p : Nat) : Nat :=
  let l := s.schedFrames p
  let fill := sumN (l.map fun e => e.2.got)
  if l.all fun e => decide (e.2.lines.length ≤ e.2.asked) then 0
  else if fill ≤ s.rf R.drmQosSched p 0 10 10 then 2 else if fill ≤ s.rf R.drmQosSched p 0 0 10 then 1 else 0

/-- The channel that holds device address `a`, for a write by panel `p`; an address outside DRAM is served with local channel 0. -/
def State.chanAt (s : State) (p a : Nat) : Nat :=
  match s.devLoc a with
  | .dram q o => s.chanOf q o
  | .mirror m => s.chanOf p (s.mirOff m)
  | _ => chanNo p 0

/-- Its channel address. -/
def State.caAt (s : State) (a : Nat) : Nat :=
  match s.devLoc a with
  | .dram _ o => s.chanAddr o
  | .mirror m => s.chanAddr (s.mirOff m)
  | _ => a

/-- The default TARGET of a latency port (R289), in 8 ns units. -/
def defTarget (port : Nat) : Nat := [32, 128, 128, 64, 256, 32, 1024].getD port 0

/-- Urgency 0–3 of a latency port in a panel's controller (R291): the age of its oldest waiting request against TARGET. -/
def State.urgency (s : State) (p port : Nat) : Nat :=
  let l := s.portWaiting p port
  let age := l.foldl (fun a r => max a (s.now - r.at_)) 0
  let target := s.rf (R.drmQos port (defTarget port)) p 0 0 12 * 8 * nsU
  if l.isEmpty then 0 else if target ≤ age then 3 else if 3 * target ≤ 4 * age then 2 else if target ≤ 2 * age then 1 else 0

/-- What a command of a channel may serve: a waiting request, a capture record, or the next line of a frame. -/
inductive CandSrc where
  | req (i : Nat)
  | cap (i : Nat)
  | sched (frame addr : Nat)
  deriving DecidableEq, Repr

/-- One that waits on a channel (R293): its level 2 or 4–8, its arrival, port and channel address, and how many have passed it. -/
structure Cand where
  level : Nat
  at_ : Nat
  port : Nat
  ca : Nat
  passed : Nat
  src : CandSrc
  deriving DecidableEq, Repr

/-- The level of R293 of a real-time port at a level of R292. -/
def rtLevel (l : Nat) : Nat := if l = 2 then 2 else if l = 1 then 4 else 7

/-- Everything that waits on a channel (R293). -/
def State.cands (s : State) (c : Nat) : List Cand :=
  let p := c / 4
  let reqs := (SMap.get s.drm.reqs [] c).zipIdx.map fun e =>
    ({ level := if e.1.port = 9 then 8 else 7 - s.urgency p e.1.port, at_ := e.1.at_, port := e.1.port, ca := e.1.ca, passed := e.1.passed, src := .req e.2 } : Cand)
  let cl := rtLevel (s.captureLevel p)
  let caps := (s.tioStore p).zipIdx.filterMap fun e =>
    if s.chanAt p e.1.addr = c then some ({ level := cl, at_ := e.1.at_, port := 7, ca := s.caAt e.1.addr, passed := e.1.passed, src := .cap e.2 } : Cand) else none
  let fs := s.schedFrames p
  let sl := rtLevel (s.schedLevel p)
  let scheds := if 1024 ≤ sumN (fs.map fun e => e.2.asked) then [] else fs.filterMap fun e =>
    match e.2.lines[e.2.asked]? with
    | some a => (s.lineAt p a false).head?.bind fun x =>
      if x.1 = c then some ({ level := sl, at_ := e.2.linesAt, port := 8, ca := x.2, passed := e.2.passed, src := .sched e.1 a } : Cand) else none
    | none => none
  reqs ++ caps ++ scheds

/-- Is one served before another of its level, row hits aside: the older, then the lower port (R293)? -/
def Cand.before (x y : Cand) : Bool := decide (x.at_ < y.at_) || (decide (x.at_ = y.at_) && decide (x.port < y.port))

/-- The first of a list to be served. -/
def Cand.first (l : List Cand) : Option Cand := l.foldl (fun b x => match b with | none => some x | some y => if x.before y then some x else some y) none

/-- Bank of a channel address, among 16, and the key of a channel's bank. -/
def dramBankKey (c ca : Nat) : Nat := c * 16 + Config.dramBank ca % 16

/-- Is the row of a channel address open? -/
def State.rowHit (s : State) (c ca : Nat) : Bool := decide (SMap.get s.drm.rows 0 (dramBankKey c ca) = Config.dramRow ca + 1)

/-- The next of a level (R293), and those it passes: a row hit goes before an older miss, but none is passed more than 16 times. -/
def State.pick (s : State) (c : Nat) (l : List Cand) : Option (Cand × List Cand) :=
  (Cand.first l).map fun o =>
    match Cand.first (l.filter fun x => s.rowHit c x.ca) with
    | none => (o, [])
    | some h =>
      let past := l.filter fun x => x.before h && !s.rowHit c x.ca
      if past.any fun x => decide (16 ≤ x.passed) then (o, []) else (h, past)

/-- One is passed by another. -/
def State.notePassed (s : State) (c : Nat) (x : Cand) : State :=
  match x.src with
  | .req i => { s with drm := { s.drm with reqs := SMap.set s.drm.reqs [] c ((SMap.get s.drm.reqs [] c).modify i fun r => { r with passed := r.passed + 1 }) } }
  | .cap i => s.setTioStore (c / 4) ((s.tioStore (c / 4)).modify i fun r => { r with passed := r.passed + 1 })
  | .sched n _ => match s.fabFrame n with | some f => s.putFrame n { f with passed := f.passed + 1 } | none => s

/-- The latency of a request, from its arrival to its completion (R390, R392). -/
def State.noteDram (s : State) (p port since : Nat) : State :=
  let v := (s.now - since) / nsU
  (s.histAdd p 3 port (histBin 3 v) 1).extreme p 2 port true (Int.ofNat v) (s.recStamp p)

/-- A request completes: its strand's access goes on, or its frame has one more line. -/
def State.reqDone (s : State) (p : Nat) (r : DramReq) : State :=
  let s := if r.port < 9 then s.noteDram p r.port r.at_ else s
  let s := match r.who with | some (t, id) => s.accDone t id | none => s
  match r.frame.bind fun n => (s.fabFrame n).map fun f => (n, f) with
  | some (n, f) => s.putFrame n { f with got := f.got + 1 }
  | none => s

/-- A capture record is written; in a poisoned grain it is discarded and counted (R266, R298). -/
def State.writeCapture (s : State) (p i : Nat) (e : CapRec) : State :=
  let s := (s.setTioStore p ((s.tioStore p).eraseIdx i)).noteDram p 7 e.at_
  if s.devOk p e.addr 32 then s.devWrite p e.addr e.bytes else s.count 0xC (p * 16 + s.streamAt p e.addr) 0

/-- Does a PANIC request wait on the channel (R292–R294)? -/
def State.panicOn (s : State) (c : Nat) : Bool := (s.cands c).any fun x => decide (x.level = 2)

-- ------------------------------------------------------------------------------------------- refresh and rows

/-- The rolling activation count of a bank rises by `n` (R295). -/
def State.noteActs (s : State) (k n : Nat) : State := { s with drm := { s.drm with acts := SMap.set s.drm.acts 0 k (SMap.get s.drm.acts 0 k + n) } }

/-- A refresh of a bank, or a refresh-management command for it, closes its row and takes the memory's threshold off its rolling
activation count (PRESUMED from JESD209-5C, log entry 98). -/
def State.calmBank (s : State) (k : Nat) : State :=
  { s with drm := { s.drm with rows := SMap.set s.drm.rows 0 k 0, acts := SMap.set s.drm.acts 0 k (SMap.get s.drm.acts 0 k - (Config.rfmThreshold + 1)) } }

/-- A per-bank refresh of a channel (R294): its banks take turns. -/
def State.refreshBank (s : State) (c : Nat) : State :=
  let b := SMap.get s.drm.bank 0 c
  ({ s with drm := { s.drm with bank := SMap.set s.drm.bank 0 c ((b + 1) % 16) } }).calmBank (c * 16 + b)

/-- The bank of a channel that is due a refresh-management command (R295), where the memory requires them. -/
def State.rfmDue (s : State) (c : Nat) : Option Nat :=
  if s.rb R.drmCstat (c / 4) (c % 4) 2 then firstIdx 16 fun b => decide (Config.rfmThreshold < SMap.get s.drm.acts 0 (c * 16 + b)) else none

/-- The oldest queued neighbour refresh (R295): each of its rows is activated and precharged. -/
def State.issueNeighbour (s : State) (c : Nat) : Option State :=
  match SMap.get s.drm.nrq [] c with
  | [] => none
  | (b, rows) :: rest =>
    let s := { s with drm := { s.drm with nrq := SMap.set s.drm.nrq [] c rest, rows := SMap.set s.drm.rows 0 (c * 16 + b) 0 } }
    some (s.noteActs (c * 16 + b) rows.length)

/-- A due refresh, an owed refresh, a due refresh-management command or a neighbour refresh is issued, if there is one (R293 level 3). -/
def State.issueRefresh (s : State) (c : Nat) : Option State :=
  let due := SMap.get s.drm.due 0 c
  if 0 < due then some (({ s with drm := { s.drm with due := SMap.set s.drm.due 0 c (due - 1) } }).refreshBank c)
  else if 0 < s.postp c && !s.panicOn c then some ((s.setCstat c 3 4 (s.postp c - 1)).refreshBank c)
  else match s.rfmDue c with
    | some b => some (s.calmBank (c * 16 + b))
    | none => s.issueNeighbour c

/-- The rows that a draw at row `r` names (R295): those at distance 1, and with D2 = 1 at distance 2, within the bank. -/
def State.neighbours (s : State) (c r : Nat) : List Nat :=
  let d (k : Nat) : List Nat := (if k ≤ r then [r - k] else []) ++ (if r + k < Config.dramRows then [r + k] else [])
  d 1 ++ (if s.rb R.drmRh (c / 4) 0 5 then d 2 else [])

/-- The row of a channel address is opened, where it is not (R295): the activation draws, with probability 2^−K, a neighbour refresh of
its bank's rows. One that would overflow the queue of 8 waits: this command then issues the oldest neighbour refresh and the
activation, and the request is served by the next (the Boolean says whether it may be served now). -/
def State.activate (s : State) (c ca : Nat) : Bool × State :=
  if s.rowHit c ca then (true, s)
  else
    let k := dramBankKey c ca
    let r := Config.dramRow ca
    let opened (s : State) : State := ({ s with drm := { s.drm with rows := SMap.set s.drm.rows 0 k (r + 1) } }).noteActs k 1
    if !s.rb R.drmRh (c / 4) 0 0 then (true, opened s)
    else
      let (n, s) := s.freeN
      let ns := s.neighbours c r
      if n % 2 ^ s.rf R.drmRh (c / 4) 0 1 4 ≠ 0 || ns.isEmpty then (true, opened s)
      else
        let full := decide (8 ≤ (SMap.get s.drm.nrq [] c).length)
        let s := if full then let s := s.count 0xF c 2; (s.issueNeighbour c).getD s else s
        (!full, opened { s with drm := { s.drm with nrq := SMap.set s.drm.nrq [] c (SMap.get s.drm.nrq [] c ++ [(k % 16, ns)]) } })

/-- The column command of a candidate: a write of a whole line completes; a read, and the read of a shorter write (R290), completes by
DRAM_READ_COMPLETE. -/
def State.serveCol (s : State) (c : Nat) (x : Cand) : State :=
  let read (r : DramReq) (s : State) : State := { s with drm := { s.drm with reading := SMap.set s.drm.reading [] c (SMap.get s.drm.reading [] c ++ [r]) } }
  match x.src with
  | .req i =>
    let l := SMap.get s.drm.reqs [] c
    match l[i]? with
    | none => s
    | some r =>
      let s := { s with drm := { s.drm with reqs := SMap.set s.drm.reqs [] c (l.eraseIdx i) } }
      if r.write && !r.short then s.reqDone (c / 4) r else read r s
  | .cap i => match (s.tioStore (c / 4))[i]? with | some e => s.writeCapture (c / 4) i e | none => s
  | .sched n a => match s.fabFrame n with
    | none => s
    | some f => read { port := 8, at_ := x.at_, addr := a, ca := x.ca, panel := c / 4, frame := some n } (s.putFrame n { f with asked := f.asked + 1, passed := 0 })

/-- A channel serves what a level gives it next, if it has anything. -/
def State.serveLevel (s : State) (c : Nat) (l : List Cand) : Option State :=
  (s.pick c l).map fun x =>
    let (go, s) := (x.2.foldl (fun s y => s.notePassed c y) s).activate c x.1.ca
    if go then s.serveCol c x.1 else s

/-- Patrol scrub (R378): one line at a time, so that every usable line is read once in SWT_CFG.SCRUB hours. -/
def State.scrubNext (s : State) (c : Nat) : State :=
  let gap := s.rf R.swtCfg (c / 4) 0 13 8 * 3600 * secU * 64 / s.chanU
  if s.now < SMap.get s.drm.scrubAt 0 c + gap || (SMap.get s.drm.reading [] c).any (fun r => decide (r.port = 9)) then s
  else
    let ca := SMap.get s.drm.scrub 0 c
    let r : DramReq := { port := 9, at_ := s.now, addr := 0, ca := ca, panel := c / 4 }
    let (go, s) := s.activate c ca
    if !go then s
    else { s with drm := { s.drm with
      scrub := SMap.set s.drm.scrub 0 c (if ca + 64 < s.chanU then ca + 64 else 0), scrubAt := SMap.set s.drm.scrubAt 0 c s.now,
      reading := SMap.set s.drm.reading [] c (SMap.get s.drm.reading [] c ++ [r]) } }

/-- The first level from 4 to 7 at which something waits (R293). -/
def firstLevel (l : List Cand) : List Cand :=
  match firstIdx 4 fun k => l.any fun x => decide (x.level = 4 + k) with
  | some k => l.filter fun x => decide (x.level = 4 + k)
  | none => []

/-- DRAM_COMMAND_ISSUE (R293): a channel in service issues its next command: a refresh owed for 8 intervals, a PANIC request, a refresh or
refresh management, then the other requests by level, then patrol scrub. A channel in a widened search issues refreshes alone
(R297). -/
def execDramCommandIssue (panel channel : Nat) (s : State) : Host.Outcome State Fault Refusal :=
  let p := panel % 2
  let c := chanNo p (channel % 4)
  if !s.up p || decide (s.chanState c = 3) then .next s
  else if s.chanState c = 2 then .next ((s.issueRefresh c).getD s)
  else if s.chanState c = 1 then .next s
  else if 8 ≤ s.postp c then .next ((s.setCstat c 3 4 7).refreshBank c)
  else
    let l := s.cands c
    match s.serveLevel c (l.filter fun x => decide (x.level = 2)) with
    | some u => .next u
    | none => match s.issueRefresh c with
      | some u => .next u
      | none => match s.serveLevel c (firstLevel l) with
        | some u => .next u
        | none => .next (s.scrubNext c)

/-- Has the interval that the MR4 refresh rate requires passed since a refresh last fell due (R294)? -/
def State.refreshOver (s : State) (c : Nat) : Bool := decide (SMap.get s.drm.refAt 0 c + Config.refreshInterval (SMap.get s.drm.rate 0 c) ≤ s.now)

/-- REFRESH_DUE (R294): at the interval that the MR4 refresh rate requires, a refresh falls due; while a PANIC request waits on the channel
it is postponed. -/
def execRefreshDue (panel channel : Nat) (s : State) : Host.Outcome State Fault Refusal :=
  let p := panel % 2
  let c := chanNo p (channel % 4)
  if !s.up p || decide (s.chanState c = 3) || !s.refreshOver c then .next s
  else
    let panic := s.panicOn c
    let s := { s with drm := { s.drm with refAt := SMap.set s.drm.refAt 0 c s.now } }
    if panic && s.postp c < 8 then .next ((s.setCstat c 3 4 (s.postp c + 1)).count 0xF c 3)
    else .next { s with drm := { s.drm with due := SMap.set s.drm.due 0 c (SMap.get s.drm.due 0 c + 1) } }

/-- MR4_READ (R294, R295): every 16 ms the refresh rate is read, with what the mode registers say of refresh management. -/
def execMr4Read (panel channel rate : Nat) (rfm : Bool) (s : State) : Host.Outcome State Fault Refusal :=
  let p := panel % 2
  let c := chanNo p (channel % 4)
  if !s.up p || decide (s.chanState c = 3) || decide (s.now < SMap.get s.drm.mr4At 0 c + 16 * msU) then .next s
  else .next (({ s with drm := { s.drm with rate := SMap.set s.drm.rate 0 c rate, mr4At := SMap.put s.drm.mr4At c s.now } }).setCstat c 2 1 (b2n rfm))

/-- A retraining begins (R297): a due refresh is issued first. -/
def State.startTrain (s : State) (c : Nat) : State :=
  let s := match SMap.get s.drm.due 0 c with
    | 0 => s
    | n + 1 => ({ s with drm := { s.drm with due := SMap.set s.drm.due 0 c n } }).refreshBank c
  ({ s with drm := { s.drm with startAt := SMap.put s.drm.startAt c s.now, deferAt := SMap.del s.drm.deferAt c } }).setCstat c 0 2 1

/-- RETRAIN (R297): `trigger` 0 the period, 1 the temperature, 2 the oscillator count. While a real-time port is HIGH or PANIC they
are deferred, for at most 10 ms. -/
def execRetrain (panel channel trigger : Nat) (temp : Int) (s : State) : Host.Outcome State Fault Refusal :=
  let p := panel % 2
  let c := chanNo p (channel % 4)
  let d := s.drm
  let due := match trigger with
    | 0 => decide (SMap.get d.trainedAt 0 c + s.rf R.drmTrn p 0 0 8 * msU ≤ s.now)
    | 1 => decide (s.rf R.drmTrn p 0 8 4 ≤ (temp - SMap.get d.temp 0 c).natAbs)
    | _ => true
  if !s.up p || decide (s.chanState c ≠ 0) || !due then .next s
  else
    let since := SMap.get d.deferAt 0 c
    if (decide (1 ≤ s.captureLevel p) || decide (1 ≤ s.schedLevel p)) && (since = 0 || s.now < since - 1 + 10 * msU) then
      .next (if since = 0 then { s with drm := { d with deferAt := SMap.put d.deferAt c (s.now + 1) } } else s)
    else .next (s.startTrain c)

/-- A channel returns to service, trained now at `temp` °C. -/
def State.trained (s : State) (c : Nat) (temp : Int) : State :=
  ({ s with drm := { s.drm with trainedAt := SMap.put s.drm.trainedAt c s.now, temp := SMap.put s.drm.temp c temp, startAt := SMap.del s.drm.startAt c } }).setCstat c 0 2 0

/-- RETRAIN_COMPLETE (R297): a retraining that finds no setting starts a widened search. -/
def execRetrainComplete (panel channel : Nat) (pass : Bool) (temp : Int) (s : State) : Host.Outcome State Fault Refusal :=
  let p := panel % 2
  let c := chanNo p (channel % 4)
  if !s.up p || decide (s.chanState c ≠ 1) then .next s
  else if pass then .next (s.trained c temp)
  else .next (({ s with drm := { s.drm with startAt := SMap.put s.drm.startAt c s.now } }).setCstat c 0 2 2)

/-- A channel that cannot be made to work is fenced, and reported as a UNIT error (R298, R358). -/
def State.loseChannel (s : State) (c detect : Nat) : State :=
  (s.fenceChannel (c / 4) c).raiseError (c / 4) { sev := 2, unit := 5, index := c, detect := detect }

/-- WIDE_SEARCH_COMPLETE (R297): the channel returns to service, or is fenced. -/
def execWideSearchComplete (panel channel : Nat) (pass : Bool) (temp : Int) (s : State) : Host.Outcome State Fault Refusal :=
  let p := panel % 2
  let c := chanNo p (channel % 4)
  if !s.up p || decide (s.chanState c ≠ 2) then .next s
  else if pass then .next ((s.trained c temp).count 0xF c 1)
  else .next (s.loseChannel c 5)

/-- DRAM_READ_COMPLETE (R296): the oldest read issued to the channel comes back. `err` 0 none; 1 corrected, at once or on a repeat: the line
is rewritten and counted; 2 uncorrectable on both repeats: the channel is retrained at once and the line read again, and where it is
still uncorrectable the channel is fenced, which completes the read with poison. -/
def execDramReadComplete (panel channel err : Nat) (s : State) : Host.Outcome State Fault Refusal :=
  let p := panel % 2
  let c := chanNo p (channel % 4)
  match SMap.get s.drm.reading [] c with
  | [] => .next s
  | r :: rest =>
    if !s.up p || decide (s.chanState c ≠ 0) then .next s
    else
      let again := SMap.get s.drm.errTrain false c
      let s := { s with drm := { s.drm with errTrain := SMap.set s.drm.errTrain false c (decide (2 ≤ err) && !again) } }
      let done (s : State) : State := ({ s with drm := { s.drm with reading := SMap.set s.drm.reading [] c rest } }).reqDone p r
      match err with
      | 0 => .next (done s)
      | 1 => .next (done ((s.count 0xF c 0).countUnit p 5 0))
      | _ => if again then .next (s.loseChannel c 0) else .next (s.startTrain c)

/-- RESYNC_COMPLETE (R287). -/
def execResyncComplete (s : State) : Host.Outcome State Fault Refusal :=
  if s.drm.resync && s.joined then .next s.endResync else .next s

end Sys2Proof.Machine
end

