-- ==== Sys2Proof/Machine/Security.lean ====
section
/-! DEFINITION. Root of trust and attestation (ch. 18): flash as the ROMs read it, the verification of signed objects, the
device's identity, service tokens, the attestation report, session keys and CFG_DIGEST. -/

namespace Sys2Proof.Machine

-- -------------------------------------------------------------------------------------------------- signed objects

/-- Anti-rollback counter of a class (R346): its highest valid record, 0 where there is none. -/
def State.arb (s : State) (cls : Nat) : Nat := (SMap.get s.sec.arb [] cls).getLast?.getD 0

/-- A signed object: its header of 8,192 bytes and its body (R345). -/
structure SObj where
  hdr : List Byte
  body : List Byte

/-- Fields of a header (R345). -/
def SObj.word (o : SObj) (off : Nat) : Nat := leVal (sliceZ o.hdr off 4)
/-- CLASS. -/
def SObj.cls (o : SObj) : Nat := bits (o.word 4) 8 4
/-- SIGNER: 0 VENDOR, 1 OWNER. -/
def SObj.signer (o : SObj) : Nat := bits (o.word 4) 12 2
/-- SVN. -/
def SObj.svn (o : SObj) : Nat := leVal (sliceZ o.hdr 8 8)
/-- The measurement of an object (R345). -/
def SObj.meas (o : SObj) : List Byte := sha3_512 (sliceZ o.hdr 0 2688)

/-- Is BODY_LEN right for the class (R345)? -/
def lenOk (cls n : Nat) : Bool :=
  match cls with | 0 => decide (1 ≤ n) && decide (n ≤ 1040384) | 1 => decide (1 ≤ n) && decide (n ≤ 33546240) | 2 => decide (n = 192) | _ => false

/-- Is a reserved field or a reserved code of an object non-zero (R347, check 1)? A token's body has reserved fields of its own
(R353). -/
def SObj.reserved (o : SObj) : Bool :=
  decide (3 ≤ o.cls) || decide (2 ≤ o.signer) || decide (bits (o.word 4) 14 18 ≠ 0) || (sliceZ o.hdr 20 12).any (fun b => decide (b ≠ 0#8)) ||
    (sliceZ o.hdr 7315 877).any (fun b => decide (b ≠ 0#8)) ||
    (decide (o.cls = 2) && (decide (32 ≤ leVal (sliceZ o.body 64 4)) || (sliceZ o.body 68 60).any fun b => decide (b ≠ 0#8)))

/-- May the signer sign the class (R348)? What a vendor token may grant on an owned device is checked later (R353). -/
def State.signerOk (s : State) (cls signer : Nat) : Bool :=
  match cls, s.sec.bootOwner with
  | 0, _ => decide (signer = 0)
  | 1, none => decide (signer = 0)
  | 1, some _ => decide (signer = 1)
  | 2, none => decide (signer = 0)
  | 2, some _ => true
  | _, _ => false

/-- The fused hash of a signer (R347). -/
def State.signerHash (s : State) (signer : Nat) : List Byte := if signer = 0 then Config.vendorHash else s.ownerHash

/-- Verification of an object (R347), as a code of SEC_TOKSTAT.LAST: 1 OK, 3 RESERVED_FIELD, 4 FORMAT, 5 SIGNER, 6 SIGNATURE,
7 BODY_HASH, 8 ROLLBACK. -/
def State.verify (s : State) (cls : Nat) (o : SObj) : Nat :=
  let key := sliceZ o.hdr 96 2592
  if o.reserved then 3
  else if o.word 0 ≠ 0x314E5A50 || bits (o.word 4) 0 8 ≠ 1 || !lenOk cls (o.word 16) || o.cls ≠ cls then 4
  else if !s.signerOk cls o.signer || sha3_512 key ≠ s.signerHash o.signer then 5
  else if !Config.mldsaVerify key (sliceZ o.hdr 0 2688) (sliceZ o.hdr 2688 4627) then 6
  else if sha3_512 (o.body.take (o.word 16)) ≠ sliceZ o.hdr 32 64 then 7
  else if o.svn < s.arb cls then 8
  else 1

/-- The object in a flash slot. -/
def State.flashObj (s : State) (a : Nat) : SObj :=
  let hdr := s.flashBytes a 8192
  { hdr := hdr, body := s.flashBytes (a + 8192) (min (leVal (sliceZ hdr 16 4)) 33546240) }

/-- Which copy of an image a ROM boots (R349): the copy that passes with the higher SVN, slot 0 on a tie; or the status that
slot 0 met. -/
def State.bootCopy (s : State) (cls a0 a1 : Nat) : Except Nat SObj :=
  let x := s.flashObj a0
  let y := s.flashObj a1
  let vx := s.verify cls x
  let vy := s.verify cls y
  if vx = 1 && vy = 1 then .ok (if x.svn < y.svn then y else x)
  else if vx = 1 then .ok x
  else if vy = 1 then .ok y
  else .error vx

-- -------------------------------------------------------------------------------------------------------- identity

/-- The RAF unwrapping key (R350). -/
def rafKek : List Byte := shake256 (Config.pufSeed ++ ascii "KW") 32
/-- SEC_ID (R350). -/
def secId : List Byte := (sha3_512 (Config.mldsaPublic idSeed)).take 32
/-- SEC_CHAL (R353). -/
def State.chal (s : State) : List Byte := sliceZ (Config.challenge s.sec.seed) 0 32

-- ---------------------------------------------------------------------------------------------------------- tokens

/-- The checks of a service token (R353), beyond R347: its status. -/
def State.checkToken (s : State) (o : SObj) : Nat :=
  let v := s.verify 2 o
  let grants := leVal (sliceZ o.body 64 4)
  if v ≠ 1 then v
  else if sliceZ o.body 0 32 ≠ secId then 9
  else if sliceZ o.body 32 32 ≠ s.chal then 10
  else if (s.sec.bootOwner.isSome && decide (o.signer = 0) && decide (grants &&& 0x19 ≠ 0)) ||
      (!bit grants 4 && (sliceZ o.body 128 64).any fun b => decide (b ≠ 0#8)) then 11
  else 1

/-- The token that SEC_TOKCTL names: SRC 0 at a DRAM address, 1 in flash (R356). -/
def State.tokenObj (s : State) : SObj :=
  let a := s.rf R.secTokctl 0 0 2 30
  let src := s.rb R.secTokctl 0 0 1
  let rd (o n : Nat) : List Byte := if src then s.flashBytes (a * 4 + o) n else s.devBytes (b2n !s.up 0) (a * 1024 + o) n
  { hdr := rd 0 8192, body := rd 8192 192 }

/-- TOKEN_VERIFY_COMPLETE (R353): the token is checked; one that passes replaces the one held, and its DEBUG grant takes effect at
once. -/
def execTokenVerifyComplete (s : State) : Host.Outcome State Fault Refusal :=
  if !s.sec.verifying then .next s
  else
    let o := s.tokenObj
    let v := s.checkToken o
    let s := { s with sec := { s.sec with verifying := false, last := v } }
    if v ≠ 1 then .next s
    else
      let g := leVal (sliceZ o.body 64 4)
      .next { s with sec := { s.sec with token := some { grants := g, newOwner := sliceZ o.body 128 64, meas := o.meas }, dbg := s.sec.dbg || bit g 2 } }

/-- Does the held token grant bit `n`, in SERVICE (R353)? -/
def State.granted (s : State) (n : Nat) : Bool :=
  decide (s.md.mode = .service) && (match s.sec.token with | some t => bit t.grants n | none => false)

/-- Burn an anti-rollback record (R346, R353). -/
def State.advanceArb (s : State) (cls : Nat) : State :=
  let l := SMap.get s.sec.arb [] cls
  let v := SMap.get s.sec.svn 0 cls
  if v ≤ s.arb cls then { s with sec := { s.sec with last := 1 } }
  else if 32 ≤ l.length then { s with sec := { s.sec with last := 12 } }
  else { s with sec := { s.sec with arb := SMap.put s.sec.arb cls (l ++ [v]), last := 1 } }

/-- Burn NEW_OWNER into the next owner slot (R353). -/
def State.xferOwner (s : State) : State :=
  let n := match s.fusedOwner with | some (k, _) => k + 1 | none => 0
  match s.sec.token with
  | none => s
  | some t =>
    if 4 ≤ n then { s with sec := { s.sec with last := 13 } }
    else { s with sec := { s.sec with owners := SMap.put s.sec.owners n t.newOwner, last := 1 } }

-- ----------------------------------------------------------------------------------------------------- attestation

/-- Bytes 0–511 of a report (R352). -/
def State.reportBody (s : State) (nonce : List Byte) : List Byte :=
  leBytes 4 0x54525A50 ++
  leBytes 4 (1 + s.md.mode.code * 256 + b2n (s.up 0) * 4096 + b2n (s.up 1) * 8192 + b2n s.dbgOpen * 16384) ++
  leBytes 8 s.rcd.seq ++ leBytes 16 0 ++ sliceZ nonce 0 32 ++ sliceZ s.sec.svMeas 0 64 ++
  sliceZ s.sec.mainA 0 64 ++ sliceZ s.sec.mainB 0 64 ++ sliceZ ((s.sec.token.map fun t => t.meas).getD []) 0 64 ++
  sliceZ s.sec.digest 0 64 ++ s.ownerHash ++ ([0, 1, 2, 3].flatMap fun c => leBytes 8 (s.arb c)) ++ leBytes 32 0

/-- ATTEST_COMPLETE (R352): the report that is being built is signed and held, and SV_ATTN.ATTEST is set. Signing needs a panel's
hook 0. -/
def execAttestComplete (s : State) : Host.Outcome State Fault Refusal :=
  match s.sv.nonce with
  | none => .next s
  | some nonce =>
    if !s.up 0 && !s.up 1 then .next s
    else
      let b := s.reportBody nonce
      .next (({ s with sv := { s.sv with nonce := none, report := some (b ++ sliceZ (Config.mldsaSign s.atSeed b) 0 4627 ++ leBytes 109 0) } }).setAttn 4)

-- ---------------------------------------------------------------------------------------------------- session keys

/-- One step of AES key unwrap (RFC 3394): the integrity register and the 64-bit blocks. -/
def unwrapStep (kek : List Byte) (n : Nat) (acc : List Byte × List (List Byte)) (t : Nat) : List Byte × List (List Byte) :=
  let i := (t - 1) % n
  let b := aesDec kek (xorBytes acc.1 (beBytes 8 t) ++ acc.2.getD i [])
  (b.take 8, acc.2.set i (b.drop 8))

/-- AES key unwrap of a 32-byte key (RFC 3394), where its integrity check passes. -/
def aesUnwrap (kek wrapped : List Byte) : Option (List Byte) :=
  let r := (List.range 24).foldl (fun acc k => unwrapStep kek 4 acc (24 - k)) (sliceZ wrapped 0 8, (List.range 4).map fun i => sliceZ wrapped (8 + 8 * i) 8)
  if r.1 = List.replicate 8 0xA6#8 then some r.2.flatten else none

/-- Install an association for receive or transmit (R354). -/
def State.putSa (s : State) (tx : Bool) (port an : Nat) (sa : Option Sa) : State :=
  let k := port * 4 + an
  let put (m : SMap Sa) : SMap Sa := match sa with | some x => SMap.put m k x | none => SMap.del m k
  if tx then { s with sec := { s.sec with txSa := put s.sec.txSa } } else { s with sec := { s.sec with rxSa := put s.sec.rxSa } }

/-- The SAK of the boot configuration as AN 0 of port 0 (R354). -/
def State.installRaf (s : State) (img : Image) : State :=
  match aesUnwrap rafKek img.wrapped with
  | none => s
  | some k =>
    let sa : Sa := { key := k, sci := img.sci, pn := 1 }
    (({ s with sec := { s.sec with rafSci := img.sci } }).putSa false 0 0 (some sa)).putSa true 0 0 (some sa)

/-- CFG_DIGEST is extended by a register write that takes effect in CONFIG or SERVICE (R355). -/
def State.extendDigest (s : State) (addr : Nat) (v : Word) : State :=
  if s.md.mode = .config || s.md.mode = .service then
    { s with sec := { s.sec with digest := sha3_512 (s.sec.digest ++ leBytes 4 addr ++ leBytes 4 v.toNat) } }
  else s

end Sys2Proof.Machine
end

