-- ==== Sys2Proof/Machine/Boot.lean ====
section
/-! DEFINITION. Power, reset, the boot sequence, SLEEP and wake (R335–R337, R341), and the core voltage code (R414). -/

namespace Sys2Proof.Machine

-- ---------------------------------------------------------------------------------------------------------- AON

/-- The AON domain at its reset: only fuses, flash and pins, and what the model keeps for itself, remain. -/
def State.aonReset (s : State) : State :=
  let z : State := {}
  let pins (x : PanelState) : PanelState := { pg := x.pg, rst := x.rst, refclk := x.refclk, refSince := x.refSince }
  { z with
    part := s.part, now := s.now, pending := s.pending, fresh := s.fresh, out := s.out, flash := s.flash,
    rcd := { z.rcd with flash := s.rcd.flash, sectorSeq := s.rcd.sectorSeq, erases := s.rcd.erases, bad := s.rcd.bad, logSector := s.rcd.logSector, logSlot := s.rcd.logSlot, fatSector := s.rcd.fatSector, fatSlot := s.rcd.fatSlot },
    flt := { z.flt with log := s.readLog.flt.log, needleSpare := s.flt.needleSpare, laneSpare := s.flt.laneSpare, sdSpare := s.flt.sdSpare, rows := s.flt.rows, cols := s.flt.cols },
    sec := { z.sec with owners := s.sec.owners, arb := s.sec.arb, seed := s.sec.seed + 1, bootOwner := s.fusedOwner },
    md := { z.md with pgAon := s.md.pgAon, rstAon := s.md.rstAon, a := pins s.md.a, b := pins s.md.b } }

/-- POWER_ON (R333, R336, R337): RST_AON_N is released with PG_AON high. `fuseOk` says that the fuses and the PUF seed could be
read and that the ROM passed its self-check. The AON ROM verifies the Selvage patch firmware and boots it. -/
def execPowerOn (fuseOk : Bool) (s : State) : Host.Outcome State Fault Refusal :=
  let s := s.aonReset
  let s := ({ s with md := { s.md with mode := .off } }).enterMode .boot .powerOn
  if !fuseOk then .next (s.holdBoot .bootCritical 1)
  else
    let s := s.bootRecorder.signCert
    match s.bootCopy 0 0x000000 0x100000 with
    | .error _ => .next (s.holdBoot .bootCritical 2)
    | .ok o =>
      .next { s with
        sec := { s.sec with svMeas := o.meas, svn := SMap.set s.sec.svn 0 0 o.svn },
        md := { s.md with aonDone := some s.now, a := { s.md.a with req := true }, b := { s.md.b with req := true } } }

/-- POWER_LOSS (R333): VDD_AON leaves its operating range; the device is OFF. -/
def execPowerLoss (s : State) : Host.Outcome State Fault Refusal :=
  let s := s.aonReset
  .next { s with md := { s.md with mode := .off } }

-- --------------------------------------------------------------------------------------------------------- panels

/-- PANEL_START (R335): the panel's conditions hold, and it boots from step 3 of R336. -/
def execPanelStart (panel : Nat) (s : State) : Host.Outcome State Fault Refusal :=
  let p := panel % 2
  let x := s.pan p
  if s.md.mode = .off || s.md.mode = .sleep || s.md.held || s.md.aonDone.isNone || x.phase ≠ .off || !x.pg || !x.rst || !x.refclk ||
      decide (s.now < x.refSince + 100 * usU) then .next s
  else .next (s.setPan p { x with phase := .booting, begun := true })

/-- A panel is held in reset with a cause of R337; when the other has failed as well, BOOT is held. -/
def State.failPanel (s : State) (p cause : Nat) : State :=
  let s := s.resetPanel p
  let s := s.setPan p { s.pan p with phase := .failed, bootCause := cause, vid := 20 }
  if s.md.mode = .boot && !s.md.held && (s.pan (1 - p)).phase = .failed then s.holdBoot .bootCritical 3 else s

/-- PANEL_NOT_POWERED (R337): a panel has not started within 1 s of the end of the AON boot. -/
def execPanelNotPowered (panel : Nat) (s : State) : Host.Outcome State Fault Refusal :=
  let p := panel % 2
  match s.md.aonDone with
  | none => .next s
  | some t =>
    if s.md.mode ≠ .off && s.md.mode ≠ .sleep && !s.md.held && !(s.pan p).begun && (s.pan p).phase = .off && decide (t + secU ≤ s.now) then .next (s.failPanel p 1)
    else .next s

/-- A unit that the boot self-test or the training of a channel finds failed: darned onto a free spare, or fenced (R363, R384). -/
def State.bootUnit (s : State) (p : Nat) (u : Nat × Nat) : State :=
  let (r, s) := s.asNeedle p { sev := 2, unit := u.1, index := u.2, detect := 0 }
  let u := (r.unit, r.index)
  let spare := (u.1 = 1 || u.1 = 2 || u.1 = 6 || u.1 = 7) && s.canDarn p r
  if spare then
    let (r, s) := s.beginDarn p r
    let s := { s with flt := { s.flt with moving := SMap.del s.flt.moving u.2 } }
    let s := if u.1 = 6 then { s with swt := { s.swt with spareIn := SMap.set s.swt.spareIn false (u.2 / 8) true, link := SMap.del s.swt.link (u.2 / 8) } } else s
    s.logRepair p u.1 u.2 (repKind r) 0 0
  else (s.fenceUnit p u.1 u.2).2

/-- The results of a full self-test (R384, R385): origin 1 BOOT or 2 EXTENDED. Times, pattern counts and signatures are open. -/
def State.testResults (s : State) (p origin : Nat) (found : List (Nat × Nat)) : State :=
  (List.range (if p = 0 then 441 else 440)).foldl (fun s n =>
    let bad := match kindUnit (sliceKind n) with | some u => found.contains (u, sliceIndex p n) | none => false
    let c := kindCov (sliceKind n)
    let (d, s) := s.freeN
    let (pat, s) := s.freeN
    let (m, s) := s.freeN
    s.putResult p n (if bad then 2 else 1) origin c.1 c.2 (d % 2 ^ 32) (pat % 2 ^ 32) (m % 2 ^ 32) 0) s

/-- The units that a self-test of a panel finds failed, each darned or fenced; a spare needle that fails is spent first (R384). -/
def State.bootUnits (s : State) (p : Nat) (found : List (Nat × Nat)) : State :=
  let spare (u : Nat × Nat) : Bool := decide (u.1 = 1) && decide (u.2 % 13 = 12)
  (found.filter fun u => !spare u).foldl (fun s u => s.bootUnit p u) ((found.filter spare).foldl (fun s u => s.bootUnit p u) s)

/-- Is a finding of the boot self-test critical (R384)? -/
def State.selfCritical (s : State) (p : Nat) (found : List (Nat × Nat)) : Bool :=
  let sl (m n : Nat) : List Nat := (List.range n).filter fun i => s.isFenced p 2 (m * 256 + i)
  found.any (fun u => decide (u.1 = 11) || decide (u.1 = 12)) ||
    decide (1 < ((sl 4 16).map fun i => i / 4).eraseDups.length) || decide (2 < (sl 6 4).length) || decide (8 < (sl 3 16).length) ||
    (List.range 4).all fun i => s.isFenced p 8 (4 * p + i)

/-- Put a register word to a value by its address. -/
def State.pokeReg (s : State) (a : Nat) (v : Word) : State :=
  match regAt a with
  | some r => s.setRd r.desc r.panel r.i r.j v
  | none => s

/-- Load the part of an image that is not a panel's own (R74, R336 step 7, R338, R355): device-wide registers, the chart as
generation 1 in slot 1, the search tables, the survival flow entries, and the boot configuration. STAGING is opened by a copy
pass; a domain that the image enables starts, and a QP that it takes to RTS is there. -/
def State.loadDevice (s : State) (img : Image) : State :=
  let s := (img.regs.filter fun e => decide (e.1 < 0x01000000)).foldl (fun s e => s.pokeReg e.1 e.2) s
  let s := { s with
    chr := { words := img.chart.foldl (fun m e => SMap.put m (4096 + e.1 % 4096) e.2) [], curGen := 1, draining := none, opened := true, passes := [.copy], last := 0 },
    md := { s.md with surv := img.surv, survPins := img.pins },
    sec := { s.sec with digest := sha3_512 img.bootCfg, bootCfg := img.bootCfg, rafOn := img.rafEn },
    tbl := { s.tbl with lpm := img.lpm } }
  let s := [0, 1].foldl (fun s p => s.setTp p { s.tp p with ents := img.ents.foldl (fun (m : SMap TblEntry) (e : Nat × TblEntry) => SMap.put m e.1 e.2) [] }) s
  let s := (List.range 16).foldl (fun s n => if s.domEn n then s.enableDom n else s) s
  (List.range 64).foldl (fun s n => if SMap.get img.regs 0#32 (R.hstQpctl.addr 0 n) = 1#32 then (s.setQpState n 1).getD s else s) s

/-- Load the part of an image that is panel `p`'s own (R336 step 7, R338): its registers, course shared SRAM, the survival pin
list, and tvbase of its strands. -/
def State.loadPanel (s : State) (p : Nat) (img : Image) : State :=
  let s := (img.regs.filter fun e => decide (0x01000000 * (p + 1) ≤ e.1) && decide (e.1 < 0x01000000 * (p + 2))).foldl (fun s e => s.pokeReg e.1 e.2) s
  let s := (img.sram.filter fun e => decide (e.1 / 1048576 / 4 = p)).foldl (fun (s : State) e => { s with mem := { s.mem with sram := cellSet s.mem.sram e.1 e.2 } }) s
  let s := (List.range 128).foldl (fun s j =>
    s.setRd R.tioPown p j 0 (w32 (setBit (s.rd R.tioPown p j).toNat 10 (SMap.get img.pins false (128 * p + j))))) s
  let s := (List.range 416).foldl (fun s k => s.setStrand (p * 416 + k) (s.freshStrand (p * 416 + k))) s
  (if s.up (1 - p) then s.shareMap p else s).safePins p

/-- A panel that is up comes into a device whose other panel `q` already serves or configures (R38, R190, R227, R287, R335,
R404): it takes the copies that `q` holds, its mirrors are rewritten, and in service it rejoins. -/
def State.joinPanel (s : State) (p q : Nat) : State :=
  let s := { s with md := { s.md with bridge := true } }
  let s := (s.copyTables q).setFlw p { s.flw p with mirsync := true }
  if s.inService then
    let s := (s.rejoinDomains (fun _ => q) true).remakeMirrors q
    let s := { s with drm := { s.drm with whole := some q, resync := true } }
    let s : State := (List.range 32).foldl (fun s n => if s.poolHome n = p then s.resetPool n else s) s.applyFrees
    let r : Recov := { sev := 3, unit := 14, index := p, detect := 0, stamp := s.faultStamp q }
    let s : State := s.fault q r 10 7
    let pins := (List.range 128).map fun j => 128 * p + j
    if s.md.mode = .limp then s.limpPins pins else (s.runPins pins).startSwatchOn p
  else s.copyMirror q fun _ => true

/-- The panel has passed (R336 step 8): the device enters CONFIG with the first panel that passes, and one that passes later
joins. -/
def State.passPanel (s : State) (p : Nat) (o : SObj) (img : Image) (temp : Int) : State :=
  let q := 1 - p
  let s := s.setPan p { s.pan p with phase := .up, bootCause := 0 }
  let s := if p = 0 then { s with sec := { s.sec with mainA := o.meas } } else { s with sec := { s.sec with mainB := o.meas } }
  let s := { s with sec := { s.sec with svn := SMap.set s.sec.svn 0 1 o.svn } }
  let s := [0, 1, 2, 3].foldl (fun s c => if s.isFenced p 5 (4 * p + c) then s else s.trained (4 * p + c) temp) s
  let s := if s.up q then s.joinPanel p q else s.setFlw p { s.flw p with mirsync := true }
  let s : State := if s.inService then s
    else { s with drm := { s.drm with msync := !(List.range 8).any fun c => s.isFenced (c / 4) 5 c } }
  let s := if s.md.mode = .boot then s.enterMode .config .bootDone else s
  if s.md.mode = .config && p = 0 && img.rafEn then s.installRaf img else s

/-- A FENCE entry of the repair log is applied (R376): the unit is fenced, and a DRAM channel shows it (R298). -/
def State.bootFence (s : State) (p : Nat) (e : RepEntry) : State :=
  let s := if e.unit = 1 && e.index % 13 = 12 then (s.fenceNeedle p e.index).2 else s.markFenced p e.unit e.index
  if e.unit = 5 then s.setRd R.drmCstat p (e.index % 4) 0 (w32 (setBits (s.rd R.drmCstat p (e.index % 4)).toNat 0 2 3)) else s

/-- The repair log is applied to a panel (R361, R376): what it says has been used is spent, and what it fences is fenced. The spare of
a needle that is among `found` has failed; a course has no other, and the needle is fenced. -/
def State.applyRepairs (s : State) (p : Nat) (found : List (Nat × Nat)) : State :=
  let s := s.readLog
  let x := s.flt
  let s := { s with flt := { x with
    needleSpare := keepOut x.needleSpare fun c => decide (c / 4 = p), laneSpare := keepOut x.laneSpare fun k => decide (k / 8 = p),
    sdSpare := keepOut x.sdSpare fun q => decide (portPanel q = p), rows := keepOut x.rows fun k => decide (k / 4096 = p), cols := keepOut x.cols fun k => decide (k / 4096 = p) } }
  (s.flt.log.filter fun e => decide (e.panel = p)).foldl (fun s e => match e.kind with
    | 0 => s.useRow p e.index false
    | 1 => s.useRow p e.index true
    | 2 =>
      if e.unit = 6 then { s with flt := { s.flt with sdSpare := SMap.put s.flt.sdSpare (e.index / 8) true }, swt := { s.swt with spareIn := SMap.set s.swt.spareIn false (e.index / 8) true } }
      else { s with flt := { s.flt with laneSpare := SMap.put s.flt.laneSpare (e.index % 16) true } }
    | 3 =>
      let s := { s with flt := { s.flt with needleSpare := SMap.put s.flt.needleSpare (e.index / 13) true } }
      if found.contains (1, e.index / 13 * 13 + 12) then s.markFenced p 1 e.index else s
    | 4 => s.bootFence p e
    | _ => s) s

/-- PANEL_BOOT_DONE (R336, R337, R384): the panel runs the steps of its boot. `found` lists the units (R359) that its self-test
and the training of its channels find failed; `repairOk` says that the fuse repair could be
applied; the repair log must be valid in one of its copies (R376); `temp` is the temperature at training. -/
def execPanelBootDone (panel : Nat) (found : List (Nat × Nat)) (repairOk : Bool) (temp : Int) (s : State) : Host.Outcome State Fault Refusal :=
  let p := panel % 2
  if (s.pan p).phase ≠ .booting then .next s
  else if !repairOk || s.logBroken then .next (s.failPanel p 6)
  else
    let s := (s.applyRepairs p found).bootUnits p found
    let s := s.testResults p 1 found
    if s.selfCritical p found then .next (s.failPanel p 2)
    else if [0, 1, 2, 3].all fun c => s.isFenced p 5 (4 * p + c) then .next (s.failPanel p 5)
    else match s.bootCopy 1 0x0200000 0x2200000 with
      | .error v => .next (s.failPanel p (if v = 8 then 4 else 3))
      | .ok o =>
        let other := if p = 0 then s.sec.mainB else s.sec.mainA
        if other ≠ [] && other ≠ o.meas then .next (s.failPanel p 3)
        else
          let img := Config.imageOf o.body
          let t := if s.chr.opened then s else s.loadDevice img
          if !t.chartValid (t.chr.curGen % 4) then .next (s.failPanel p 7)
          else
            let u := (List.range 4).foldl (fun s c => s.moveSupv (4 * p + c)) (t.loadPanel p img)
            .next (u.passPanel p o img temp)

/-- A panel restarts alone from step 3 of R336 (R335). -/
def State.restartPanel (s : State) (p : Nat) : State :=
  let s := (s.resetPanel p).offPanel p
  s.setPan p { s.pan p with bootCause := 0 }

/-- A panel leaves service, or is reset before it is in service (R333, R335). `byReset`: by its reset input or a Selvage reset
command; otherwise its PG has fallen. -/
def State.leavePanel (s : State) (p : Nat) (byReset : Bool) : State :=
  match s.judged with
  | .off | .sleep => s
  | .boot =>
    if s.md.held then (if byReset && s.md.bootDev ≠ 1 && s.md.bootDev ≠ 2 then s.bootAfresh .panelReset else s)
    else s.restartPanel p
  | .config | .service =>
    if byReset || s.up p then s.bootAfresh .panelReset else s.restartPanel p
  | _ =>
    if !s.up p then s.restartPanel p
    else if s.up (1 - p) then s.losePanel p (if byReset then 9 else 7)
    else if byReset then s.bootAfresh .panelReset
    else s.takePanel p 7

/-- PANEL_RESET (R335): a change of a panel's PG, reset or reference input. -/
def execPanelReset (panel : Nat) (pin : PanelPin) (s : State) : Host.Outcome State Fault Refusal :=
  let p := panel % 2
  let x := s.pan p
  match pin with
  | .pg v =>
    let s := s.setPan p { x with pg := v }
    let s := if v then s else if s.judged = .sleep then s.dropPins p else s
    .next (if x.pg && !v && x.phase ≠ .off then s.leavePanel p false else s)
  | .rst v =>
    let s := s.setPan p { x with rst := v }
    .next (if x.rst && !v then s.leavePanel p true else s)
  | .refclk v => .next (s.setPan p { x with refclk := v, refSince := if v && !x.refclk then s.now else x.refSince })

-- ---------------------------------------------------------------------------------------------------- SLEEP, wake

/-- BOOT after a wake event (R341): the panels are powered and boot from step 3 of R336. -/
def State.wake (s : State) : State :=
  let s := (((s.dropPins 0).dropPins 1).enterMode .boot .wake).setAttn 5
  { s with md := { s.md with aonDone := some s.now, bootDev := 0, heldWake := false, wakePorts := [], a := { s.md.a with req := true, begun := false, bootCause := 0 }, b := { s.md.b with req := true, begun := false, bootCause := 0 } } }

/-- Have the items in flight drained, or their time run out (R341)? -/
def State.drained (s : State) : Bool :=
  (s.lls.all fun e => decide (e.2.state = .free)) && (s.car.lists.all fun e => e.2.isEmpty) && (s.car.spill.all fun e => e.2.isEmpty) &&
    s.car.holdA.isEmpty && s.car.holdB.isEmpty

/-- The time the entry to SLEEP takes at most (R341). -/
def State.sleepLimit (s : State) : Nat := max (s.bindLimit 0) (s.bindLimit 1) + 5 * msU

/-- SLEEP_ENTRY_COMPLETE (R341): the ring is flushed, pins go safe, wake sources are latched and the panels are held in reset; a
wake event that was held starts BOOT. -/
def execSleepEntryComplete (s : State) : Host.Outcome State Fault Refusal :=
  if !s.md.sleeping || (!s.drained && decide (s.now < s.md.sleepAt + s.sleepLimit)) then .next s
  else
    let c : MCause := if s.md.cause = 4 then .selvageCmd else .hostCmd
    let s := ((s.flushRing false).safePins 0).safePins 1
    let ports := (List.range 1024).filter fun q => s.rb R.prtCfg 0 q 0
    let mask := s.rd R.modWake 0 0
    let held := (s.tio.pins.filter fun e => (s.pan (e.1 / 128)).pg).map fun e => (e.1, ({ out := e.2.out } : Pin))
    let s := s.resetDevice
    let s := { s with tio := { s.tio with pins := held.foldl (fun (m : SMap Pin) (e : Nat × Pin) => SMap.set m {} e.1 e.2) [] } }
    let s := { s with md := { s.md with wakePorts := ports, wakeMask := mask, a := { s.md.a with req := false }, b := { s.md.b with req := false } } }
    let s := s.enterMode .sleep c
    .next (if s.md.heldWake then s.wake else s)

/-- MOD_WCAUSE of a wake source, where it is enabled by `mask` and `ports` (R341): SRC and WHICH. -/
def State.wakeOf (s : State) (mask : Nat) (ports : List Nat) (w : WakeSrc) : Option (Nat × Nat) :=
  match w with
  | .can port us => if bit mask 0 && decide (800 ≤ port) && decide (port < 960) && ports.contains port && decide (bits mask 12 10 ≤ us) then some (1, port) else none
  | .lin port us => if bit mask 1 && decide (960 ≤ port) && ports.contains port && decide (150 ≤ us) then some (2, port) else none
  | .t1s seg => if bit mask 2 && decide (seg < 96) && (List.range 8).any (fun k => ports.contains (32 + 8 * seg + k)) then some (3, 32 + 8 * seg) else none
  | .tio pin ns =>
    let on := (List.range 8).any fun q => bit mask (4 + q) && decide (s.rf R.modWpin 0 (q / 4) (8 * (q % 4)) 8 = pin)
    if bit mask 3 && on && decide (1000 ≤ ns) then some (4, pin) else none
  | .selvage => some (5, 0)

/-- A wake event (R341): only the first is recorded; during the entry to SLEEP it is held. -/
def State.wakeBy (s : State) (w : WakeSrc) : State :=
  if s.md.sleeping then
    if s.md.heldWake then s
    else match s.wakeOf (s.rd R.modWake 0 0).toNat ((List.range 1024).filter fun q => s.rb R.prtCfg 0 q 0) w with
      | some (a, b) => { s with md := { s.md with heldWake := true, wSrc := a, wWhich := b } }
      | none => s
  else if s.md.mode = .sleep then
    match s.wakeOf s.md.wakeMask.toNat s.md.wakePorts w with
    | some (a, b) => ({ s with md := { s.md with wSrc := a, wWhich := b } }).wake
    | none => s
  else s

/-- WAKE_EVENT (R341). -/
def execWakeEvent (w : WakeSrc) (s : State) : Host.Outcome State Fault Refusal := .next (s.wakeBy w)

/-- VID_STEP (R414): a panel whose image has been loaded changes its code by one step, at most every 20 µs, within 0–40. -/
def execVidStep (panel : Nat) (up : Bool) (s : State) : Host.Outcome State Fault Refusal :=
  let p := panel % 2
  let x := s.pan p
  if !s.up p || s.md.mode = .sleep || decide (s.now < x.vidAt + 20 * usU) || (up && decide (40 ≤ x.vid)) || (!up && decide (x.vid = 0)) then .next s
  else .next (s.setPan p { x with vid := if up then x.vid + 1 else x.vid - 1, vidAt := s.now })

end Sys2Proof.Machine
end

