-- ==== Sys2Proof/Machine/SwatchRows.lean ====
section
/-! DEFINITION. The swatch cycle (R379–R383). -/

namespace Sys2Proof.Machine

/-- Does the swatch of a panel run? -/
def State.swatchOn (s : State) (p : Nat) : Bool := SMap.get s.swa.on false p && s.up p && (decide (s.md.mode = .run) || decide (s.md.mode = .degraded))

/-- SWATCH_CYCLE_START (R379): every CYCLE seconds. -/
def execSwatchCycleStart (panel : Nat) (s : State) : Host.Outcome State Fault Refusal :=
  let p := panel % 2
  if !s.swatchOn p || (SMap.find s.swa.run p).isSome || decide (SMap.get s.swa.next 0 p < 440) || decide (s.now < s.cycleStart p + s.cycleLen p) then .next s
  else .next (s.beginCycle p (s.cycleStart p + s.cycleLen p))

/-- Is the spare that the hand-over of slice `n` needs in use (R380)? -/
def State.noSpare (s : State) (p n : Nat) : Bool :=
  match sliceKind n with
  | 1 => SMap.get s.flt.needleSpare false (sliceIndex p n / 13)
  | 6 => SMap.get s.flt.laneSpare false (sliceIndex p n)
  | _ => false

/-- SLICE_START (R379, R380): the next slice at its turn. -/
def execSliceStart (panel : Nat) (s : State) : Host.Outcome State Fault Refusal :=
  let p := panel % 2
  let n := SMap.get s.swa.next 0 p
  if !s.swatchOn p || (SMap.find s.swa.run p).isSome || decide (440 ≤ n) || decide (s.now < s.cycleStart p + n * s.cycleLen p / 440) then .next s
  else
    let unit := (kindUnit (sliceKind n)).getD 0
    let index := sliceIndex p n
    let busy := (List.range 5).any fun i => match s.slot p i with | some r => decide (2 ≤ r.sev) | none => false
    if s.isFenced p unit index then .next (s.nextSlice p n)
    else if busy || (s.underRecovery p unit index).isSome then .next s
    else
      let s := { s with swa := { s.swa with last := SMap.set s.swa.last 0 p n } }
      if s.noSpare p n then .next ((s.putResult p n 3 0 0 0 0 0 0 4).nextSlice p n)
      else .next { s with swa := { s.swa with run := SMap.put s.swa.run p { slice := n, start := s.now } } }

/-- A slice that has failed (R383): a severity-2 error of its unit. A needle's strands stay on the spare, and a failing
station lane, which one being open, stays on the spare lane: the recovery closes DARNED without a second hand-over. -/
def State.sliceFailed (s : State) (p n : Nat) : State :=
  let index := sliceIndex p n
  match kindUnit (sliceKind n) with
  | none => s
  | some unit =>
    let r : Recov := { sev := 2, unit := unit, index := index, detect := 6 }
    if unit = 1 && index % 13 ≠ 12 then
      let (r, s) := (s.countUnit p 1 2).writeError p r
      let s := { s with flt := { s.flt with needleSpare := SMap.put s.flt.needleSpare (index / 13) true } }
      s.close p 7 r 1
    else if unit = 7 then
      let (lane, s) := s.freeN
      let (r, s) := (s.countUnit p 7 2).writeError p { r with index := lane % 8 * 16 + index }
      let s := { s with flt := { s.flt with laneSpare := SMap.put s.flt.laneSpare index true } }
      s.close p 7 r 1
    else s.raiseError p r

/-- A complete slice (R383): its result, and its failure if it failed. -/
def State.sliceDone (s : State) (p : Nat) (r : SliceRun) (pass : Bool) (patterns misr : Word) : State :=
  let c := kindCov (sliceKind r.slice)
  let s := s.putResult p r.slice (if pass then 1 else 2) 0 c.1 c.2 ((s.now - r.start) / usU) patterns.toNat misr.toNat 0
  if pass then s else s.sliceFailed p r.slice

/-- SLICE_COMPLETE (R383): the running slice of a panel is complete; `panel` 2 names the AON_SRAM slice. -/
def execSliceComplete (panel : Nat) (pass : Bool) (patterns misr : Word) (s : State) : Host.Outcome State Fault Refusal :=
  if panel = 2 then
    match s.swa.aon with
    | none => .next s
    | some r => .next (({ s with swa := { s.swa with aon := none } }).sliceDone 0 r pass patterns misr)
  else
    let p := panel % 2
    match SMap.find s.swa.run p with
    | none => .next s
    | some r =>
      let s := { s with swa := { s.swa with run := SMap.del s.swa.run p } }
      .next ((s.sliceDone p r pass patterns misr).nextSlice p r.slice)

end Sys2Proof.Machine
end

