-- ==== Sys2Proof/Machine/RegRead.lean ====
section
/-! DEFINITION. Reads of registers (R402, R404, R405): what each word reads as. A word with no effect of its own reads as
it is stored; a field that mirrors the state of the block is formed from that state. -/

namespace Sys2Proof.Machine

-- ------------------------------------------------------------------------------------------------------ AON blocks

/-- MOD_BOOT (R343). -/
def State.modBootW (s : State) : Nat := s.md.bootDev + s.md.a.bootCause * 16 + s.md.b.bootCause * 256

/-- SEC_TOKSTAT (R356). -/
def State.secTokstatW (s : State) : Nat :=
  s.sec.last + ((s.sec.token.map Token.grants).getD 0 % 32) * 16 + ((s.sec.bootOwner.map Prod.fst).getD 0 % 4) * 512 + b2n s.sec.bootOwner.isSome * 2048

/-- Records of the ring, or of the buffer that takes its place, that no flush has written (R400). -/
def State.unflushed (s : State) : Nat :=
  if s.ringFenced then (s.rcd.buf.filter fun r => !r.flushed).length else s.rcd.unflushed

/-- Word `w` of ring slot `i` (R400): zero where the slot is empty or MEM 7 is fenced. -/
def State.ringWord (s : State) (i w : Nat) : Nat :=
  if s.ringFenced then 0 else match SMap.find s.rcd.ring i with
    | none => 0
    | some r => leVal (sliceZ r.bytes (4 * w) 4)

-- ---------------------------------------------------------------------------------------------- device-wide blocks

/-- The panel whose copy of a device-wide block answers (R404): Panel A, Panel B while A is out of service, and during a
bridge failure the panel that receives the access. -/
def State.copyPanel (s : State) (via : Nat) : Nat :=
  if s.up 0 && s.up 1 && !s.md.bridge then via else if s.up 0 then 0 else if s.up 1 then 1 else 0

/-- A count of one panel, zero where it is not in service (R404). -/
def State.ofPanel (s : State) (p v : Nat) : Nat := if s.up p then v else 0

/-- CHR_VSTAT (R96). -/
def State.chrVstatW (s : State) : Nat :=
  s.chr.curGen % 65536 + b2n s.chr.draining.isSome * 2 ^ 16 + b2n s.stageReady * 2 ^ 17 + s.chr.last * 2 ^ 20

/-- CHR_DRAIN (R96): frames of the DRAINING generation on either panel. -/
def State.chrDrainW (s : State) : Nat :=
  match s.chr.draining with
  | none => 0
  | some g => s.ofPanel 0 (min 4096 (s.genCount 0 g)) + s.ofPanel 1 (min 4096 (s.genCount 1 g)) * 2 ^ 16

/-- Word `w` of chart window `i`: 0 STAGING, 1 CURRENT, 2 DRAINING, which reads as zero when no bank is DRAINING (R96). -/
def State.chrWindow (s : State) (i w : Nat) : Nat :=
  match i with
  | 0 => (s.bankW s.stagingSlot w).toNat
  | 1 => (s.bankW (s.chr.curGen % 4) w).toNat
  | _ => match s.chr.draining with
    | none => 0
    | some g => (s.bankW (g % 4) w).toNat

/-- Codes of DOM_STAT.CAUSE (R47). -/
def DomCause.code : DomCause → Nat
  | .none => 0 | .notAcquired => 1 | .sourceLost => 2 | .overrate => 3 | .edgeOverdue => 4 | .secondaryMoving => 5
  | .uncLimit => 6 | .coastLimit => 7 | .invalidPattern => 8 | .split => 9 | .implausible => 10

/-- DOM_STAT of a copy (R47). -/
def DomCopy.stat (c : DomCopy) : Nat :=
  c.state.code + b2n c.secondary * 4 + b2n c.overrate * 8 + b2n c.lost * 16 + b2n c.stepped * 32 + b2n c.split * 64
    + c.cause.code * 256 + c.epoch * 65536

/-- The high word of a position or step: bits [47:32] and the epoch (R47). -/
def hiWord (v epoch : Nat) : Nat := v / 2 ^ 32 % 65536 + epoch * 65536

/-- A read of a DOM status word of domain `n`, copy of panel `p`. -/
def State.domWord (s : State) (p n : Nat) (id : RegId) : Nat :=
  let c := s.dom p n
  match id with
  | .domStat => c.stat
  | .domUnc => s.unc p n
  | .domPosLo => s.est p n % 2 ^ 32
  | .domPosHi => c.posHi.toNat
  | .domStepLo => c.step % 2 ^ 32
  | .domStepHi => hiWord c.step c.stepEpoch
  | _ => c.ovr

/-- Codes of PRT_STAT.LINK (R71). -/
def Link.code : Link → Nat
  | .disabled => 0 | .down => 1 | .up => 2

/-- PRT_STAT of a port (R71). -/
def State.prtStatW (s : State) (p : Nat) : Nat :=
  (s.linkOf p).code + b2n (SMap.get s.swt.wentDown false p) * 4 + (SMap.get s.swt.rate 0 p) * 8 + b2n (SMap.get s.swt.spareIn false p) * 64

-- ---------------------------------------------------------------------------------------------------- panel blocks

/-- The FIFO of an inter-course slot (R160): it lies at the receive end. -/
def State.slotFifo (s : State) (c j : Nat) : Option Nat :=
  (s.link c j).map fun d => if bit (s.iCfg c j) 1 then 512 + c * 16 + j else 512 + d.1 * 16 + d.2

/-- FLT_SLOT (R377). -/
def State.fltSlotW (s : State) (p i : Nat) : Nat :=
  match s.slot p i with
  | none => 0
  | some r => r.sev + 8 + b2n r.susp * 16 + (r.unit % 64) * 32 + (r.index % 4096) * 4096 + (r.step % 16) * 2 ^ 24

/-- FLT_SPARE0 (R377): spare needles, station lanes and serdes lanes still free. -/
def State.fltSpare0W (s : State) (p : Nat) : Nat :=
  let free (m : SMap Bool) (k : Nat) : Bool := !SMap.get m false k
  (idxs 4 fun c => free s.flt.needleSpare (4 * p + c)).length
    + sumN ((idxs 8 fun i => free s.flt.laneSpare (8 * p + i)).map fun i => 2 ^ (4 + i))
    + sumN ((idxs 2 fun i => free s.flt.sdSpare (2 * p + i)).map fun i => 2 ^ (12 + i))

/-- SRAM slices of a panel (R363), each with 16 spare rows and 2 spare columns. -/
def sramSlices : Nat := 312

/-- FLT_SPARE1 (R377). -/
def State.fltSpare1W (s : State) (p : Nat) : Nat :=
  let used (m : SMap Nat) : Nat := sumN ((m.filter fun e => decide (e.1 / 4096 = p)).map fun e => e.2)
  (16 * sramSlices - used s.flt.rows) + (2 * sramSlices - used s.flt.cols) * 65536

/-- TIO_PSTAT of a pin (R283). -/
def State.tioPstatW (s : State) (n : Nat) : Nat :=
  let x := s.pin n
  b2n x.level + x.out * 2 + b2n x.safe * 8 + b2n x.overrate * 16 + b2n x.glitch * 32 + (s.evs.filter fun e => e.onPin n).length % 8 * 64

/-- FLW_STAT (R229). -/
def State.flwStatW (s : State) (p : Nat) : Nat :=
  let f := s.flw p
  (f.ctxs.filter fun e => decide (e.2.state ≠ .free)).length + b2n f.mirsync * 2 ^ 18 + b2n f.adopted * 2 ^ 19 + (f.missQ.length / 2) * 2 ^ 20

/-- SWT_STAT (R386). -/
def State.swtStatW (s : State) (p : Nat) : Nat :=
  b2n (SMap.find s.swa.run p).isSome + SMap.get s.swa.last 0 p * 2 + min (SMap.get s.swa.cycles 0 p) 0x3FFFFF * 2 ^ 10

-- ------------------------------------------------------------------------------------------------------------ reads

/-- What a register word reads as, as a number; `via` is the panel that receives the access. -/
def State.view (s : State) (via : Nat) (r : RegRef) : Nat :=
  let p := r.panel
  let i := r.i
  let w := (s.rd r.desc p i r.j).toNat
  match r.desc.id with
  | .svPage => s.sv.page
  | .svcCtr => (s.ctr 0x11 0 (2 + i)).toNat
  | .modStat => s.modStat
  | .modBoot => s.modBootW
  | .modWcause => s.md.wSrc + s.md.wWhich * 8
  | .modSurv => (SMap.get s.md.surv 0#32 i).toNat
  | .secId => leVal (sliceZ secId (4 * i) 4)
  | .secChal => leVal (sliceZ s.chal (4 * i) 4)
  | .secTokstat => s.secTokstatW
  | .secArb => s.arb i / 2 ^ (32 * r.j) % 2 ^ 32
  | .recStat => s.unflushed + b2n s.ringFenced * 8192
  | .recSeqLo => s.rcd.seq % 2 ^ 32
  | .recSeqHi => s.rcd.seq / 2 ^ 32 % 2 ^ 32
  | .recLost => s.rcd.lost
  | .recLostf => s.rcd.lostf
  | .recRing => s.ringWord (i / 16) (i % 16)
  | .chrVstat => s.chrVstatW
  | .chrDrain => s.chrDrainW
  | .chrWin => s.chrWindow i r.j
  | .tblOvf => s.ofPanel 0 (s.ovfUse 0 i) + s.ofPanel 1 (s.ovfUse 1 i) * 65536
  | .sknPstat => (if s.poolEn i then s.poolFree i else 0) + b2n (!s.poolReach (s.copyPanel via) i) * 2 ^ 21
  | .hstQpctl => (s.qp i).state + b2n s.hst.port2 * 4
  | .domStat | .domUnc | .domPosLo | .domPosHi | .domStepLo | .domStepHi | .domOvr => s.domWord (s.copyPanel via) i r.desc.id
  | .prtStat => s.prtStatW i
  | .carOdstat =>
    let o := s.od p (s.rf R.carOdsel p 0 0 14)
    o.head % 65536 + o.next % 65536 * 65536
  | .carStat => s.llUse p + s.storeUse p * 65536
  | .ndlSstat =>
    let x := s.strand (p * 416 + i)
    (match x.halt with | .running => 0 | .instr => 1 | .double => 2 | .debug => 3) + b2n x.inB1 * 4
  | .yrnOccC => (s.yarn ((4 * p + i) * 64 + r.j)).count
  | .yrnOccI =>
    let c := 4 * p + i
    ((s.slotFifo c r.j).map fun k => (s.yarn k).count).getD 0 + b2n (s.severed c r.j) * 16
  | .hkFence => sumN ((idxs 7 fun h => s.isFenced p 3 ((4 * p + i) * 8 + h)).map fun h => 2 ^ h)
  | .flwStat => s.flwStatW p
  | .flwFree => s.freeRidx p
  | .egrBstat => s.shared p - s.sharedUsed p
  | .tioPstat => s.tioPstatW (p * 128 + i)
  | .drmMstat => b2n s.drm.msync + b2n s.drm.resync * 2
  | .fltSlot => s.fltSlotW p i
  | .fltQueue => (s.errQueue p).length
  | .fltSpare0 => s.fltSpare0W p
  | .fltSpare1 => s.fltSpare1W p
  | .swtStat => s.swtStatW p
  | .swtRes => (s.resWord p i r.j).toNat
  | _ => w

/-- Does the address lie in a part that cannot be reached: a panel block whose panel is not powered or not out of reset
(R405), or a device-wide block with no panel to serve it (R326)? -/
def State.cutOff (s : State) (a : Nat) : Bool :=
  match blockAt a with
  | some (b, p, _) => match b.space with
    | .aon => false
    | .device => !s.reachable 0 && !s.reachable 1
    | .panel => !s.reachable p
  | none => false

/-- A read of the register word at an address (R402): zero where no register is. Reading DOM_POS_LO latches DOM_POS_HI
(R47). -/
def State.readReg (s : State) (via a : Nat) : Word × State :=
  match regAt a with
  | none => (0#32, s)
  | some r =>
    let v := w32 (s.view via r)
    if r.desc.id = .domPosLo then
      let p := s.copyPanel via
      let c := s.dom p r.i
      (v, s.setDom p r.i { c with posHi := w32 (hiWord (s.est p r.i) c.epoch) })
    else (v, s)

/-- Reads of register words one after the other. -/
def State.readRegs (s : State) (via : Nat) : List Nat → List Word × State
  | [] => ([], s)
  | a :: l =>
    let (v, s) := s.readReg via a
    let (vs, s) := s.readRegs via l
    (v :: vs, s)

end Sys2Proof.Machine
end

