-- ==== Sys2Proof/Machine/RegCheck.lean ====
section
/-! DEFINITION. The checks of a register write (R407) and the range and consistency rules of each block (R47, R71, R119,
R149, R157, R168, R169, R212, R229, R234, R239, R259, R283, R299, R320, R338, R400, R409). -/

namespace Sys2Proof.Machine

-- ------------------------------------------------------------------------------------------------------------ words

/-- The word a register holds after a write of `v` over `old`, by the access types of R6: RW and RWL fields take the value,
RO fields keep theirs, W1C bits clear where 1 is written, WO fields read zero. -/
def RegDesc.newWord (d : RegDesc) (old v : Nat) : Nat :=
  d.flds.foldl (fun a f =>
    let o := bits old f.lo f.w
    let n := bits v f.lo f.w
    let x := match f.acc with
      | .rw | .rwl => n
      | .ro => o
      | .w1c => o &&& (n ^^^ (2 ^ f.w - 1))
      | .wo => 0
    a ||| (x <<< f.lo)) 0

/-- Would a write change an RWL field (R6)? -/
def RegDesc.changesRwl (d : RegDesc) (old v : Nat) : Bool :=
  d.flds.any fun f => decide (f.acc = .rwl) && decide (bits old f.lo f.w ≠ bits v f.lo f.w)

/-- May software write the field? -/
def Fld.writable (f : Fld) : Bool := decide (f.acc = .rw) || decide (f.acc = .rwl) || decide (f.acc = .wo)

-- ---------------------------------------------------------------------------------------- check 2: reserved (R10)

/-- Defined bits of window word `w` of a chart bank (R96); none where no word is. -/
def windowMask (w : Nat) : Option Nat :=
  if w < 512 then some (if w % 2 = 0 then 0xFFFFFF7F else 0x01FF077F)
  else if w < 2560 then some (if w % 2 = 0 then 0xFFFFFFFF else 0x1FFFF)
  else if w < 2624 then some 0xFF0F3FFF
  else if w < 3136 then
    let k := (w - 2624) % 32
    some (if k = 0 then 0x3FF1 else if k ≤ 2 then 0x7FFF7F7F else if k = 3 then 0 else if k ≤ 17 then 0xFFFFFFFF else 0)
  else match w with
    | 3136 => some 0xFFFFFFFF
    | 3137 => some 0xFFFF
    | 3138 => some 0x1FFF
    | 3139 => some 0x7FF
    | 3140 => some 0xFFFFFF3F
    | 3141 => some 0x00FFFFFF
    | _ => none

/-- Reserved codes in the low word of an action record (R87): FWD_KIND 2 and 3, DP 3, a DEST of 1152–2047, and a DEST beside DROP. -/
def actLoBad (d : Nat) : Bool :=
  decide (2 ≤ bits d 8 2) || decide (bits d 24 2 = 3) || decide (1152 ≤ bits d 10 11) || (decide (bits d 8 2 = 1) && decide (bits d 10 11 ≠ 0))

/-- Is a window word's value reserved: a reserved bit, HMODE 3, a KIND of 20–62 (R96), or a reserved code of the default action record
(R87)? -/
def windowRsv (w v : Nat) : Bool :=
  match windowMask w with
  | none => true
  | some m => decide (v &&& m ≠ v) ||
    (decide (w < 512) && decide (w % 2 = 0) && (decide (bits v 24 2 = 3) || (decide (20 ≤ bits v 26 6) && decide (bits v 26 6 ≤ 62)))) ||
    (decide (w = 3140) && actLoBad v)

/-- Reserved MODE and FEC codes of a port's kind (R50, R60, R62, R71). -/
def portRsv (p v : Nat) : Bool :=
  let m := bits v 15 3
  let f := bits v 18 2
  if p < 4 then decide (m ≠ 0) || decide (f = 1)
  else if p < 32 then decide (4 < m) || (match m with | 0 => false | 1 => decide (f = 2) | _ => decide (f ≠ 0))
  else if p < 800 then decide (m ≠ 0) || decide (f ≠ 0)
  else if p < 960 then decide (4 < m) || decide (f ≠ 0)
  else decide (1 < m) || decide (f ≠ 0)

/-- A value that names a port index above 1151 (R9). -/
def badPort (v lo : Nat) : Bool := decide (1152 ≤ bits v lo 11)

/-- Check 2 of R407: a non-zero reserved bit or a reserved code. -/
def RegRef.reserved (r : RegRef) (v : Nat) : Bool :=
  let d := r.desc
  let byId := match d.id with
    | .chrWin => windowRsv r.j v
    | .prtCfg => portRsv r.i v
    | .domCfg => decide (d.off = 4) && (decide (bits v 0 3 = 7) || decide (bits v 16 3 = 7))
    | .tblCfg => decide (bits v 0 3 = 7)
    | .tioPcfg => decide (5 < bits v 0 3)
    | .modCmd => decide (7 < bits v 0 4)
    | .recMon | .egrCbs0 | .egrMirt => badPort v 0
    | .egrFrer0 => badPort v 0 || badPort v 18
    | _ => false
  byId || (decide (d.id ≠ .recFsel) && decide (v &&& d.mask ≠ v)) || d.flds.any fun f => f.writable && decide (f.codes ≤ bits v f.lo f.w)

-- ------------------------------------------------------------------------------------ checks 3 and 4: owner, mode

/-- The owner code of a block in SV_OWN (R329). -/
def State.owner (s : State) (b : Blk) (p : Nat) : Nat :=
  let n := b.number p
  let d := match n / 16 with | 0 => R.svOwn0 | 1 => R.svOwn1 | 2 => R.svOwn2 | _ => R.svOwn3
  s.rf d 0 0 (2 * (n % 16)) 2

/-- Check 3 of R407: the block is SELVAGE_ONLY and the host writes, or the host writes SV_OWN (R329). -/
def State.ownerBars (s : State) (who : Writer) (r : RegRef) : Bool :=
  decide (who = .host) && (decide (r.desc.id = .svOwn) || decide (s.owner r.desc.blk r.panel = 2))

/-- Check 4 of R407: the mode (R406, R6), with a write to a read-only chart window (R96) and an SWT_EXT write that R384 does not
allow. -/
def State.modeBars (s : State) (r : RegRef) (v : Nat) : Bool :=
  let d := r.desc
  ((decide (s.md.mode = .boot) || decide (s.md.mode = .sleep)) && decide (d.blk ≠ .sv)) ||
  (decide (s.md.mode ≠ .config) && d.changesRwl (s.rd d r.panel r.i r.j).toNat v) ||
  (decide (d.id = .chrWin) && decide (r.i ≠ 0)) ||
  (decide (d.id = .swtExt) && !s.granted 1)

-- ------------------------------------------------------------------------------------------- check 5: domains (R47)

/-- Is a source selector of a kind out of range (R22, R47)? -/
def selBad (kind sel : Nat) : Bool :=
  match kind with
  | 1 => decide (800 ≤ sel)
  | 2 => decide (8 ≤ sel)
  | 3 => decide (256 ≤ sel) || decide (125 < sel % 128)
  | 4 => decide (32 ≤ sel) || decide (sel % 8 = 7)
  | 5 => decide (32 ≤ sel)
  | 6 => decide (256 ≤ sel)
  | _ => false

/-- Does a source kind fit the domain kind (R22)? -/
def kindFits (kind : Nat) (cyclic : Bool) : Bool :=
  match kind with | 1 => !cyclic | 0 | 6 => true | _ => cyclic

/-- Does a DOM_CTL write that sets EN fail R47? -/
def State.enableBad (s : State) (n v : Nat) : Bool :=
  let cyc := bit v 1
  let home := bits v 2 1
  let one (sec : Bool) : Bool :=
    let k := s.srcKind n sec
    !kindFits k cyc || selBad k (s.srcSel n sec) || (isEdge k && decide (s.srcInc n sec = 0))
  decide (s.srcKind n false = 0) || one false || one true || decide (selPanel (s.srcKind n false) (s.srcSel n false) ≠ home)

/-- DOM_CTL (R47). -/
def State.domCtlBad (s : State) (n v : Nat) : Bool :=
  if !bit v 0 then false
  else if s.domEn n then decide (bit v 1 ≠ s.domCyclic n) || decide (bits v 2 1 ≠ s.domHome n)
  else s.enableBad n v

-- --------------------------------------------------------------------------------------------- ports (R71, R409)

/-- Does a phase's timing word give a rate within [10 kbit/s, `hi`] (R409)? The rate is 80 MHz over quanta per bit. -/
def rateOk (w hi : Nat) : Bool :=
  let q := (bits w 0 10 + 1) * (1 + bits w 10 8 + bits w 18 7)
  decide (10000 * q ≤ 80000000) && decide (80000000 ≤ hi * q)

/-- A CAN timing word (R409). -/
def timingBad (w hi : Nat) : Bool := decide (bits w 18 7 < bits w 25 7) || !rateOk w hi

/-- The upper limit of the XL data phase in a mode (R409). -/
def xlMax (mode : Nat) : Nat := if mode = 2 then 8000000 else 20000000

/-- PRT_CFG (R71, R409). -/
def State.prtCfgBad (s : State) (p v : Nat) : Bool :=
  let len := bits v 1 14
  let m := bits v 15 3
  (if p < 800 then decide (len < 64) || decide ((if p < 32 then 9216 else 1536) < len) else decide (len ≠ 0) || bit v 20) ||
  (decide (800 ≤ p) && decide (p < 960) && decide (m ≠ s.portModeOf p) &&
    ((decide (1 ≤ m) && !rateOk (s.rd R.canDbt 0 (p - 800)).toNat 8000000) ||
     (decide (2 ≤ m) && !rateOk (s.rd R.canXbt 0 (p - 800)).toNat (xlMax m))))

-- ------------------------------------------------------------------------------------- gauge tables, yarns (R157)

/-- Classes a strand subscribes to (R155). -/
def State.subCount (s : State) (t : Nat) : Nat := sumN ((List.range 4).map fun j => popN (s.rd R.carSub (panelOf t) (kOf t) j).toNat 32)

/-- Yarn ends that enabled yarns and slots give a strand by name (R155). -/
def State.endCount (s : State) (t : Nat) : Nat :=
  let c := courseOf t
  let y (i : Nat) : Nat :=
    let v := s.yCfg c i
    if !bit v 17 then 0
    else b2n (!bit v 16 && !bit v 7 && decide (bits v 0 7 = iOf t)) + b2n (!bit v 15 && decide (bits v 8 7 = iOf t))
  let z (j : Nat) : Nat :=
    let v := s.iCfg c j
    b2n (bit v 0 && !bit v 9 && decide (bits v 2 7 = iOf t))
  sumN ((List.range 64).map y) + sumN ((List.range 16).map z)

/-- YENDMAX and SUBMAX of a strand (R168). -/
def State.yendMax (s : State) (t : Nat) : Nat := s.rf R.gtbShl (panelOf t) (kOf t) 17 7
/-- SUBMAX. -/
def State.subMax (s : State) (t : Nat) : Nat := s.rf R.gtbShl (panelOf t) (kOf t) 24 8

/-- Does a half of a GTB_ENT word give two owned lanes to one strand (R168)? -/
def laneTwice (h : Nat) : Bool :=
  let on := (List.range 4).filter fun l => bit h (4 * l + 3)
  decide ((on.map fun l => bits h (4 * l) 3).eraseDups.length ≠ on.length)

/-- GTB_SHL of strand `t` once it holds `v` (`s` with the write done, R157). -/
def State.shlBad (s : State) (t v : Nat) : Bool :=
  let c := courseOf t
  decide (bits v 17 7 < s.endCount t) || decide (bits v 24 8 < s.subCount t) ||
  (if bit v 16 then decide (bits v 8 8 < bits v 0 8) else decide (bits v 8 8 ≠ 0)) ||
  decide (s.llTotal c < sumN ((courseStrands c).map fun u => s.llRes u))

/-- GTB_CBUF of a course. -/
def State.courseBufs (s : State) (c : Nat) : Nat := s.rf R.gtbCbuf (coursePanel c) (c % 4) 0 20

/-- The BUFRES total of a course exceeds GTB_CBUF (R157). -/
def State.bufOver (s : State) (c : Nat) : Bool := decide (s.courseBufs c < sumN ((courseStrands c).map fun u => s.bufRes u))

/-- GTB_SHB of strand `t` once it holds `v` (R157). -/
def State.shbBad (s : State) (t v : Nat) : Bool :=
  (if bit v 24 then decide (bits v 12 12 < bits v 0 12) else decide (bits v 12 12 ≠ 0)) || s.bufOver (courseOf t)

/-- Do the owners that a yarn word names hold more ends than their YENDMAX (R157)? -/
def State.endsOver (s : State) (c : Nat) (is_ : List Nat) : Bool :=
  is_.any fun i => decide (i < 104) && decide (s.yendMax (c * 104 + i) < s.endCount (c * 104 + i))

-- ------------------------------------------------------------------------------------------------- tables (R212)

/-- Size of an exact-match table's region, in KiB (R191, R192). -/
def regionKib (kind b : Nat) : Nat := 2 ^ b * 4 * (8 * 2 ^ kind) / 1024

/-- A TBL_CFG word (R212); `s` with the write done. -/
def State.tblCfgBad (s : State) (n v : Nat) : Bool :=
  let k := bits v 0 3
  let eng := bits v 3 2
  let b := bits v 8 5
  let base := bits v 16 12
  if isEm k then
    let size := regionKib k b
    decide (b < 4) || decide (17 < b + k) || decide (4096 < base + size) || decide (base % size ≠ 0) ||
    (idxs 64 fun m => decide (m ≠ n) && isEm (s.tblKind m) && decide (s.rf R.tblCfg 0 m 3 2 = eng)).any fun m =>
      let q := s.rf R.tblCfg 0 m 16 12
      decide (q < base + size) && decide (base < q + regionKib (s.tblKind m) (s.rf R.tblCfg 0 m 8 5))
  else
    decide (eng ≠ 0) || bit v 5 || bit v 6 || decide (b ≠ 0) || decide (base ≠ 0) ||
    (decide (k = 6) && decide (1 < (idxs 64 fun m => decide (s.tblKind m = 6)).length))

-- --------------------------------------------------------------------------------------------- flow state (R229)

/-- Do two regions, given by base and length, overlap? -/
def overlaps (a n b m : Nat) : Bool := decide (a < b + m) && decide (b < a + n)

/-- The FLW regions of a panel once a write is done (R229): `which` is 0 for FLW_IDX, 1 for FLW_REC and 2 for FLW_MIR. -/
def State.flwBad (s : State) (p which : Nat) : Bool :=
  let ni := 2 ^ (s.log2b p + 6)
  let nr := 2 ^ (s.log2b p + 9)
  let m := s.log2m p
  let nm := if m = 0 then 0 else 2 ^ (m + 8)
  let ir := overlaps (s.idxBase p) ni (s.recBase p) nr
  let im := decide (m ≠ 0) && overlaps (s.idxBase p) ni (s.mirBase p) nm
  let rm := decide (m ≠ 0) && overlaps (s.recBase p) nr (s.mirBase p) nm
  match which with
  | 0 => decide (s.idxBase p % ni ≠ 0) || decide (s.recBase p % nr ≠ 0) || ir || im || rm
  | 1 => decide (s.recBase p % nr ≠ 0) || ir || rm
  | _ => decide (m ≠ 0) && (decide (m < 10) || decide (20 < m) || decide (s.mirBase p % nm ≠ 0)) || im || rm

-- -------------------------------------------------------------------------------------------------- pools (R234)

/-- Length of a pool's region, tags included (R230). -/
def State.poolLen (s : State) (n : Nat) : Nat := s.poolCount n * (s.poolSize n + 4)

/-- Does the pool lie in its memory on its home panel (R230, R285)? -/
def State.poolInMemory (s : State) (n : Nat) : Bool :=
  let a := s.poolBase n
  let e := a + s.poolLen n
  let p := s.poolHome n
  let lo := if s.rb R.sknPcfg 0 n 1 then p * 0x2000000 else 0x2000000000 + p * 0x1000000000
  let hi := lo + (if s.rb R.sknPcfg 0 n 1 then 0x1800000 else s.localSize)
  decide (lo ≤ a) && decide (e ≤ hi)

/-- SKN_PCFG of pool `n` once it is written with EN = 1 (R234). -/
def State.poolBad (s : State) (n : Nat) : Bool :=
  !s.poolInMemory n || (idxs 32 fun m => decide (m ≠ n) && s.poolEn m).any fun m =>
    (decide (s.poolSize m = s.poolSize n) && decide ((s.rd R.sknPgrp 0 m &&& s.rd R.sknPgrp 0 n) ≠ 0#32)) ||
    overlaps (s.poolBase n) (s.poolLen n) (s.poolBase m) (s.poolLen m)

-- -------------------------------------------------------------------------------------------------- egress (R259)

/-- Is SHARED negative on a panel (R248)? -/
def State.sharedNeg (s : State) (p : Nat) : Bool := decide (s.sharedRaw p < 0)

/-- A class that is not strict with WEIGHT 0, on local port `i` (R259). -/
def State.weightBad (s : State) (p i : Nat) : Bool :=
  let sp := s.rf R.egrPcfg p i 0 8
  let w := (s.rd R.egrWgt p i).toNat
  (List.range 8).any fun c => !bit sp c && decide (bits w (4 * c) 4 = 0)

/-- An Ethernet or T1S port of panel `p`. -/
def ethOf (p port : Nat) : Bool := decide (port < 800) && decide (portPanel port = p)

/-- EGR_PCFG of local port `i` (R259). -/
def State.egrPcfgBad (s : State) (p i v : Nat) : Bool :=
  let port := egrPort p i
  let multi := decide (4 ≤ port) && decide (port ≤ 31)
  (!multi && (decide (bits v 12 8 ≠ 0) || bit v 20)) || (decide (800 ≤ port) && (bit v 24 || decide (bits v 0 8 ≠ 0xFF))) || s.weightBad p i || s.sharedNeg p

/-- EGR_CBS word 0 of shaper `q` (R259). -/
def State.cbsBad (s : State) (p q v : Nat) : Bool :=
  bit v 14 && (!ethOf p (bits v 0 11) || (idxs 256 fun r => decide (r ≠ q) && s.rb R.egrCbs0 p r 14).any fun r => decide (s.rf R.egrCbs0 p r 0 14 = bits v 0 14))

/-- EGR_FRER word 0 of entry `q` (R255, R259): PORT is an Ethernet port of either panel, PARTNER one of the other panel. -/
def State.frerBad (s : State) (p q v : Nat) : Bool :=
  let on (x : Nat) : Bool := bit x 14 || bit x 15
  (bit v 14 && bit v 15) || (on v && (decide (800 ≤ bits v 0 11) ||
    (idxs 256 fun r => decide (r ≠ q) && on (s.rd R.egrFrer0 p r).toNat).any fun r => decide (s.rf R.egrFrer0 p r 0 14 = bits v 0 14))) ||
  (on v && bit v 16 && !ethOf (1 - p) (bits v 18 11))

-- --------------------------------------------------------------------------------------- measurement, control (R283)

/-- A time domain whose primary source is GPTP (R280). -/
def State.gptpDom (s : State) (n : Nat) : Bool := !s.domCyclic n && decide (s.srcKind n false = 1)

/-- TIO_PCFG of local pin `j`: its new word is `v` (R283). -/
def State.tioPcfgBad (s : State) (p j v : Nat) : Bool :=
  let m := bits v 0 3
  let mate := s.pinMode (128 * p + (if j % 2 = 0 then j + 1 else j - 1))
  (decide (m = 3) && (decide (j % 2 = 1) || decide (mate ≠ 4))) ||
  (decide (j % 2 = 1) && decide (s.pinMode (128 * p + j) = 4) && decide (m ≠ 4) && decide (mate = 3))

/-- A stream's ring once a word is written (R283). -/
def State.ringBaseBad (s : State) (p st : Nat) : Bool :=
  let z := s.rf R.tioScfg0 p st 1 4
  decide (4 ≤ z) && decide (s.rf R.tioScfg1 p st 0 24 % 2 ^ (z - 4) ≠ 0)

/-- The CAN schedule once a word is written (R280, R281): every enabled entry's OFFSET lies below CYCLE. -/
def State.canSchedBad (s : State) (p : Nat) : Bool :=
  (idxs 256 fun e => s.rb R.tioCsch p e 10).any fun e => decide (s.rf R.tioCcyc p 0 5 20 ≤ s.rf R.tioCsch p e 11 20)

/-- TIO_LPORT of LIN schedule `l` (R280, R282). -/
def State.lportBad (s : State) (p l v : Nat) : Bool :=
  !s.gptpDom (bits v 1 4) || (bit v 0 && (decide (s.portModeOf (960 + 32 * p + l) ≠ 0) || decide (512 < bits v 5 9 + bits v 14 7)))

-- ------------------------------------------------------------------------------------------------- DRAM (R299), host

/-- The DRAM sizes once a word is written (R299). -/
def State.dramBad (s : State) : Bool := decide (4 * s.chanU < s.msize + s.xsize / 2)

/-- HST_RING word 0 (R307, R320). -/
def State.ring0Bad (s : State) (v : Nat) : Bool :=
  let pair := bits v 15 8
  if bits v 1 2 = 0 then decide (s.ringKind pair ≠ 1) || decide (s.ringQp pair ≠ bits v 4 6) else decide (pair ≠ 0)

/-- HST_JRNL (R320): a region of 1 MiB in mirrored DRAM, aligned to its size. -/
def State.jrnlBad (s : State) (v : Nat) : Bool :=
  let a := v * 65536
  let mir (x : Nat) : Bool := match s.devLoc x with | .mirror _ => true | _ => false
  decide (v % 16 ≠ 0) || !mir a || !mir (a + 0xFFFFF)

/-- A transition of HST_QPCTL.STATE that R302 does not allow. -/
def State.qpBad (s : State) (n v : Nat) : Bool := (s.setQpState n (bits v 0 2)).isNone

-- ----------------------------------------------------------------------------------------------------- check 5

/-- The block's own rules (check 5 of R407) for a write of `v`; `t` is the state with the word written. -/
def State.rulesBar (s t : State) (r : RegRef) (v : Nat) : Bool :=
  let p := r.panel
  let i := r.i
  match r.desc.id with
  | .secArbadv => decide (s.md.mode ≠ .service) || (bit v 2 && !s.granted 3) || (bit v 3 && !s.granted 4)
  | .recFsel => decide (262143 < v)
  | .recMon => [0, 1].any fun q => decide (64 < (idxs 128 fun m => t.rb R.recMon 0 m 19 && decide (portPanel (t.rf R.recMon 0 m 0 11) = q)).length)
  | .chrWin => !s.stageReady
  | .tblCfg => t.tblCfgBad i v
  | .sknPcfg => (bit v 0 && t.poolBad i) || t.sharedNeg 0 || t.sharedNeg 1
  | .hstJrnl => s.jrnlBad v
  | .hstMwin0 => bit v 0 && (decide (bits v 2 5 < 16) || decide (30 < bits v 2 5))
  | .hstQpctl => s.qpBad i v
  | .hstRing0 => t.ring0Bad v
  | .hstRing1 => decide (v % 64 ≠ 0)
  | .domCtl => s.domCtlBad i v
  | .domCfg | .domStepth | .domLimit => s.domEn i
  | .prtCfg => s.prtCfgBad i v
  | .npCfg => decide (i % 8 = 0) && bit v 0
  | .canNbt => timingBad v 1000000
  | .canDbt => timingBad v 8000000
  | .canXbt => timingBad v (xlMax (s.portModeOf (800 + i)))
  | .carSub => decide (t.subMax (p * 416 + i) < t.subCount (p * 416 + i))
  | .carSpcfg => decide (bits v 8 24 % 2 ^ (8 + bits v 1 3) ≠ 0)
  | .ndlShare => decide (64 < bits v 0 6 + bits v 6 7)
  | .ndlTvdef => decide (v < 0x200000) || decide (0x300000 ≤ v) || decide (v % 512 ≠ 0)
  | .gtbEnt => laneTwice (v % 65536) || laneTwice (v / 65536)
  | .gtbCbuf => t.bufOver (4 * p + i)
  | .gtbShl => t.shlBad (p * 416 + i) v
  | .gtbShb => t.shbBad (p * 416 + i) v
  | .yrnCfg => (bit v 16 && (bit v 7 || decide (bits v 0 7 ≠ 0))) || t.endsOver (4 * p + i) [bits v 0 7, bits v 8 7]
  | .yrnIcfg => t.endsOver (4 * p + i) [bits v 2 7]
  | .flwIdx => t.flwBad p 0
  | .flwRec => t.flwBad p 1
  | .flwMir => t.flwBad p 2
  | .egrPcfg => t.egrPcfgBad p i v
  | .egrWgt => t.weightBad p i
  | .egrProf | .egrBuf => t.sharedNeg p
  | .egrCbs0 => s.cbsBad p i v
  | .egrCbs1 => decide (v = 0) || decide (s.portRate (s.rf R.egrCbs0 p i 0 11) * 1000 < v)
  | .egrFrer0 => s.frerBad p i v
  | .tioPcfg => s.tioPcfgBad p i v
  | .tioScfg0 | .tioScfg1 => t.ringBaseBad p i
  | .tioCcyc => !s.gptpDom (bits v 1 4) || t.canSchedBad p
  | .tioCsch => t.canSchedBad p
  | .tioLport => s.lportBad p i v
  | .drmMap => (decide (s.part = .ag1) && decide (3 ≤ bits v 6 3)) || t.dramBad
  | .drmMsz => decide (bits v 8 8 % 2 = 1) || t.dramBad
  | .drmQosWm => decide (bits v 0 10 ≤ bits v 10 10)
  | _ => decide (r.desc.blk = .tio) && decide (r.desc.off = 0x200) && bit v 10 && !s.rb R.tioPown p i 10 && !SMap.get s.md.survPins false (128 * p + i)

/-- A field outside its range (check 5 of R407). -/
def RegDesc.outOfRange (d : RegDesc) (v : Nat) : Bool :=
  d.flds.any fun f => f.writable && (decide (bits v f.lo f.w < f.mn) || decide (f.mx < bits v f.lo f.w))

/-- Write word `v` into a register's stored word; DRM_MAP and DRM_MSZ hold one value on both panels (R299). -/
def State.putWord (s : State) (r : RegRef) (v : Nat) : State :=
  let d := r.desc
  let w := w32 (d.newWord (s.rd d r.panel r.i r.j).toNat v)
  match d.id with
  | .drmMap | .drmMsz => (s.setRd d 0 r.i r.j w).setRd d 1 r.i r.j w
  | _ => s.setRd d r.panel r.i r.j w

/-- Check 5 of R407, with the split of R404. -/
def State.rangeBars (s : State) (r : RegRef) (v : Nat) : Bool :=
  let split := decide (r.desc.blk.space = .device) && s.up 0 && s.up 1 && !s.md.bridge && decide (r.desc.id ≠ .chrVcommit)
  split || r.desc.outOfRange v || s.rulesBar (s.putWord r v) r v

/-- The checks of R407. -/
inductive Bar where
  | access | reserved | owner | mode | range
  deriving DecidableEq, Repr

/-- The bit of the set-up error status that a check sets (R407). -/
def Bar.bitOf (b : Blk) : Bar → Nat
  | .access => 3
  | .reserved => 0
  | .owner => if b = .sv then 1 else 2
  | .mode => 2
  | .range => 1

/-- The first check of R407 that a write of `size` bytes at byte `o` of a block fails. -/
def State.judgeWrite (s : State) (who : Writer) (size : Nat) (b : Blk) (p o : Nat) (v : Word) : Option Bar :=
  if size ≠ 4 || o % 4 ≠ 0 then some .access
  else match wordAt b p o with
    | none => some .reserved
    | some r =>
      if r.reserved v.toNat then some .reserved
      else if s.ownerBars who r then some .owner
      else if s.modeBars r v.toNat then some .mode
      else if s.rangeBars r v.toNat then some .range
      else none

/-- Record a discarded write (R407). -/
def State.serr (s : State) (b : Blk) (p o n : Nat) : State :=
  let d := R.serr b
  let w := setBits (setBit (s.rd d p 0).toNat n true) 16 16 (o / 4)
  s.setRd d p 0 0 (w32 w)

end Sys2Proof.Machine
end

