-- ==== Sys2Proof/Machine/RegWrite.lean ====
section
/-! DEFINITION. Register writes (R7, R404–R407): a word that passes its checks takes effect; one that does not is discarded
whole and recorded. The rows of the command table that are register writes stand here. -/

namespace Sys2Proof.Machine

-- ---------------------------------------------------------------------------------------------------------- effects

/-- W1C bits of DOM_STAT (R47), on both copies (R404). -/
def State.clearDomStat (s : State) (n v : Nat) : State :=
  [0, 1].foldl (fun s p =>
    let c := s.dom p n
    s.setDom p n { c with overrate := c.overrate && !bit v 3, lost := c.lost && !bit v 4, stepped := c.stepped && !bit v 5 }) s

/-- A DOM_CTL word takes effect (R32, R45, R47); `t` holds the new word. -/
def State.domCtlEffect (s t : State) (n v : Nat) : State :=
  match s.domEn n, bit v 0 with
  | false, true => t.enableDom n
  | true, false => t.disableDom n
  | true, true => if s.md.mode = .config then t.resumePrimary n else t
  | false, false => t

/-- Ports that stop with a port's EN (R49, R425): a segment port takes its node-ports with it. -/
def stopGroup (p : Nat) : List Nat := if 32 ≤ p && p < 800 && p % 8 = 0 then linkGroup p else [p]

/-- A port that EN = 0 makes DISABLED leaves UP, and its queued frames are dropped (R49, R61). -/
def State.disablePort (s : State) (p : Nat) : State :=
  (stopGroup p).foldl (fun s q =>
    let up := decide (s.linkOf q = .up)
    let s := s.dropQueues q
    if up then { s with swt := { s.swt with wentDown := SMap.set s.swt.wentDown false q true, verified := SMap.set s.swt.verified false q false } }
    else s) s

/-- A pool's registers change (R239): every buffer it held is freed, and an enabled pool starts with all free. -/
def State.remakePool (s : State) (r : RegRef) (v n : Nat) : State :=
  let s := if s.poolEn n then s.resetPool n else s
  let s := s.putWord r v
  if s.poolEn n then s.resetPool n else (s.setPool n {}).setRd R.sknPlow 0 n 0 0#32

/-- NDL_RST (R145, R261): the strand restarts, and it has lost control of its pins. -/
def State.resetStrand (s : State) (t : Nat) : State := (s.restart t).loseOwner t

/-- A pin's mode changes in CONFIG, where every pin drives its safe level (R263). -/
def State.remakePin (s : State) (n : Nat) : State := if s.md.mode = .config then s.safeLevel n else s

/-- TIO_PSTAT bits are cleared by W1C (R262, R283). -/
def State.clearPstat (s : State) (n v : Nat) : State :=
  let s := if bit v 3 then s.clearSafe n else s
  let x := s.pin n
  s.setPin n { x with overrate := x.overrate && !bit v 4, glitch := x.glitch && !bit v 5 }

/-- REC_FSEL (R398): the record comes into REC_FBUF. -/
def State.loadFbuf (s : State) (n : Nat) : State :=
  let bs := s.flashRec n
  let s := (List.range 16).foldl (fun s i => s.setRd R.recFbuf 0 i 0 (w32 (leVal (sliceZ bs (4 * i) 4)))) s
  s.setRd R.recFstat 0 0 0 (w32 (2 * b2n (recValid bs)))

/-- SKN_LOWRST (R239): LOWFREE of the named pools becomes their FREE. -/
def State.lowReset (s : State) (v : Nat) : State :=
  (idxs 32 fun n => bit v n).foldl (fun s n => s.setRd R.sknPlow 0 n 0 (w32 (if s.poolEn n then s.poolFree n else 0))) s

/-- The extended self-test (R384): findings are darned or fenced, and a critical one holds the panel in reset. -/
def State.extTest (s : State) (p : Nat) (found : List (Nat × Nat)) : State :=
  let s := (s.bootUnits p found).testResults p 2 found
  if s.selfCritical p found then s.failPanel p 2 else s

/-- A word that passed every check takes effect. `found` is what an extended self-test finds. -/
def State.takeWord (s : State) (r : RegRef) (v : Nat) (found : List (Nat × Nat)) : State :=
  let p := r.panel
  let i := r.i
  let t := s.putWord r v
  match r.desc.id with
  | .secTokctl =>
    if !bit v 0 then t
    else if s.sec.verifying then { t with sec := { t.sec with last := 2 } }
    else { t with sec := { t.sec with verifying := true } }
  | .secArbadv =>
    let s := if bit v 2 then s.advanceArb (bits v 0 2) else s
    if bit v 3 then s.xferOwner else s
  | .recFlush => if bit v 0 then { s with rcd := { s.rcd with flushDue := true } } else s
  | .recFsel => t.loadFbuf v
  | .chrVcommit => s.commitChart (v % 65536)
  | .chrVabort => if bit v 0 then s.abortChart else s
  | .chrWin => s.setBankW s.stagingSlot r.j (w32 v)
  | .tblCfg | .tblSeed => t.clearTable i
  | .sknPcfg | .sknPgrp | .sknPbase => s.remakePool r v i
  | .sknLowrst => s.lowReset v
  | .hstHcfg => if bit v 2 then t.failBack else t
  | .hstQpctl => (s.setQpState i (bits v 0 2)).getD s
  | .hstRing0 => if bit v 0 && !s.ringEn i then t.enableRing i else t
  | .domCtl => s.domCtlEffect t i v
  | .domStat => s.clearDomStat i v
  | .prtCfg => if s.portEn i && !bit v 0 then (s.disablePort i).putWord r v else t
  | .prtStat => if bit v 2 then { s with swt := { s.swt with wentDown := SMap.set s.swt.wentDown false i false } } else s
  | .ndlRst => s.resetStrand (p * 416 + bits v 0 9)
  | .yrnIcfg => if s.md.mode = .config then { t with yrn := { t.yrn with sev := SMap.set t.yrn.sev false ((4 * p + i) * 16 + r.j) false } } else t
  | .flwSeed | .flwIdx | .flwRec => t.emptyStash p
  | .egrPsf => { t with swt := { t.swt with blocked := SMap.set t.swt.blocked false (p * 256 + i) false } }
  | .tioScfg0 => if bit v 0 then { t with tio := { t.tio with seq := SMap.del t.tio.seq (p * 16 + i) } } else t
  | .tioPcfg => t.remakePin (128 * p + i)
  | .tioPstat => s.clearPstat (128 * p + i) v
  | .swtExt => if bit v 0 then s.extTest p found else s
  | _ => t

-- ----------------------------------------------------------------------------------------------------------- writes

/-- A word that passed every check, with MOD_CMD, which the mode controller may refuse as DENIED (R333, R334), and CFG_DIGEST
(R355): was it discarded, and the state. -/
def State.applyWord (s : State) (who : Writer) (b : Blk) (p o : Nat) (v : Word) (found : List (Nat × Nat)) : Bool × State :=
  match wordAt b p o with
  | none => (true, s)
  | some r =>
    if r.desc.id = .modCmd then
      let (ok, s') := (s.extendDigest (b.addr p o) v).modeCommand (bits v.toNat 0 4) (decide (who = .selvage))
      if ok then (false, s')
      else (true, (({ s' with sec := s.sec })).serr b p o 1)
    else (false, (s.extendDigest (b.addr p o) v).takeWord r v.toNat found)

/-- A word that failed a check of R407 is recorded. -/
def State.discardWord (s : State) (b : Blk) (p o : Nat) (x : Bar) : State := s.serr b p o (x.bitOf b)

/-- Does a write by the host reach the register space (R406)? In BOOT, SLEEP and OFF there is no path, and in LIMP REG_WRITE
is denied. -/
def State.hostPath (s : State) : Bool :=
  match s.md.mode with
  | .config | .run | .degraded | .service => true
  | .off | .boot | .limp | .sleep => false

/-- Can a writer's write reach the block (R405, R406)? -/
def State.canWrite (s : State) (who : Writer) (a : Nat) : Bool :=
  decide (s.md.mode ≠ .off) && !s.cutOff a && (decide (who = .selvage) || s.hostPath)

/-- Both writes of a collision pass their checks (R7, R329, R407): of two writes of MOD_CMD the Selvage master's stands and the host's is
recorded as DENIED (R21, R334); otherwise SV_OWN decides, and the loser is recorded with the bit of
check 4 once the winner has taken effect, so that a winning W1C of the status itself leaves the record standing. Answers whether the host's write was discarded, and whether the Selvage write was. -/
def State.resolve (s : State) (b : Blk) (p o : Nat) (h v : Word) (found : List (Nat × Nat)) : Bool × Bool × State :=
  let mode : Bool := match wordAt b p o with | some r => decide (r.desc.id = .modCmd) | none => false
  if mode then
    let (x, s) := s.applyWord .selvage b p o v found
    (true, x, s.serr b p o 1)
  else if s.owner b p = 0 then
    let (x, s) := s.applyWord .host b p o h found
    (x, true, s.discardWord b p o .mode)
  else
    let (x, s) := s.applyWord .selvage b p o v found
    (true, x, s.discardWord b p o .mode)

/-- A write of a register word (R402, R405–R407): was it discarded, and the state. `rival` is a write of the other party's that
reaches the same register in the same cycle (R7). -/
def State.writeWord (s : State) (who : Writer) (size a : Nat) (v : Word) (rival : Option Word := none) (found : List (Nat × Nat) := []) : Bool × State :=
  if !s.canWrite who a then (true, s)
  else match blockAt a with
    | none => (true, s)
    | some (b, p, o) =>
      let j := s.judgeWrite who size b p o v
      let other : Writer := if who = .host then .selvage else .host
      let alone (s : State) (j : Option Bar) (who : Writer) (v : Word) : Bool × State :=
        match j with
        | none => s.applyWord who b p o v found
        | some x => (true, s.discardWord b p o x)
      match (if s.canWrite other a then rival else none) with
      | none => alone s j who v
      | some w =>
        let k := s.judgeWrite other 4 b p o w
        let jh := if who = .host then j else k
        let js := if who = .host then k else j
        let h := if who = .host then v else w
        let e := if who = .host then w else v
        if jh.isNone && js.isNone then
          let (x, y, s) := s.resolve b p o h e found
          (if who = .host then x else y, s)
        else
          let (x, s) := alone s jh .host h
          let (y, s) := alone s js .selvage e
          (if who = .host then x else y, s)

/-- Writes of consecutive words, with the other party's writes that collide with them (R7): the result mask (bit i where word i was
discarded) and the state. -/
def State.writeWords (s : State) (who : Writer) (a : Nat) (rivals : List (Option Word) := []) : Nat → List Word → Nat × State
  | _, [] => (0, s)
  | i, v :: l =>
    let (x, s) := s.writeWord who 4 a v (rivals.getD i none)
    let (m, s) := s.writeWords who (a + 4) rivals (i + 1) l
    (m + b2n x * 2 ^ i, s)

-- ------------------------------------------------------------------------------------------------------------- rows

/-- REGISTER_WRITE (R407). -/
def execRegisterWrite (a : RegAcc) (s : State) : Host.Outcome State Fault Refusal :=
  .next (s.writeWord a.who a.size a.addr a.val a.rival).2

/-- A write of the word that a row of the table names. -/
def State.rowWrite (s : State) (w : WrIn) (d : RegDesc) (p i : Nat) (v : Word) (found : List (Nat × Nat) := []) : State :=
  (s.writeWord w.who 4 (d.addr p i) v w.rival found).2

/-- DOMAIN_ENABLE (R32, R47). -/
def execDomainEnable (w : WrIn) (n : Nat) (val : Word) (s : State) : Host.Outcome State Fault Refusal :=
  .next (s.rowWrite w R.domCtl 0 (n % 16) val)

/-- DOMAIN_DISABLE (R45, R47). -/
def execDomainDisable (w : WrIn) (n : Nat) (val : Word) (s : State) : Host.Outcome State Fault Refusal :=
  .next (s.rowWrite w R.domCtl 0 (n % 16) val)

/-- PRIMARY_RESUME (R47). -/
def execPrimaryResume (w : WrIn) (n : Nat) (val : Word) (s : State) : Host.Outcome State Fault Refusal :=
  .next (s.rowWrite w R.domCtl 0 (n % 16) val)

/-- CHART_COMMIT (R92). -/
def execChartCommit (w : WrIn) (val : Word) (s : State) : Host.Outcome State Fault Refusal :=
  .next (s.rowWrite w R.chrVcommit 0 0 val)

/-- CHART_ABORT (R94). -/
def execChartAbort (w : WrIn) (val : Word) (s : State) : Host.Outcome State Fault Refusal :=
  .next (s.rowWrite w R.chrVabort 0 0 val)

/-- NDL_RST (R145, R149). -/
def execNdlRst (w : WrIn) (panel : Nat) (val : Word) (s : State) : Host.Outcome State Fault Refusal :=
  .next (s.rowWrite w R.ndlRst (panel % 2) 0 val)

/-- SAFE_CLEAR (R262). -/
def execSafeClear (w : WrIn) (pin : Nat) (val : Word) (s : State) : Host.Outcome State Fault Refusal :=
  .next (s.rowWrite w R.tioPstat (pin / 128 % 2) (pin % 128) val)

/-- QP_STATE_WRITE (R302). -/
def execQpStateWrite (w : WrIn) (qp : Nat) (val : Word) (s : State) : Host.Outcome State Fault Refusal :=
  .next (s.rowWrite w R.hstQpctl 0 (qp % 64) val)

/-- RING_ENABLE (R307). -/
def execRingEnable (w : WrIn) (ring : Nat) (val : Word) (s : State) : Host.Outcome State Fault Refusal :=
  .next (s.rowWrite w R.hstRing0 0 (ring % 256) val)

/-- FAILBACK (R305). -/
def execFailback (w : WrIn) (val : Word) (s : State) : Host.Outcome State Fault Refusal :=
  .next (s.rowWrite w R.hstHcfg 0 0 val)

/-- ATTN_CLEAR (R330). -/
def execAttnClear (w : WrIn) (val : Word) (s : State) : Host.Outcome State Fault Refusal :=
  .next (s.rowWrite w R.svAttn 0 0 val)

/-- MOD_CMD_WRITE (R333). -/
def execModCmdWrite (w : WrIn) (val : Word) (s : State) : Host.Outcome State Fault Refusal :=
  .next (s.rowWrite w R.modCmd 0 0 val)

/-- TOKEN_GO (R353). -/
def execTokenGo (w : WrIn) (val : Word) (s : State) : Host.Outcome State Fault Refusal :=
  .next (s.rowWrite w R.secTokctl 0 0 val)

/-- ARB_ADVANCE (R353). -/
def execArbAdvance (w : WrIn) (val : Word) (s : State) : Host.Outcome State Fault Refusal :=
  .next (s.rowWrite w R.secArbadv 0 0 val)

/-- OWNER_XFER (R353). -/
def execOwnerXfer (w : WrIn) (val : Word) (s : State) : Host.Outcome State Fault Refusal :=
  .next (s.rowWrite w R.secArbadv 0 0 val)

/-- EXTENDED_SELFTEST (R384). -/
def execExtendedSelftest (w : WrIn) (panel : Nat) (val : Word) (found : List (Nat × Nat)) (s : State) : Host.Outcome State Fault Refusal :=
  .next (s.rowWrite w R.swtExt (panel % 2) 0 val found)

/-- FLUSH_GO (R394). -/
def execFlushGo (w : WrIn) (val : Word) (s : State) : Host.Outcome State Fault Refusal :=
  .next (s.rowWrite w R.recFlush 0 0 val)

/-- REC_FSEL_WRITE (R398). -/
def execRecFselWrite (w : WrIn) (val : Word) (s : State) : Host.Outcome State Fault Refusal :=
  .next (s.rowWrite w R.recFsel 0 0 val)

/-- LOWRST (R239). -/
def execLowrst (w : WrIn) (val : Word) (s : State) : Host.Outcome State Fault Refusal :=
  .next (s.rowWrite w R.sknLowrst 0 0 val)

end Sys2Proof.Machine
end

