-- ==== Sys2Proof/Machine/HostTbl.lean ====
section
/-! DEFINITION. Commands of a ring (R309–R312), and the table and flow commands (R91, R196, R200, R206, R209, R224, R226,
R314). -/

namespace Sys2Proof

/-- A field of a command entry (R310, R314) by its byte offset, little-endian. -/
def CmdIn.p (c : CmdIn) (o n : Nat) : Nat := Machine.leVal (Machine.sliceZ c.payload (o - 16) n)

/-- Bytes of the extension; those of an extension that is absent count as zero. -/
def CmdIn.x (c : CmdIn) (o n : Nat) : List Byte := if c.long then Machine.sliceZ c.ext o n else List.replicate n 0#8

/-- Are payload bytes `o` to `o + n - 1` zero? -/
def CmdIn.pz (c : CmdIn) (o n : Nat) : Bool := (Machine.sliceZ c.payload (o - 16) n).all fun b => decide (b = 0#8)

/-- Are extension bytes `o` to the end zero? -/
def CmdIn.xz (c : CmdIn) (o : Nat) : Bool := (c.x o (64 - o)).all fun b => decide (b = 0#8)

/-- The 48 key bytes of a table command. -/
def CmdIn.key (c : CmdIn) : List Byte := Machine.sliceZ c.payload 16 32 ++ c.x 0 16

/-- A command other than WORK has a LIST that is not zero, which is reserved (R310). -/
def CmdIn.listBad (c : CmdIn) : Bool := decide (c.list ≠ 0#10)

/-- Ring entries a command occupies (R309). -/
def CmdIn.entries (c : CmdIn) : Nat := if c.long then 2 else 1

/-- The data words of a command. -/
def CmdIn.words (c : CmdIn) (n : Nat) : List Word := (List.range n).map fun i => Machine.w32 (c.p (24 + 4 * i) 4)

end Sys2Proof

namespace Sys2Proof.Machine

-- ------------------------------------------------------------------------------------------------ the command queue

/-- May a command of ring `r` start (R309): the ring is an enabled command ring on a QP in RTS, its entries have been fetched, and
with FENCE = 1 every earlier command of the ring has completed? -/
def State.mayStart (s : State) (r : Nat) (c : CmdIn) : Bool :=
  let g := s.ring r
  s.ringEn r && decide (s.ringKind r = 0) && s.qpOpen (s.ringQp r) && decide (c.entries ≤ g.ready) && (!c.fence || decide (g.inflight = g.ready))

/-- A command starts: its entries leave those that are ready, and a journal record follows it (R315). Answers the number of the
record. -/
def State.startCmd (s : State) (r op : Nat) (c : CmdIn) : Nat × State :=
  let g := s.ring r
  let n := c.entries
  let h := s.hst
  let j : JRec := { ring := r, index := g.started, seq := c.seq.toNat, tag := c.tag.toNat, opcode := op, list := c.list.toNat, payload := c.payload }
  let s := { s with hst := { h with jrnl := SMap.put h.jrnl h.nextRec j, nextRec := h.nextRec + 1 } }
  (h.nextRec, s.setRing r { g with ready := g.ready - n, inflight := g.inflight - (n - 1), started := (g.started + n) % 4294967296, expSeq := some (g.expSeq.getD c.seq.toNat) })

/-- A command that a check of R312 ends: its SEQ is not consumed. -/
def State.refuseCmd (s : State) (rec status : Nat) (result : List Byte) : State :=
  match SMap.find s.hst.jrnl rec with
  | none => s
  | some j => ({ s with hst := { s.hst with jrnl := SMap.put s.hst.jrnl rec { j with consumed := false } } }).finish rec status result

/-- The commands that execute in LIMP (R340). -/
def limpCmd (op : Nat) : Bool := decide (op = 0) || decide (op = 0x21) || decide (op = 0x22) || decide (op = 0x24)

/-- The checks of R312 in their order; then the command executes, with its journal record. -/
def State.command (s : State) (op : Nat) (c : CmdIn) (rsv : Bool) (run : Nat → State → State) : Host.Outcome State Fault Refusal :=
  let r := c.ring % 256
  if !s.mayStart r c then .next s
  else
    let (rec, s) := s.startCmd r op c
    let seq := c.seq.toNat
    let exp := (s.ring r).expSeq.getD 0
    if rsv || decide (c.rsv ≠ 0#6) || decide (c.rsv2 ≠ 0#6) then .next (s.refuseCmd rec 0x12 [])
    else if idxBehind seq exp then
      .next (s.refuseCmd rec 0x0F [match SMap.get s.hst.seqs 0 (r * 2 ^ 32 + seq) with | 0 => 0xFF#8 | k + 1 => BitVec.ofNat 8 k])
    else if seq ≠ exp then .next (s.refuseCmd rec 0x0E [])
    else
      let s := s.setRing r { s.ring r with expSeq := some ((seq + 1) % 4294967296) }
      if s.md.mode = .limp && !limpCmd op then .next (s.finish rec 0x0B [])
      else .next (run rec s)

-- ----------------------------------------------------------------------------------------------------------- tables

/-- Reserved fields of an action record (R87). -/
def actionBad (d : Nat) : Bool :=
  decide (bits d 6 2 ≠ 0) || decide (bits d 56 8 ≠ 0) || actLoBad d

/-- Reserved fields of the data word of an L2 command (R201, R314). -/
def l2DataBad (d : Nat) : Bool := decide (1152 ≤ l2Port d) || decide (bits d 12 4 ≠ 0)

/-- Key bytes beyond the table's width are reserved, and those of an L2 VID; a table of kind NONE has none (R314, R201). -/
def keyBad (kind : Nat) (key : List Byte) : Bool :=
  decide (kind ≠ 0) && ((key.drop (keyWidth kind)).any fun b => decide (b ≠ 0#8)) || (decide (kind = 6) && decide (16 ≤ (byteAt key 7).toNat))

/-- The reserved fields of a table command (R312, R314). -/
def State.tblRsv (s : State) (o : TblOp) (c : CmdIn) : Bool :=
  let n := c.p 16 1 % 64
  let k := s.tblKind n
  let plen := c.p 17 1
  let d := c.p 24 8
  c.listBad || bit (c.p 16 4) 7 || decide (c.p 18 2 ≠ 0) || !c.pz 20 4 || !c.xz 16 || keyBad k c.key ||
  (if k = 4 || k = 5 then
      decide (lpmBits k < plen) || decide (beVal (c.key.take (keyWidth k)) % 2 ^ (lpmBits k - plen) ≠ 0)
    else decide (plen ≠ 0)) ||
  (if o = .delete then decide (d ≠ 0)
    else (isEm k && s.tblRule n && actionBad d) || (decide (k = 6) && l2DataBad d))

/-- The staging entry of a key loses bit S, and goes if no bit is left (R91). -/
def dropBit (st : Nat) (e : TblEntry) : Option TblEntry :=
  let m := setBit e.vmask st false
  if m = 0 then none else some { e with vmask := m }

/-- A staged operation on an exact-match table (R91). A modify completes once both copies of both entries it writes are written (R190). -/
def State.stagedEm (s : State) (o : TblOp) (rec n : Nat) (key : List Byte) (data : Nat) : State :=
  let st := s.stagingSlot
  let here := s.homeFind 0 n key fun e => decide (e.vmask ≠ 15) && bit e.vmask st
  let fresh : TblEntry := { key := key, vmask := 2 ^ st, data := data }
  match o, here with
  | .insert, some _ => s.finish rec 0x01 []
  | .insert, none =>
    if (s.homeFind 0 n key fun e => decide (e.vmask = 15)).isSome then s.finish rec 0x01 [] else s.insertEnt rec n fresh
  | _, none => s.finish rec 0x02 []
  | .delete, some (h, e) => s.putEnt (s.tblHome 0 (hIdx h)) h (dropBit st e) (some rec) (handleBytes h)
  | .modify, some (h, e) =>
    let home := s.tblHome 0 (hIdx h)
    let t := s.putEnt home h (dropBit st e)
    match t.tblPlace (t.tblHome 0 (t.tblBucket n key)) n key with
    | none => s.finish rec 0x03 []
    | some g => (if s.joined then s.putEnt home h (dropBit st e) (some rec) (handleBytes g) else t).insertEnt rec n fresh

/-- Prefixes of a family under the CURRENT roots (R199). -/
def State.familyUse (s : State) (k : Nat) : Nat :=
  sumN ((idxs 64 fun n => decide (s.tblKind n = k)).map fun n => (s.prefixes n (s.chr.curGen % 4)).length)

/-- The prefixes changed under STAGING, with one more (R199): each counts once. -/
def State.lpmTouch (s : State) (n plen addr : Nat) : List (Nat × Nat × Nat) :=
  if (n, plen, addr) ∈ s.tbl.lpmChg then s.tbl.lpmChg else (n, plen, addr) :: s.tbl.lpmChg

/-- A staged operation on an LPM table (R199, R200). The prefixes under the CURRENT roots and the staged changes have room of their
own, so that only an add beside CURRENT roots that hold too many is refused for them (log entry 94). -/
def State.stagedLpm (s : State) (o : TblOp) (rec n plen addr data : Nat) : State :=
  let st := s.stagingSlot
  let k := s.tblKind n
  let l := s.prefixes n st
  let mine (p : Prefix) : Bool := decide (p.len = plen) && decide (p.addr = addr)
  let rest := l.filter fun p => !mine p
  let put (x : List Prefix) : State :=
    ({ s with tbl := { s.tbl with lpm := SMap.set s.tbl.lpm [] (n * 4 + st) x, lpmChg := s.lpmTouch n plen addr } }).finish rec 0 []
  let noRoom := decide (4096 < (s.lpmTouch n plen addr).length)
  match o with
  | .insert =>
    if l.any mine then s.finish rec 0x01 []
    else if noRoom || decide ((if k = 4 then 262144 else 65536) < s.familyUse k) then s.finish rec 0x03 []
    else put (rest ++ [{ len := plen, addr := addr, data := data }])
  | _ =>
    if !l.any mine then s.finish rec 0x02 []
    else if noRoom then s.finish rec 0x03 []
    else put (if o = .delete then rest else rest ++ [{ len := plen, addr := addr, data := data }])

/-- Is the engine of a table fenced on a panel in service (R314)? -/
def State.engFenced (s : State) (n : Nat) : Bool := [0, 1].any fun p => s.up p && !s.tblOk p n

/-- TBL_INSERT, TBL_DELETE and TBL_MODIFY (R314): NO_TABLE, FENCED and NOT_READY come before the outcomes of R91, R196 and R200. -/
def State.tblRun (s : State) (o : TblOp) (staged : Bool) (c : CmdIn) (rec : Nat) : State :=
  let n := c.p 16 1 % 64
  let k := s.tblKind n
  let key := c.key.take (keyWidth k)
  let data := c.p 24 8
  let lpm := decide (k = 4) || decide (k = 5)
  if k = 0 || k = 7 || (lpm && !staged) || (decide (k = 6) && staged) then s.finish rec 0x05 []
  else if s.engFenced n then s.finish rec 0x13 []
  else if s.split || (staged && !s.stageReady) then s.finish rec 0x04 []
  else if lpm then s.stagedLpm o rec n (c.p 17 1) (beVal key) data
  else if staged then s.stagedEm o rec n key data
  else if k = 6 && s.l2Waits n (s.tblBucket n key) then
    s.queueL2 n key (match o with | .insert => .insert rec key data | .delete => .delete rec key | .modify => .modify rec key data)
  else s.unversioned o rec n key data

/-- A table command (R91, R196, R200). Its row says whether it is staged. -/
def State.tblCommand (s : State) (op : Nat) (o : TblOp) (staged : Bool) (c : CmdIn) : Host.Outcome State Fault Refusal :=
  s.command op c (s.tblRsv o c) fun rec s => s.tblRun o staged c rec

/-- TBL_INSERT, staged (R91). -/
def execStagedInsert (c : CmdIn) (s : State) : Host.Outcome State Fault Refusal := s.tblCommand 0x01 .insert true c
/-- TBL_INSERT, unversioned (R91). -/
def execUnversionedInsert (c : CmdIn) (s : State) : Host.Outcome State Fault Refusal := s.tblCommand 0x01 .insert false c
/-- TBL_DELETE, staged (R91). -/
def execStagedDelete (c : CmdIn) (s : State) : Host.Outcome State Fault Refusal := s.tblCommand 0x02 .delete true c
/-- TBL_DELETE, unversioned (R196). -/
def execUnversionedDelete (c : CmdIn) (s : State) : Host.Outcome State Fault Refusal := s.tblCommand 0x02 .delete false c
/-- TBL_MODIFY, staged (R91). -/
def execStagedModify (c : CmdIn) (s : State) : Host.Outcome State Fault Refusal := s.tblCommand 0x03 .modify true c
/-- TBL_MODIFY, unversioned (R196, R206). -/
def execUnversionedModify (c : CmdIn) (s : State) : Host.Outcome State Fault Refusal := s.tblCommand 0x03 .modify false c

/-- The reserved fields of TBL_CDELETE (R209, R314). -/
def State.cdelRsv (s : State) (c : CmdIn) : Bool :=
  let w := c.p 16 4
  c.listBad || decide (bits w 6 10 ≠ 0) || decide (bits w 24 8 ≠ 0) || decide (bits (c.p 20 4) 25 7 ≠ 0) || !c.pz 24 8 || !c.xz 16 ||
  keyBad (s.tblKind (w % 64)) c.key

/-- Checks 2 and on of a conditional delete (R209); the last are made at the home panel (R210). -/
def State.cdelRun (s : State) (c : CmdIn) (rec : Nat) : State :=
  let w := c.p 16 4
  let n := w % 64
  let k := s.tblKind n
  let h := c.p 20 4
  if !((isEm k || decide (k = 6)) && s.tblAge n) then s.finish rec 0x05 []
  else if s.engFenced n then s.finish rec 0x13 []
  else if s.split then s.finish rec 0x04 []
  else if hTable h ≠ n then s.finish rec 0x02 []
  else
    let key := c.key.take (keyWidth k)
    let d : CdelReq := { jrec := rec, handle := h, key := key, hitgen := bits w 16 8 }
    if k = 6 && s.l2Waits n (s.tblBucket n key) then s.queueL2 n key (.cdelete d) else s.startCdelete s.hostPanel d

/-- TBL_CDELETE (R209). -/
def execTblCdelete (c : CmdIn) (s : State) : Host.Outcome State Fault Refusal :=
  s.command 0x04 c (s.cdelRsv c) fun rec s => s.cdelRun c rec

-- ------------------------------------------------------------------------------------------------------ flow records

/-- The kinds of flow commands. -/
inductive FlowCmd where
  | insert | delete | write | read | setms
  deriving DecidableEq, Repr

/-- The reserved fields of a flow command (R314): P16 beyond those the command uses, the index without BYIDX, and the key with it. -/
def flowRsv (o : FlowCmd) (c : CmdIn) : Bool :=
  let w := c.p 16 4
  let byIdx := bit w 1
  let acc := decide (o = .write) || decide (o = .read)
  c.listBad || decide (bits w 2 30 ≠ (if o = .setms then bits w 2 1 else 0)) || (decide (o = .insert) && byIdx) ||
  (if byIdx then decide (bits (c.p 20 4) 25 7 ≠ 0) else !c.pz 20 4) || !c.xz (if byIdx then 0 else 48) ||
  (if acc then bit (c.p 24 4) 7 || decide (bits (c.p 24 4) 16 16 ≠ 0) else !c.pz 24 4) || !c.pz 28 4 || (decide (o ≠ .write) && !c.pz 32 32)

/-- A host flow command changes a record's state area (R224): the index entry is written, the version rises by one, and the
mirror follows. -/
def State.hostTouch (s : State) (p ridx : Nat) (f : List Byte → List Byte) : State :=
  let (n, s) := s.loadCtx p ridx
  let c := s.ctx p n
  let v := (c.ver + 1) % 2 ^ 24
  let s := s.setCtx p n { c with data := c.data.take 48 ++ f (c.data.drop 48), ver := v, state := .dirty }
  let s := match s.entryOf p ridx with
    | some (l, e) => s.setEntry p l { e with ver := v }
    | none => s
  s.mirrorRec p ridx

/-- FLAGS bit 0 of a state area (R214). -/
def withMs (ms : Bool) (st : List Byte) : List Byte := st.set 76 ((byteAt st 76 &&& 0xFE#8) ||| BitVec.ofNat 8 (b2n ms))

/-- The record a flow command names: by index, or by a lookup of its key (R219). -/
def State.flowNamed (s : State) (p : Nat) (c : CmdIn) : Option Nat × State :=
  if bit (c.p 16 4) 1 then
    let i := c.p 20 4 % 2 ^ 25
    (if s.flwEn p && s.hasRecord p i && s.devOk p (s.recAddr p i) 128 then some i else none, s)
  else if !s.flwEn p then (none, s)
  else
    let (r, s) := s.flowLookup p (c.x 0 48)
    (r.map fun x => x.1.ridx x.2, s)

/-- FLOW_INSERT by the host (R224): the record comes into being with a zero state area, and an ABSENCE context of the key becomes
its context (R222). -/
def State.flowInsert (s : State) (p : Nat) (c : CmdIn) (rec : Nat) : State :=
  let key := c.x 0 48
  let (found, s) := s.flowNamed p c
  if found.isSome then s.finish rec 0x01 []
  else
    let (r, s) := s.reserve p key
    match r with
    | none => s.finish rec 0x07 []
    | some (l, i) =>
      let s := s.makeRecord p l i key
      let s := match s.ctxOfKey p key with
        | some n => if decide ((s.ctx p n).state = CtxState.absence) then s.setCtx p n { state := .clean, ridx := i, ver := 0, data := key ++ List.replicate 80 0#8 } else s
        | none => s
      (s.hostTouch p i id).finish rec 0 (leBytes 4 i)

/-- FLOW_SETMS (R226). -/
def State.flowSetMs (s : State) (p i rec : Nat) (ms : Bool) : State :=
  let had := match s.entryOf p i with | some (_, e) => e.ms | none => false
  match if ms && !had then s.allocMirror p i else some (if ms then s else s.freeMirror p i) with
  | none => s.finish rec 0x08 []
  | some s => ((s.setMs p i ms).hostTouch p i (withMs ms)).finish rec 0 []

/-- A flow command (R224, R226, R314): FENCED where its panel is lost or over a failed bridge (log entry 93), then RANGE, then the record it names. -/
def State.flowRun (s : State) (o : FlowCmd) (c : CmdIn) (rec : Nat) : State :=
  let p := b2n (bit (c.p 16 4) 0)
  let off := bits (c.p 24 4) 0 7
  let len := c.p 25 1
  if !s.reach s.hostPanel p then s.finish rec 0x13 []
  else if (decide (o = .write) || decide (o = .read)) && (len = 0 || decide (32 < len) || decide (80 < off + len)) then s.finish rec 0x09 []
  else if o = .insert then s.flowInsert p c rec
  else
    let (r, s) := s.flowNamed p c
    match r with
    | none => s.finish rec 0x02 []
    | some i => match o with
      | .delete => (s.deleteRecord p i).finish rec 0 []
      | .write => (s.hostTouch p i fun st => putState st (sliceZ c.payload 16 len) off).finish rec 0 []
      | .setms => s.flowSetMs p i rec (bit (c.p 16 4) 2)
      | _ => s.finish rec 0 (leBytes 4 i ++ leBytes 4 (s.recVer p i % 2 ^ 24) ++ sliceZ (s.recState p i) off len)

/-- A flow command. -/
def State.flowCommand (s : State) (op : Nat) (o : FlowCmd) (c : CmdIn) : Host.Outcome State Fault Refusal :=
  s.command op c (flowRsv o c) fun rec s => s.flowRun o c rec

/-- FLOW_INSERT by the host (R224). -/
def execHostFlowInsert (c : CmdIn) (s : State) : Host.Outcome State Fault Refusal := s.flowCommand 0x10 .insert c
/-- FLOW_DELETE by the host (R224). -/
def execHostFlowDelete (c : CmdIn) (s : State) : Host.Outcome State Fault Refusal := s.flowCommand 0x11 .delete c
/-- FLOW_WRITE (R224). -/
def execFlowWrite (c : CmdIn) (s : State) : Host.Outcome State Fault Refusal := s.flowCommand 0x12 .write c
/-- FLOW_READ by the host (R224). -/
def execHostFlowRead (c : CmdIn) (s : State) : Host.Outcome State Fault Refusal := s.flowCommand 0x13 .read c
/-- FLOW_SETMS (R226). -/
def execFlowSetms (c : CmdIn) (s : State) : Host.Outcome State Fault Refusal := s.flowCommand 0x14 .setms c

end Sys2Proof.Machine
end

