-- ==== Sys2Proof/Machine/HostCmd.lean ====
section
/-! DEFINITION. The other commands of a ring (R314): bindings (R57), statistics (R411), register access (R5, R405, R407),
modes (R333), keys (R354), WORK (R100, R103) and TX_FRAME (R306). -/

namespace Sys2Proof.Machine

/-- NOP (R314): OK. A reserved OPCODE completes with RESERVED_FIELD (R9); an entry with a defined one is another row's and changes
nothing here (log entry 86). -/
def execNop (x : OpCmd) (s : State) : Host.Outcome State Fault Refusal :=
  let c := x.cmd
  if x.op ≠ 0#8 && ringOps.contains x.op.toNat then .next s
  else s.command x.op.toNat c (decide (x.op ≠ 0#8) || c.listBad || !c.pz 16 48 || !c.xz 0) fun rec s => s.finish rec 0 []

/-- BIND_SET (R57, R314): the two source-address slots of a node-port, written together. -/
def State.bindRun (s : State) (c : CmdIn) (rec : Nat) : State :=
  let w := c.p 16 4
  let n := bits w 0 11
  let a (i : Nat) : Option Nat := if bit w (11 + i) then some (c.p (24 + 8 * i) 6) else none
  let addrs := (a 0).toList ++ (a 1).toList
  if n < 32 || 800 ≤ n || (n - 32) % 8 = 0 || addrs.any fun x => bit x 0 then s.finish rec 0x09 []
  else if addrs.any fun x => (s.boundElse n x).isSome then s.finish rec 0x01 []
  else ((s.setBound n 0 (a 0)).setBound n 1 (a 1)).finish rec 0 []

/-- BIND_SET (R57). -/
def execBindSet (c : CmdIn) (s : State) : Host.Outcome State Fault Refusal :=
  s.command 0x20 c (c.listBad || decide (bits (c.p 16 4) 13 19 ≠ 0) || decide (1152 ≤ bits (c.p 16 4) 0 11) || !c.pz 20 4 || !c.pz 30 2 || !c.pz 38 26 || !c.xz 0) fun rec s => s.bindRun c rec

-- ------------------------------------------------------------------------------------------------------- statistics

/-- The counter sets of R411: instances and counters of each. -/
def ctrSet (set : Nat) : Nat × Nat :=
  match set with
  | 1 => (9216, 6) | 2 => (1024, 17) | 3 => (2, 54) | 4 => (104, 7) | 5 => (8, 4) | 6 => (43, 1) | 7 => (32, 6) | 8 => (512, 3)
  | 9 => (512, 3) | 0xA => (32, 1) | 0xB => (256, 2) | 0xC => (32, 2) | 0xD => (16, 1) | 0xE => (4, 1) | 0xF => (8, 4) | 0x10 => (64, 2)
  | 0x11 => (1, 5) | _ => (0, 0)

/-- Zero counters of an instance (R411). -/
def State.clearCtrs (s : State) (set inst first n : Nat) : State :=
  { s with ctrs := (List.range n).foldl (fun (m : SMap Word) i => SMap.set m 0#32 (ctrKey set inst (first + i)) 0#32) s.ctrs }

/-- STATS (R314, R411): the counters read, and with CLEAR zeroed in the same step. Those of a panel not in service, or over a
failed bridge (R12, log entry 93), read as zero and stand. -/
def State.statsRun (s : State) (c : CmdIn) (rec : Nat) : State :=
  let set := c.p 16 2
  let inst := c.p 18 2
  let first := c.p 20 1
  let n := bits (c.p 20 4) 8 4
  let lim := ctrSet set
  if lim.1 ≤ inst || n = 0 || 8 < n || lim.2 < first + n then s.finish rec 0x09 []
  else
    let live := match s.ctrPanel set inst with | some p => s.reach s.hostPanel p | none => true
    let vals := (List.range n).flatMap fun i => leBytes 4 (if live then (s.ctr set inst (first + i)).toNat else 0)
    let s := if live && bit (c.p 20 4) 12 then s.clearCtrs set inst first n else s
    s.finish rec 0 vals

/-- STATS (R411). -/
def execStats (c : CmdIn) (s : State) : Host.Outcome State Fault Refusal :=
  s.command 0x21 c (c.listBad || decide (bits (c.p 20 4) 13 19 ≠ 0) || !c.pz 24 40 || !c.xz 0) fun rec s => s.statsRun c rec

-- -------------------------------------------------------------------------------------------------- register access

/-- A read of 32 bits at any address (R5): one that is not aligned returns zero and is recorded as ACCESS. -/
def State.readAny (s : State) (via a : Nat) : Word × State :=
  if a % 4 = 0 then s.readReg via a
  else (0#32, match blockAt a with | some (b, p, o) => s.discardWord b p o .access | none => s)

/-- Reads of consecutive words. -/
def State.readMany (s : State) (via a : Nat) : Nat → List Word × State
  | 0 => ([], s)
  | n + 1 =>
    let (v, s) := s.readAny via a
    let (l, s) := s.readMany via (a + 4) n
    (v :: l, s)

/-- Does any of `n` words from an address lie in a part that cannot be reached (R326, R405)? -/
def State.spanCut (s : State) (a n : Nat) : Bool := (List.range n).any fun i => s.cutOff (a + 4 * i)

/-- Bytes of words. -/
def wordBytes (l : List Word) : List Byte := l.flatMap fun v => leBytes 4 v.toNat

/-- REG_READ (R5, R405). -/
def State.regReadRun (s : State) (c : CmdIn) (rec : Nat) : State :=
  let a := c.p 16 4
  let n := c.p 20 4
  if n = 0 || 8 < n then s.finish rec 0x09 []
  else if s.spanCut a n then s.finish rec 0x13 []
  else
    let (l, s) := s.readMany s.hostPanel a n
    s.finish rec 0 (wordBytes l)

/-- REG_READ (R314). -/
def execRegRead (c : CmdIn) (s : State) : Host.Outcome State Fault Refusal :=
  s.command 0x22 c (c.listBad || decide (bits (c.p 20 4) 4 28 ≠ 0) || !c.pz 24 40 || !c.xz 0) fun rec s => s.regReadRun c rec

/-- REG_WRITE (R405–R407): SETUP_ERR where a word was discarded, with the mask of those words. -/
def State.regWriteRun (s : State) (c : CmdIn) (rivals : List (Option Word)) (rec : Nat) : State :=
  let a := c.p 16 4
  let n := c.p 20 4
  if n = 0 || 8 < n then s.finish rec 0x09 []
  else if s.spanCut a n then s.finish rec 0x13 []
  else
    let (m, s) := s.writeWords .host a rivals 0 (c.words n)
    s.finish rec (if m = 0 then 0 else 0x0A) (leBytes 4 m)

/-- Words of REG_WRITE beyond COUNT are unused. -/
def regTail (c : CmdIn) : Bool := let n := min (c.p 20 4) 8; !c.pz (24 + 4 * n) (40 - 4 * n)

/-- REG_WRITE (R314). -/
def execRegWrite (x : RegCmd) (s : State) : Host.Outcome State Fault Refusal :=
  let c := x.cmd
  s.command 0x23 c (c.listBad || decide (bits (c.p 20 4) 4 28 ≠ 0) || regTail c || !c.xz 0) fun rec s => s.regWriteRun c x.rivals rec

/-- MODE (R332–R334). -/
def execModeCmd (c : CmdIn) (s : State) : Host.Outcome State Fault Refusal :=
  s.command 0x24 c (c.listBad || decide (8 ≤ c.p 16 4) || !c.pz 20 44 || !c.xz 0) fun rec s =>
    let (ok, s) := s.modeCommand (c.p 16 4) false
    s.finish rec (if ok then 0 else 0x0B) []

-- ------------------------------------------------------------------------------------------------------------- keys

/-- The reserved fields of KEY_INSTALL (R354). -/
def keyRsv (erase : Bool) (c : CmdIn) : Bool :=
  let w := c.p 16 4
  let kind := bits w 4 4
  let mac := decide (2 ≤ kind)
  c.listBad || decide (2 ≤ bits w 0 4) || decide (4 ≤ kind) || decide (bits w 20 12 ≠ 0) || (mac && decide (bits w 10 10 ≠ 0)) ||
  (if mac then decide (bits (c.p 20 4) 13 19 ≠ 0) || !c.xz 24 else !c.pz 20 4 || !c.xz 0 || (!erase && !c.pz 24 8)) ||
  (!erase && decide (kind = 0) && !c.pz 48 16)

/-- KEY_INSTALL of a hook 0 key slot (R354): loaded into, or erased from, the key stores of the panels named. -/
def State.keySlot (s : State) (erase : Bool) (c : CmdIn) (ps : List Nat) (rec : Nat) : State :=
  let w := c.p 16 4
  let slot := bits w 10 10
  let key := sliceZ c.payload 16 (if bits w 4 4 = 0 then 16 else 32)
  if erase && ps.any fun p => (SMap.find s.sec.keys (p * 1024 + slot)).isNone then s.finish rec 0x23 []
  else
    let keys := ps.foldl (fun (m : SMap (List Byte)) p => if erase then SMap.del m (p * 1024 + slot) else SMap.put m (p * 1024 + slot) key) s.sec.keys
    ({ s with sec := { s.sec with keys := keys } }).finish rec 0 []

/-- Associations of a direction on a panel. -/
def State.saUse (s : State) (tx : Bool) (p : Nat) : Nat :=
  ((if tx then s.sec.txSa else s.sec.rxSa).filter fun e => decide (portPanel (e.1 / 4) = p)).length

/-- KEY_INSTALL of a MACsec association (R354). -/
def State.keySa (s : State) (erase : Bool) (c : CmdIn) (rec : Nat) : State :=
  let tx := decide (bits (c.p 16 4) 4 4 = 3)
  let port := bits (c.p 20 4) 0 11
  let an := bits (c.p 20 4) 11 2
  let there := (SMap.find (if tx then s.sec.txSa else s.sec.rxSa) (port * 4 + an)).isSome
  if erase then (if there then (s.putSa tx port an none).finish rec 0 [] else s.finish rec 0x23 [])
  else if !there && decide (1024 ≤ s.saUse tx (portPanel port)) then s.finish rec 0x21 []
  else (s.putSa tx port an (some { key := sliceZ c.payload 16 32, sci := sliceZ c.payload 8 8, pn := leVal (c.x 0 8), salt := c.x 8 12, ssci := leVal (c.x 20 4) })).finish rec 0 []

/-- KEY_INSTALL (R354): KEY_LINK, BAD_PORT and FENCED come before the outcomes of its kind. -/
def State.keyRun (s : State) (erase : Bool) (c : CmdIn) (rec : Nat) : State :=
  let w := c.p 16 4
  let ps := idxs 2 fun p => bit w (8 + p)
  let mac := decide (2 ≤ bits w 4 4)
  let port := bits (c.p 20 4) 0 11
  if !s.rb R.prtCfg 0 (2 * s.hostPanel) 20 then s.finish rec 0x20 []
  else if ps.isEmpty || (mac && (decide (800 ≤ port) || !ps.contains (portPanel port))) then s.finish rec 0x22 []
  else if ps.any fun p => !s.reach s.hostPanel p then s.finish rec 0x13 []
  else if mac then s.keySa erase c rec
  else s.keySlot erase c ps rec

/-- KEY_INSTALL, LOAD (R354). -/
def execKeyLoad (c : CmdIn) (s : State) : Host.Outcome State Fault Refusal :=
  s.command 0x30 c (keyRsv false c) fun rec s => s.keyRun false c rec

/-- KEY_INSTALL, ERASE (R354). -/
def execKeyErase (c : CmdIn) (s : State) : Host.Outcome State Fault Refusal :=
  s.command 0x30 c (keyRsv true c) fun rec s => s.keyRun true c rec

-- --------------------------------------------------------------------------------------------------- work and frames

/-- WORK (R100, R103, R104): an item of KIND HOST on LIST; the command completes when its lifeline is freed. -/
def execWork (c : CmdIn) (s : State) : Host.Outcome State Fault Refusal :=
  s.command 0x40 c (!c.xz 0) fun rec s =>
    match SMap.find s.hst.jrnl rec with
    | none => s
    | some j => s.offerWork (c.ring % 256) (s.workItem rec j)

/-- A frame enters parsing from an internal port (R75, R248): the state, or none where ingress admission refuses it. -/
def State.inject (s : State) (p port : Nat) (bs : List Byte) (work : Option Nat) : Option State :=
  match s.admitIngress p (rxCells bs.length) with
  | none => none
  | some (r, x) =>
    let (cs, s) := s.storeFrame p bs
    let it : ParseItem := { port := port, ingress := port, frame := bs, cellsR := r, cellsS := x, cells := cs, work := work }
    some { s with swt := { s.swt with parseQ := SMap.set s.swt.parseQ [] p (SMap.get s.swt.parseQ [] p ++ [it]) } }

/-- What comes of a TX_FRAME's RDMA READ (R306, R314): HOST_ERR where it fails, ING_CONG where the frame is not admitted; OK when parsing
begins. -/
def State.txArrive (s : State) (rec : Nat) (w : Wqe) (ans : FrameAns) : State :=
  match SMap.find s.hst.jrnl rec with
  | none => s
  | some j =>
    let n := s.ringQp j.ring
    match ans.rsp with
    | .lost => s
    | .nak =>
      let s := s.noteCe n ans.ce
      (((s.readDone n w.psn).getD s).finish rec 0x10 [])
    | .data => match (s.noteCe n ans.ce).readDone n w.psn with
      | none => s.noteCe n ans.ce
      | some s => match s.inject s.hostPanel (1028 + n) (sliceZ ans.frame 0 w.len) (some rec) with
        | none => s.finish rec 0x11 []
        | some s => s

/-- The READ of a TX_FRAME that is outstanding on QP `n`, by its journal record. -/
def State.txOut (s : State) (n rec : Nat) : Option Wqe := (s.qp n).sq.find? fun w => decide (w.tx = some rec)

/-- TX_FRAME begins (R306): the frame is read from host memory. -/
def State.txRun (s : State) (c : CmdIn) (ans : FrameAns) (rec : Nat) : State :=
  let n := s.ringQp (c.ring % 256)
  let len := bits (c.p 28 4) 0 14
  if len < 60 || 9216 < len then s.finish rec 0x09 []
  else
    let s := s.qpPost n { kind := .read, psn := 0, npkts := 0, rkey := w32 (c.p 24 4), va := c.p 16 8, len := len, tx := some rec }
    match s.txOut n rec with
    | none => s
    | some w => s.txArrive rec w ans

/-- The TX_FRAME command of a ring, if it is the one `c` names, whose READ is outstanding: its journal record and the READ. -/
def State.txWaits (s : State) (c : CmdIn) : Option (Nat × Wqe) :=
  (s.qp (s.ringQp (c.ring % 256))).sq.findSome? fun w => w.tx.bind fun rec => match SMap.find s.hst.jrnl rec with
    | some j => if j.ring = c.ring % 256 && j.seq = c.seq.toNat then some (rec, w) else none
    | none => none

/-- TX_FRAME (R306): the command's RDMA READ stays outstanding and is retransmitted by R302 until its answer comes. `ans` says what comes
now, with the data read and whether the answer is marked (R304); a TX_FRAME that still waits takes a later answer by the same row. -/
def execTxFrame (c : CmdIn) (ans : FrameAns) (s : State) : Host.Outcome State Fault Refusal :=
  match if s.qpOpen (s.ringQp (c.ring % 256)) then s.txWaits c else none with
  | some x => .next (s.txArrive x.1 x.2 ans)
  | none => s.command 0x41 c (c.listBad || decide (bits (c.p 28 4) 14 18 ≠ 0) || !c.pz 32 32 || !c.xz 0) fun rec s => s.txRun c ans rec

end Sys2Proof.Machine
end

