-- ==== Sys2Proof/Machine/Receive.lean ====
section
/-! DEFINITION. Reception (R426): the order of its checks, what is intercepted for the host engine (R300, R301), and Register
Access Frames (R318, R319). -/

namespace Sys2Proof.Machine

-- ------------------------------------------------------------------------------------------------- host interception

/-- The offset of the UDP header of a host frame whose EtherType lies at `o`. -/
def udpAt (bs : List Byte) (o : Nat) : Nat :=
  if etherAt bs o = 0x86DD then o + 42 else o + 2 + 4 * ((byteAt bs (o + 2)).toNat % 16)

/-- Bytes set to ones. -/
def onesAt (bs : List Byte) (l : List Nat) : List Byte := l.foldl (fun b i => b.set i 0xFF#8) bs

/-- The invariant CRC of a RoCEv2 frame without its FCS (R300): the CRC-32 over eight bytes of ones and the packet from its IP
header, with the fields that change on the way taken as ones; its last four bytes hold it. -/
def icrcOk (bs : List Byte) (o : Nat) : Bool :=
  let ip := bs.drop (o + 2)
  let u := udpAt bs o - (o + 2)
  let v6 := decide (etherAt bs o = 0x86DD)
  let m := if v6 then (ip.set 0 (byteAt ip 0 ||| 0x0F#8)) else ip
  let m := onesAt m (if v6 then [1, 2, 3, 7, u + 6, u + 7, u + 12] else [1, 8, 10, 11, u + 6, u + 7, u + 12])
  let n := u + leVal [byteAt ip (u + 5), byteAt ip (u + 4)]
  decide (20 ≤ n) && decide (n ≤ ip.length) &&
    decide ((crc32Upd 0xFFFFFFFF (List.replicate 8 0xFF#8 ++ m.take (n - 4))) ^^^ 0xFFFFFFFF = leVal (sliceZ ip (n - 4) 4))

/-- The transport operations of R300: RDMA WRITE, RDMA READ, its responses, acknowledgements and congestion notifications. -/
def rocePlain (op : Nat) : Bool :=
  (decide (6 ≤ op) && decide (op ≤ 8)) || decide (op = 10) || (decide (12 ≤ op) && decide (op ≤ 17)) || decide (op = 0x81)

/-- Is the IP packet whose EtherType lies at `o` marked CE (R304): ECN 3? -/
def ceAt (bs : List Byte) (o : Nat) : Bool :=
  decide ((if etherAt bs o = 0x86DD then bits (byteAt bs (o + 3)).toNat 4 2 else bits (byteAt bs (o + 3)).toNat 0 2) = 3)

/-- An intercepted frame at the host engine (R300, R301): one whose invariant CRC fails is dropped and counted as RC_ICRC; an
operation outside the subset is answered with an invalid-request NAK (code 1). What a supported operation does, its own row says. -/
def State.hostFrame (s : State) (bs : List Byte) : State :=
  let o := rtagPos bs
  let b := udpAt bs o + 8
  let q := beVal (sliceZ bs (b + 5) 3)
  let n := q - 256
  let known := decide (256 ≤ q) && decide (q < 320)
  if !icrcOk bs o then (if known then s.count 0x10 n 0 else s)
  else if known && s.qpOpen n && !rocePlain (byteAt bs b).toNat then
    (s.noteCe n (ceAt bs o)).emit (.rdmaNak (s.wire n (beVal (sliceZ bs (b + 9) 3))) 1)
  else s

-- ----------------------------------------------------------------------------------------------------------- RAFs

/-- Is a Register Access Frame accepted (R318): the mode is CONFIG, the boot configuration enables RAF, and a valid association of
port 0 with the SCI bound to the host role protects the frame? -/
def State.rafOk (s : State) (f : RxFrame) : Bool :=
  decide (s.md.mode = .config) && s.sec.rafOn && (match f.sec with
    | none => false
    | some an => match SMap.find s.sec.rxSa (an % 4) with
      | some sa => decide (sa.sci = s.sec.rafSci)
      | none => false)

/-- A RAF response (R319) to the request with header word `w`: STATUS and data. -/
def rafResp (w seq addr status : Nat) (data : List Word) : List Byte :=
  leBytes 4 (1 + 2 * 16 + bits w 8 6 * 256) ++ leBytes 4 seq ++ leBytes 4 addr ++ leBytes 4 status ++ wordBytes data

/-- A reserved field of a RAF request (R319): VER other than 1, OP other than READ and WRITE, COUNT outside 1–32, or a bit. -/
def rafBad (w st : Nat) : Bool :=
  decide (bits w 0 4 ≠ 1) || decide (2 ≤ bits w 4 4) || decide (bits w 8 6 = 0) || decide (32 < bits w 8 6) || decide (bits w 14 18 ≠ 0) || decide (st ≠ 0)

/-- A request is executed (R319, R405): its response. -/
def State.rafRun (s : State) (p : List Byte) (rivals : List (Option Word) := []) : List Byte × State :=
  let w := leVal (sliceZ p 0 4)
  let seq := leVal (sliceZ p 4 4)
  let a := leVal (sliceZ p 8 4)
  let n := bits w 8 6
  if rafBad w (leVal (sliceZ p 12 4)) then (rafResp w seq a 0x12 [], s)
  else if s.spanCut a n then (rafResp w seq a 0x13 [], s)
  else if bits w 4 4 = 0 then
    let (l, s) := s.readMany 0 a n
    (rafResp w seq a 0 l, s)
  else
    let (m, s) := s.writeWords .host a rivals 0 ((List.range n).map fun i => w32 (leVal (sliceZ p (16 + 4 * i) 4)))
    (rafResp w seq a (if m = 0 then 0 else 0x0A) [w32 m], s)

/-- A Register Access Frame on port 0 (R318, R319). One with the SEQ of the last request answered gets the saved response. -/
def State.raf (s : State) (f : RxFrame) (bs : List Byte) (rivals : List (Option Word) := []) : State :=
  if !s.rafOk f then s.count 0x11 0 1
  else
    let p := bs.drop (rtagPos bs + 2)
    let dst := sliceZ bs 6 6
    let seq := leVal (sliceZ p 4 4)
    if s.hst.rafSeq = some seq then s.emit (.raf dst s.hst.rafResp)
    else
      let (r, s) := s.rafRun p rivals
      ({ s with hst := { s.hst with rafSeq := some seq, rafResp := r } }).emit (.raf dst r)

-- -------------------------------------------------------------------------------------------------------- reception

/-- Does a port serve the host engine: port 0, or port 2 with FAILOVER (R301)? -/
def State.hostPort (s : State) (port : Nat) : Bool := decide (port = 0) || (decide (port = 2) && s.failoverEn)

/-- Do frames of a host port reach the host engine: they do in CONFIG and SERVICE as well, where reception is closed (R318,
R333, R406)? -/
def State.hostOpen (s : State) (port : Nat) : Bool :=
  s.hostPort port && !s.md.sleeping && decide (s.linkOf port = .up) && (decide (s.md.mode = .config) || decide (s.md.mode = .service) || s.inService)

/-- Steps 6–9 of R426 for an Ethernet frame of ingress port `port`. -/
def State.rxHost (s : State) (f : RxFrame) (port : Nat) (bs : List Byte) (rivals : List (Option Word) := []) : State :=
  if s.hostPort port && s.hostTraffic bs then s.hostFrame bs
  else if port = 0 && decide (etherAt bs (rtagPos bs) = 0x88B5) then s.raf f bs rivals
  else if s.rxOpen port then s.rxTail port bs (s.stamp (portPanel port) (s.tsDom port))
  else s

/-- A frame is received (R426). -/
def State.receive (s : State) (f : RxFrame) (rivals : List (Option Word) := []) : State :=
  if !s.rxOpen f.port && !s.hostOpen f.port then s
  else match f.data with
    | .eth bs =>
      if 800 ≤ f.port then s
      else
        let (p, s) := s.rxEth f bs
        match p with
        | none => s
        | some port => s.rxHost f port bs rivals
    | .can kind ide rtr sec id brs esi sdt vcid af len data =>
      if f.port < 800 || 960 ≤ f.port then s
      else
        let stamp := s.stamp (portPanel f.port) (s.tsDom f.port)
        s.rxCan f.port kind (canEnv f.port kind ide rtr sec id brs esi sdt vcid af len data stamp) stamp
    | .lin status fid enhanced own data =>
      if f.port < 960 then s
      else
        let stamp := s.stamp (portPanel f.port) (s.tsDom f.port)
        s.rxTail f.port (linEnv f.port status fid enhanced own data stamp) stamp

/-- FRAME_RECEIVE (R426). -/
def execFrameReceive (f : RxFrame) (s : State) : Host.Outcome State Fault Refusal := .next (s.receive f)

/-- RAF_READ (R319): a Register Access Frame with OP READ is received. -/
def execRafRead (f : RxFrame) (s : State) : Host.Outcome State Fault Refusal := .next (s.receive f)

/-- RAF_WRITE (R319): a Register Access Frame with OP WRITE is received. -/
def execRafWrite (x : RafIn) (s : State) : Host.Outcome State Fault Refusal := .next (s.receive x.frame x.rivals)

end Sys2Proof.Machine
end

