-- ==== Sys2Proof/Machine/Selvage.lean ====
section
/-! DEFINITION. The Selvage port (ch. 16): requests and responses (R322–R326), the mailbox (R327), mode commands (R333, R335,
R341), the ring and the flash (R324, R394, R398), and attestation reports (R352). -/

namespace Sys2Proof.Machine

-- --------------------------------------------------------------------------------------------------------- responses

/-- A response header (R323). -/
def svHeader (op len status : Nat) : Word := w32 (0xA5 + op * 256 + len * 2 ^ 14 + status * 2 ^ 21)

/-- A response with its CRC word (R322): the CRC-32C of the bytes of its header and payload. -/
def withCrc (ws : List Word) : List Word := ws ++ [w32 (crc32c (wordBytes ws))]

/-- A response goes out, or is kept where the assertion ended first (R322). -/
def State.sendResp (s : State) (early : Bool) (ws : List Word) : State :=
  if early then { s with sv := { s.sv with kept := some ws } } else ({ s with sv := { s.sv with kept := none } }).emit (.selvage ws)

/-- Answer a request. -/
def State.respond (s : State) (r : SvReq) (op status : Nat) (payload : List Word) : State :=
  s.sendResp r.early (withCrc (svHeader op payload.length status :: payload))

/-- The checks of R325 in their order; then the operation's own outcome: its status, payload and effect. In OFF the port is
dead. -/
def State.request (s : State) (op : Nat) (r : SvReq) (rsv badLen : Bool) (run : State → Nat × List Word × State) : Host.Outcome State Fault Refusal :=
  if s.md.mode = .off then .next s
  else if rsv then .next (s.respond r op 0x12 [])
  else if badLen then .next (s.respond r op 0x41 [])
  else
    let (st, p, s) := run s
    .next (s.respond r op st p)

/-- A request whose operation uses no bits of ADDR and no payload. -/
def State.plainReq (s : State) (op : Nat) (r : SvReq) (run : State → Nat × List Word × State) : Host.Outcome State Fault Refusal :=
  s.request op r (decide (r.addr ≠ 0#20)) (decide (r.len ≠ 0#6)) run

/-- Word `i` of a request's payload. -/
def svWord (r : SvReq) (i : Nat) : Word := r.payload.getD i 0#32

/-- A panel that is up: A, or B while A is down (R326). -/
def State.svPanel (s : State) : Option Nat := if s.up 0 then some 0 else if s.up 1 then some 1 else none

/-- SV_NOP (R324). A reserved OP is answered RESERVED_FIELD (R9, R325); a request with a defined one is another row's and changes nothing
here (log entry 86). -/
def execSvNop (x : SvOp) (s : State) : Host.Outcome State Fault Refusal :=
  if x.op = 0#6 then s.plainReq 0x00 x.req fun s => (0, [], s)
  else if svOps.contains x.op.toNat then .next s
  else s.request x.op.toNat x.req true false fun s => (0, [], s)

/-- SETPAGE (R324). -/
def execSetpage (r : SvReq) (s : State) : Host.Outcome State Fault Refusal :=
  s.request 0x01 r (decide (1024 ≤ r.addr.toNat)) (decide (r.len ≠ 0#6)) fun s => (0, [], { s with sv := { s.sv with page := r.addr.toNat } })

-- --------------------------------------------------------------------------------------------------------- registers

/-- The register address of a RD or WR (R324). -/
def State.svAddr (s : State) (r : SvReq) : Nat := s.sv.page * 4194304 + 4 * r.addr.toNat

/-- LEN of a RD or WR: 1–32. -/
def badRun (r : SvReq) : Bool := decide (r.len = 0#6) || decide (32 < r.len.toNat)

/-- RD (R324, R326): a multi-word access into a part that cannot be reached has no effect on any word. -/
def execRdS (r : SvReq) (s : State) : Host.Outcome State Fault Refusal :=
  s.request 0x02 r false (badRun r) fun s =>
    if s.spanCut (s.svAddr r) r.len.toNat then (0x42, [], s)
    else
      let (l, s) := s.readMany (if s.reachable 0 then 0 else 1) (s.svAddr r) r.len.toNat
      (0, l, s)

/-- WR (R324, R326, R407): the mask of the discarded words. -/
def execWrS (x : SvWrite) (s : State) : Host.Outcome State Fault Refusal :=
  let r := x.req
  s.request 0x03 r false (badRun r) fun s =>
    if s.spanCut (s.svAddr r) r.len.toNat then (0x42, [], s)
    else
      let (m, s) := s.writeWords .selvage (s.svAddr r) x.rivals 0 ((List.range r.len.toNat).map fun i => svWord r i)
      (if m = 0 then 0 else 0x0A, [w32 m], s)

-- ---------------------------------------------------------------------------------------------------------- mailbox

/-- Frames that wait for parsing on port 1108. -/
def State.mboxWait (s : State) : Nat :=
  sumN ([0, 1].map fun p => ((SMap.get s.swt.parseQ [] p).filter fun x => decide (x.port = 1108)).length)

/-- MBX_SEND (R327). A frame that ingress admission refuses is dropped (R248). -/
def execMbxSend (r : SvReq) (s : State) : Host.Outcome State Fault Refusal :=
  let n := r.addr.toNat % 256
  s.request 0x04 r (decide (256 ≤ r.addr.toNat)) (decide (n < 60) || decide (252 < n) || decide (r.len.toNat ≠ (n + 3) / 4)) fun s =>
    match s.svPanel with
    | none => (0x42, [], s)
    | some p =>
      if 4 ≤ s.mboxWait then (0x44, [], s)
      else (0, [], (s.inject p 1108 (sliceZ (wordBytes r.payload) 0 n) none).getD s)

/-- Bytes as words, zero-padded to a whole word. -/
def byteWords (bs : List Byte) : List Word := (List.range ((bs.length + 3) / 4)).map fun i => w32 (leVal (sliceZ bs (4 * i) 4))

/-- MBX_RECV (R327). -/
def execMbxRecv (r : SvReq) (s : State) : Host.Outcome State Fault Refusal :=
  s.plainReq 0x05 r fun s => match s.swt.mboxRx with
    | [] => (0x43, [], s)
    | f :: l => (0, w32 f.length :: byteWords f, { s with swt := { s.swt with mboxRx := l } })

-- ------------------------------------------------------------------------------------------------------------- modes

/-- A MODE operation: ADDR [3:0] is 0–4 (the row says which), its other bits are reserved. It is a Selvage mode command (R334). -/
def State.modeReq (s : State) (r : SvReq) (run : State → Bool × State) : Host.Outcome State Fault Refusal :=
  s.request 0x06 r (decide (5 ≤ r.addr.toNat)) (decide (r.len ≠ 0#6)) fun s =>
    let (ok, s) := run s.noteSel
    (if ok then 0 else 0x0B, [], s)

/-- RESET_A (R335). -/
def execResetA (r : SvReq) (s : State) : Host.Outcome State Fault Refusal := s.modeReq r fun s => (true, s.leavePanel 0 true)
/-- RESET_B (R335). -/
def execResetB (r : SvReq) (s : State) : Host.Outcome State Fault Refusal := s.modeReq r fun s => (true, s.leavePanel 1 true)
/-- SV_LIMP (R333). -/
def execSvLimp (r : SvReq) (s : State) : Host.Outcome State Fault Refusal := s.modeReq r fun s => s.modeCommand 5 true
/-- SV_SLEEP (R333). -/
def execSvSleep (r : SvReq) (s : State) : Host.Outcome State Fault Refusal := s.modeReq r fun s => s.modeCommand 6 true
/-- SV_WAKE (R341): outside SLEEP it is denied. -/
def execSvWake (r : SvReq) (s : State) : Host.Outcome State Fault Refusal :=
  s.modeReq r fun s => if s.judged = .sleep then (true, s.wakeBy .selvage) else (false, s)

-- ---------------------------------------------------------------------------------------------------- ring and flash

/-- REC_READ (R324, R398): one or two records from consecutive slots of the ring. -/
def execRecRead (r : SvReq) (s : State) : Host.Outcome State Fault Refusal :=
  s.request 0x07 r (decide (4096 ≤ r.addr.toNat)) (decide (r.len ≠ 16#6) && decide (r.len ≠ 32#6)) fun s =>
    (0, (List.range r.len.toNat).map fun i => w32 (s.ringWord ((r.addr.toNat + i / 16) % 4096) (i % 16)), s)

/-- Are the flash operations accepted (R324, R342, R353): in held BOOT, and in SERVICE under a FW_UPDATE grant? -/
def State.flashOk (s : State) : Bool := (decide (s.md.mode = .boot) && s.md.held) || s.granted 0

/-- A flash operation (R324): whether the flash device fails it is a free choice (log entry 3); the bytes it was to change are
then free. -/
def State.flashOp (s : State) (a n : Nat) (good : State → State) : Nat × List Word × State :=
  let (bad, s) := s.freeB
  if !bad then (0, [], good s)
  else
    let l := sliceZ (Config.freeBytes s.fresh n) 0 n
    let s := { s with fresh := s.fresh + 1 }
    (0x45, [], { s with flash := (List.range n).foldl (fun (m : SMap Byte) i => SMap.set m 0xFF#8 (a + i) (byteAt l i)) s.flash })

/-- FLASH_RD (R324): 64 words from a byte address. -/
def execFlashRd (r : SvReq) (s : State) : Host.Outcome State Fault Refusal :=
  s.request 0x08 r (decide (r.addr ≠ 0#20)) (decide (r.len ≠ 1#6)) fun s =>
    if !s.flashOk then (0x0B, [], s)
    else
      let (bad, s) := s.freeB
      if bad then (0x45, [], s) else (0, byteWords (s.flashBytes (svWord r 0).toNat 256), s)

/-- FLASH_WR (R324): data words within one 256-byte page; an address in the Row Counter partition is denied (R394). -/
def execFlashWr (r : SvReq) (s : State) : Host.Outcome State Fault Refusal :=
  let a := (svWord r 0).toNat
  let n := 4 * (r.len.toNat - 1)
  s.request 0x09 r (decide (r.addr ≠ 0#20)) (decide (r.len.toNat < 2) || decide (256 < a % 256 + n)) fun s =>
    if !s.flashOk || inRecPart a || inRecPart (a + n - 1) then (0x0B, [], s)
    else s.flashOp a n fun s => s.flashProg a (sliceZ (wordBytes (r.payload.drop 1)) 0 n)

/-- FLASH_ERASE (R324). -/
def execFlashErase (r : SvReq) (s : State) : Host.Outcome State Fault Refusal :=
  let a := (svWord r 0).toNat / 4096 * 4096
  s.request 0x0A r (decide (r.addr ≠ 0#20)) (decide (r.len ≠ 1#6)) fun s =>
    if !s.flashOk || inRecPart a then (0x0B, [], s) else s.flashOp a 4096 fun s => s.flashErase a

-- ------------------------------------------------------------------------------------------------------- attestation

/-- ATTEST (R324, R352): a new report is built, and one that is being built or held is discarded. -/
def execAttest (r : SvReq) (s : State) : Host.Outcome State Fault Refusal :=
  s.request 0x0B r (decide (r.addr ≠ 0#20)) (decide (r.len ≠ 8#6)) fun s => match s.svPanel with
    | none => (0x42, [], s)
    | some _ => (0, [], { s with sv := { s.sv with nonce := some (sliceZ (wordBytes r.payload) 0 32), report := none } })

/-- ATTEST_RD (R324, R352): a chunk of 128 bytes of the report, 0–40. -/
def execAttestRd (r : SvReq) (s : State) : Host.Outcome State Fault Refusal :=
  let n := r.addr.toNat
  s.request 0x0C r (decide (256 ≤ n)) (decide (r.len ≠ 0#6)) fun s =>
    if s.sv.nonce.isSome then (0x04, [], s)
    else match s.sv.report with
      | none => (0x09, [], s)
      | some bs => if 40 < n then (0x09, [], s) else (0, byteWords (sliceZ bs (128 * n) 128), s)

-- ------------------------------------------------------------------------------------------------------ transport

/-- RESEND (R322, R324): the kept response, or MBX_EMPTY where none is kept. -/
def execResend (r : SvReq) (s : State) : Host.Outcome State Fault Refusal :=
  if s.md.mode = .off then .next s
  else if r.addr ≠ 0#20 then .next (s.respond r 0x0E 0x12 [])
  else if r.len ≠ 0#6 then .next (s.respond r 0x0E 0x41 [])
  else match s.sv.kept with
    | some ws => .next (s.sendResp r.early ws)
    | none => .next (s.respond r 0x0E 0x43 [])

/-- FRAME_ABORT (R322): an assertion that ends inside the request is discarded, counted and not answered. -/
def execFrameAbort (s : State) : Host.Outcome State Fault Refusal :=
  if s.md.mode = .off then .next s else .next (s.count 0x11 0 2)

/-- CRC_ERR (R322, R323): the request is not received; the response has OP 0 and LEN 0. -/
def execCrcErr (s : State) : Host.Outcome State Fault Refusal :=
  if s.md.mode = .off then .next s else .next ((s.count 0x11 0 3).emit (.selvage (withCrc [svHeader 0 0 0x40])))

end Sys2Proof.Machine
end

