-- ==== Sys2Proof/Machine/Dispatch.lean ====
section
/-! DEFINITION. One arm per command of spec/opcode_table.json. -/

namespace Sys2Proof.Machine

/-- The effect of a command on everything but the queue. -/
def exec (i : Instr) (s : State) : Host.Outcome State Fault Refusal :=
  match i with
  | .registerWrite a => Sys2Proof.Machine.execRegisterWrite a s
  | .domainEnable who n val => Sys2Proof.Machine.execDomainEnable who n val s
  | .domainDisable who n val => Sys2Proof.Machine.execDomainDisable who n val s
  | .primaryResume who n val => Sys2Proof.Machine.execPrimaryResume who n val s
  | .sourceObservation n secondary x => Sys2Proof.Machine.execSourceObservation n secondary x s
  | .sourceLost panel n => Sys2Proof.Machine.execSourceLost panel n s
  | .edgeOverdue panel n => Sys2Proof.Machine.execEdgeOverdue panel n s
  | .uncLimit panel n => Sys2Proof.Machine.execUncLimit panel n s
  | .coastLimit panel n => Sys2Proof.Machine.execCoastLimit panel n s
  | .eventFire k => Sys2Proof.Machine.execEventFire k s
  | .frameReceive f => Sys2Proof.Machine.execFrameReceive f s
  | .portLinkDown port => Sys2Proof.Machine.execPortLinkDown port s
  | .portLinkUp port rate => Sys2Proof.Machine.execPortLinkUp port rate s
  | .linDominantTimeout port => Sys2Proof.Machine.execLinDominantTimeout port s
  | .linRecessiveRecovery port => Sys2Proof.Machine.execLinRecessiveRecovery port s
  | .canBusoffRecovery port => Sys2Proof.Machine.execCanBusoffRecovery port s
  | .egressTransmit x => Sys2Proof.Machine.execEgressTransmit x s
  | .txAbandon port => Sys2Proof.Machine.execTxAbandon port s
  | .linHeaderReceive port fid response => Sys2Proof.Machine.execLinHeaderReceive port fid response s
  | .linSlotStart port => Sys2Proof.Machine.execLinSlotStart port s
  | .canScheduleEntry panel entry => Sys2Proof.Machine.execCanScheduleEntry panel entry s
  | .parsePass panel parser => Sys2Proof.Machine.execParsePass panel parser s
  | .chartCommit who val => Sys2Proof.Machine.execChartCommit who val s
  | .chartAbort who val => Sys2Proof.Machine.execChartAbort who val s
  | .sweepPassEnd => Sys2Proof.Machine.execSweepPassEnd  s
  | .generationRetire => Sys2Proof.Machine.execGenerationRetire  s
  | .holdQueueRetry panel => Sys2Proof.Machine.execHoldQueueRetry panel s
  | .spillReturn list => Sys2Proof.Machine.execSpillReturn list s
  | .dispatch course => Sys2Proof.Machine.execDispatch course s
  | .releaseTurn panel llid => Sys2Proof.Machine.execReleaseTurn panel llid s
  | .bindTimeout x => Sys2Proof.Machine.execBindTimeout x s
  | .lockGrant t => Sys2Proof.Machine.execLockGrant t s
  | .reservedMajor t w => Sys2Proof.Machine.execReservedMajor t w s
  | .add t f => Sys2Proof.Machine.execAdd t f s
  | .sub t f => Sys2Proof.Machine.execSub t f s
  | .andR t f => Sys2Proof.Machine.execAndR t f s
  | .orR t f => Sys2Proof.Machine.execOrR t f s
  | .xorR t f => Sys2Proof.Machine.execXorR t f s
  | .andn t f => Sys2Proof.Machine.execAndn t f s
  | .sll t f => Sys2Proof.Machine.execSll t f s
  | .srl t f => Sys2Proof.Machine.execSrl t f s
  | .sra t f => Sys2Proof.Machine.execSra t f s
  | .ror t f => Sys2Proof.Machine.execRor t f s
  | .mul t f => Sys2Proof.Machine.execMul t f s
  | .mulhu t f => Sys2Proof.Machine.execMulhu t f s
  | .mulhs t f => Sys2Proof.Machine.execMulhs t f s
  | .minS t f => Sys2Proof.Machine.execMinS t f s
  | .maxS t f => Sys2Proof.Machine.execMaxS t f s
  | .minu t f => Sys2Proof.Machine.execMinu t f s
  | .maxu t f => Sys2Proof.Machine.execMaxu t f s
  | .clz t f => Sys2Proof.Machine.execClz t f s
  | .ctz t f => Sys2Proof.Machine.execCtz t f s
  | .popc t f => Sys2Proof.Machine.execPopc t f s
  | .bswap t f => Sys2Proof.Machine.execBswap t f s
  | .addd t f => Sys2Proof.Machine.execAddd t f s
  | .subd t f => Sys2Proof.Machine.execSubd t f s
  | .addi t f => Sys2Proof.Machine.execAddi t f s
  | .andi t f => Sys2Proof.Machine.execAndi t f s
  | .ori t f => Sys2Proof.Machine.execOri t f s
  | .xori t f => Sys2Proof.Machine.execXori t f s
  | .shi t f => Sys2Proof.Machine.execShi t f s
  | .movl t f => Sys2Proof.Machine.execMovl t f s
  | .movh t f => Sys2Proof.Machine.execMovh t f s
  | .extu t f => Sys2Proof.Machine.execExtu t f s
  | .exts t f => Sys2Proof.Machine.execExts t f s
  | .ins t f => Sys2Proof.Machine.execIns t f s
  | .eq t f => Sys2Proof.Machine.execEq t f s
  | .ne t f => Sys2Proof.Machine.execNe t f s
  | .lt t f => Sys2Proof.Machine.execLt t f s
  | .ge t f => Sys2Proof.Machine.execGe t f s
  | .ltu t f => Sys2Proof.Machine.execLtu t f s
  | .geu t f => Sys2Proof.Machine.execGeu t f s
  | .tst t f => Sys2Proof.Machine.execTst t f s
  | .cmpeqi t f => Sys2Proof.Machine.execCmpeqi t f s
  | .cmplti t f => Sys2Proof.Machine.execCmplti t f s
  | .cmpltui t f => Sys2Proof.Machine.execCmpltui t f s
  | .pand t f => Sys2Proof.Machine.execPand t f s
  | .por t f => Sys2Proof.Machine.execPor t f s
  | .pxor t f => Sys2Proof.Machine.execPxor t f s
  | .pandn t f => Sys2Proof.Machine.execPandn t f s
  | .pnot t f => Sys2Proof.Machine.execPnot t f s
  | .ldb t f => Sys2Proof.Machine.execLdb t f s
  | .ldbu t f => Sys2Proof.Machine.execLdbu t f s
  | .ldh t f => Sys2Proof.Machine.execLdh t f s
  | .ldhu t f => Sys2Proof.Machine.execLdhu t f s
  | .ldw t f => Sys2Proof.Machine.execLdw t f s
  | .ldd t f => Sys2Proof.Machine.execLdd t f s
  | .stb t f => Sys2Proof.Machine.execStb t f s
  | .sth t f => Sys2Proof.Machine.execSth t f s
  | .stw t f => Sys2Proof.Machine.execStw t f s
  | .std t f => Sys2Proof.Machine.execStd t f s
  | .ldx t f => Sys2Proof.Machine.execLdx t f s
  | .stx t f => Sys2Proof.Machine.execStx t f s
  | .ldpi t f => Sys2Proof.Machine.execLdpi t f s
  | .stpi t f => Sys2Proof.Machine.execStpi t f s
  | .amoSwap t f => Sys2Proof.Machine.execAmoSwap t f s
  | .amoAdd t f => Sys2Proof.Machine.execAmoAdd t f s
  | .amoAnd t f => Sys2Proof.Machine.execAmoAnd t f s
  | .amoOr t f => Sys2Proof.Machine.execAmoOr t f s
  | .amoXor t f => Sys2Proof.Machine.execAmoXor t f s
  | .amoMinu t f => Sys2Proof.Machine.execAmoMinu t f s
  | .amoMaxu t f => Sys2Proof.Machine.execAmoMaxu t f s
  | .amoCas t f => Sys2Proof.Machine.execAmoCas t f s
  | .b t f => Sys2Proof.Machine.execB t f s
  | .bl t f => Sys2Proof.Machine.execBl t f s
  | .jalr t f => Sys2Proof.Machine.execJalr t f s
  | .yput t f => Sys2Proof.Machine.execYput t f s
  | .ysend t f => Sys2Proof.Machine.execYsend t f s
  | .yrecv t f => Sys2Proof.Machine.execYrecv t f s
  | .yget t f => Sys2Proof.Machine.execYget t f s
  | .ydrop t f => Sys2Proof.Machine.execYdrop t f s
  | .yarnWaitServe t => Sys2Proof.Machine.execYarnWaitServe t s
  | .yarnTimeout t => Sys2Proof.Machine.execYarnTimeout t s
  | .yarnMessageArrive course yarn => Sys2Proof.Machine.execYarnMessageArrive course yarn s
  | .mth t f => Sys2Proof.Machine.execMth t f s
  | .mfh t f => Sys2Proof.Machine.execMfh t f s
  | .mthd t f => Sys2Proof.Machine.execMthd t f s
  | .hclr t f => Sys2Proof.Machine.execHclr t f s
  | .hcpy t f => Sys2Proof.Machine.execHcpy t f s
  | .hook7 t g w => Sys2Proof.Machine.execHook7 t g w s
  | .brk t f => Sys2Proof.Machine.execBrk t f s
  | .eret t f => Sys2Proof.Machine.execEret t f s
  | .waitd t f => Sys2Proof.Machine.execWaitd t f s
  | .bindoff t f => Sys2Proof.Machine.execBindoff t f s
  | .halt t f => Sys2Proof.Machine.execHalt t f s
  | .fence t f => Sys2Proof.Machine.execFence t f s
  | .hsync t f => Sys2Proof.Machine.execHsync t f s
  | .mfsr t f => Sys2Proof.Machine.execMfsr t f s
  | .mtsr t f => Sys2Proof.Machine.execMtsr t f s
  | .memoryResultArrive t bank k => Sys2Proof.Machine.execMemoryResultArrive t bank k s
  | .hookResultArrive t k => Sys2Proof.Machine.execHookResultArrive t k s
  | .hookBusyTimeout t => Sys2Proof.Machine.execHookBusyTimeout t s
  | .knot course => Sys2Proof.Machine.execKnot course s
  | .knotTrap t => Sys2Proof.Machine.execKnotTrap t s
  | .ndlRst who panel val => Sys2Proof.Machine.execNdlRst who panel val s
  | .debugHalt t => Sys2Proof.Machine.execDebugHalt t s
  | .debugResume t => Sys2Proof.Machine.execDebugResume t s
  | .debugStep t => Sys2Proof.Machine.execDebugStep t s
  | .debugRead d => Sys2Proof.Machine.execDebugRead d s
  | .debugWrite d val => Sys2Proof.Machine.execDebugWrite d val s
  | .debugTink t bank => Sys2Proof.Machine.execDebugTink t bank s
  | .endpointDelivery e => Sys2Proof.Machine.execEndpointDelivery e s
  | .ctxInit t f => Sys2Proof.Machine.execCtxInit t f s
  | .aad t f => Sys2Proof.Machine.execAad t f s
  | .enc t f => Sys2Proof.Machine.execEnc t f s
  | .dec t f => Sys2Proof.Machine.execDec t f s
  | .mac t f => Sys2Proof.Machine.execMac t f s
  | .tag t f => Sys2Proof.Machine.execTag t f s
  | .tagchk t f => Sys2Proof.Machine.execTagchk t f s
  | .absorb t f => Sys2Proof.Machine.execAbsorb t f s
  | .squeeze t f => Sys2Proof.Machine.execSqueeze t f s
  | .aesEnc t f => Sys2Proof.Machine.execAesEnc t f s
  | .aesDec t f => Sys2Proof.Machine.execAesDec t f s
  | .latNtt t f => Sys2Proof.Machine.execLatNtt t f s
  | .latPmul t f => Sys2Proof.Machine.execLatPmul t f s
  | .latPadd t f => Sys2Proof.Machine.execLatPadd t f s
  | .latExpand t f => Sys2Proof.Machine.execLatExpand t f s
  | .emLookup t f => Sys2Proof.Machine.execEmLookup t f s
  | .lpmLookup t f => Sys2Proof.Machine.execLpmLookup t f s
  | .l2Lookup t f => Sys2Proof.Machine.execL2Lookup t f s
  | .flowFind t f => Sys2Proof.Machine.execFlowFind t f s
  | .csum t f => Sys2Proof.Machine.execCsum t f s
  | .crc32c t f => Sys2Proof.Machine.execCrc32c t f s
  | .crc32 t f => Sys2Proof.Machine.execCrc32 t f s
  | .crc8 t f => Sys2Proof.Machine.execCrc8 t f s
  | .crc16 t f => Sys2Proof.Machine.execCrc16 t f s
  | .csumPkt t f => Sys2Proof.Machine.execCsumPkt t f s
  | .hash64 t f => Sys2Proof.Machine.execHash64 t f s
  | .flowRead t f => Sys2Proof.Machine.execFlowRead t f s
  | .flowReadx t f => Sys2Proof.Machine.execFlowReadx t f s
  | .flowGet t f => Sys2Proof.Machine.execFlowGet t f s
  | .flowAdd t f => Sys2Proof.Machine.execFlowAdd t f s
  | .flowSet t f => Sys2Proof.Machine.execFlowSet t f s
  | .flowCas t f => Sys2Proof.Machine.execFlowCas t f s
  | .flowInsert t f => Sys2Proof.Machine.execFlowInsert t f s
  | .flowDelete t f => Sys2Proof.Machine.execFlowDelete t f s
  | .posRead t f => Sys2Proof.Machine.execPosRead t f s
  | .posAdd t f => Sys2Proof.Machine.execPosAdd t f s
  | .posCmp t f => Sys2Proof.Machine.execPosCmp t f s
  | .evtSched t f => Sys2Proof.Machine.execEvtSched t f s
  | .evtCancel t f => Sys2Proof.Machine.execEvtCancel t f s
  | .evtPoll t f => Sys2Proof.Machine.execEvtPoll t f s
  | .alloc t f => Sys2Proof.Machine.execAlloc t f s
  | .freeBuf t f => Sys2Proof.Machine.execFreeBuf t f s
  | .pktRd t f => Sys2Proof.Machine.execPktRd t f s
  | .pktWr t f => Sys2Proof.Machine.execPktWr t f s
  | .pktIns t f => Sys2Proof.Machine.execPktIns t f s
  | .pktStrip t f => Sys2Proof.Machine.execPktStrip t f s
  | .pktMove t f => Sys2Proof.Machine.execPktMove t f s
  | .acfPack t f => Sys2Proof.Machine.execAcfPack t f s
  | .acfUnpack t f => Sys2Proof.Machine.execAcfUnpack t f s
  | .learn panel => Sys2Proof.Machine.execLearn panel s
  | .activityUpdate panel => Sys2Proof.Machine.execActivityUpdate panel s
  | .remoteCopyWrite panel => Sys2Proof.Machine.execRemoteCopyWrite panel s
  | .scanPass panel => Sys2Proof.Machine.execScanPass panel s
  | .scanResume panel => Sys2Proof.Machine.execScanResume panel s
  | .cdeleteDecide panel => Sys2Proof.Machine.execCdeleteDecide panel s
  | .missQueueAdmit panel => Sys2Proof.Machine.execMissQueueAdmit panel s
  | .missServe panel => Sys2Proof.Machine.execMissServe panel s
  | .adoptConflict panel => Sys2Proof.Machine.execAdoptConflict panel s
  | .resequenceTimeout panel stream => Sys2Proof.Machine.execResequenceTimeout panel stream s
  | .egressAdmission panel => Sys2Proof.Machine.execEgressAdmission panel s
  | .frerReset panel entry => Sys2Proof.Machine.execFrerReset panel entry s
  | .pinTransition pin level => Sys2Proof.Machine.execPinTransition pin level s
  | .pinEdgeAccept pin => Sys2Proof.Machine.execPinEdgeAccept pin s
  | .safeClear who pin val => Sys2Proof.Machine.execSafeClear who pin val s
  | .deadTimeExpire panel pair => Sys2Proof.Machine.execDeadTimeExpire panel pair s
  | .sentFrame receiver sync status data tail sinceNs => Sys2Proof.Machine.execSentFrame receiver sync status data tail sinceNs s
  | .sourceSample input a b => Sys2Proof.Machine.execSourceSample input a b s
  | .sarConversion converter codes => Sys2Proof.Machine.execSarConversion converter codes s
  | .sdmOutput input bitstream => Sys2Proof.Machine.execSdmOutput input bitstream s
  | .dramCommandIssue panel channel => Sys2Proof.Machine.execDramCommandIssue panel channel s
  | .dramReadComplete panel channel err => Sys2Proof.Machine.execDramReadComplete panel channel err s
  | .refreshDue panel channel => Sys2Proof.Machine.execRefreshDue panel channel s
  | .mr4Read panel channel rate rfm => Sys2Proof.Machine.execMr4Read panel channel rate rfm s
  | .retrain panel channel trigger temp => Sys2Proof.Machine.execRetrain panel channel trigger temp s
  | .retrainComplete panel channel pass temp => Sys2Proof.Machine.execRetrainComplete panel channel pass temp s
  | .wideSearchComplete panel channel pass temp => Sys2Proof.Machine.execWideSearchComplete panel channel pass temp s
  | .resyncComplete => Sys2Proof.Machine.execResyncComplete  s
  | .doorbell qp psn rkey off bytes ce => Sys2Proof.Machine.execDoorbell qp psn rkey off bytes ce s
  | .rdmaWrite qp psn rkey va bytes ce => Sys2Proof.Machine.execRdmaWrite qp psn rkey va bytes ce s
  | .rdmaRead qp psn rkey va len ce => Sys2Proof.Machine.execRdmaRead qp psn rkey va len ce s
  | .ackReceive qp psn syndrome ce => Sys2Proof.Machine.execAckReceive qp psn syndrome ce s
  | .ackTimeout qp => Sys2Proof.Machine.execAckTimeout qp s
  | .rnrRetry qp => Sys2Proof.Machine.execRnrRetry qp s
  | .cnpReceive qp => Sys2Proof.Machine.execCnpReceive qp s
  | .rateIncrease qp => Sys2Proof.Machine.execRateIncrease qp s
  | .commandFetch ring ans => Sys2Proof.Machine.execCommandFetch ring ans s
  | .qpStateWrite who qp val => Sys2Proof.Machine.execQpStateWrite who qp val s
  | .ringEnable who ring val => Sys2Proof.Machine.execRingEnable who ring val s
  | .failback who val => Sys2Proof.Machine.execFailback who val s
  | .failover => Sys2Proof.Machine.execFailover  s
  | .nop x => Sys2Proof.Machine.execNop x s
  | .stagedInsert c => Sys2Proof.Machine.execStagedInsert c s
  | .unversionedInsert c => Sys2Proof.Machine.execUnversionedInsert c s
  | .stagedDelete c => Sys2Proof.Machine.execStagedDelete c s
  | .unversionedDelete c => Sys2Proof.Machine.execUnversionedDelete c s
  | .stagedModify c => Sys2Proof.Machine.execStagedModify c s
  | .unversionedModify c => Sys2Proof.Machine.execUnversionedModify c s
  | .tblCdelete c => Sys2Proof.Machine.execTblCdelete c s
  | .hostFlowInsert c => Sys2Proof.Machine.execHostFlowInsert c s
  | .hostFlowDelete c => Sys2Proof.Machine.execHostFlowDelete c s
  | .flowWrite c => Sys2Proof.Machine.execFlowWrite c s
  | .hostFlowRead c => Sys2Proof.Machine.execHostFlowRead c s
  | .flowSetms c => Sys2Proof.Machine.execFlowSetms c s
  | .bindSet c => Sys2Proof.Machine.execBindSet c s
  | .stats c => Sys2Proof.Machine.execStats c s
  | .regRead c => Sys2Proof.Machine.execRegRead c s
  | .regWrite x => Sys2Proof.Machine.execRegWrite x s
  | .modeCmd c => Sys2Proof.Machine.execModeCmd c s
  | .keyLoad c => Sys2Proof.Machine.execKeyLoad c s
  | .keyErase c => Sys2Proof.Machine.execKeyErase c s
  | .work c => Sys2Proof.Machine.execWork c s
  | .txFrame c ans => Sys2Proof.Machine.execTxFrame c ans s
  | .rafRead f => Sys2Proof.Machine.execRafRead f s
  | .rafWrite x => Sys2Proof.Machine.execRafWrite x s
  | .svNop x => Sys2Proof.Machine.execSvNop x s
  | .setpage r => Sys2Proof.Machine.execSetpage r s
  | .rdS r => Sys2Proof.Machine.execRdS r s
  | .wrS x => Sys2Proof.Machine.execWrS x s
  | .mbxSend r => Sys2Proof.Machine.execMbxSend r s
  | .mbxRecv r => Sys2Proof.Machine.execMbxRecv r s
  | .resetA r => Sys2Proof.Machine.execResetA r s
  | .resetB r => Sys2Proof.Machine.execResetB r s
  | .svLimp r => Sys2Proof.Machine.execSvLimp r s
  | .svSleep r => Sys2Proof.Machine.execSvSleep r s
  | .svWake r => Sys2Proof.Machine.execSvWake r s
  | .recRead r => Sys2Proof.Machine.execRecRead r s
  | .flashRd r => Sys2Proof.Machine.execFlashRd r s
  | .flashWr r => Sys2Proof.Machine.execFlashWr r s
  | .flashErase r => Sys2Proof.Machine.execFlashErase r s
  | .attest r => Sys2Proof.Machine.execAttest r s
  | .attestComplete => Sys2Proof.Machine.execAttestComplete  s
  | .attestRd r => Sys2Proof.Machine.execAttestRd r s
  | .resend r => Sys2Proof.Machine.execResend r s
  | .frameAbort => Sys2Proof.Machine.execFrameAbort  s
  | .crcErr => Sys2Proof.Machine.execCrcErr  s
  | .attnClear who val => Sys2Proof.Machine.execAttnClear who val s
  | .modCmdWrite who val => Sys2Proof.Machine.execModCmdWrite who val s
  | .powerOn fuseOk => Sys2Proof.Machine.execPowerOn fuseOk s
  | .powerLoss => Sys2Proof.Machine.execPowerLoss  s
  | .panelBootDone panel found repairOk temp => Sys2Proof.Machine.execPanelBootDone panel found repairOk temp s
  | .panelNotPowered panel => Sys2Proof.Machine.execPanelNotPowered panel s
  | .panelReset panel pin => Sys2Proof.Machine.execPanelReset panel pin s
  | .sleepEntryComplete => Sys2Proof.Machine.execSleepEntryComplete  s
  | .wakeEvent w => Sys2Proof.Machine.execWakeEvent w s
  | .tokenGo who val => Sys2Proof.Machine.execTokenGo who val s
  | .tokenVerifyComplete => Sys2Proof.Machine.execTokenVerifyComplete  s
  | .arbAdvance who val => Sys2Proof.Machine.execArbAdvance who val s
  | .ownerXfer who val => Sys2Proof.Machine.execOwnerXfer who val s
  | .errorDetected e => Sys2Proof.Machine.execErrorDetected e s
  | .recoveryStart panel => Sys2Proof.Machine.execRecoveryStart panel s
  | .recoveryResume panel => Sys2Proof.Machine.execRecoveryResume panel s
  | .retestComplete panel unit index pass => Sys2Proof.Machine.execRetestComplete panel unit index pass s
  | .panelLoss x => Sys2Proof.Machine.execPanelLoss x s
  | .bridgeFailure => Sys2Proof.Machine.execBridgeFailure  s
  | .bridgeRetrain pass => Sys2Proof.Machine.execBridgeRetrain pass s
  | .crystalFail ok => Sys2Proof.Machine.execCrystalFail ok s
  | .swatchCycleStart panel => Sys2Proof.Machine.execSwatchCycleStart panel s
  | .sliceStart panel => Sys2Proof.Machine.execSliceStart panel s
  | .sliceComplete panel pass patterns misr => Sys2Proof.Machine.execSliceComplete panel pass patterns misr s
  | .extendedSelftest who panel val found => Sys2Proof.Machine.execExtendedSelftest who panel val found s
  | .intervalEnd => Sys2Proof.Machine.execIntervalEnd  s
  | .lifeSample temps volts => Sys2Proof.Machine.execLifeSample temps volts s
  | .flush bad => Sys2Proof.Machine.execFlush bad s
  | .flushGo who val => Sys2Proof.Machine.execFlushGo who val s
  | .recFselWrite who val => Sys2Proof.Machine.execRecFselWrite who val s
  | .lowrst who val => Sys2Proof.Machine.execLowrst who val s
  | .vidStep panel up => Sys2Proof.Machine.execVidStep panel up s
  | .fabricSlot => Sys2Proof.Machine.execFabricSlot  s
  | .preemptionVerification port ok => Sys2Proof.Machine.execPreemptionVerification port ok s
  | .panelStart panel => Sys2Proof.Machine.execPanelStart panel s
  | .recoveryClose panel slot outcome => Sys2Proof.Machine.execRecoveryClose panel slot outcome s
  | .wakeRetry k => Sys2Proof.Machine.execWakeRetry k s

end Sys2Proof.Machine
end

