-- ==== Sys2Proof/WellFormed.lean ====
section
/-! DEFINITION. Which commands are well-formed: those whose operands name parts the block has, and whose byte and word strings have
the lengths their formats give them. -/

namespace Sys2Proof

/-- A write port access: 1–4 bytes (R5). -/
def RegAcc.wf (a : RegAcc) : Bool := decide (1 ≤ a.size) && decide (a.size ≤ 4) && decide (a.addr < 4294967296)

/-- A command entry (R310): its ring, and 48 payload bytes and, with LONG, 64 extension bytes. -/
def CmdIn.wf (c : CmdIn) : Bool :=
  decide (c.ring < 256) && decide (c.payload.length = 48) && decide (c.ext.length = if c.long then 64 else 0)

/-- A Selvage request (R322): its payload has LEN words, or none where LEN counts the words to be returned. -/
def SvReq.wf (r : SvReq) : Bool := decide (r.payload.length = r.len.toNat) || r.payload.isEmpty

/-- An item named for its timeout (R114). -/
def TimedItem.wf : TimedItem → Bool
  | .held panel llid => decide (panel < 2) && decide (llid < 4096)
  | .listed panel odom marker => decide (panel < 2) && decide (odom < 16384) && decide (marker < 65536)

/-- Is a command well-formed? -/
def Instr.wf (i : Instr) : Bool :=
  match i with
  | .registerWrite a => a.wf
  | .domainEnable _ n _ => decide (n < 16)
  | .domainDisable _ n _ => decide (n < 16)
  | .primaryResume _ n _ => decide (n < 16)
  | .sourceObservation n _ _ => decide (n < 16)
  | .sourceLost panel n => decide (panel < 2) && decide (n < 16)
  | .edgeOverdue panel n => decide (panel < 2) && decide (n < 16)
  | .uncLimit panel n => decide (panel < 2) && decide (n < 16)
  | .coastLimit panel n => decide (panel < 2) && decide (n < 16)
  | .eventFire _ => true
  | .frameReceive f => decide (f.port < 1024)
  | .portLinkDown port => decide (port < 1024)
  | .portLinkUp port _ => decide (port < 1024)
  | .linDominantTimeout port => decide (port < 1024)
  | .linRecessiveRecovery port => decide (port < 1024)
  | .canBusoffRecovery port => decide (port < 1024)
  | .egressTransmit x => decide (x.port < 1024)
  | .txAbandon port => decide (port < 1024)
  | .linHeaderReceive port _ response => decide (port < 1024) && decide (response.data.length ≤ 8)
  | .linSlotStart port => decide (port < 1024)
  | .canScheduleEntry panel entry => decide (panel < 2) && decide (entry < 256)
  | .parsePass panel parser => decide (panel < 2) && decide (parser < 4)
  | .chartCommit _ _ => true
  | .chartAbort _ _ => true
  | .sweepPassEnd => true
  | .generationRetire => true
  | .holdQueueRetry panel => decide (panel < 2)
  | .spillReturn list => decide (list < 1024)
  | .dispatch course => decide (course < 8)
  | .releaseTurn panel llid => decide (panel < 2) && decide (llid < 4096)
  | .bindTimeout x => x.wf
  | .lockGrant t => decide (t < 832)
  | .reservedMajor t _ => decide (t < 832)
  | .add t _ => decide (t < 832)
  | .sub t _ => decide (t < 832)
  | .andR t _ => decide (t < 832)
  | .orR t _ => decide (t < 832)
  | .xorR t _ => decide (t < 832)
  | .andn t _ => decide (t < 832)
  | .sll t _ => decide (t < 832)
  | .srl t _ => decide (t < 832)
  | .sra t _ => decide (t < 832)
  | .ror t _ => decide (t < 832)
  | .mul t _ => decide (t < 832)
  | .mulhu t _ => decide (t < 832)
  | .mulhs t _ => decide (t < 832)
  | .minS t _ => decide (t < 832)
  | .maxS t _ => decide (t < 832)
  | .minu t _ => decide (t < 832)
  | .maxu t _ => decide (t < 832)
  | .clz t _ => decide (t < 832)
  | .ctz t _ => decide (t < 832)
  | .popc t _ => decide (t < 832)
  | .bswap t _ => decide (t < 832)
  | .addd t _ => decide (t < 832)
  | .subd t _ => decide (t < 832)
  | .addi t _ => decide (t < 832)
  | .andi t _ => decide (t < 832)
  | .ori t _ => decide (t < 832)
  | .xori t _ => decide (t < 832)
  | .shi t _ => decide (t < 832)
  | .movl t _ => decide (t < 832)
  | .movh t _ => decide (t < 832)
  | .extu t _ => decide (t < 832)
  | .exts t _ => decide (t < 832)
  | .ins t _ => decide (t < 832)
  | .eq t _ => decide (t < 832)
  | .ne t _ => decide (t < 832)
  | .lt t _ => decide (t < 832)
  | .ge t _ => decide (t < 832)
  | .ltu t _ => decide (t < 832)
  | .geu t _ => decide (t < 832)
  | .tst t _ => decide (t < 832)
  | .cmpeqi t _ => decide (t < 832)
  | .cmplti t _ => decide (t < 832)
  | .cmpltui t _ => decide (t < 832)
  | .pand t _ => decide (t < 832)
  | .por t _ => decide (t < 832)
  | .pxor t _ => decide (t < 832)
  | .pandn t _ => decide (t < 832)
  | .pnot t _ => decide (t < 832)
  | .ldb t _ => decide (t < 832)
  | .ldbu t _ => decide (t < 832)
  | .ldh t _ => decide (t < 832)
  | .ldhu t _ => decide (t < 832)
  | .ldw t _ => decide (t < 832)
  | .ldd t _ => decide (t < 832)
  | .stb t _ => decide (t < 832)
  | .sth t _ => decide (t < 832)
  | .stw t _ => decide (t < 832)
  | .std t _ => decide (t < 832)
  | .ldx t _ => decide (t < 832)
  | .stx t _ => decide (t < 832)
  | .ldpi t _ => decide (t < 832)
  | .stpi t _ => decide (t < 832)
  | .amoSwap t _ => decide (t < 832)
  | .amoAdd t _ => decide (t < 832)
  | .amoAnd t _ => decide (t < 832)
  | .amoOr t _ => decide (t < 832)
  | .amoXor t _ => decide (t < 832)
  | .amoMinu t _ => decide (t < 832)
  | .amoMaxu t _ => decide (t < 832)
  | .amoCas t _ => decide (t < 832)
  | .b t _ => decide (t < 832)
  | .bl t _ => decide (t < 832)
  | .jalr t _ => decide (t < 832)
  | .yput t _ => decide (t < 832)
  | .ysend t _ => decide (t < 832)
  | .yrecv t _ => decide (t < 832)
  | .yget t _ => decide (t < 832)
  | .ydrop t _ => decide (t < 832)
  | .yarnWaitServe t => decide (t < 832)
  | .yarnTimeout t => decide (t < 832)
  | .yarnMessageArrive course yarn => decide (course < 8) && decide (yarn < 64)
  | .mth t _ => decide (t < 832)
  | .mfh t _ => decide (t < 832)
  | .mthd t _ => decide (t < 832)
  | .hclr t _ => decide (t < 832)
  | .hcpy t _ => decide (t < 832)
  | .hook7 t _ _ => decide (t < 832)
  | .brk t _ => decide (t < 832)
  | .eret t _ => decide (t < 832)
  | .waitd t _ => decide (t < 832)
  | .bindoff t _ => decide (t < 832)
  | .halt t _ => decide (t < 832)
  | .fence t _ => decide (t < 832)
  | .hsync t _ => decide (t < 832)
  | .mfsr t _ => decide (t < 832)
  | .mtsr t _ => decide (t < 832)
  | .memoryResultArrive t _ _ => decide (t < 832)
  | .hookResultArrive t _ => decide (t < 832)
  | .hookBusyTimeout t => decide (t < 832)
  | .knot course => decide (course < 8)
  | .knotTrap t => decide (t < 832)
  | .ndlRst _ panel _ => decide (panel < 2)
  | .debugHalt t => decide (t < 832)
  | .debugResume t => decide (t < 832)
  | .debugStep t => decide (t < 832)
  | .debugRead d => decide (d.t < 832)
  | .debugWrite d _ => decide (d.t < 832)
  | .debugTink t _ => decide (t < 832)
  | .endpointDelivery e => decide (e < 43)
  | .ctxInit t _ => decide (t < 832)
  | .aad t _ => decide (t < 832)
  | .enc t _ => decide (t < 832)
  | .dec t _ => decide (t < 832)
  | .mac t _ => decide (t < 832)
  | .tag t _ => decide (t < 832)
  | .tagchk t _ => decide (t < 832)
  | .absorb t _ => decide (t < 832)
  | .squeeze t _ => decide (t < 832)
  | .aesEnc t _ => decide (t < 832)
  | .aesDec t _ => decide (t < 832)
  | .latNtt t _ => decide (t < 832)
  | .latPmul t _ => decide (t < 832)
  | .latPadd t _ => decide (t < 832)
  | .latExpand t _ => decide (t < 832)
  | .emLookup t _ => decide (t < 832)
  | .lpmLookup t _ => decide (t < 832)
  | .l2Lookup t _ => decide (t < 832)
  | .flowFind t _ => decide (t < 832)
  | .csum t _ => decide (t < 832)
  | .crc32c t _ => decide (t < 832)
  | .crc32 t _ => decide (t < 832)
  | .crc8 t _ => decide (t < 832)
  | .crc16 t _ => decide (t < 832)
  | .csumPkt t _ => decide (t < 832)
  | .hash64 t _ => decide (t < 832)
  | .flowRead t _ => decide (t < 832)
  | .flowReadx t _ => decide (t < 832)
  | .flowGet t _ => decide (t < 832)
  | .flowAdd t _ => decide (t < 832)
  | .flowSet t _ => decide (t < 832)
  | .flowCas t _ => decide (t < 832)
  | .flowInsert t _ => decide (t < 832)
  | .flowDelete t _ => decide (t < 832)
  | .posRead t _ => decide (t < 832)
  | .posAdd t _ => decide (t < 832)
  | .posCmp t _ => decide (t < 832)
  | .evtSched t _ => decide (t < 832)
  | .evtCancel t _ => decide (t < 832)
  | .evtPoll t _ => decide (t < 832)
  | .alloc t _ => decide (t < 832)
  | .freeBuf t _ => decide (t < 832)
  | .pktRd t _ => decide (t < 832)
  | .pktWr t _ => decide (t < 832)
  | .pktIns t _ => decide (t < 832)
  | .pktStrip t _ => decide (t < 832)
  | .pktMove t _ => decide (t < 832)
  | .acfPack t _ => decide (t < 832)
  | .acfUnpack t _ => decide (t < 832)
  | .learn panel => decide (panel < 2)
  | .activityUpdate panel => decide (panel < 2)
  | .remoteCopyWrite panel => decide (panel < 2)
  | .scanPass panel => decide (panel < 2)
  | .scanResume panel => decide (panel < 2)
  | .cdeleteDecide panel => decide (panel < 2)
  | .missQueueAdmit panel => decide (panel < 2)
  | .missServe panel => decide (panel < 2)
  | .adoptConflict panel => decide (panel < 2)
  | .resequenceTimeout panel stream => decide (panel < 2) && decide (stream < 2048)
  | .egressAdmission panel => decide (panel < 2)
  | .frerReset panel entry => decide (panel < 2) && decide (entry < 256)
  | .pinTransition pin _ => decide (pin < 256)
  | .pinEdgeAccept pin => decide (pin < 256)
  | .safeClear _ pin _ => decide (pin < 256)
  | .deadTimeExpire panel pair => decide (panel < 2) && decide (pair < 64)
  | .sentFrame receiver _ _ _ _ _ => decide (receiver < 32)
  | .sourceSample input _ _ => decide (input < 32)
  | .sarConversion converter _ => decide (converter < 4)
  | .sdmOutput input bitstream => decide (input < 8) && decide (bitstream.length ≤ 256)
  | .dramCommandIssue panel channel => decide (panel < 2) && decide (channel < 4)
  | .dramReadComplete panel channel _ => decide (panel < 2) && decide (channel < 4)
  | .refreshDue panel channel => decide (panel < 2) && decide (channel < 4)
  | .mr4Read panel channel _ _ => decide (panel < 2) && decide (channel < 4)
  | .retrain panel channel _ _ => decide (panel < 2) && decide (channel < 4)
  | .retrainComplete panel channel _ _ => decide (panel < 2) && decide (channel < 4)
  | .wideSearchComplete panel channel _ _ => decide (panel < 2) && decide (channel < 4)
  | .resyncComplete => true
  | .doorbell qp _ _ _ _ _ => decide (qp < 64)
  | .rdmaWrite qp _ _ _ _ _ => decide (qp < 64)
  | .rdmaRead qp _ _ _ _ _ => decide (qp < 64)
  | .ackReceive qp _ _ _ => decide (qp < 64)
  | .ackTimeout qp => decide (qp < 64)
  | .rnrRetry qp => decide (qp < 64)
  | .cnpReceive qp => decide (qp < 64)
  | .rateIncrease qp => decide (qp < 64)
  | .commandFetch ring _ => decide (ring < 256)
  | .qpStateWrite _ qp _ => decide (qp < 64)
  | .ringEnable _ ring _ => decide (ring < 256)
  | .failback _ _ => true
  | .failover => true
  | .nop x => x.cmd.wf && (decide (x.op = 0#8) || !ringOps.contains x.op.toNat)
  | .stagedInsert c => c.wf
  | .unversionedInsert c => c.wf
  | .stagedDelete c => c.wf
  | .unversionedDelete c => c.wf
  | .stagedModify c => c.wf
  | .unversionedModify c => c.wf
  | .tblCdelete c => c.wf
  | .hostFlowInsert c => c.wf
  | .hostFlowDelete c => c.wf
  | .flowWrite c => c.wf
  | .hostFlowRead c => c.wf
  | .flowSetms c => c.wf
  | .bindSet c => c.wf
  | .stats c => c.wf
  | .regRead c => c.wf
  | .regWrite x => x.cmd.wf && decide (x.rivals.length ≤ 8)
  | .modeCmd c => c.wf
  | .keyLoad c => c.wf
  | .keyErase c => c.wf
  | .work c => c.wf
  | .txFrame c _ => c.wf
  | .rafRead f => decide (f.port < 1024)
  | .rafWrite x => decide (x.frame.port < 1024) && decide (x.rivals.length ≤ 32)
  | .svNop x => x.req.wf && (decide (x.op = 0#6) || !svOps.contains x.op.toNat)
  | .setpage r => r.wf
  | .rdS r => r.wf
  | .wrS x => x.req.wf && decide (x.rivals.length ≤ 32)
  | .mbxSend r => r.wf
  | .mbxRecv r => r.wf
  | .resetA r => r.wf
  | .resetB r => r.wf
  | .svLimp r => r.wf
  | .svSleep r => r.wf
  | .svWake r => r.wf
  | .recRead r => r.wf
  | .flashRd r => r.wf
  | .flashWr r => r.wf
  | .flashErase r => r.wf
  | .attest r => r.wf
  | .attestComplete => true
  | .attestRd r => r.wf
  | .resend r => r.wf
  | .frameAbort => true
  | .crcErr => true
  | .attnClear _ _ => true
  | .modCmdWrite _ _ => true
  | .powerOn _ => true
  | .powerLoss => true
  | .panelBootDone panel _ _ _ => decide (panel < 2)
  | .panelNotPowered panel => decide (panel < 2)
  | .panelReset panel _ => decide (panel < 2)
  | .sleepEntryComplete => true
  | .wakeEvent _ => true
  | .tokenGo _ _ => true
  | .tokenVerifyComplete => true
  | .arbAdvance _ _ => true
  | .ownerXfer _ _ => true
  | .errorDetected e => decide (e.panel < 2)
  | .recoveryStart panel => decide (panel < 2)
  | .recoveryResume panel => decide (panel < 2)
  | .retestComplete panel _ _ _ => decide (panel < 2)
  | .panelLoss x => decide (x.panel < 2)
  | .bridgeFailure => true
  | .bridgeRetrain _ => true
  | .crystalFail _ => true
  | .swatchCycleStart panel => decide (panel < 2)
  | .sliceStart panel => decide (panel < 2)
  | .sliceComplete panel _ _ _ => decide (panel < 3)
  | .extendedSelftest _ panel _ _ => decide (panel < 2)
  | .intervalEnd => true
  | .lifeSample _ _ => true
  | .flush _ => true
  | .flushGo _ _ => true
  | .recFselWrite _ _ => true
  | .lowrst _ _ => true
  | .vidStep panel _ => decide (panel < 2)
  | .fabricSlot => true
  | .preemptionVerification port _ => decide (port < 1024)
  | .panelStart panel => decide (panel < 2)
  | .recoveryClose panel slot _ => decide (panel < 2) && decide (slot < 5)
  | .wakeRetry _ => true

end Sys2Proof
end

