-- ==== Sys2Proof/Safety.lean ====
section
/-! DEFINITION. What a safe run of the block is, and the terms in which claims speak of a step: which strand may run an
instruction, and what a command that works on one strand leaves alone. -/

namespace Sys2Proof.Machine

/-- Does a step answer a next state? -/
def Goes (o : Host.Outcome State Fault Refusal) : Prop := ∃ t, o = .next t

/-- The state after `n` steps, or none where a step has stopped. -/
def after : Nat → State → Option State
  | 0, s => some s
  | n + 1, s => match step s with
    | .next t => after n t
    | _ => none

/-- A safe run: none of its first `n` steps stops. -/
def SafeRun (s : State) (n : Nat) : Prop := (after n s).isSome = true

/-- No watch register of strand `t` can match: its trap level is set, the instruction follows an ERET, or no kind of
access is watched (R146). -/
def Unwatched (s : State) (t : Nat) : Prop :=
  (s.bank t).exl = true ∨ (s.bank t).watchExempt = true ∨ bits (s.strand t).wpctl.toNat 0 3 = 0

/-- Strand `t` may issue, waits at no hook, and its pc lies in an executable region (R120, R151). -/
def Offered (s : State) (t : Nat) : Prop :=
  s.mayIssue t = true ∧ (s.strand t).busy = none ∧ (s.strand t).canFetch = true

/-- An instruction with guard `g` that names general registers `regs` and hook registers `hregs` takes effect if it
passes its own checks: the strand is offered the slot, the guard holds (R122), the registers have arrived (R132, R135)
and nothing is watched. -/
def Runs (s : State) (t : Nat) (g : BitVec 4) (regs hregs : List Nat) : Prop :=
  Offered s t ∧ (s.bank t).guardOk g = true ∧ (s.bank t).arrived regs = true ∧ (s.strand t).hookArrived hregs = true
    ∧ Unwatched s t

/-- `u` is `s` but for strand `t`, which has become `x`; every other strand and every other part of the state is as it
was. -/
def Became (s u : State) (t : Nat) (x : Strand) : Prop :=
  u = { s with strands := u.strands } ∧ u.strand t = x ∧ ∀ k, k ≠ t → u.strand k = s.strand k

/-- An outcome of strand `t`'s instruction on state `m`: strand `t` becomes `x`, and a debugger STEP that it ran under ends (R166, R261). -/
def Completes (o : Host.Outcome State Fault Refusal) (m : State) (t : Nat) (x : Strand) : Prop :=
  ∃ v, o = .next (v.stepDone t) ∧ Became m v t x

/-- The running bank once the pc has moved past the instruction (R120). -/
def Bank.next (b : Bank) : Bank := { b with pc := b.pc + 4#32, watchExempt := false }

/-- The memories and the flash are in their canonical form (log entry 5; R346). -/
def State.memoryOk (s : State) : Bool := Memory.wf s.mem && SMap.wf s.flash 0xFF#8

/-- The keys of the maps that a strand, an ordering domain or a panel's flow state and search tables hold rise. -/
def State.innerOk (s : State) : Bool :=
  (s.strands.all fun e => SMap.sorted e.2.bank0.g && SMap.sorted e.2.bank1.g) && (s.odoms.all fun e => SMap.sorted e.2.slots) &&
  SMap.sorted s.flwA.adoptUsed && SMap.sorted s.flwB.adoptUsed &&
  SMap.sorted s.tbl.a.ents && SMap.sorted s.tbl.a.act && SMap.sorted s.tbl.b.ents && SMap.sorted s.tbl.b.act

/-- The keys of the maps of the ports and of the timed I/O rise. -/
def State.portsOk (s : State) : Bool :=
  SMap.sorted s.swt.link && SMap.sorted s.swt.wentDown && SMap.sorted s.swt.rate && SMap.sorted s.swt.bound && SMap.sorted s.swt.parseQ &&
  SMap.sorted s.swt.frames && SMap.sorted s.swt.streams && SMap.sorted s.swt.adm && SMap.sorted s.swt.qs && SMap.sorted s.swt.frer &&
  SMap.sorted s.swt.verified && SMap.sorted s.swt.canTx && SMap.sorted s.tio.pins && SMap.sorted s.tio.dead && SMap.sorted s.tio.sdmOut &&
  SMap.sorted s.tio.peak && SMap.sorted s.tio.phase && SMap.sorted s.tio.seq

/-- No strand is in the middle of an operation that a hook unit takes from its queue: such an operation runs within one step (R173). -/
def State.unitsIdle (s : State) : Bool := s.strands.all fun e => e.2.running.isNone

/-- The maps that statements read are in their canonical order: keys strictly rising. -/
def State.mapsOk (s : State) : Bool :=
  SMap.sorted s.regs && SMap.sorted s.ctrs && SMap.sorted s.strands && SMap.sorted s.lls && SMap.sorted s.odoms && SMap.sorted s.doms &&
  SMap.sorted s.evDone && SMap.sorted s.yrn.yarns && SMap.sorted s.car.lists && SMap.sorted s.car.spill && SMap.sorted s.flt.slots &&
  SMap.sorted s.flt.fenced && SMap.sorted s.drm.due && SMap.sorted s.drm.errTrain && SMap.sorted s.drm.rate && SMap.sorted s.drm.reading &&
  SMap.sorted s.drm.rows && SMap.sorted s.hst.jrnl &&
  SMap.sorted s.hst.qps && SMap.sorted s.hst.rings && SMap.sorted s.rcd.hist && SMap.sorted s.sec.keys && SMap.sorted s.swa.results &&
  SMap.sorted s.swa.run && s.innerOk && s.portsOk

end Sys2Proof.Machine
end

