-- ==== Sys2Proof/Certificates/Slice0/Obligations.lean ====
section
/-! DEFINITION. The statements for the provers, with the vocabulary they share. -/

open Sys2Proof Sys2Proof.Machine

/-- For every command and state, a step with the command at the front of the queue is the command's effect on the state
with the queue's rest; an empty queue lets one needle cycle pass (log entry 2). -/
def Obligations.StepRunsFront : Prop :=
  (∀ (c : Instr) (cs : List Instr) (s : State), s.pending = c :: cs → step s = exec c { s with pending := cs }) ∧
  ∀ (s : State), s.pending = [] → step s = .next { s with now := s.now + cycleU s.part }

namespace Sys2Proof.Machine

/-- The two-operand ALU instructions and what each writes (R125). -/
def aluOps : List ((Nat → RFmt → Instr) × (Word → Word → Word)) :=
  [(.add, fun a b => a + b), (.sub, fun a b => a - b), (.andR, fun a b => a &&& b), (.orR, fun a b => a ||| b),
   (.xorR, fun a b => a ^^^ b), (.andn, fun a b => a &&& ~~~b), (.sll, fun a b => a <<< (b.toNat % 32)),
   (.srl, fun a b => a >>> (b.toNat % 32)), (.sra, fun a b => a.sshiftRight (b.toNat % 32)),
   (.ror, fun a b => a.rotateRight (b.toNat % 32)), (.mul, fun a b => a * b),
   (.mulhu, fun a b => BitVec.ofNat 32 (a.toNat * b.toNat / 2 ^ 32)),
   (.mulhs, fun a b => BitVec.ofInt 32 (a.toInt * b.toInt / 2 ^ 32)),
   (.minS, fun a b => if a.slt b then a else b), (.maxS, fun a b => if a.slt b then b else a),
   (.minu, fun a b => if a.ult b then a else b), (.maxu, fun a b => if a.ult b then b else a)]

/-- The unary ALU instructions, with the minor of each (R125). -/
def aluUnary : List ((Nat → RFmt → Instr) × Nat × (Word → Word)) :=
  [(.clz, 0x11, fun a => w32 (lzc a)), (.ctz, 0x12, fun a => w32 (tzc a)), (.popc, 0x13, fun a => w32 (popN a.toNat 32)),
   (.bswap, 0x14, fun a => w32 (beVal (leBytes 4 a.toNat)))]

/-- The 64-bit ALU instructions, with the minor of each (R125). -/
def aluPairs : List ((Nat → RFmt → Instr) × Nat × (Nat → Nat → Nat)) :=
  [(.addd, 0x15, fun a b => (a + b) % 2 ^ 64), (.subd, 0x16, fun a b => (a + 2 ^ 64 - b) % 2 ^ 64)]

/-- The compares of two registers (R127), with the minor of each. -/
def cmpOps : List ((Nat → PRFmt → Instr) × Nat × (Word → Word → Bool)) :=
  [(.eq, 0, fun a b => decide (a = b)), (.ne, 1, fun a b => decide (a ≠ b)), (.lt, 2, fun a b => decide (a.toInt < b.toInt)),
   (.ge, 3, fun a b => decide (b.toInt ≤ a.toInt)), (.ltu, 4, fun a b => decide (a.toNat < b.toNat)),
   (.geu, 5, fun a b => decide (b.toNat ≤ a.toNat)), (.tst, 6, fun a b => decide (a &&& b ≠ 0#32))]

/-- The compares with an immediate (R127), with the major of each. -/
def cmpImms : List ((Nat → PIFmt → Instr) × Nat × (Word → BitVec 12 → Bool)) :=
  [(.cmpeqi, 0x09, fun a i => decide (a = i.signExtend 32)), (.cmplti, 0x0A, fun a i => decide (a.toInt < i.toInt)),
   (.cmpltui, 0x0B, fun a i => decide (a.toNat < i.toNat))]

/-- The predicate combinations (R127), with the minor of each. -/
def plogOps : List ((Nat → PLFmt → Instr) × Nat × (Bool → Bool → Bool)) :=
  [(.pand, 0, fun a b => a && b), (.por, 1, fun a b => a || b), (.pxor, 2, fun a b => a != b), (.pandn, 3, fun a b => a && !b),
   (.pnot, 4, fun a _ => !a)]

/-- Strand `t` of `s` completes an instruction whose one effect is that the running bank becomes `y`. -/
def BankBecomes (c : Instr) (s : State) (t : Nat) (y : Bank) : Prop :=
  Completes (exec c s) s t ((s.strand t).setCur y)

/-- The command raises EMU at decode with the detail given, whatever the guard (R123, R143). -/
def EmuAtDecode (c : Instr) (s : State) (t detail hookinfo : Nat) (word : Word) : Prop :=
  exec c s = .next (s.trapHere t .emu detail hookinfo word (s.bank t).pc ((s.bank t).pc + 4#32))

end Sys2Proof.Machine

/-- R125: the ALU instructions write rd as the table gives, and change nothing else but the pc; a unary one with rs2 not
zero and a 64-bit one with an odd register raise EMU_FIELD, and the reserved minors EMU_MINOR. -/
def Obligations.AluResults : Prop :=
  ∀ (s : State) (t : Nat) (f : RFmt), SMap.sorted s.strands = true →
    (∀ p ∈ aluOps, Runs s t f.g [f.rd.toNat, f.rs1.toNat, f.rs2.toNat] [] →
      BankBecomes (p.1 t f) s t ((s.bank t).next.wg f.rd.toNat (p.2 ((s.bank t).rg f.rs1.toNat) ((s.bank t).rg f.rs2.toNat)))) ∧
    (∀ p ∈ aluUnary,
      (f.rs2 = 0#5 → Runs s t f.g [f.rd.toNat, f.rs1.toNat] [] →
        BankBecomes (p.1 t f) s t ((s.bank t).next.wg f.rd.toNat (p.2.2 ((s.bank t).rg f.rs1.toNat)))) ∧
      (f.rs2 ≠ 0#5 → Offered s t → EmuAtDecode (p.1 t f) s t 2 0 (f.word 0 p.2.1))) ∧
    (∀ p ∈ aluPairs,
      (f.rd.toNat % 2 = 0 → f.rs1.toNat % 2 = 0 → f.rs2.toNat % 2 = 0 →
        Runs s t f.g [f.rd.toNat, f.rd.toNat + 1, f.rs1.toNat, f.rs1.toNat + 1, f.rs2.toNat, f.rs2.toNat + 1] [] →
        BankBecomes (p.1 t f) s t (((s.bank t).next.wg f.rd.toNat (w32 (p.2.2 ((s.bank t).pair f.rs1.toNat) ((s.bank t).pair f.rs2.toNat)))).wg
          (f.rd.toNat + 1) (w32 (p.2.2 ((s.bank t).pair f.rs1.toNat) ((s.bank t).pair f.rs2.toNat) / 2 ^ 32)))) ∧
      (f.rd.toNat % 2 ≠ 0 ∨ f.rs1.toNat % 2 ≠ 0 ∨ f.rs2.toNat % 2 ≠ 0 → Offered s t →
        EmuAtDecode (p.1 t f) s t 2 0 (f.word 0 p.2.1))) ∧
    (∀ w : Word, bits w.toNat 22 6 = 0 → 0x17 ≤ bits w.toNat 0 7 → Offered s t → EmuAtDecode (.reservedMajor t w) s t 1 0 w)

/-- R126: the immediate and field instructions write rd as the rule gives, and change nothing else but the pc; reserved
bits and a field that reaches past bit 31 raise EMU_FIELD. -/
def Obligations.ImmediateResults : Prop :=
  ∀ (s : State) (t : Nat), SMap.sorted s.strands = true →
    (∀ (f : IFmt), Runs s t f.g [f.rd.toNat, f.rs1.toNat] [] →
      let a := (s.bank t).rg f.rs1.toNat
      BankBecomes (.addi t f) s t ((s.bank t).next.wg f.rd.toNat (a + f.imm.signExtend 32)) ∧
      BankBecomes (.andi t f) s t ((s.bank t).next.wg f.rd.toNat (a &&& f.imm.zeroExtend 32)) ∧
      BankBecomes (.ori t f) s t ((s.bank t).next.wg f.rd.toNat (a ||| f.imm.zeroExtend 32)) ∧
      BankBecomes (.xori t f) s t ((s.bank t).next.wg f.rd.toNat (a ^^^ f.imm.zeroExtend 32)) ∧
      (bits f.imm.toNat 5 5 = 0 →
        let sh := bits f.imm.toNat 0 5
        let k := bits f.imm.toNat 10 2
        BankBecomes (.shi t f) s t ((s.bank t).next.wg f.rd.toNat
          (if k = 0 then a <<< sh else if k = 1 then a >>> sh else if k = 2 then a.sshiftRight sh else a.rotateRight sh)))) ∧
    (∀ (f : IFmt), Offered s t → bits f.imm.toNat 5 5 ≠ 0 → EmuAtDecode (.shi t f) s t 2 0 (f.word 0x05)) ∧
    (∀ (f : WFmt), Runs s t f.g [f.rd.toNat] [] → f.rsv = 0#1 →
      BankBecomes (.movl t f) s t ((s.bank t).next.wg f.rd.toNat (f.imm.zeroExtend 32)) ∧
      BankBecomes (.movh t f) s t ((s.bank t).next.wg f.rd.toNat
        (w32 (f.imm.toNat * 65536 + ((s.bank t).rg f.rd.toNat).toNat % 65536)))) ∧
    (∀ (f : WFmt), Offered s t → f.rsv ≠ 0#1 →
      EmuAtDecode (.movl t f) s t 2 0 (f.word 0x06) ∧ EmuAtDecode (.movh t f) s t 2 0 (f.word 0x07)) ∧
    (∀ (f : BfFmt), Runs s t f.g [f.rd.toNat, f.rs1.toNat] [] → f.pos.toNat + f.w.toNat + 1 ≤ 32 →
      let a := (s.bank t).rg f.rs1.toNat
      let d := (s.bank t).rg f.rd.toNat
      let w := f.w.toNat + 1
      BankBecomes (.extu t f) s t ((s.bank t).next.wg f.rd.toNat (w32 (bits a.toNat f.pos.toNat w))) ∧
      BankBecomes (.exts t f) s t ((s.bank t).next.wg f.rd.toNat (sextW (bits a.toNat f.pos.toNat w) w)) ∧
      BankBecomes (.ins t f) s t ((s.bank t).next.wg f.rd.toNat (w32 (setBits d.toNat f.pos.toNat w a.toNat)))) ∧
    (∀ (f : BfFmt), Offered s t → 32 < f.pos.toNat + f.w.toNat + 1 →
      EmuAtDecode (.extu t f) s t 2 0 (f.word 0) ∧ EmuAtDecode (.exts t f) s t 2 0 (f.word 1) ∧ EmuAtDecode (.ins t f) s t 2 0 (f.word 2))

/-- R127: the compares and the predicate combinations write pd as the table gives, and change nothing else but the pc; a
reserved bit raises EMU_FIELD. All eight predicates are read and written through the special register pred. -/
def Obligations.PredicateResults : Prop :=
  ∀ (s : State) (t : Nat), SMap.sorted s.strands = true →
    (∀ (f : PRFmt), ∀ p ∈ cmpOps,
      (f.rsv = 0#2 → Runs s t f.g [f.rs1.toNat, f.rs2.toNat] [] →
        BankBecomes (p.1 t f) s t ((s.bank t).next.wp f.pd.toNat (p.2.2 ((s.bank t).rg f.rs1.toNat) ((s.bank t).rg f.rs2.toNat)))) ∧
      (f.rsv ≠ 0#2 → Offered s t → EmuAtDecode (p.1 t f) s t 2 0 (f.word p.2.1))) ∧
    (∀ (f : PIFmt), ∀ p ∈ cmpImms,
      (f.rsv = 0#2 → Runs s t f.g [f.rs1.toNat] [] →
        BankBecomes (p.1 t f) s t ((s.bank t).next.wp f.pd.toNat (p.2.2 ((s.bank t).rg f.rs1.toNat) f.imm))) ∧
      (f.rsv ≠ 0#2 → Offered s t → EmuAtDecode (p.1 t f) s t 2 0 (f.word p.2.1))) ∧
    (∀ (f : PLFmt), ∀ p ∈ plogOps,
      let ok := f.rsv = 0#2 ∧ f.rsv1 = 0#2 ∧ f.rsv2 = 0#2 ∧ (p.2.1 = 4 → f.ps2 = 0#3)
      (ok → Runs s t f.g [] [] →
        BankBecomes (p.1 t f) s t ((s.bank t).next.wp f.pd.toNat (p.2.2 ((s.bank t).rp f.ps1.toNat) ((s.bank t).rp f.ps2.toNat)))) ∧
      (¬ ok → Offered s t → EmuAtDecode (p.1 t f) s t 2 0 (f.word p.2.1))) ∧
    (∀ (f : SrFmt), f.sr = 7#12 → f.rs1 = 0#5 → Runs s t f.g [f.rd.toNat] [] →
      BankBecomes (.mfsr t f) s t ((s.bank t).next.wg f.rd.toNat (w32 ((List.range 8).foldl (fun v i => v + b2n ((s.bank t).rp i) * 2 ^ i) 0)))) ∧
    (∀ (f : SrFmt), f.sr = 7#12 → f.rd = 0#5 → (s.strand t).deferred = none → Runs s t f.g [f.rs1.toNat] [] → ((s.bank t).rg f.rs1.toNat).toNat < 256 →
      ∃ p, BankBecomes (.mtsr t f) s t { (s.bank t).next with pred := p } ∧
        ∀ i, i < 8 → i ≠ 0 → p.getLsbD i = ((s.bank t).rg f.rs1.toNat).getLsbD i)

namespace Sys2Proof.Machine

/-- An access of `n` bytes at `addr` passes checks 1 and 2 of R130, and need not wait for the bridge or for room at the WINDOW port of a
DRAM channel (R12, R289). -/
def Reachable (s : State) (t : Nat) (kind : AccKind) (addr : Word) (n : Nat) : Prop :=
  addr.toNat % n = 0 ∧ s.accessDetail t kind addr.toNat n = none ∧ s.accessWaits t kind addr n = false

/-- Bank `b` once a load of size code `c` at `a` has issued: the destination is written where the load completes in the
pipeline, and is outstanding for a region of variable latency (R128, R132). -/
def loadedBank (s : State) (t : Nat) (b : Bank) (rd c a : Nat) : Bank :=
  let vs := loadVals c (s.memRead t a (sizeBytes c))
  if s.fastLoad t a then b.wgs rd vs else { b with pend := b.pend ++ [{ rd := rd, vals := vs }] }

/-- Address of LDX and STX (R128). -/
def xAddr (b : Bank) (f : XRFmt) : Word :=
  let base := b.rg f.rs1.toNat
  if f.mode.toNat = 0 then base + ((b.rg f.rs2.toNat) <<< f.sh.toNat)
  else if f.mode.toNat = 1 then base else base - w32 (sizeBytes f.size.toNat)

/-- The base update of LDX and STX, on bank `y`, from the registers of bank `b` (R128). -/
def xUpdate (b : Bank) (f : XRFmt) (y : Bank) : Bank :=
  let base := b.rg f.rs1.toNat
  if f.mode.toNat = 0 then y
  else if f.mode.toNat = 1 then y.wg f.rs1.toNat (base + w32 (sizeBytes f.size.toNat))
  else y.wg f.rs1.toNat (base - w32 (sizeBytes f.size.toNat))

/-- The operand combinations that LDX and STX admit (R128). -/
def XAdmits (f : XRFmt) (store : Bool) : Prop :=
  f.mode.toNat < 3 ∧ f.size.toNat < 6 ∧ (store = true → f.size.toNat ≠ 1 ∧ f.size.toNat ≠ 3) ∧
  (f.size.toNat = 5 → f.rd.toNat % 2 = 0) ∧ (f.mode.toNat ≠ 0 → f.rs2 = 0#5 ∧ f.sh = 0#2) ∧
  (store = false → f.mode.toNat ≠ 0 → f.rs1 ≠ 0#5 → f.rd ≠ f.rs1 ∧ (f.size.toNat = 5 → f.rd.toNat + 1 ≠ f.rs1.toNat))

/-- The operand combinations that LDPI and STPI admit (R128). -/
def PiAdmits (f : PiFmt) (store : Bool) : Prop :=
  f.size.toNat < 6 ∧ (store = true → f.size.toNat ≠ 1 ∧ f.size.toNat ≠ 3) ∧ (f.size.toNat = 5 → f.rd.toNat % 2 = 0) ∧
  (store = false → f.rs1 ≠ 0#5 → f.rd ≠ f.rs1 ∧ (f.size.toNat = 5 → f.rd.toNat + 1 ≠ f.rs1.toNat))

/-- The loads of base and immediate, with major and size code (R124, R128). -/
def immLoads : List ((Nat → IFmt → Instr) × Nat × Nat) :=
  [(.ldb, 0x10, 0), (.ldbu, 0x11, 1), (.ldh, 0x12, 2), (.ldhu, 0x13, 3), (.ldw, 0x14, 4), (.ldd, 0x15, 5)]

/-- The stores of base and immediate, with major and size code. -/
def immStores : List ((Nat → IFmt → Instr) × Nat × Nat) :=
  [(.stb, 0x16, 0), (.sth, 0x17, 2), (.stw, 0x18, 4), (.std, 0x19, 5)]

/-- The atomic operations: the new word from the old one, rs2 and rd (R131). -/
def amoOps : List ((Nat → RFmt → Instr) × (Word → Word → Word → Word)) :=
  [(.amoSwap, fun _ b _ => b), (.amoAdd, fun o b _ => o + b), (.amoAnd, fun o b _ => o &&& b), (.amoOr, fun o b _ => o ||| b),
   (.amoXor, fun o b _ => o ^^^ b), (.amoMinu, fun o b _ => if o.ult b then o else b),
   (.amoMaxu, fun o b _ => if o.ult b then b else o), (.amoCas, fun o b d => if o = d then b else o)]

/-- An access of strand `t` at `a` that has memory be as in `m` and leaves the strand as `x`; it asks DRAM for the lines it needs (R289),
with `undo` the base register it updated, and a debugger STEP that it ran under ends. -/
def Accesses (c : Instr) (s m : State) (t : Nat) (x : Strand) (word a : Word) (n : Nat) (kind : AccKind) (undo : Option (Nat × Word)) : Prop :=
  ∃ v, exec c s = .next ((v.askWindow t word a n kind undo).stepDone t) ∧ Became m v t x

/-- An access that is not one of DRAM through a window asks for nothing. One that is asks each channel that holds a line of it, and until
they have answered the strand waits with the result of the access, if it has one; the answer that is not the last leaves one fewer
awaited, and the last ends the wait (R289, R296, R298). -/
def WindowAsks (s : State) (t : Nat) (word a : Word) (n : Nat) (kind : AccKind) (undo : Option (Nat × Word)) : Prop :=
  (s.winAt t a.toNat = none → s.askWindow t word a n kind undo = s) ∧
  (∀ d, s.winAt t a.toNat = some d →
    let l := s.requests (panelOf t) 5 d n (decide (kind ≠ .load)) (some (t, s.drm.nextId))
    (l = [] → s.askWindow t word a n kind undo = s) ∧
    (l ≠ [] →
      let u := s.askWindow t word a n kind undo
      let y := (s.strand t).setCur (s.bank t).awaitDram
      u.strand t = { (if kind = .store then s.strand t else y) with
        dram := some { id := s.drm.nextId, word := word, pc := (s.bank t).pc - 4#32, addr := a, bank := b2n (s.strand t).inB1, undo := undo, left := l.length } } ∧
      (∀ k, k ≠ t → u.strand k = s.strand k) ∧ u = { s with strands := u.strands, drm := u.drm } ∧ u.drm.nextId = s.drm.nextId + 1)) ∧
  (∀ x, (s.strand t).dram = some x →
    (∀ id, id ≠ x.id → s.accDone t id = s) ∧
    (1 < x.left → s.accDone t x.id = s.setStrand t { s.strand t with dram := some { x with left := x.left - 1 } }) ∧
    (x.left ≤ 1 → ((s.accDone t x.id).strand t).dram = none ∧ ∀ q ∈ (((s.accDone t x.id).strand t).bk (decide (x.bank = 1))).pend, q.dram = false))

/-- The base register of bank `b` that LDX and STX update, with its value before. -/
def xUndo (b : Bank) (f : XRFmt) : Option (Nat × Word) := if f.mode.toNat = 0 then none else some (f.rs1.toNat, b.rg f.rs1.toNat)

/-- The bytes of size code `c` of the store data register (R128). -/
def storeData (b : Bank) (c rt : Nat) : List Byte :=
  if c = 5 then leBytes 8 ((b.rg rt).toNat + (b.rg (rt + 1)).toNat * 2 ^ 32) else leBytes (sizeBytes c) (b.rg rt).toNat

end Sys2Proof.Machine

/-- R128, R129, R132, R289: a load that passes its checks reads the bytes at its address and gives them to the destination
register or pair, then updates the base; it changes nothing else but the pc, but that a load of DRAM through a window asks for its
lines. A result that has variable latency and whose lines have been read reaches its registers, and nothing else, when it arrives. -/
def Obligations.LoadResults : Prop :=
  ∀ (s : State) (t : Nat), SMap.sorted s.strands = true →
    (∀ (f : IFmt), ∀ p ∈ immLoads,
      let c := p.2.2
      let a := (s.bank t).rg f.rs1.toNat + f.imm.signExtend 32
      (c = 5 → f.rd.toNat % 2 = 0) → Reachable s t .load a (sizeBytes c) → Runs s t f.g (dataRegs c f.rd.toNat ++ [f.rs1.toNat]) [] →
      Accesses (p.1 t f) s s t ((s.strand t).setCur (loadedBank s t (s.bank t).next f.rd.toNat c a.toNat)) (f.word p.2.1) a (sizeBytes c) .load none) ∧
    (∀ (f : XRFmt), XAdmits f false → Reachable s t .load (xAddr (s.bank t) f) (sizeBytes f.size.toNat) →
      Runs s t f.g (dataRegs f.size.toNat f.rd.toNat ++ [f.rs1.toNat, f.rs2.toNat]) [] →
      Accesses (.ldx t f) s s t
        ((s.strand t).setCur (xUpdate (s.bank t) f (loadedBank s t (s.bank t).next f.rd.toNat f.size.toNat (xAddr (s.bank t) f).toNat)))
        (f.word 0x1A) (xAddr (s.bank t) f) (sizeBytes f.size.toNat) .load (xUndo (s.bank t) f)) ∧
    (∀ (f : PiFmt), PiAdmits f false → Reachable s t .load ((s.bank t).rg f.rs1.toNat) (sizeBytes f.size.toNat) →
      Runs s t f.g (dataRegs f.size.toNat f.rd.toNat ++ [f.rs1.toNat]) [] →
      Accesses (.ldpi t f) s s t
        ((s.strand t).setCur ((loadedBank s t (s.bank t).next f.rd.toNat f.size.toNat ((s.bank t).rg f.rs1.toNat).toNat).wg f.rs1.toNat
          ((s.bank t).rg f.rs1.toNat + f.inc.signExtend 32)))
        (f.word 0x1C) ((s.bank t).rg f.rs1.toNat) (sizeBytes f.size.toNat) .load (some (f.rs1.toNat, (s.bank t).rg f.rs1.toNat))) ∧
    (∀ (bank : Bool) (i : Nat) (p : PendG), (((s.strand t).bk bank).pend)[i]? = some p → p.dram = false →
      let b := (s.strand t).bk bank
      let x := (s.strand t).setBk bank (({ b with pend := b.pend.eraseIdx i } : Bank).wgs p.rd p.vals)
      ∃ u, exec (.memoryResultArrive t bank i) s = .next u ∧ Became s u t { x with fenceWait := (s.strand t).fenceWait && !x.quiet }) ∧
    (∀ (bank : Bool) (i : Nat) (p : PendG), (((s.strand t).bk bank).pend)[i]? = some p → p.dram = true → exec (.memoryResultArrive t bank i) s = .next s) ∧
    ∀ (word a : Word) (n : Nat) (kind : AccKind) (undo : Option (Nat × Word)), WindowAsks s t word a n kind undo

/-- R128, R129, R131, R289: a store or an atomic operation that passes its checks stores its bytes, little-endian, at its
address, and then updates the base; an atomic operation leaves the old word outstanding for rd and fences. Nothing else
changes but the pc, but that an access of DRAM through a window asks for its lines. -/
def Obligations.StoreResults : Prop :=
  ∀ (s : State) (t : Nat), SMap.sorted s.strands = true →
    (∀ (f : IFmt), ∀ p ∈ immStores,
      let c := p.2.2
      let a := (s.bank t).rg f.rs1.toNat + f.imm.signExtend 32
      (c = 5 → f.rd.toNat % 2 = 0) → Reachable s t .store a (sizeBytes c) → Runs s t f.g (dataRegs c f.rd.toNat ++ [f.rs1.toNat]) [] →
      Accesses (p.1 t f) s (s.memWrite t a.toNat (storeData (s.bank t) c f.rd.toNat)) t ((s.strand t).setCur (s.bank t).next)
        (f.word p.2.1) a (sizeBytes c) .store none) ∧
    (∀ (f : XRFmt), XAdmits f true → Reachable s t .store (xAddr (s.bank t) f) (sizeBytes f.size.toNat) →
      Runs s t f.g (dataRegs f.size.toNat f.rd.toNat ++ [f.rs1.toNat, f.rs2.toNat]) [] →
      Accesses (.stx t f) s (s.memWrite t (xAddr (s.bank t) f).toNat (storeData (s.bank t) f.size.toNat f.rd.toNat)) t
        ((s.strand t).setCur (xUpdate (s.bank t) f (s.bank t).next)) (f.word 0x1B) (xAddr (s.bank t) f) (sizeBytes f.size.toNat) .store
        (xUndo (s.bank t) f)) ∧
    (∀ (f : PiFmt), PiAdmits f true → Reachable s t .store ((s.bank t).rg f.rs1.toNat) (sizeBytes f.size.toNat) →
      Runs s t f.g (dataRegs f.size.toNat f.rd.toNat ++ [f.rs1.toNat]) [] →
      Accesses (.stpi t f) s (s.memWrite t ((s.bank t).rg f.rs1.toNat).toNat (storeData (s.bank t) f.size.toNat f.rd.toNat)) t
        ((s.strand t).setCur ((s.bank t).next.wg f.rs1.toNat ((s.bank t).rg f.rs1.toNat + f.inc.signExtend 32)))
        (f.word 0x1D) ((s.bank t).rg f.rs1.toNat) (sizeBytes f.size.toNat) .store (some (f.rs1.toNat, (s.bank t).rg f.rs1.toNat))) ∧
    (∀ (f : RFmt), ∀ p ∈ amoOps,
      let a := (s.bank t).rg f.rs1.toNat
      let old := w32 (leVal (s.memRead t a.toNat 4))
      (s.strand t).quiet = true → Reachable s t .amo a 4 → Runs s t f.g [f.rd.toNat, f.rs1.toNat, f.rs2.toNat] [] →
      ∃ minor, Accesses (p.1 t f) s (s.memWrite t a.toNat (leBytes 4 (p.2 old ((s.bank t).rg f.rs2.toNat) ((s.bank t).rg f.rd.toNat)).toNat)) t
        { (s.strand t).setCur { (s.bank t).next with pend := [{ rd := f.rd.toNat, vals := [old] }] } with fenceWait := true }
        (f.word 0x1E minor) a 4 .amo none)

/-- R129, R130: a load or store that is misaligned takes ALIGN, one whose address may not be accessed takes ACCESS with the
detail of R144; in both cases it writes no register and no memory but what taking the trap writes. -/
def Obligations.AccessTraps : Prop :=
  ∀ (s : State) (t : Nat) (f : IFmt),
    let a := (s.bank t).rg f.rs1.toNat + f.imm.signExtend 32
    let pc := (s.bank t).pc
    ∀ (kind : AccKind) (l : List ((Nat → IFmt → Instr) × Nat × Nat)), (kind = .load ∧ l = immLoads) ∨ (kind = .store ∧ l = immStores) →
      ∀ p ∈ l, (p.2.2 = 5 → f.rd.toNat % 2 = 0) → Runs s t f.g (dataRegs p.2.2 f.rd.toNat ++ [f.rs1.toNat]) [] →
        s.accessCut t a.toNat = false →
        (a.toNat % sizeBytes p.2.2 ≠ 0 → exec (p.1 t f) s = .next (s.trapHere t .align 0 0 (f.word p.2.1) a pc)) ∧
        (a.toNat % sizeBytes p.2.2 = 0 → ∀ d, s.accessDetail t kind a.toNat (sizeBytes p.2.2) = some d →
          exec (p.1 t f) s = .next (s.trapHere t .access d 0 (f.word p.2.1) a pc))

/-- R143, R144, R145: taking a trap with EXL = 0 saves the resume address, the information and the address, sets EXL and
sends the pc to the vector of the cause, and touches no other strand; with EXL = 1 the strand halts as HALTED_DOUBLE and
DOUBLE_TRAP is counted. EMU is counted for its needle by cause. -/
def Obligations.TrapEntry : Prop :=
  ∀ (s : State) (t : Nat) (c : TCause) (detail hookinfo : Nat) (info addr resume : Word), SMap.sorted s.strands = true →
    let s' := if c = .emu then s.count 4 (needleOf t) detail else s
    let u := s.takeTrap t c detail hookinfo info addr resume
    ((s.bank t).exl = false →
      (u.bank t).epc = resume ∧ (u.bank t).einfo = info ∧ (u.bank t).eaddr = addr ∧ (u.bank t).exl = true ∧
      (u.bank t).ecause = w32 (c.code + detail * 256 + hookinfo * 65536) ∧
      (u.bank t).pc = (s.strand t).tvbase + w32 c.vector ∧ (u.bank t).g = (s.bank t).g ∧ (u.bank t).pred = (s.bank t).pred ∧
      u = { s' with strands := u.strands } ∧ ∀ k, k ≠ t → u.strand k = s.strand k) ∧
    ((s.bank t).exl = true → u = s'.haltStrand t .double)

/-- R121, R3: a register or predicate that an instruction writes reads back as written and every other one is as it was;
g0 and p0 discard writes and read as 0 and 1. -/
def Obligations.RegisterFile : Prop :=
  ∀ (b : Bank) (r q : Nat) (v : Word) (x : Bool), SMap.sorted b.g = true → r < 8 → q < 8 →
    (∀ m n : Nat, (b.wg m v).rg n = if m = n ∧ m ≠ 0 then v else b.rg n) ∧
    b.rg 0 = 0#32 ∧ b.rp 0 = true ∧ b.wg 0 v = b ∧ b.wp 0 x = b ∧
    (b.wp r x).rp q = (if r = q ∧ r ≠ 0 then x else b.rp q) ∧ (b.wp r x).g = b.g ∧ (b.wg r v).pred = b.pred

/-- R3, R139: a store to the needle scratch share or to course shared SRAM is read back by a load of the same address, and
leaves every other byte of the needle scratch, of course shared SRAM and of device memory as it was. -/
def Obligations.StoredBytes : Prop :=
  ∀ (s : State) (t a o : Nat) (bs : List Byte), Memory.wf s.mem = true →
    let u := s.memWrite t a bs
    (s.region t a = some (.scratch o) →
      u.memRead t a bs.length = bs ∧ u.mem.sram = s.mem.sram ∧ u.mem.dev = s.mem.dev ∧
      ∀ k, (k < needleOf t * 65536 + o ∨ needleOf t * 65536 + o + bs.length ≤ k) → cellGet u.mem.scratch k = cellGet s.mem.scratch k) ∧
    (s.region t a = some (.sram o) →
      u.memRead t a bs.length = bs ∧ u.mem.scratch = s.mem.scratch ∧ u.mem.dev = s.mem.dev ∧
      ∀ k, (k < courseOf t * 1048576 + o ∨ courseOf t * 1048576 + o + bs.length ≤ k) → cellGet u.mem.sram k = cellGet s.mem.sram k) ∧
    (∀ n, s.region t a = some (.window n o) →
      u.mem.scratch = s.mem.scratch ∧ u.mem.sram = s.mem.sram ∧
      ∀ k, (∀ i, i < bs.length → k ∉ s.writeKeys (panelOf t) (s.winAddr t n o + i)) → cellGet u.mem.dev k = cellGet s.mem.dev k) ∧
    Memory.wf u.mem = true

namespace Sys2Proof.Machine

/-- Strand `t` of `s` completes an instruction whose one effect is that the strand becomes `x`. -/
def StrandBecomes (c : Instr) (s : State) (t : Nat) (x : Strand) : Prop := Completes (exec c s) s t x

/-- The strand with the pc of its running bank moved past the instruction. -/
def Strand.past (x : Strand) : Strand := x.setCur x.cur.next

/-- The special registers with their values for the running bank of strand `t` (R141, R142). -/
def srValues (s : State) (t : Nat) : List (Nat × Word) :=
  let x := s.strand t
  let b := s.bank t
  [(0x000, w32 (b2n b.exl + 2 * b2n x.inB1 + 4 * b2n (x.inB1 && x.bank0.hasItem) + 8 * b2n b.hasItem + 16 * b2n (s.isSupv t)
      + 32 * b2n x.knotp + 64 * b2n (s.isBest t))),
   (0x001, b.epc), (0x002, b.ecause), (0x003, b.einfo), (0x004, b.eaddr), (0x005, x.tvbase),
   (0x006, w32 (t % 8 + ((t % 104) / 8) * 8 + t / 104 * 128 + t / 416 * 1024)), (0x007, (b.pred ||| 1#8).zeroExtend 32),
   (0x008, SMap.get b.escr 0#32 0), (0x009, SMap.get b.escr 0#32 1), (0x00A, SMap.get b.escr 0#32 2), (0x00B, SMap.get b.escr 0#32 3),
   (0x00C, x.wpaddr), (0x00D, x.wpctl), (0x010, b.wi.getD 0 0#32), (0x011, b.wi.getD 1 0#32), (0x012, b.wi.getD 2 0#32),
   (0x013, b.wi.getD 3 0#32), (0x014, b.wi.getD 4 0#32), (0x015, b.wi.getD 5 0#32), (0x016, b.wi.getD 6 0#32), (0x017, b.wi.getD 7 0#32)]

/-- The special registers that MTSR writes, each with the values it admits and the strand that `x` becomes; `y` is the
running bank of `x` (R141, R142). -/
def srWrites (x : Strand) (y : Bank) (v : Word) : List (Nat × Prop × Strand) :=
  [(0x000, bits v.toNat 7 25 = 0, x.setCur { y with exl := v.getLsbD 0 }),
   (0x001, v.toNat % 4 = 0, x.setCur { y with epc := v }),
   (0x002, bits v.toNat 4 4 = 0 ∧ bits v.toNat 12 4 = 0 ∧ bits v.toNat 20 12 = 0, x.setCur { y with ecause := v }),
   (0x003, True, x.setCur { y with einfo := v }), (0x004, True, x.setCur { y with eaddr := v }),
   (0x005, v.toNat % 512 = 0 ∧ 0x00200000 ≤ v.toNat ∧ v.toNat < 0x00300000, { x.setCur y with tvbase := v }),
   (0x007, bits v.toNat 8 24 = 0, x.setCur { y with pred := BitVec.ofNat 8 (setBit v.toNat 0 true) }),
   (0x008, True, x.setCur { y with escr := SMap.set y.escr 0#32 0 v }), (0x009, True, x.setCur { y with escr := SMap.set y.escr 0#32 1 v }),
   (0x00A, True, x.setCur { y with escr := SMap.set y.escr 0#32 2 v }), (0x00B, True, x.setCur { y with escr := SMap.set y.escr 0#32 3 v }),
   (0x00C, True, { x.setCur y with wpaddr := v }),
   (0x00D, bits v.toNat 3 5 = 0 ∧ bits v.toNat 13 19 = 0, { x.setCur y with wpctl := v })]

/-- The strand with the result of a yarn operation outstanding for register `rd` (R132, R134). -/
def Strand.yarnDone (x : Strand) (b : Bank) (rd : Nat) (v : Word) (fence : Bool) : Strand :=
  { x.setCur { b with pend := b.pend ++ [{ rd := rd, vals := [v] }] } with fenceWait := x.fenceWait || fence }

end Sys2Proof.Machine

/-- R133, R120: B, BL and JALR set the pc and the link as the rule gives, and change nothing else; a JALR to a
misaligned target takes ALIGN and writes no register; a pc outside an executable region takes ACCESS with detail NO_EXEC. -/
def Obligations.ControlTransfer : Prop :=
  ∀ (s : State) (t : Nat), SMap.sorted s.strands = true →
    let pc := (s.bank t).pc
    (∀ (f : JFmt), Runs s t f.g [] [] →
      BankBecomes (.b t f) s t { (s.bank t).next with pc := pc + (f.off.signExtend 32 <<< 2) }) ∧
    (∀ (f : JFmt), Runs s t f.g [31] [] →
      BankBecomes (.bl t f) s t { (s.bank t).next.wg 31 (pc + 4#32) with pc := pc + (f.off.signExtend 32 <<< 2) }) ∧
    (∀ (f : IFmt), Runs s t f.g [f.rd.toNat, f.rs1.toNat] [] →
      let tgt := (s.bank t).rg f.rs1.toNat + f.imm.signExtend 32
      (tgt.toNat % 4 = 0 → BankBecomes (.jalr t f) s t { (s.bank t).next.wg f.rd.toNat (pc + 4#32) with pc := tgt }) ∧
      (tgt.toNat % 4 ≠ 0 → exec (.jalr t f) s = .next (s.trapHere t .align 1 0 (f.word 0x22) tgt pc))) ∧
    (∀ (f : JFmt) (i : IFmt), s.mayIssue t = true → (s.strand t).busy = none → (s.strand t).canFetch = false →
      exec (.b t f) s = .next (s.trapHere t .access 2 0 0#32 pc pc) ∧ exec (.bl t f) s = .next (s.trapHere t .access 2 0 0#32 pc pc) ∧
      exec (.jalr t i) s = .next (s.trapHere t .access 2 0 0#32 pc pc))

/-- R122: an instruction that has passed decode and whose guard does not hold completes with no effect but the pc's
advance, also where its registers have not arrived and its address or target would trap. -/
def Obligations.GuardFalse : Prop :=
  ∀ (s : State) (t : Nat), SMap.sorted s.strands = true → Offered s t →
    (∀ (f : JFmt), (s.bank t).guardOk f.g = false →
      BankBecomes (.b t f) s t (s.bank t).next ∧ BankBecomes (.bl t f) s t (s.bank t).next) ∧
    (∀ (f : IFmt), (s.bank t).guardOk f.g = false →
      BankBecomes (.jalr t f) s t (s.bank t).next ∧ BankBecomes (.addi t f) s t (s.bank t).next ∧
      (∀ p ∈ immLoads ++ immStores, (p.2.2 = 5 → f.rd.toNat % 2 = 0) → BankBecomes (p.1 t f) s t (s.bank t).next)) ∧
    (∀ (f : RFmt), (s.bank t).guardOk f.g = false →
      (∀ p ∈ aluOps, BankBecomes (p.1 t f) s t (s.bank t).next) ∧ (∀ p ∈ amoOps, BankBecomes (p.1 t f) s t (s.bank t).next) ∧
      BankBecomes (.ysend t f) s t (s.bank t).next ∧ BankBecomes (.yrecv t f) s t (s.bank t).next) ∧
    (∀ (f : XFmt), (s.bank t).guardOk f.g = false → BankBecomes (.brk t f) s t (s.bank t).next) ∧
    (∀ (g : BitVec 4), (s.bank t).guardOk g =
      (if g = 0#4 then true else ((s.bank t).rp (g.toNat % 8) != g.getLsbD 3))) ∧
    (s.bank t).guardOk 8#4 = false

/-- R124, R136, R137, R143: a reserved major and every word of hook 7 raise EMU whatever the guard; BREAK whose guard
holds takes the BREAK trap, with its code in the word that einfo receives, and resumes past it. -/
def Obligations.TrapInstructions : Prop :=
  ∀ (s : State) (t : Nat), Offered s t →
    (∀ (g : BitVec 4) (w : BitVec 22), EmuAtDecode (.hook7 t g w) s t 3 0 (w32 (g.toNat * 2 ^ 28 + 0x37 * 2 ^ 22 + w.toNat))) ∧
    (∀ (w : Word), let m := bits w.toNat 22 6
      let n := bits w.toNat 0 7
      (m ∈ [0x0E, 0x0F, 0x1F, 0x23, 0x24, 0x25, 0x26, 0x27, 0x29, 0x2A, 0x2B, 0x2C, 0x2D, 0x2F, 0x38, 0x39, 0x3A, 0x3B] →
        EmuAtDecode (.reservedMajor t w) s t 0 0 w) ∧
      ((m = 0x00 ∧ 0x17 ≤ n) ∨ (m = 0x08 ∧ 7 ≤ n) ∨ (m = 0x0C ∧ 5 ≤ n) ∨ (m = 0x0D ∧ bits w.toNat 10 2 = 3) ∨ (m = 0x1E ∧ 8 ≤ n)
        ∨ (m = 0x28 ∧ 5 ≤ n) ∨ (m = 0x2E ∧ 5 ≤ n) ∨ (m = 0x3D ∧ 6 ≤ bits w.toNat 0 12) → EmuAtDecode (.reservedMajor t w) s t 1 0 w)) ∧
    (∀ (f : XFmt), Runs s t f.g [] [] →
      exec (.brk t f) s = .next (s.trapHere t .brk 0 0 (w32 (f.g.toNat * 2 ^ 28 + 0x3C * 2 ^ 22 + f.code.toNat)) (s.bank t).pc ((s.bank t).pc + 4#32)))

/-- R132, R137, R138, R145, R146: the system instructions. ERET returns to epc; HALT stops the strand as HALTED_INSTR and
counts it; FENCE and HSYNC complete once nothing is outstanding and wait until then; WAITD makes the strand idle or resumes
bank 0; BINDOFF without an item gives NO_ITEM; BINDOFF, and WAITD with an item, wait for the hook operations, and for the bridge where the
item lies beyond a failed one (log entry 93). A used field that must be zero raises EMU_FIELD. -/
def Obligations.SystemInstructions : Prop :=
  ∀ (s : State) (t : Nat) (f : SysFmt), SMap.sorted s.strands = true →
    let x := s.strand t
    let b := s.bank t
    let y := b.next
    (f.rd = 0#5 → f.rs1 = 0#5 → Runs s t f.g [] [] →
      let r := { y with pc := b.epc, exl := false, watchExempt := true }
      (x.deferred = none ∨ x.inB1 = true → BankBecomes (.eret t f) s t r) ∧
      (∀ w k, x.deferred = some w → w.ll = some k → x.inB1 = false →
        exec (.eret t f) s = .next (((((s.setBank t y).setBank t r)).preempt t k).stepDone t)) ∧
      exec (.halt t f) s = .next
        (((((s.setBank t y).setStrand t { x.past.unwait with halt := .instr, restAt := s.now }).count 4 (t / 8) 6).loseOwner t).stepDone t) ∧
      (x.quiet = true → BankBecomes (.fence t f) s t y) ∧
      (x.quiet = false → exec (.fence t f) s = .next s) ∧
      (x.ops = [] → BankBecomes (.hsync t f) s t y) ∧
      (x.ops ≠ [] → exec (.hsync t f) s = .next s) ∧
      (b.hasItem = false → x.inB1 = false → x.deferred = none → StrandBecomes (.waitd t f) s t { x.past with idle := true, restAt := s.now }) ∧
      (b.hasItem = false → x.inB1 = true → StrandBecomes (.waitd t f) s t { x.past with inB1 := false })) ∧
    (f.rs1 = 0#5 → x.ops = [] → Runs s t f.g [f.rd.toNat] [] → b.item = none →
      BankBecomes (.bindoff t f) s t (y.dropItem.wg f.rd.toNat 2#32)) ∧
    (f.rs1 = 0#5 → Runs s t f.g [f.rd.toNat] [] → x.ops ≠ [] ∨ s.viewCut t = true → exec (.bindoff t f) s = .next s) ∧
    (f.rd = 0#5 → f.rs1 = 0#5 → Runs s t f.g [] [] → b.hasItem = true → x.ops ≠ [] ∨ s.viewCut t = true → exec (.waitd t f) s = .next s) ∧
    (Offered s t → f.rd ≠ 0#5 ∨ f.rs1 ≠ 0#5 →
      EmuAtDecode (.eret t f) s t 2 0 (f.word 0) ∧ EmuAtDecode (.waitd t f) s t 2 0 (f.word 1) ∧
      EmuAtDecode (.halt t f) s t 2 0 (f.word 3) ∧ EmuAtDecode (.fence t f) s t 2 0 (f.word 4) ∧
      EmuAtDecode (.hsync t f) s t 2 0 (f.word 5)) ∧
    (Offered s t → f.rs1 ≠ 0#5 → EmuAtDecode (.bindoff t f) s t 2 0 (f.word 2))

/-- R112, R138: a bind-off whose item has not timed out answers OK, sends its lifeline to DONE with no strand, marks its slot
DONE, and takes the item from the bank; no other strand, lifeline or ordering domain changes. -/
def Obligations.BindOff : Prop :=
  ∀ (s : State) (t k : Nat) (f : SysFmt), SMap.sorted s.strands = true → SMap.sorted s.lls = true → SMap.sorted s.odoms = true →
    SMap.sorted (s.od (s.ll k).item.panel (s.ll k).item.odom).slots = true →
    f.rs1 = 0#5 → (s.strand t).ops = [] → Runs s t f.g [f.rd.toNat] [] →
    (s.bank t).item = some k → (s.bank t).hasItem = true → s.viewCut t = false → (s.ll k).state ≠ .timedOut →
    let w := (s.ll k).item
    ∃ u : State, exec (.bindoff t f) s = .next (u.stepDone t) ∧ u = { s with strands := u.strands, lls := u.lls, odoms := u.odoms } ∧
      u.strand t = (s.strand t).setCur ((s.bank t).next.dropItem.wg f.rd.toNat 0#32) ∧ (∀ j, j ≠ t → u.strand j = s.strand j) ∧
      u.ll k = { s.ll k with state := .done, strand := none } ∧ (∀ j, j ≠ k → u.ll j = s.ll j) ∧
      (w.ord = false → u.odoms = s.odoms) ∧ (w.ord = true → (u.od w.panel w.odom).slot w.marker = .done) ∧
      ∀ p d, odKey p d ≠ odKey w.panel w.odom → u.od p d = s.od p d

/-- R141, R142: MFSR reads every listed special register and MTSR writes every writable one, with its read-only fields kept;
an unlisted number raises EMU_MINOR, as does MTSR to a register without write access, and a value with a reserved bit
raises EMU_FIELD. -/
def Obligations.SpecialRegisters : Prop :=
  ∀ (s : State) (t : Nat) (f : SrFmt), SMap.sorted s.strands = true →
    let n := f.sr.toNat
    let x := s.strand t
    let v := (s.bank t).rg f.rs1.toNat
    (f.rs1 = 0#5 → Runs s t f.g [f.rd.toNat] [] → ∀ p ∈ srValues s t, n = p.1 →
      BankBecomes (.mfsr t f) s t ((s.bank t).next.wg f.rd.toNat p.2)) ∧
    (Offered s t → (∀ p ∈ srValues s t, n ≠ p.1) → EmuAtDecode (.mfsr t f) s t 1 0 (f.word 0x3E)) ∧
    (Offered s t → (∃ p ∈ srValues s t, n = p.1) → f.rs1 ≠ 0#5 → EmuAtDecode (.mfsr t f) s t 2 0 (f.word 0x3E)) ∧
    (f.rd = 0#5 → Runs s t f.g [f.rs1.toNat] [] → x.deferred = none → ∀ p ∈ srWrites x (s.bank t).next v, n = p.1 → p.2.1 →
      StrandBecomes (.mtsr t f) s t p.2.2) ∧
    (Offered s t → (s.bank t).arrived [f.rs1.toNat] = true → ∀ p ∈ srWrites x (s.bank t).next v, n = p.1 → f.rd ≠ 0#5 ∨ ((s.bank t).guardOk f.g = true ∧ ¬ p.2.1) →
      EmuAtDecode (.mtsr t f) s t 2 0 (f.word 0x3F)) ∧
    (Offered s t → (∀ p ∈ srWrites x (s.bank t).next v, n ≠ p.1) → EmuAtDecode (.mtsr t f) s t 1 0 (f.word 0x3F))

/-- R135: the moves between hook registers and general registers write their one destination as the table gives, a general
register or lanes of a hook register, and change nothing else but the pc; a move that names the destination of an outstanding hook operation
waits for it; reserved bits and an odd pair raise EMU_FIELD, and the reserved minors EMU_MINOR. -/
def Obligations.HookMoves : Prop :=
  ∀ (s : State) (t : Nat) (f : RFmt), SMap.sorted s.strands = true →
    let b := s.bank t
    let hd := f.rd.toNat
    let hs := f.rs1.toNat
    let l := f.rs2.toNat
    (hd < 16 → l < 4 → Runs s t f.g [f.rs1.toNat] [hd] →
      BankBecomes (.mth t f) s t (b.next.wh hd (setLane (b.rh hd) l (b.rg f.rs1.toNat)))) ∧
    (hs < 16 → l < 4 → Runs s t f.g [f.rd.toNat] [hs] →
      BankBecomes (.mfh t f) s t (b.next.wg f.rd.toNat (hlane (b.rh hs) l))) ∧
    (hd < 16 → l < 2 → f.rs1.toNat % 2 = 0 → Runs s t f.g [f.rs1.toNat, f.rs1.toNat + 1] [hd] →
      BankBecomes (.mthd t f) s t (b.next.wh hd
        (setLane (setLane (b.rh hd) (2 * l) (b.rg f.rs1.toNat)) (2 * l + 1) (b.rg (f.rs1.toNat + 1))))) ∧
    (hd < 16 → hs = 0 → l = 0 → Runs s t f.g [] [hd] → BankBecomes (.hclr t f) s t (b.next.wh hd 0#128)) ∧
    (hd < 16 → hs < 16 → l = 0 → Runs s t f.g [] [hd, hs] → BankBecomes (.hcpy t f) s t (b.next.wh hd (b.rh hs))) ∧
    (Offered s t →
      (16 ≤ hd ∨ 4 ≤ l → EmuAtDecode (.mth t f) s t 2 0 (f.word 0x2E 0)) ∧
      (16 ≤ hs ∨ 4 ≤ l → EmuAtDecode (.mfh t f) s t 2 0 (f.word 0x2E 1)) ∧
      (16 ≤ hd ∨ 2 ≤ l ∨ f.rs1.toNat % 2 ≠ 0 → EmuAtDecode (.mthd t f) s t 2 0 (f.word 0x2E 2)) ∧
      (16 ≤ hd ∨ f.rs1 ≠ 0#5 ∨ f.rs2 ≠ 0#5 → EmuAtDecode (.hclr t f) s t 2 0 (f.word 0x2E 3)) ∧
      (16 ≤ hd ∨ 16 ≤ hs ∨ f.rs2 ≠ 0#5 → EmuAtDecode (.hcpy t f) s t 2 0 (f.word 0x2E 4)) ∧
      (∀ w : Word, bits w.toNat 22 6 = 0x2E → 5 ≤ bits w.toNat 0 7 → EmuAtDecode (.reservedMajor t w) s t 1 0 w)) ∧
    (Offered s t → b.guardOk f.g = true →
      ((s.strand t).hookArrived [hd] = false → hd < 16 →
        (l < 4 → exec (.mth t f) s = .next s) ∧ (l < 2 → f.rs1.toNat % 2 = 0 → exec (.mthd t f) s = .next s) ∧ (hs = 0 → l = 0 → exec (.hclr t f) s = .next s)) ∧
      ((s.strand t).hookArrived [hs] = false → hs < 16 → l < 4 → exec (.mfh t f) s = .next s) ∧
      ((s.strand t).hookArrived [hd, hs] = false → hd < 16 → hs < 16 → l = 0 → exec (.hcpy t f) s = .next s))

/-- R134: YPUT stages a word, YGET reads the inbox, YDROP clears the outbox; a non-zero unused field raises EMU_FIELD. -/
def Obligations.YarnWords : Prop :=
  ∀ (s : State) (t : Nat) (f : RFmt), SMap.sorted s.strands = true →
    let b := s.bank t
    (f.rd = 0#5 → f.rs2.toNat < 4 → Runs s t f.g [f.rs1.toNat] [] →
      BankBecomes (.yput t f) s t { b.next with outbox := b.outbox.set f.rs2.toNat (some (b.rg f.rs1.toNat)) }) ∧
    (f.rs1 = 0#5 → f.rs2.toNat < 4 → Runs s t f.g [f.rd.toNat] [] →
      BankBecomes (.yget t f) s t (b.next.wg f.rd.toNat (b.inbox.getD f.rs2.toNat 0#32))) ∧
    (f.rd = 0#5 → f.rs1 = 0#5 → f.rs2 = 0#5 → Runs s t f.g [] [] →
      BankBecomes (.ydrop t f) s t { b.next with outbox := [none, none, none, none] }) ∧
    (Offered s t →
      (f.rd ≠ 0#5 ∨ 4 ≤ f.rs2.toNat → EmuAtDecode (.yput t f) s t 2 0 (f.word 0x28 0)) ∧
      (f.rs1 ≠ 0#5 ∨ 4 ≤ f.rs2.toNat → EmuAtDecode (.yget t f) s t 2 0 (f.word 0x28 3)) ∧
      (f.rd ≠ 0#5 ∨ f.rs1 ≠ 0#5 ∨ f.rs2 ≠ 0#5 → EmuAtDecode (.ydrop t f) s t 2 0 (f.word 0x28 4)))

namespace Sys2Proof.Machine

/-- `s` with YSEND's message of strand `t` put in transit on the FIFO `key`, the outbox clear, and OK outstanding for register `rd`. -/
def sentBy (s : State) (t key rd : Nat) : State :=
  let b := s.bank t
  let y := s.yarn key
  { s with
    yrn := { s.yrn with yarns := SMap.set s.yrn.yarns {} key { y with transit := y.transit ++ [outboxMsg b.outbox] } }
    strands := SMap.set s.strands {} t ((s.strand t).yarnDone { b.next with outbox := [none, none, none, none] } rd 0#32 true) }

/-- `s` with the oldest message of the FIFO `key`, `m`, in the inbox of strand `t`, `rest` left behind it, and OK with its length
outstanding for register `rd`. -/
def receivedBy (s : State) (t key rd : Nat) (m : List Word) (rest : List (List Word)) : State :=
  let b := s.bank t
  let y := s.yarn key
  { s with
    yrn := { s.yrn with yarns := SMap.set s.yrn.yarns {} key { y with fifo := rest, roomAt := if y.count = 8 then s.now else y.roomAt } }
    strands := SMap.set s.strands {} t ((s.strand t).yarnDone { b.next with inbox := m } rd (w32 (m.length * 256)) false) }

/-- `s` with strand `t` blocked in the yarn operation at its pc: it takes its place among the blocked (R159). -/
def blockedBy (s : State) (t n rd tmo : Nat) (recv : Bool) : State :=
  { s with
    yrn := { s.yrn with order := s.blockOrder t }
    strands := SMap.set s.strands {} t { (s.strand t).setCur { s.bank t with watchExempt := false } with
      block := some { recv := recv, yarn := n, since := s.now, timeout := tmo, rd := rd }, restAt := s.now } }

end Sys2Proof.Machine

/-- R134, R159, R160: what YSEND answers and does. It completes: a send whose yarn the strand may send on, with something staged, a
TIMEOUT it may use, room, and nobody waiting before it puts its message in transit, clears the outbox and answers OK. BAD_YARN,
NOT_OWNER, EMPTY and BAD_TIMEOUT move nothing; otherwise a try-once operation answers TIMEOUT and any other blocks, with the pc at the
instruction. The result is outstanding for rd and fences; while an earlier access is outstanding the instruction waits (R132). -/
def Obligations.YarnSend : Prop :=
  ∀ (s : State) (t : Nat) (f : RFmt), SMap.sorted s.strands = true → Runs s t f.g [f.rd.toNat, f.rs1.toNat, f.rs2.toNat] [] →
    let x := s.strand t
    let b := s.bank t
    let n := (b.rg f.rs1.toNat).toNat
    let tmo := (b.rg f.rs2.toNat).toNat
    let answers (v : Word) := StrandBecomes (.ysend t f) s t (x.yarnDone b.next f.rd.toNat v true)
    (x.quiet = false → exec (.ysend t f) s = .next s) ∧
    (x.quiet = true →
      (∀ key, n ≤ 79 → s.yarnEnd t n false = some key → b.outbox.any Option.isSome = true → (tmo = 0 → s.isSupv t = false) →
        s.yarnSevered t n = false → s.blockedOn key false = [] → (s.yarn key).fifo.length + (s.yarn key).transit.length < 8 →
        exec (.ysend t f) s = .next ((sentBy s t key f.rd.toNat).stepDone t)) ∧
      (79 < n → answers 2#32) ∧
      (n ≤ 79 → s.yarnEnd t n false = none → answers 3#32) ∧
      ∀ key, n ≤ 79 → s.yarnEnd t n false = some key →
        (b.outbox.any Option.isSome = false → answers 4#32) ∧
        (b.outbox.any Option.isSome = true → tmo = 0 → s.isSupv t = true → answers 5#32) ∧
        (b.outbox.any Option.isSome = true → (tmo = 0 → s.isSupv t = false) →
          (s.yarnSevered t n = true ∨ s.blockedOn key false ≠ [] ∨ 8 ≤ (s.yarn key).fifo.length + (s.yarn key).transit.length) →
          (tmo = 0xFFFFFFFF → answers 1#32) ∧
          (tmo ≠ 0xFFFFFFFF → exec (.ysend t f) s = .next ((blockedBy s t n f.rd.toNat tmo false).stepDone t))))

/-- R134, R159, R160: what YRECV answers and does. A receive that finds a message on a yarn the strand may receive from, with nobody
waiting before it and a TIMEOUT it may use, takes the message into the inbox and answers OK with its length. BAD_YARN, NOT_OWNER and
BAD_TIMEOUT move nothing; otherwise a try-once operation answers TIMEOUT and any other blocks, with the pc at the instruction. -/
def Obligations.YarnReceive : Prop :=
  ∀ (s : State) (t : Nat) (f : RFmt), SMap.sorted s.strands = true → Runs s t f.g [f.rd.toNat, f.rs1.toNat, f.rs2.toNat] [] →
    let x := s.strand t
    let b := s.bank t
    let n := (b.rg f.rs1.toNat).toNat
    let tmo := (b.rg f.rs2.toNat).toNat
    let answers (v : Word) := StrandBecomes (.yrecv t f) s t (x.yarnDone b.next f.rd.toNat v false)
    (79 < n → answers 2#32) ∧
    (n ≤ 79 → s.yarnEnd t n true = none → answers 3#32) ∧
    ∀ key, n ≤ 79 → s.yarnEnd t n true = some key →
      (tmo = 0 → s.isSupv t = true → answers 5#32) ∧
      ((tmo = 0 → s.isSupv t = false) →
        (∀ m rest, s.yarnSevered t n = false → s.blockedOn key true = [] → (s.yarn key).fifo = m :: rest →
          exec (.yrecv t f) s = .next ((receivedBy s t key f.rd.toNat m rest).stepDone t)) ∧
        ((s.yarnSevered t n = true ∨ s.blockedOn key true ≠ [] ∨ (s.yarn key).fifo = []) →
          (tmo = 0xFFFFFFFF → answers 1#32) ∧
          (tmo ≠ 0xFFFFFFFF → exec (.yrecv t f) s = .next ((blockedBy s t n f.rd.toNat tmo true).stepDone t))))

/-- R158, R159: a message in transit reaches the end of its FIFO in order; a blocked send or receive that is first on its end and
has had room or data by the end of the 10 ns unit in which its timeout expires completes with OK, and one whose unit is over without
either completes with TIMEOUT: rd is written, the strand goes on past the instruction and waits no longer.
R147, R164, R165: a course that has been knotted for its window raises KNOT once on its supervisor, latches the mask of
the strands that are knot-blocked and counts it, saturating; the supervisor takes the trap at its next boundary with EXL = 0,
which clears KNOTP and ends a hook opcode's wait at decode. -/
def Obligations.YarnProgress : Prop :=
  (∀ (s : State) (t : Nat), SMap.sorted s.strands = true → SMap.sorted s.yrn.yarns = true →
      (∀ (c y : Nat) (m : List Word) (rest : List (List Word)), y < 64 → (s.yarn (c * 64 + y)).transit = m :: rest →
        ∃ u, exec (.yarnMessageArrive c y) s = .next u ∧
          u = { s with yrn := { s.yrn with yarns := u.yrn.yarns, stirAt := SMap.set s.yrn.stirAt 0 c s.now } } ∧
          u.yarn (c * 64 + y) = { s.yarn (c * 64 + y) with
            transit := rest, fifo := (s.yarn (c * 64 + y)).fifo ++ [m],
            dataAt := (if (s.yarn (c * 64 + y)).fifo = [] then s.now else (s.yarn (c * 64 + y)).dataAt) } ∧
          ∀ j, j ≠ c * 64 + y → u.yarn j = s.yarn j) ∧
      (∀ (w : YBlock) (key : Nat), (s.strand t).block = some w → s.yarnEnd t w.yarn w.recv = some key →
        s.yarnSevered t w.yarn = false → (s.blockedOn key w.recv).head? = some t →
        let b := s.bank t
        let past (v : Word) (y : Bank) : Strand :=
          { (s.strand t).setCur { y.wg w.rd v with pc := y.pc + 4#32, watchExempt := false } with block := none }
        let last := (w.since + w.timeout * 12000) / 12000
        let same (c : Instr) (u : State) : Prop := exec c s = .next (u.stepDone t) ∧
          u = { s with strands := u.strands, yrn := { s.yrn with yarns := u.yrn.yarns, order := s.yrn.order.filter fun j => decide (j ≠ t) } } ∧
          (∀ j, j ≠ t → u.strand j = s.strand j) ∧ ∀ j, j ≠ key → u.yarn j = s.yarn j
        (w.recv = false → (s.yarn key).fifo.length + (s.yarn key).transit.length < 8 → w.timeout = 0 ∨ (s.yarn key).roomAt / 12000 ≤ last →
          ∀ c, c = .yarnWaitServe t ∨ (c = .yarnTimeout t ∧ w.timeout ≠ 0 ∧ last < s.now / 12000) →
          ∃ u, same c u ∧ u.strand t = past 0#32 { b with outbox := [none, none, none, none] } ∧
            u.yarn key = { s.yarn key with transit := (s.yarn key).transit ++ [outboxMsg b.outbox] }) ∧
        (∀ m rest, w.recv = true → (s.yarn key).fifo = m :: rest → w.timeout = 0 ∨ (s.yarn key).dataAt / 12000 ≤ last →
          ∀ c, c = .yarnWaitServe t ∨ (c = .yarnTimeout t ∧ w.timeout ≠ 0 ∧ last < s.now / 12000) →
          ∃ u, same c u ∧ u.strand t = past (w32 (m.length * 256)) { b with inbox := m } ∧
            u.yarn key = { s.yarn key with fifo := rest, roomAt := if (s.yarn key).count = 8 then s.now else (s.yarn key).roomAt })) ∧
      (∀ (w : YBlock), (s.strand t).block = some w → w.timeout ≠ 0 → (w.since + w.timeout * 12000) / 12000 < s.now / 12000 →
        (∀ key, s.servable t w = some key → s.inTime key w = false) →
        ∃ u : State, exec (.yarnTimeout t) s = .next (u.stepDone t) ∧
          u = { s with strands := u.strands, yrn := { s.yrn with order := s.yrn.order.filter fun j => decide (j ≠ t) } } ∧
          u.strand t = { (s.strand t).setCur { (s.bank t).wg w.rd 1#32 with pc := (s.bank t).pc + 4#32, watchExempt := false } with block := none } ∧
          ∀ j, j ≠ t → u.strand j = s.strand j)) ∧
  (∀ (s : State) (c : Nat), c < 8 → SMap.sorted s.strands = true → SMap.sorted s.regs = true →
      (s.knotted c = true → s.knotSince c + bits (s.rd R.yrnKwin (c / 4) 0).toNat 0 16 * 64 * cycleU s.part ≤ s.now →
        SMap.get s.yrn.knotAt 0 c ≤ s.knotSince c →
        ∃ u, exec (.knot c) s = .next u ∧ (u.strand (s.supv c)).knotp = true ∧ (∀ w, w < 4 → u.rd R.yrnKnot (c / 4) (c % 4) w = s.knotMask c w) ∧
          u.rd R.yrnKstat (c / 4) (c % 4) = w32 (min ((s.rd R.yrnKstat (c / 4) (c % 4)).toNat + 1) 65535) ∧
          u = { s with regs := u.regs, strands := u.strands, hst := u.hst, ctrs := u.ctrs, out := u.out, yrn := { s.yrn with knotAt := SMap.set s.yrn.knotAt 0 c (s.now + 1) } } ∧
          ∀ t, t ≠ s.supv c → u.strand t = s.strand t) ∧
      (∀ t, t = s.supv c → (s.strand t).knotp = true → (s.bank t).exl = false → (s.strand t).idle = false →
        (s.strand t).block = none → (s.strand t).halt = .running → s.needleIdle t = false → s.up (t / 416) = true →
        s.isSupv t = true →
        ∃ u, exec (.knotTrap t) s = .next u ∧ (u.strand t).knotp = false ∧ (u.strand t).busy = none ∧ (u.bank t).exl = true ∧
          (u.bank t).epc = (s.bank t).pc ∧
          (u.bank t).ecause = 6#32 ∧ (u.bank t).pc = (s.strand t).tvbase + 0x140#32 ∧ u = { s with strands := u.strands } ∧
          ∀ j, j ≠ t → u.strand j = s.strand j))

/-- R166, R328: the debug operations need the grant, a panel that can be reached and, but for HALT, a halted strand; READ answers what its
selector names and WRITE changes it; RESUME and STEP let the strand run; TINK discards the staged message; a selector that is reserved is
refused whatever else holds (R10). PANEL_DOWN and its place after the grant are the model's reading (log entry 102). R166, R261: the instruction
that a stepped strand completes halts it again, with the pins and events it owns for the debugger taken from it; one
that is not stepped is left as it is. -/
def Obligations.DebugOperations : Prop :=
  ∀ (s : State) (t : Nat), SMap.sorted s.strands = true →
    let x := s.strand t
    let replies (u : State) (code : Nat) (v : Word) : State := { u with out := .debug code v :: u.out }
    let reached := s.reachable (t / 416) = true
    (s.sec.dbg = false → ∀ c ∈ [Instr.debugHalt t, .debugResume t, .debugStep t, .debugTink t false, .debugTink t true],
      exec c s = .next (replies s 3 0#32)) ∧
    (s.sec.dbg = true → s.reachable (t / 416) = false →
      ∀ c ∈ [Instr.debugHalt t, .debugResume t, .debugStep t, .debugTink t false, .debugTink t true],
      exec c s = .next { s with out := .panelDown :: s.out }) ∧
    (s.sec.dbg = true → reached → x.halt = .running → ∀ c ∈ [Instr.debugResume t, .debugStep t, .debugTink t false, .debugTink t true],
      exec c s = .next (replies s 1 0#32)) ∧
    (s.sec.dbg = true → reached → x.halt = .running →
      exec (.debugHalt t) s = .next (replies ((s.setStrand t { x.unwait with halt := .debug, restAt := s.restNow t, stepping := false }).loseOwner t true) 0 0#32)) ∧
    (s.sec.dbg = true → reached → x.halt ≠ .running → exec (.debugHalt t) s = .next (replies s 0 0#32)) ∧
    (∀ (b : Bool) (v : Word), exec (.debugRead ⟨t, b, 0x300⟩) s = .next (replies s 4 0#32) ∧ exec (.debugWrite ⟨t, b, 0x300⟩ v) s = .next (replies s 4 0#32) ∧
      (v.toNat % 4 ≠ 0 → exec (.debugWrite ⟨t, b, 0x0FF⟩ v) s = .next (replies s 4 0#32))) ∧
    (s.sec.dbg = true → reached → x.halt ≠ .running →
      exec (.debugResume t) s = .next (replies (s.setStrand t { x with halt := .running }) 0 0#32) ∧
      exec (.debugStep t) s = .next (replies (s.setStrand t { x with halt := .running, stepping := true }) 0 0#32) ∧
      ∀ (b : Bool),
        (staged (x.bk b).outbox = true → exec (.debugTink t b) s = .next (replies (s.setStrand t (x.setBk b { x.bk b with outbox := noOutbox })) 0 0#32)) ∧
        (staged (x.bk b).outbox = false → exec (.debugTink t b) s = .next (replies s 2 0#32)) ∧
        ∀ (r i l : Nat) (v : Word), r < 32 → i < 16 → l < 4 →
          exec (.debugRead ⟨t, b, r⟩) s = .next (replies s 0 ((x.bk b).rg r)) ∧
          exec (.debugRead ⟨t, b, 0x0FF⟩) s = .next (replies s 0 (x.bk b).pc) ∧
          exec (.debugRead ⟨t, b, 0x200 + 4 * i + l⟩) s = .next (replies s 0 (hlane (SMap.get (x.bk b).hc 0#128 i) l)) ∧
          exec (.debugWrite ⟨t, b, r⟩ v) s = .next (replies (s.setStrand t (x.setBk b ((x.bk b).wg r v))) 0 0#32) ∧
          (v.toNat % 4 = 0 → exec (.debugWrite ⟨t, b, 0x0FF⟩ v) s = .next (replies (s.setStrand t (x.setBk b { x.bk b with pc := v })) 0 0#32))) ∧
    (x.stepping = false → s.stepDone t = s) ∧
    (x.stepping = true → x.block = none → x.busy = none →
      (x.halt = .running → s.stepDone t = (s.setStrand t { x with stepping := false, halt := .debug }).loseOwner t true) ∧
      (x.halt ≠ .running → s.stepDone t = s.setStrand t { x with stepping := false }))

namespace Sys2Proof.Machine

/-- FUNC `func` of hook `hook` is offered to its unit, which executes it at once: the strand is offered the slot, no unit is at work on
one of its operations (between commands none is), the unit is not fenced and its queue has room, at most 7 operations are
outstanding, its own have executed, none writes a register in `hregs`, HD and the sources, and the item can be reached (R12, R123, R173). -/
def HookOffered (s : State) (t hook func : Nat) (hregs : List Nat) : Prop :=
  Offered s t ∧ (s.strand t).running = none ∧ s.isFenced (t / 416) 3 (t / 104 * 8 + hook) = false ∧ (s.strand t).ops.length < 8 ∧
  ((s.strand t).ops.all fun o => o.isReady || decide (o.hook ≠ hook)) = true ∧ (s.strand t).hookArrived hregs = true ∧
  s.hookLoad (t / 104) hook < hookQueue hook ∧ s.hookCut t hook func (s.hookItem t) = false

/-- It is taken and its guard holds. -/
def HookRuns (s : State) (t hook func : Nat) (f : HFmt) (hregs : List Nat) : Prop := HookOffered s t hook func hregs ∧ Runs s t f.g [] []

/-- Strand `t` with running bank `y` and one more outstanding operation, of its running bank's item, whose stash it reaches (R173, R215). -/
def Strand.withOp (x : Strand) (t : Nat) (y : Bank) (o : HookOp) : Strand :=
  let it := if x.cur.hasItem then x.cur.item else none
  { x.setCur y with busy := none, ops := x.ops ++ [{ o with bank := b2n x.inB1, ll := it, home := match it with | some k => k / 4096 | none => panelOf t }] }

/-- Strand `t` issues a hook operation whose effects are that its running bank becomes `y` and that `o` is outstanding. -/
def OpBecomes (c : Instr) (s : State) (t : Nat) (y : Bank) (o : HookOp) : Prop :=
  Completes (exec c s) s t ((s.strand t).withOp t y o)

/-- The same where the operation has also changed the rest of the state to that of `m`. -/
def OpChanges (c : Instr) (s m : State) (t : Nat) (o : HookOp) : Prop :=
  ∃ u : State, exec c s = .next (u.stepDone t) ∧ u = { m with strands := u.strands } ∧ u.strand t = (s.strand t).withOp t (s.bank t).next o ∧
    ∀ j, j ≠ t → u.strand j = s.strand j

/-- The hook unit refuses the opcode at decode: EMU with detail HOOK_REFUSED and the refusal as HOOKINFO, counted per course (R123,
R174, R175). -/
def HookRefused (c : Instr) (s : State) (t : Nat) (f : HFmt) (hook func r : Nat) : Prop :=
  exec c s = .next (((s.setStrand t { s.strand t with busy := none }).count 5 (t / 104) (if r = 1 then 1 else 3)).trapHere t .emu 4 r
    (f.word hook func) (s.bank t).pc ((s.bank t).pc + 4#32))

/-- The bank with its crypto context replaced. -/
def Bank.withCtx (b : Bank) (c : CryptoCtx) : Bank := { b with crypto := c, cryptoC := c }

/-- The operations of hook 2 over MOD + 1 bytes of HA, with FUNC and the value they give lane 0 (R181). -/
def sumOps : List ((Nat → HFmt → Instr) × Nat × (Nat → List Byte → Nat)) :=
  [(.csum, 0, fun v bs => onesSum (v % 2 ^ 16) bs), (.crc32c, 1, fun v bs => crc32cUpd (v % 2 ^ 32) bs),
   (.crc32, 2, fun v bs => crc32Upd (v % 2 ^ 32) bs), (.crc8, 3, fun v bs => crc8Upd (v % 2 ^ 8) bs),
   (.crc16, 4, fun v bs => crc16Upd (v % 2 ^ 16) bs)]

/-- The staged operations of hook 3, with FUNC, the operation and whether it takes HA and HB (R182). -/
def stageOps : List ((Nat → HFmt → Instr) × Nat × StOp × Bool) :=
  [(.flowAdd, 3, .add, true), (.flowSet, 4, .set, true), (.flowCas, 5, .cas, true), (.flowInsert, 6, .insert, false), (.flowDelete, 7, .delete, false)]

end Sys2Proof.Machine

/-- R175, R178: the crypto operations. CTX_INIT makes a fresh context of its mode under the key of its slot; AAD, MAC and ABSORB
take their bytes in; ENC and DEC give the input under the keystream and take the ciphertext in; TAG gives the tag and returns to
the state after CTX_INIT; TAGCHK compares; SQUEEZE gives the next 16 output bytes; AES_ENC and AES_DEC work on one block. A
context whose mode does not fit is refused with CONTEXT, a key slot without a key with KEY. -/
def Obligations.HookCrypto : Prop :=
  ∀ (s : State) (t : Nat) (f : HFmt), SMap.sorted s.strands = true →
    let b := s.bank t
    let y := b.next
    let c := b.crypto
    let ha := f.ha.toNat
    let n := f.md.toNat + 1
    let bs := s.hbytesOf t ha n
    (∀ k, f.hd = 0#4 → f.md.toNat ≤ 3 → s.keyOf t (s.slotIn t f.ha) (if f.md.toNat % 2 = 0 then 16 else 32) = some k →
      HookRuns s t 0 0 f [ha, f.hb.toNat] → OpBecomes (.ctxInit t f) s t
        (y.withCtx (if f.md.toNat ≤ 1 then { mode := .gcm, key := k, iv := s.hbytesOf t f.hb.toNat 12 } else { mode := .cmac, key := k })) { hook := 0 }) ∧
    (f.hd = 0#4 → f.md.toNat ≤ 3 → s.keyOf t (s.slotIn t f.ha) (if f.md.toNat % 2 = 0 then 16 else 32) = none →
      HookOffered s t 0 0 [ha] → HookRefused (.ctxInit t f) s t f 0 0 1) ∧
    (∀ p ∈ [(4, CMode.sha3), (5, CMode.shake128), (6, CMode.shake256)], f.hd = 0#4 → f.md.toNat = p.1 → HookRuns s t 0 0 f [] →
      OpBecomes (.ctxInit t f) s t (y.withCtx { mode := p.2 }) { hook := 0 }) ∧
    (f.hd = 0#4 → f.hb = 0#4 → c.mode = .gcm → c.started = false → HookRuns s t 0 1 f [ha] →
      OpBecomes (.aad t f) s t (y.withCtx { c with aad := c.aad ++ bs }) { hook := 0, func := 1, srcs := [ha] }) ∧
    (f.hb = 0#4 → c.mode = .gcm → HookRuns s t 0 2 f [f.hd.toNat, ha] →
      OpBecomes (.enc t f) s t (y.withCtx { c with msg := c.msg ++ gcmXor c bs, started := true })
        { hook := 0, func := 2, hd := some f.hd.toNat, srcs := [ha], val := ofHbytes (sliceZ (gcmXor c bs) 0 16) } ∧
      OpBecomes (.dec t f) s t (y.withCtx { c with msg := c.msg ++ bs, started := true })
        { hook := 0, func := 3, hd := some f.hd.toNat, srcs := [ha], val := ofHbytes (sliceZ (gcmXor c bs) 0 16) }) ∧
    (f.hd = 0#4 → f.hb = 0#4 → c.mode = .cmac → HookRuns s t 0 4 f [ha] →
      OpBecomes (.mac t f) s t (y.withCtx { c with msg := c.msg ++ bs }) { hook := 0, func := 4, srcs := [ha] }) ∧
    (f.ha = 0#4 → f.hb = 0#4 → f.md = 0#4 → c.mode = .gcm ∨ c.mode = .cmac → HookRuns s t 0 5 f [f.hd.toNat] →
      OpBecomes (.tag t f) s t (y.withCtx { c with started := false, aad := [], msg := [], outPos := 0 })
        { hook := 0, func := 5, hd := some f.hd.toNat, val := ofHbytes (if c.mode = .gcm then gcmTag c.key c.iv c.aad c.msg else cmac c.key c.msg) }) ∧
    (f.hb = 0#4 → 4 ≤ n → c.mode = .gcm ∨ c.mode = .cmac → HookRuns s t 0 6 f [f.hd.toNat, ha] →
      OpBecomes (.tagchk t f) s t y { hook := 0, func := 6, hd := some f.hd.toNat, srcs := [ha], val := hres (if (if c.mode = .gcm then gcmTag c.key c.iv c.aad c.msg else cmac c.key c.msg).take n = bs then 0x00 else 0x0D) }) ∧
    (f.hd = 0#4 → f.hb = 0#4 → c.mode = .sha3 ∨ c.mode = .shake128 ∨ c.mode = .shake256 → c.started = false → HookRuns s t 0 7 f [ha] →
      OpBecomes (.absorb t f) s t (y.withCtx { c with msg := c.msg ++ bs }) { hook := 0, func := 7, srcs := [ha] }) ∧
    (f.ha = 0#4 → f.hb = 0#4 → f.md = 0#4 → c.mode = .sha3 ∨ c.mode = .shake128 ∨ c.mode = .shake256 → HookRuns s t 0 8 f [f.hd.toNat] →
      OpBecomes (.squeeze t f) s t (y.withCtx { c with started := true, outPos := c.outPos + 16 })
        { hook := 0, func := 8, hd := some f.hd.toNat, val := ofHbytes (keccakOut c 16) }) ∧
    (∀ k, f.md.toNat ≤ 1 → s.keyOf t (s.slotIn t f.hb) (if f.md = 0#4 then 16 else 32) = some k → HookRuns s t 0 9 f [f.hd.toNat, ha, f.hb.toNat] →
      OpBecomes (.aesEnc t f) s t y { hook := 0, func := 9, hd := some f.hd.toNat, srcs := [ha, f.hb.toNat], val := ofHbytes (aesEnc k (s.hbytesOf t ha 16)) } ∧
      OpBecomes (.aesDec t f) s t y { hook := 0, func := 10, hd := some f.hd.toNat, srcs := [ha, f.hb.toNat], val := ofHbytes (aesDec k (s.hbytesOf t ha 16)) }) ∧
    (f.hb = 0#4 → HookOffered s t 0 2 [f.hd.toNat] → c.mode ≠ .gcm →
      HookRefused (.enc t f) s t f 0 2 3 ∧ HookRefused (.dec t f) s t f 0 3 3 ∧ (f.hd = 0#4 → HookRefused (.aad t f) s t f 0 1 3))

/-- R178, R179: the lattice operations on polynomials at usable addresses whose coefficients lie below q: the transform in
place, the product, sum and difference, and the expansion from a SHAKE128 context, store their result and answer OK; an
address that cannot be used stores nothing and answers RANGE. -/
def Obligations.HookLattice : Prop :=
  ∀ (s : State) (t : Nat) (f : HFmt), SMap.sorted s.strands = true → f.hb = 0#4 → HookRuns s t 0 0x10 f [f.hd.toNat, f.ha.toNat] →
    let lane := fun l => (hlane (s.hval t f.ha.toNat) l).toNat
    let a := lane 0
    let x := s.polyRead t (lane 1)
    let y := s.polyRead t (lane 2)
    let good := fun (w : List Nat) => ∀ v ∈ w, v < 8380417
    let ok := fun l => s.polyOk t (lane l) = true
    let bytes := fun (w : List Nat) => w.flatMap fun v => leBytes 4 v
    let done := fun (func st : Nat) => ({ hook := 0, func := func, hd := some f.hd.toNat, srcs := [f.ha.toNat], val := hres st } : HookOp)
    (f.md.toNat ≤ 1 → ok 0 → good (s.polyRead t a) →
      OpChanges (.latNtt t f) s (s.memWrite t a (bytes (if f.md = 0#4 then latNtt (s.polyRead t a) else latIntt (s.polyRead t a)))) t (done 0x10 0)) ∧
    (f.md = 0#4 → ok 0 → ok 1 → ok 2 → good x → good y →
      OpChanges (.latPmul t f) s (s.memWrite t a (bytes (List.zipWith (fun p q => p * q % 8380417) x y))) t (done 0x11 0)) ∧
    (f.md.toNat ≤ 1 → ok 0 → ok 1 → ok 2 → good x → good y →
      OpChanges (.latPadd t f) s (s.memWrite t a (bytes (List.zipWith (fun p q => if f.md = 0#4 then (p + q) % 8380417 else (p + 8380417 - q) % 8380417) x y))) t (done 0x12 0)) ∧
    (f.md = 0#4 → ok 0 → (s.bank t).crypto.mode = .shake128 →
      let c := (s.bank t).crypto
      let r := rejSample 1024 (keccakOut c 3072) [] 0
      r.1.length = 256 →
      ∃ u : State, exec (.latExpand t f) s = .next (u.stepDone t) ∧ u = { s.memWrite t a (bytes r.1) with strands := u.strands } ∧
        u.strand t = (s.strand t).withOp t ((s.bank t).next.withCtx { c with started := true, outPos := c.outPos + r.2 }) (done 0x13 0) ∧
        ∀ j, j ≠ t → u.strand j = s.strand j) ∧
    (s.polyOk t a = false →
      (f.md.toNat ≤ 1 → OpBecomes (.latNtt t f) s t (s.bank t).next (done 0x10 0x0B) ∧ OpBecomes (.latPadd t f) s t (s.bank t).next (done 0x12 0x0B)) ∧
      (f.md = 0#4 → OpBecomes (.latPmul t f) s t (s.bank t).next (done 0x11 0x0B)))

/-- R180: the lookups answer NO_TABLE, LKP_FAIL, MISS or the entry that the panel's tables hold for the key under the generation
of the item, and change nothing else; FLOW_FIND looks in the stash and makes no read-set entry. -/
def Obligations.HookLookups : Prop :=
  ∀ (s : State) (t : Nat) (f : HFmt), SMap.sorted s.strands = true → HookRuns s t 1 0 f [f.hd.toNat] → s.lookupsIn (t / 416) < 4096 →
    let n := (hlane (s.hval t f.hb.toNat) 0).toNat
    let p := t / 416
    let gen := match s.hookItem t with | some k => (s.ll k).item.vgen | none => s.chr.curGen
    let arrived := fun (l : List Nat) => (s.strand t).hookArrived l = true
    let em := fun (i : Nat) => (.range (f.md.toNat + 1) : List Nat).map (fun j => f.ha.toNat + j) ++ [i]
    let ans := fun (c : Instr) (func : Nat) (srcs : List Nat) (v : HWord) =>
      OpBecomes c s t (s.bank t).next { hook := 1, func := func, hd := some f.hd.toNat, srcs := srcs, val := v }
    let hit := fun (c : Instr) (func h d : Nat) (srcs : List Nat) (key : List Byte) =>
      OpBecomes c s t (s.bank t).next { hook := 1, func := func, hd := some f.hd.toNat, srcs := srcs, val := mkLanes 0 h (d % 2 ^ 32) (d / 2 ^ 32), key := key, ridx := h, off := 1 }
    let miss := fun (c : Instr) (func : Nat) (srcs : List Nat) =>
      OpBecomes c s t (s.bank t).next { hook := 1, func := func, hd := some f.hd.toNat, srcs := srcs, val := hres 0x01, ridx := mkHandle n false 0 0 }
    (f.md.toNat ≤ 2 → f.ha.toNat + f.md.toNat ≤ 15 → arrived (em f.hb.toNat) →
      let key := sliceZ (s.hbytesOf t f.ha.toNat (16 * (f.md.toNat + 1))) 0 (keyWidth (s.tblKind n))
      (64 ≤ n ∨ isEm (s.tblKind n) = false → ans (.emLookup t f) 0 (em f.hb.toNat) (hres 0x0F)) ∧
      (n < 64 → isEm (s.tblKind n) = true → s.tblOk p n = false → ans (.emLookup t f) 0 (em f.hb.toNat) (hres 0x0E)) ∧
      (n < 64 → isEm (s.tblKind n) = true → s.tblOk p n = true →
        (s.tblFind p n gen key = none → miss (.emLookup t f) 0 (em f.hb.toNat)) ∧
        ∀ h e, s.tblFind p n gen key = some (h, e) → hit (.emLookup t f) 0 h e.data (em f.hb.toNat) key)) ∧
    (f.md = 0#4 → arrived [f.ha.toNat, f.hb.toNat] →
      let srcs := [f.ha.toNat, f.hb.toNat]
      (64 ≤ n ∨ s.tblKind n ≠ 6 → ans (.l2Lookup t f) 2 srcs (hres 0x0F)) ∧
      (64 ≤ n ∨ s.tblKind n ≠ 4 ∧ s.tblKind n ≠ 5 → ans (.lpmLookup t f) 1 srcs (hres 0x0F)) ∧
      (n < 64 → s.tblOk p n = true →
        (s.tblKind n = 6 →
          let key := sliceZ (s.hbytesOf t f.ha.toNat 6) 0 6 ++ leBytes 2 (bits (hlane (s.hval t f.ha.toNat) 1).toNat 16 12)
          (s.tblFind p n gen key = none → miss (.l2Lookup t f) 2 srcs) ∧
          ∀ h e, s.tblFind p n gen key = some (h, e) → hit (.l2Lookup t f) 2 h e.data srcs key) ∧
        (s.tblKind n = 4 ∨ s.tblKind n = 5 →
          let addr := beVal (s.hbytesOf t f.ha.toNat (keyWidth (s.tblKind n)))
          (s.lpmFind n gen addr = none → ans (.lpmLookup t f) 1 srcs (hres 0x01)) ∧
          ∀ q, s.lpmFind n gen addr = some q → ans (.lpmLookup t f) 1 srcs (mkLanes 0 q.len (q.data % 2 ^ 32) (q.data / 2 ^ 32))))) ∧
    (f.hb = 0#4 → f.md = 0#4 → f.ha.toNat ≤ 13 → arrived [f.ha.toNat, f.ha.toNat + 1, f.ha.toNat + 2] → s.hookCut t 1 3 (s.hookItem t) = false →
      let h := match s.hookItem t with | some k => k / 4096 | none => p
      let r := s.flowLookup h (s.hbytesOf t f.ha.toNat 48)
      let o := fun (v : HWord) => ({ hook := 1, func := 3, hd := some f.hd.toNat, srcs := [f.ha.toNat, f.ha.toNat + 1, f.ha.toNat + 2], val := v } : HookOp)
      (s.flwEn h = false → OpBecomes (.flowFind t f) s t (s.bank t).next (o (hres 0x01))) ∧
      (s.flwEn h = true → r.1 = none → OpChanges (.flowFind t f) s r.2 t (o (hres 0x01))) ∧
      ∀ l e, s.flwEn h = true → r.1 = some (l, e) → OpChanges (.flowFind t f) s r.2 t (o (hres 0x00 (l.ridx e))))

/-- R181: the checksum operations update their running value in lane 0 of HD and leave the other lanes zero; CSUM_PKT marks
bytes that the frame does not have; HASH64 gives SipHash-2-4 under the key in HB. They change nothing else. -/
def Obligations.HookSums : Prop :=
  ∀ (s : State) (t : Nat) (f : HFmt), SMap.sorted s.strands = true → HookRuns s t 2 0 f [f.hd.toNat] →
    let b := s.bank t
    let hd := f.hd.toNat
    let ha := f.ha.toNat
    let arrived := fun (l : List Nat) => (s.strand t).hookArrived l = true
    (∀ p ∈ sumOps, f.hb = 0#4 → arrived [hd, ha] → OpBecomes (p.1 t f) s t b.next { hook := 2, func := p.2.1, hd := some hd, srcs := [hd, ha], val := mkLanes (p.2.2 (s.hval t hd).toNat (s.hbytesOf t ha (f.md.toNat + 1))) 0 0 0 }) ∧
    (f.hb = 0#4 → f.md = 0#4 → arrived [hd, ha] → s.hookCut t 2 5 (s.hookItem t) = false →
      let o := bits (hlane (s.hval t ha) 0).toNat 0 14
      let n := bits (hlane (s.hval t ha) 1).toNat 0 14
      let bs := ((s.itemFrame t).drop o).take n
      let short := if bs.length < n ∨ s.hookItem t = none then 65536 else 0
      OpBecomes (.csumPkt t f) s t b.next { hook := 2, func := 5, hd := some hd, srcs := [hd, ha], val := mkLanes (onesSum ((s.hval t hd).toNat % 2 ^ 16) bs + short) 0 0 0 }) ∧
    (f.md.toNat ≤ 2 → ha + f.md.toNat ≤ 15 → arrived ((List.range (f.md.toNat + 1)).map (fun j => ha + j) ++ [f.hb.toNat]) →
      let k := (s.hval t f.hb.toNat).toNat
      let v := sipHash24 (k % 2 ^ 64) (k / 2 ^ 64) (s.hbytesOf t ha (16 * (f.md.toNat + 1)))
      OpBecomes (.hash64 t f) s t b.next { hook := 2, func := 6, hd := some hd, srcs := (List.range (f.md.toNat + 1)).map (fun j => ha + j) ++ [f.hb.toNat], val := mkLanes (v % 2 ^ 32) (v / 2 ^ 32) 0 0 })

/-- R110, R182, R222: a flow read while the store is disabled answers ABSENT and records nothing; FLOW_READX of a resident record by an
item that is not serial makes a read-set entry, or repeats the one it has, and answers the record's index and version; a
read that finds its context filling waits for it; FLOW_GET shows the view of the read-set entry it names. -/
def Obligations.HookFlowReads : Prop :=
  ∀ (s : State) (t : Nat) (f : HFmt), SMap.sorted s.strands = true → SMap.sorted s.lls = true → HookRuns s t 3 0 f [f.hd.toNat] →
    let arrived := fun (l : List Nat) => (s.strand t).hookArrived l = true
    let p := match s.hookItem t with | some k => k / 4096 | none => t / 416
    let rd := fun (func : Nat) (srcs : List Nat) (key : List Byte) (ridx : Nat) (w : HookWait) (v : HWord) (i : Nat) =>
      ({ hook := 3, func := func, hd := some f.hd.toNat, srcs := srcs, key := key, ridx := ridx, wait := w, val := v, rsi := i } : HookOp)
    let x := bits (s.hval t f.ha.toNat).toNat 0 25
    let ks := [f.ha.toNat, f.ha.toNat + 1, f.ha.toNat + 2]
    let key := s.hbytesOf t f.ha.toNat 48
    (f.hb = 0#4 → f.md = 0#4 → s.flwEn p = false →
      (f.ha.toNat ≤ 13 → arrived ks → OpBecomes (.flowRead t f) s t (s.bank t).next (rd 0 ks key 0 .ready (readVal 0x02 15 0x1FFFFFF 0) 15)) ∧
      (arrived [f.ha.toNat] → OpBecomes (.flowReadx t f) s t (s.bank t).next (rd 1 [f.ha.toNat] [] x .ready (readVal 0x02 15 0x1FFFFFF 0) 15))) ∧
    (f.hb = 0#4 → f.md = 0#4 → s.flwEn p = true → ∀ n,
      (f.ha.toNat ≤ 13 → arrived ks → key ≠ [] → s.ctxOfKey p key = some n → (s.ctx p n).state = .filling →
        OpBecomes (.flowRead t f) s t (s.bank t).next (rd 0 ks key 0 (.miss p n) 0#128 15)) ∧
      (arrived [f.ha.toNat] → x ≠ 0x1FFFFFF → s.ctxOf p x = some n →
        ((s.ctx p n).state = .filling → OpBecomes (.flowReadx t f) s t (s.bank t).next (rd 1 [f.ha.toNat] [] x (.miss p n) 0#128 15)) ∧
        ∀ k, (s.ctx p n).state ≠ .filling → (s.ctx p n).state ≠ .absence → s.hookItem t = some k → (s.ll k).state ≠ .timedOut →
          let c := s.ctx p n
          let l := s.ll k
          (∀ i, repeatOf l.rs p n c.ridx = some i → (l.rs.getD i {}).absent = false →
            OpBecomes (.flowReadx t f) s t (s.bank t).next
              (rd 1 [f.ha.toNat] [] x .ready (readVal 0x00 i (l.rs.getD i {}).ridx (l.rs.getD i {}).ver) i)) ∧
          (repeatOf l.rs p n c.ridx = none → l.rs.length < 12 → l.serial = false →
            OpChanges (.flowReadx t f) s (s.setLl k { l with rs := l.rs ++ [{ ridx := c.ridx, ver := c.ver, home := p }] }) t
              (rd 1 [f.ha.toNat] [] x .ready (readVal 0x00 l.rs.length c.ridx c.ver) l.rs.length)))) ∧
    (f.ha = 0#4 → arrived [f.hb.toNat] →
      let off := bits (s.hval t f.hb.toNat).toNat 0 7
      let y := bits (s.hval t f.hb.toNat).toNat 32 25
      let i := f.md.toNat
      let get := fun v => OpBecomes (.flowGet t f) s t (s.bank t).next { hook := 3, func := 2, hd := some f.hd.toNat, srcs := [f.hb.toNat], val := v }
      (∀ k, i < 12 → s.hookItem t = some k → (s.ll k).state ≠ .timedOut →
        let l := s.ll k
        (l.rs.length ≤ i → get (hres 0x04)) ∧
        (∀ r, l.rs[i]? = some r → r.absent = false → r.gone = false →
          (68 < off → get (hres 0x05)) ∧
          (off ≤ 68 → get (getVal (viewState (s.recState r.home r.ridx) l.log i r.ridx) off))) ∧
        (∀ r, l.rs[i]? = some r → r.absent = true → insertedOn l.log i = none → get (hres 0x04))) ∧
      (i = 15 → 68 < off → get (hres 0x05)) ∧
      (∀ n, i = 15 → off ≤ 68 → s.flwEn p = true → y ≠ 0x1FFFFFF → s.ctxOf p y = some n → (s.ctx p n).state ≠ .filling → (s.ctx p n).state ≠ .absence →
        OpBecomes (.flowGet t f) s t (s.bank t).next { hook := 3, func := 2, hd := some f.hd.toNat, srcs := [f.hb.toNat], val := getVal ((s.ctx p n).data.drop 48) off, ridx := y, off := off }))

/-- R111, R182, R183: a staged flow operation that fails a check answers that check's status and stages nothing; one that passes
appends one entry to the stage log of its item and answers OK with the entry's index. Into a lifeline that has timed out
nothing is staged, and the answer is OK. -/
def Obligations.HookStaged : Prop :=
  ∀ (s : State) (t k : Nat) (f : HFmt), SMap.sorted s.strands = true → SMap.sorted s.lls = true → ∀ p ∈ stageOps,
    (f.md.toNat < 12 ∨ f.md = 15#4) → (p.2.2.2 = false → f.ha = 0#4 ∧ f.hb = 0#4) →
    HookRuns s t 3 p.2.1 f (f.hd.toNat :: if p.2.2.2 then [f.ha.toNat, f.hb.toNat] else []) → s.hookItem t = some k →
    let hb := if p.2.2.2 then (s.hval t f.hb.toNat).toNat else 0
    let ha := if p.2.2.2 then (s.hval t f.ha.toNat).toNat else 0
    let rsi := f.md.toNat
    let l := s.ll k
    let op := p.2.2.1
    let o := fun v => ({ hook := 3, func := p.2.1, hd := some f.hd.toNat, srcs := if p.2.2.2 then [f.ha.toNat, f.hb.toNat] else [], val := v } : HookOp)
    (l.state ≠ .timedOut →
      (∀ st, stageCheck op (some l) rsi hb = some st → OpBecomes (p.1 t f) s t (s.bank t).next (o (hres st))) ∧
      (stageCheck op (some l) rsi hb = none → op ≠ .insert →
        let target := if rsi = 15 then bits hb 32 25 else match insertedOn l.log rsi with | some e => e.target | none => (l.rs.getD rsi {}).ridx
        let e : StEntry := { op := op, rsi := rsi, off := if op = .delete then 0 else bits hb 0 7, width := if op = .delete then 0 else bits hb 8 3, target := target, operand := stageOperand op ha }
        OpChanges (p.1 t f) s (s.setLl k { l with log := l.log ++ [e] }) t (o (hres (l.log.length * 256)))) ∧
      (stageCheck op (some l) rsi hb = none → op = .insert →
        let r := s.reserve (k / 4096) ((s.ctx (k / 4096) (l.rs.getD rsi {}).ver).data.take 48)
        (r.1 = none → OpChanges (p.1 t f) s r.2 t (o (hres 0x06))) ∧
        ∀ loc i, r.1 = some (loc, i) → r.2.ll k = l →
          OpChanges (p.1 t f) s (r.2.setLl k { l with log := l.log ++ [{ op := .insert, rsi := rsi, target := i, rsvWay := some loc }] }) t
            (o (hres (l.log.length * 256))))) ∧
    (l.state = .timedOut → stageCheck op none 15 hb ≠ some 0x11 → OpBecomes (p.1 t f) s t (s.bank t).next (o (hres 0x00)))

/-- R25, R26, R184: POS_READ gives the stamp of its domain, or an unknown one where the domain has no epoch; POS_ADD adds modulo
2^48; POS_CMP names the relation of two positions, their difference, and what keeps them from being compared. -/
def Obligations.HookPositions : Prop :=
  ∀ (s : State) (t : Nat) (f : HFmt), SMap.sorted s.strands = true → HookRuns s t 4 0 f [f.hd.toNat] →
    let p := t / 416
    let n := f.md.toNat
    let a := (s.hval t f.ha.toNat).toNat
    let b := (s.hval t f.hb.toNat).toNat
    let ans := fun (c : Instr) (func : Nat) (srcs : List Nat) (v : HWord) =>
      OpBecomes c s t (s.bank t).next { hook := 4, func := func, hd := some f.hd.toNat, srcs := srcs, val := v }
    let two := [f.ha.toNat, f.hb.toNat]
    (f.ha = 0#4 → f.hb = 0#4 →
      ((s.dom p n).epoch ≠ 0 → ans (.posRead t f) 0 [] (s.stamp p n)) ∧
      ((s.dom p n).epoch = 0 → ans (.posRead t f) 0 [] (mkStamp 0 0 n 3 (s.dom p n).origin 0xFFFF))) ∧
    (f.md = 0#4 → (s.strand t).hookArrived two = true →
      (bits b 48 80 = 0 → ans (.posAdd t f) 1 two (BitVec.ofNat 128 (a / 2 ^ 48 * 2 ^ 48 + (a % 2 ^ 48 + b % 2 ^ 48) % 2 ^ 48))) ∧
      (bits b 48 80 ≠ 0 → ans (.posAdd t f) 1 two (s.hval t f.ha.toNat)) ∧
      (bits a 64 4 ≠ bits b 64 4 → ans (.posCmp t f) 2 two (hres 0x24)) ∧
      (bits a 64 4 = bits b 64 4 → bits a 48 16 ≠ bits b 48 16 ∨ bits a 70 1 ≠ bits b 70 1 → ans (.posCmp t f) 2 two (hres 0x25)) ∧
      (bits a 64 4 = bits b 64 4 → bits a 48 16 = bits b 48 16 → bits a 70 1 = bits b 70 1 →
        let d := (a % 2 ^ 48 + 2 ^ 48 - b % 2 ^ 48) % 2 ^ 48
        ans (.posCmp t f) 2 two (mkLanes (if d = 0 then 0x20 else if d < 2 ^ 47 then 0x21 else if 2 ^ 47 < d then 0x22 else 0x23) (d % 2 ^ 32) (d / 2 ^ 32) 0)))

/-- R39, R40, R45, R184, R185: EVT_SCHED of a WAKE for an enabled list on a locked cyclic-free domain whose epoch matches, with a
target ahead and room on the wheel, appends the event and answers that it is pending; EVT_CANCEL removes the events of its tag
and no others; EVT_POLL takes the oldest completion of the strand. -/
def Obligations.HookEvents : Prop :=
  ∀ (s : State) (t : Nat) (f : HFmt), SMap.sorted s.strands = true → f.hb = 0#4 → f.md = 0#4 → HookRuns s t 4 3 f [f.hd.toNat, f.ha.toNat] →
    let p := t / 416
    let d := (s.hval t f.ha.toNat).toNat
    let n := bits d 64 4
    let o := fun (func : Nat) (srcs : List Nat) (v : HWord) => ({ hook := 4, func := func, hd := some f.hd.toNat, srcs := srcs, val := v } : HookOp)
    (bits d 68 3 = 3 → bits d 71 2 = 0 → bits d 73 2 = 0 → bits d 75 2 = 0 → bits d 78 2 = 0 → bits d 112 16 = 0 → bits d 90 6 = 0 →
      s.domEn n = true → s.listEn (bits d 80 10) = true → (s.dom p n).epoch = bits d 48 16 → bits d 48 16 ≠ 0 → (s.dom p n).state = .locked →
      0 < (s.est p n + 2 ^ 48 - bits d 0 48) % 2 ^ 48 → 2 ^ 47 < (s.est p n + 2 ^ 48 - bits d 0 48) % 2 ^ 48 → s.est p n < 2 ^ 48 →
      (bits d 0 48 + 2 ^ 48 - s.est p n) % 2 ^ 48 ≤ 2 ^ 46 → (s.evs.filter fun x => decide (x.wheel = p) && decide (x.kind ≠ .pinEdge)).length < 4096 →
      let e : Ev := { target := bits d 0 48, epoch := bits d 48 16, domain := n, kind := .wake, policy := 0, stepRule := 0, dir := 0, noLate := bit d 77, operand := bits d 80 16, tag := bits d 96 16, strand := t, wheel := p, copy := p, before := true, since := s.now }
      OpChanges (.evtSched t f) s { s with evs := s.evs ++ [e] } t (o 3 [f.ha.toNat] (hres 0x100))) ∧
    (4 ≤ bits d 68 3 → OpBecomes (.evtSched t f) s t (s.bank t).next (o 3 [f.ha.toNat] (hres 0x16))) ∧
    OpChanges (.evtCancel t f) s { s with evs := s.evs.filter fun e => !s.cancels t (bits d 0 16) e } t
      (o 4 [f.ha.toNat] (hres (if (s.evs.filter fun e => s.cancels t (bits d 0 16) e) = [] then 0x17
        else 0x07 + min (s.evs.filter fun e => s.cancels t (bits d 0 16) e).length 255 * 256))) ∧
    (f.ha = 0#4 →
      (SMap.get s.evDone [] t = [] → OpBecomes (.evtPoll t f) s t (s.bank t).next (o 5 [] (hres 0x17))) ∧
      ∀ e rest, SMap.get s.evDone [] t = e :: rest →
        OpChanges (.evtPoll t f) s { s with evDone := SMap.set s.evDone [] t rest } t (o 5 [] e.word))

/-- R186, R187, R233, R236: ALLOC with a bad operand or no pool answers so and charges nothing; one that finds a free buffer within the
strand's share answers its address and size; FREE by an item is staged; the packet operations read, write, insert, strip and
move bytes of the item's frame within its bounds, answer NO_ITEM without one, and change no other lifeline. -/
def Obligations.HookBuffers : Prop :=
  ∀ (s : State) (t : Nat) (f : HFmt), SMap.sorted s.strands = true → SMap.sorted s.lls = true →
    let o := fun (hook func : Nat) (srcs : List Nat) (v : HWord) => ({ hook := hook, func := func, hd := some f.hd.toNat, srcs := srcs, val := v } : HookOp)
    let a := s.hval t f.ha.toNat
    let b := s.hval t f.hb.toNat
    let ha := f.ha.toNat
    let hb := f.hb.toNat
    let arrived := fun (l : List Nat) => (s.strand t).hookArrived l = true
    (f.hb = 0#4 → HookRuns s t 5 0 f [f.hd.toNat, ha] →
      (bits a.toNat 0 17 = 0 ∨ 65536 < a.toNat → OpBecomes (.alloc t f) s t (s.bank t).next (o 5 0 [ha] (hres 0x05))) ∧
      (∀ p, s.hookItem t = none → 0 < a.toNat → a.toNat ≤ 65536 → s.choosePool f.md.toNat a.toNat = some p →
        s.canChargeBuf t = true → s.poolReach (t / 416) p = true → (s.pool p).next < s.poolCount p →
        let i := (s.pool p).next
        let addr := s.poolBase p + i * s.poolSize p
        let m := ({ s.setPool p { s.pool p with next := i + 1 } with skn := { (s.setPool p { s.pool p with next := i + 1 }).skn with chg := SMap.set s.skn.chg 0 t (s.bufChg t + 1) } } : State)
        OpChanges (.alloc t f) s ((m.putTag p i (1 + 4 * (t / 416) + 8 * (t % 416))).noteLow p) t
          (o 5 0 [ha] (hres 0x00 (addr % 2 ^ 32) (bits addr 32 8) (s.poolSize p)))) ∧
      (f.md = 0#4 → s.bufferAt (bits a.toNat 0 40) = none → OpBecomes (.freeBuf t f) s t (s.bank t).next (o 5 1 [ha] (hres 0x0A))) ∧
      ∀ q k, f.md = 0#4 → s.bufferAt (bits a.toNat 0 40) = some q → s.hookItem t = some k → (s.ll k).state ≠ .timedOut → (s.ll k).log.length < 16 →
        OpChanges (.freeBuf t f) s (s.setLl k { s.ll k with log := (s.ll k).log ++ [{ op := .bufFree, target := bits a.toNat 0 40 }] }) t (o 5 1 [ha] (hres 0x00))) ∧
    (HookRuns s t 6 0 f [f.hd.toNat] → s.hookItem t = none →
      (f.hb = 0#4 → arrived [ha] → OpBecomes (.pktRd t f) s t (s.bank t).next (o 6 0 [ha] (hres 0x0C))) ∧
      (arrived [ha, hb] → OpBecomes (.pktWr t f) s t (s.bank t).next (o 6 1 [ha, hb] (hres 0x0C))) ∧
      (f.md = 0#4 → arrived [ha, hb] → OpBecomes (.pktIns t f) s t (s.bank t).next (o 6 2 [ha, hb] (hres 0x0C)) ∧
        OpBecomes (.acfUnpack t f) s t (s.bank t).next (o 6 9 [ha, hb] (hres 0x0C))) ∧
      (f.ha = 0#4 → f.md = 0#4 → arrived [hb] → OpBecomes (.pktStrip t f) s t (s.bank t).next (o 6 3 [hb] (hres 0x0C)) ∧
        OpBecomes (.pktMove t f) s t (s.bank t).next (o 6 4 [hb] (hres 0x0C)))) ∧
    (∀ k, HookRuns s t 6 0 f [f.hd.toNat] → s.hookItem t = some k →
      let fr := s.itemFrame t
      let p0 := bits (hlane b 0).toNat 0 14
      let p1 := bits (hlane b 1).toNat 0 14
      let p2 := bits (hlane b 2).toNat 0 14
      let n := f.md.toNat + 1
      let edits := fun (c : Instr) (func : Nat) (srcs : List Nat) (fr' : List Byte) =>
        fr' ≠ [] → fr'.length ≤ 16383 → OpChanges c s (s.setLl k { s.ll k with frame := fr' }) t (o 6 func srcs (hres 0x00 fr'.length))
      (f.hb = 0#4 → arrived [ha] → OpBecomes (.pktRd t f) s t (s.bank t).next (o 6 0 [ha] (ofHbytes (sliceZ fr (bits (hlane a 0).toNat 0 14) n)))) ∧
      (arrived [ha, hb] → p0 + n ≤ fr.length → edits (.pktWr t f) 1 [ha, hb] (overlay fr (s.hbytesOf t ha n) p0)) ∧
      (arrived [ha, hb] → fr.length < p0 + n → OpBecomes (.pktWr t f) s t (s.bank t).next (o 6 1 [ha, hb] (hres 0x0B))) ∧
      (f.md = 0#4 → arrived [ha, hb] →
        let m := bits (hlane b 1).toNat 0 9
        (0 < m → m ≤ 256 → p0 < fr.length → edits (.pktIns t f) 2 [ha, hb] (fr.take p0 ++ sliceZ (s.hbytesOf t ha (min m 16)) 0 m ++ fr.drop p0)) ∧
        (m = 0 ∨ 256 < m → OpBecomes (.pktIns t f) s t (s.bank t).next (o 6 2 [ha, hb] (hres 0x05)))) ∧
      (f.ha = 0#4 → f.md = 0#4 → arrived [hb] →
        (p0 + p1 ≤ fr.length → edits (.pktStrip t f) 3 [hb] (fr.take p0 ++ fr.drop (p0 + p1))) ∧
        (fr.length < p0 + p1 → OpBecomes (.pktStrip t f) s t (s.bank t).next (o 6 3 [hb] (hres 0x0B))) ∧
        (p1 + p2 ≤ fr.length → p0 + p2 ≤ fr.length → edits (.pktMove t f) 4 [hb] (overlay fr ((fr.drop p1).take p2) p0)) ∧
        (fr.length < p1 + p2 ∨ fr.length < p0 + p2 → OpBecomes (.pktMove t f) s t (s.bank t).next (o 6 4 [hb] (hres 0x0B)))))

/-- R187: ACF_PACK of an item with a valid envelope replaces the frame by the AVTP PDU of its ACF messages and answers OK with the
new length; ACF_UNPACK of a good message writes the envelope into its buffer, leaves the frame, and answers where the next
message starts. Header bits that the spec gives no source for are free (log entry 30).
R172, R173, R175, R176: a result that may arrive is written to its hook register, both copies, and is outstanding no longer; a decode
that has waited for BUSYMAX cycles, and still must, is refused with BUSY and counted, and one whose unit has been fenced takes
EMU_HOOK_ABSENT; a checksum operation one of whose sources has not arrived, or whose unit has not executed an earlier one of the strand, is
held by its unit with the sources it has, and executes when the last of them arrives. -/
def Obligations.HookAcf : Prop :=
  (∀ (s : State) (t k : Nat) (f : HFmt), SMap.sorted s.strands = true → SMap.sorted s.lls = true → HookRuns s t 6 8 f [f.hd.toNat, f.ha.toNat] → s.hookItem t = some k →
      let fr := s.itemFrame t
      let o := fun (func : Nat) (srcs : List Nat) (v : HWord) => ({ hook := 6, func := func, hd := some f.hd.toNat, srcs := srcs, val := v } : HookOp)
      (f.hb = 0#4 → f.md.toNat ≤ 1 →
        let r := s.acfPdu (decide (f.md.toNat = 1)) (s.hval t f.ha.toNat) (s.acfMessages (t / 416) fr)
        (envValid fr = true → (envKind fr = 2 → f.md = 1#4) → r.1 ≠ [] → r.1.length ≤ 16383 →
          OpChanges (.acfPack t f) s ({ s with fresh := s.fresh + 1 }.setLl k { s.ll k with frame := r.1 }) t (o 8 [f.ha.toNat] (hres 0x00 r.1.length))) ∧
        (envValid fr = false → OpChanges (.acfPack t f) s { s with fresh := s.fresh + 1 } t (o 8 [f.ha.toNat] (hres 0x14)))) ∧
      (f.md = 0#4 → (s.strand t).hookArrived [f.hb.toNat] = true →
        let p := bits (hlane (s.hval t f.ha.toNat) 0).toNat 0 14
        let a := bits (s.hval t f.hb.toNat).toNat 0 40
        let r := s.acfParse (fr.drop p) (Config.freeNat s.fresh)
        ∀ q i, r.status = 0 → s.bufferAt a = some (q, i) → r.env.length ≤ s.poolSize q →
          OpChanges (.acfUnpack t f) s ({ s with fresh := s.fresh + 1 }.devWrite (t / 416) a r.env) t
            (o 9 [f.ha.toNat, f.hb.toNat] (hres 0x00 (if p + r.size + 4 ≤ fr.length then p + r.size else 0) r.bus r.env.length)))) ∧
  (∀ (s : State) (t : Nat), SMap.sorted s.strands = true →
      (∀ i o, (s.strand t).ops[i]? = some o → (s.strand t).opMayArrive i = true → o.hook ≠ 1 → (∀ q ∈ (s.strand t).ops, q.wait ≠ .held) →
        let x := { s.strand t with ops := (s.strand t).ops.eraseIdx i }
        let b := decide (o.bank = 1)
        ∃ u, exec (.hookResultArrive t i) s = .next u ∧ Became s u t (match o.hd with
          | some r => x.setBk b { x.bk b with h := SMap.set (x.bk b).h 0#128 r o.val, hc := SMap.set (x.bk b).hc 0#128 r o.val }
          | none => x)) ∧
      (∀ w, (s.strand t).busy = some w → s.mayIssue t = true → (s.strand t).canFetch = true →
        w.since + bits (s.rd R.hkCfg (t / 416) (t / 104 % 4)).toNat 0 12 * cycleU s.part ≤ s.now →
        let m := s.setStrand t { s.strand t with busy := none }
        let gone := s.isFenced (t / 416) 3 (t / 104 * 8 + w.hook)
        (gone = false → s.keptBusy t w.hook w.deps w.lookup = true →
          exec (.hookBusyTimeout t) s = .next ((m.count 5 (t / 104) 2).trapHere t .emu 4 2 w.word (s.bank t).pc ((s.bank t).pc + 4#32))) ∧
        (gone = false → s.keptBusy t w.hook w.deps w.lookup = false → exec (.hookBusyTimeout t) s = .next s) ∧
        (gone = true → exec (.hookBusyTimeout t) s = .next (m.trapHere t .emu 3 1 w.word (s.bank t).pc ((s.bank t).pc + 4#32)))) ∧
      (∀ (f : HFmt), ∀ p ∈ sumOps,
        let hd := f.hd.toNat
        let ha := f.ha.toNat
        let x := s.strand t
        (f.hb = 0#4 → Runs s t f.g [] [] → x.running = none → s.isFenced (t / 416) 3 (t / 104 * 8 + 2) = false → x.ops.length < 8 →
          x.hookArrived [hd] = true → s.hookLoad (t / 104) 2 < 16 →
          (x.hookArrived [ha] = false → OpBecomes (p.1 t f) s t (s.bank t).next
            { hook := 2, func := p.2.1, hd := some hd, srcs := [hd, ha], wait := .held, fmt := some f, caps := SMap.put [] hd ((s.bank t).rh hd) }) ∧
          (x.hookArrived [ha] = true → (∃ o ∈ x.ops, o.hook = 2 ∧ o.isReady = false) → OpBecomes (p.1 t f) s t (s.bank t).next
            { hook := 2, func := p.2.1, hd := some hd, srcs := [hd, ha], wait := .held, fmt := some f,
              caps := SMap.put (SMap.put [] hd ((s.bank t).rh hd)) ha ((s.bank t).rh ha) })) ∧
        (∀ o r c, f.hb = 0#4 → o.isReady = true → o.hook ≠ 1 → o.hd = some r → SMap.sorted c = true → SMap.find c r = none →
          (∀ k, k = hd ∨ k = ha → (SMap.find c k).isSome = true ∨ k = r) → hd = r ∨ ha = r →
          let q : HookOp := { hook := 2, func := p.2.1, hd := some hd, srcs := [hd, ha], bank := o.bank, home := t / 416 }
          x.ops = [o, { q with wait := .held, fmt := some f, caps := c }] → o.bank < 2 →
          let v := fun k => (SMap.find c k).getD o.val
          ∃ u, exec (.hookResultArrive t 0) s = .next u ∧ u = { s with strands := u.strands } ∧ (∀ j, j ≠ t → u.strand j = s.strand j) ∧
            (u.strand t).ops = [{ q with val := mkLanes (p.2.2 (v hd).toNat ((hbytes (v ha)).take (f.md.toNat + 1))) 0 0 0 }])))


namespace Sys2Proof.Machine

/-- Address `a` names byte `o` of block `b` of panel `p`, and a write by `who` can reach it (R405, R406). -/
def Reaches (s : State) (who : Writer) (a : Nat) (b : Blk) (p o : Nat) : Prop :=
  s.canWrite who a = true ∧ blockAt a = some (b, p, o) ∧ b.addr p o = a

/-- The write of a whole word `v` at `a` by `who` passes every check of R407; `r` is the word. -/
def Passes (s : State) (who : Writer) (a : Nat) (v : Word) (r : RegRef) : Prop :=
  ∃ b p o, Reaches s who a b p o ∧ wordAt b p o = some r ∧ s.judgeWrite who 4 b p o v = none

/-- `u` is `s` with a discarded write at byte `o` of a block recorded with bit `n` of its set-up error status, and no other bit or
register changed (R407). -/
def Recorded (s u : State) (b : Blk) (p o n : Nat) : Prop :=
  u = { s with regs := u.regs } ∧ u.rd (R.serr b) p 0 = w32 (setBits (setBit (s.rd (R.serr b) p 0).toNat n true) 16 16 (o / 4)) ∧
  ∀ (d : RegDesc) (q i j : Nat), d.addr q i j ≠ (R.serr b).addr p 0 → u.rd d q i j = s.rd d q i j

/-- The write is made by a command of its own, of the word that the row names. -/
def rowWord (c : Instr) : Option (WrIn × Nat × Word) :=
  match c with
  | .domainEnable w n v | .domainDisable w n v | .primaryResume w n v => some (w, R.domCtl.addr 0 (n % 16), v)
  | .chartCommit w v => some (w, R.chrVcommit.addr 0 0, v)
  | .chartAbort w v => some (w, R.chrVabort.addr 0 0, v)
  | .ndlRst w p v => some (w, R.ndlRst.addr (p % 2) 0, v)
  | .safeClear w n v => some (w, R.tioPstat.addr (n / 128 % 2) (n % 128), v)
  | .qpStateWrite w n v => some (w, R.hstQpctl.addr 0 (n % 64), v)
  | .ringEnable w n v => some (w, R.hstRing0.addr 0 (n % 256), v)
  | .failback w v => some (w, R.hstHcfg.addr 0 0, v)
  | .attnClear w v => some (w, R.svAttn.addr 0 0, v)
  | .modCmdWrite w v => some (w, R.modCmd.addr 0 0, v)
  | .tokenGo w v => some (w, R.secTokctl.addr 0 0, v)
  | .arbAdvance w v | .ownerXfer w v => some (w, R.secArbadv.addr 0 0, v)
  | .flushGo w v => some (w, R.recFlush.addr 0 0, v)
  | .recFselWrite w v => some (w, R.recFsel.addr 0 0, v)
  | .lowrst w v => some (w, R.sknLowrst.addr 0 0, v)
  | _ => none

end Sys2Proof.Machine

/-- R5, R405, R407: a register write is checked in the order access, reserved, owner, mode, range; the first check that fails discards
the word whole and records it with its bit and offset alone; a write of a plain register that passes all takes effect by the
access types of its fields; a write that cannot reach its block changes nothing. A command that writes the word its row names is checked
and recorded the same way. -/
def Obligations.RegisterChecks : Prop :=
  (∀ (s : State) (who : Writer) (a size : Nat) (v : Word), SMap.sorted s.regs = true →
      let c := Instr.registerWrite { who := who, addr := a, size := size, val := v, rival := none }
      (s.canWrite who a = false → exec c s = .next s) ∧
      ∀ (b : Blk) (p o : Nat), Reaches s who a b p o →
        let discards := fun n => ∃ u, exec c s = .next u ∧ Recorded s u b p o n
        (size ≠ 4 ∨ o % 4 ≠ 0 → discards 3) ∧
        (size = 4 → o % 4 = 0 → wordAt b p o = none → discards 0) ∧
        ∀ r, size = 4 → o % 4 = 0 → wordAt b p o = some r →
          let owned := who = .host ∧ (r.desc.id = .svOwn ∨ s.owner r.desc.blk r.panel = 2)
          (r.reserved v.toNat = true → discards 0) ∧
          (r.reserved v.toNat = false → owned → discards (if b = .sv then 1 else 2)) ∧
          (r.reserved v.toNat = false → ¬ owned → s.modeBars r v.toNat = true → discards 2) ∧
          (r.reserved v.toNat = false → ¬ owned → s.modeBars r v.toNat = false → s.rangeBars r v.toNat = true → discards 1) ∧
          (r.reserved v.toNat = false → ¬ owned → s.modeBars r v.toNat = false → s.rangeBars r v.toNat = false → r.desc.id = .plain →
            let old := s.rd r.desc r.panel r.i r.j
            ∃ u, exec c s = .next u ∧ u = { s with regs := u.regs, sec := (s.extendDigest a v).sec } ∧
              u.rd r.desc r.panel r.i r.j = w32 (r.desc.newWord old.toNat v.toNat) ∧
              ∀ (d : RegDesc) (q i j : Nat), d.addr q i j ≠ r.desc.addr r.panel r.i r.j → u.rd d q i j = s.rd d q i j)) ∧
  (∀ (s : State) (c : Instr) (who : Writer) (a : Nat) (v : Word), SMap.sorted s.regs = true → rowWord c = some ({ who := who, rival := none }, a, v) →
      (s.canWrite who a = false → exec c s = .next s) ∧
      ∀ (b : Blk) (p o : Nat) (x : Bar), Reaches s who a b p o → s.judgeWrite who 4 b p o v = some x →
        ∃ u, exec c s = .next u ∧ Recorded s u b p o (match x with
          | .access => 3 | .reserved => 0 | .owner => if b = .sv then 1 else 2 | .mode => 2 | .range => 1))

/-- R7, R21, R329, R334, R407: of a host write and a Selvage write that collide on one register and both pass their checks, the owner of
the block decides which takes effect, and of two of MOD_CMD the Selvage master's does; the other is recorded once the first has acted. Where
one fails its checks it is recorded and the other takes effect. The same holds of a register write and of a command that writes the
word its row names. -/
def Obligations.RegisterCollision : Prop :=
  ∀ (s : State) (a : Nat) (h v : Word) (b : Blk) (p o : Nat) (r : RegRef) (c : Instr), SMap.sorted s.regs = true → Reaches s .host a b p o →
    s.canWrite .selvage a = true → wordAt b p o = some r →
    c = .registerWrite { who := .host, addr := a, size := 4, val := h, rival := some v } ∨
      c = .registerWrite { who := .selvage, addr := a, size := 4, val := v, rival := some h } ∨
      rowWord c = some ({ who := .host, rival := some v }, a, h) ∨ rowWord c = some ({ who := .selvage, rival := some h }, a, v) →
    (s.judgeWrite .host 4 b p o h = none → s.judgeWrite .selvage 4 b p o v = none →
      (r.desc.id = .modCmd → exec c s = .next ((s.applyWord .selvage b p o v []).2.serr b p o 1)) ∧
      (r.desc.id ≠ .modCmd → s.owner b p = 0 → exec c s = .next ((s.applyWord .host b p o h []).2.serr b p o 2)) ∧
      (r.desc.id ≠ .modCmd → s.owner b p ≠ 0 → exec c s = .next ((s.applyWord .selvage b p o v []).2.serr b p o 2))) ∧
    (∀ x, s.judgeWrite .host 4 b p o h = some x → s.judgeWrite .selvage 4 b p o v = none →
      exec c s = .next ((s.serr b p o (x.bitOf b)).applyWord .selvage b p o v []).2) ∧
    (∀ x, s.judgeWrite .host 4 b p o h = none → s.judgeWrite .selvage 4 b p o v = some x →
      exec c s = .next ((s.applyWord .host b p o h []).2.serr b p o (x.bitOf b)))

/-- R32, R45, R47, R92, R94, R145, R239, R262, R302, R305, R307, R330, R353, R394, R398: what each command that writes a register
does once its word passes every check. -/
def Obligations.RowWriteEffects : Prop :=
  ∀ (s : State) (who : WrIn) (v : Word) (n p : Nat) (r : RegRef), SMap.sorted s.doms = true → who.rival = none →
    let x := v.toNat
    let ok := fun (a : Nat) (id : RegId) (i : Nat) => Passes s who.who a v r ∧ r.desc.id = id ∧ r.panel = (if id = .ndlRst ∨ id = .tioPstat ∨ id = .swtExt then p else 0) ∧ r.i = i
    let m := fun (a : Nat) => s.extendDigest a v
    (n < 16 → ok (R.domCtl.addr 0 n) .domCtl n →
      (s.domEn n = false → x % 2 = 1 → ∃ u, exec (.domainEnable who n v) s = .next u ∧
        ∀ q, q < 2 → (u.dom q n).state = .fault ∧ (u.dom q n).cause = .notAcquired ∧ (u.dom q n).epoch = 0 ∧ (u.dom q n).lost = (s.dom q n).lost) ∧
      (s.domEn n = true → x % 2 = 0 → ∃ u, exec (.domainDisable who n v) s = .next u ∧
        ((∀ e ∈ s.evs, s.due e = false) → ∀ e, e ∈ u.evs ↔ e ∈ s.evs ∧ (e.domain = n → e.fired ≠ none)) ∧ ∀ q, q < 2 → (u.dom q n).state = .fault ∧ (u.dom q n).epoch = 0) ∧
      (s.domEn n = true → x % 2 = 1 → s.md.mode = .config →
        exec (.primaryResume who n v) s = .next (((m (R.domCtl.addr 0 n)).putWord r x).resumePrimary n))) ∧
    (ok (R.chrVcommit.addr 0 0) .chrVcommit 0 → exec (.chartCommit who v) s = .next ((m (R.chrVcommit.addr 0 0)).commitChart (x % 65536))) ∧
    (ok (R.chrVabort.addr 0 0) .chrVabort 0 → x % 2 = 1 → exec (.chartAbort who v) s = .next ((m (R.chrVabort.addr 0 0)).abortChart)) ∧
    (p < 2 → ok (R.ndlRst.addr p 0) .ndlRst 0 → let t := p * 416 + x % 512
      exec (.ndlRst who p v) s = .next (((m (R.ndlRst.addr p 0)).restart t).loseOwner t)) ∧
    (p < 2 → n < 128 → ok (R.tioPstat.addr p n) .tioPstat n → bits x 3 3 = 1 → s.pinLost (128 * p + n) = false →
      ∃ u, exec (.safeClear who (128 * p + n) v) s = .next u ∧ u = { m (R.tioPstat.addr p n) with tio := u.tio } ∧
        (SMap.sorted s.tio.pins = true → (u.pin (128 * p + n)) = { s.pin (128 * p + n) with safe := false })) ∧
    (n < 64 → ok (R.hstQpctl.addr 0 n) .hstQpctl n → (s.qp n).state = 0 → x % 4 = 1 →
      exec (.qpStateWrite who n v) s = .next ((m (R.hstQpctl.addr 0 n)).setQp n { ({} : Qp) with
        state := 1, spsn := bits (s.rd R.hstQp1 0 n 1).toNat 0 24, epsn := bits (s.rd R.hstQp1 0 n 2).toNat 0 24, sentAt := s.now, tickAt := s.now })) ∧
    (n < 256 → ok (R.hstRing0.addr 0 n) .hstRing0 n → x % 2 = 1 → s.ringEn n = false →
      let t := (m (R.hstRing0.addr 0 n)).putWord r x
      exec (.ringEnable who n v) s = .next (t.enableRing n) ∧
        ((t.hst.jrnl.filter fun e => decide (e.2.state = .done) && (decide (e.2.ring = n) || decide (t.ringPair e.2.ring = n))) = [] →
          t.enableRing n = t.setRing n {})) ∧
    (ok (R.hstHcfg.addr 0 0) .hstHcfg 0 → bits x 2 1 = 1 → exec (.failback who v) s = .next (((m (R.hstHcfg.addr 0 0)).putWord r x).failBack)) ∧
    (ok (R.svAttn.addr 0 0) .svAttn 0 → exec (.attnClear who v) s = .next ((m (R.svAttn.addr 0 0)).putWord r x)) ∧
    (ok (R.secTokctl.addr 0 0) .secTokctl 0 → x % 2 = 1 → s.sec.verifying = false →
      let t := (m (R.secTokctl.addr 0 0)).putWord r x
      exec (.tokenGo who v) s = .next { t with sec := { t.sec with verifying := true } }) ∧
    (ok (R.secArbadv.addr 0 0) .secArbadv 0 →
      (bits x 2 2 = 1 → exec (.arbAdvance who v) s = .next ((m (R.secArbadv.addr 0 0)).advanceArb (x % 4))) ∧
      (bits x 2 2 = 2 → exec (.ownerXfer who v) s = .next ((m (R.secArbadv.addr 0 0)).xferOwner))) ∧
    (ok (R.recFlush.addr 0 0) .recFlush 0 → x % 2 = 1 →
      exec (.flushGo who v) s = .next { m (R.recFlush.addr 0 0) with rcd := { s.rcd with flushDue := true } }) ∧
    (ok (R.recFsel.addr 0 0) .recFsel 0 → exec (.recFselWrite who v) s = .next (((m (R.recFsel.addr 0 0)).putWord r x).loadFbuf x)) ∧
    (ok (R.sknLowrst.addr 0 0) .sknLowrst 0 → exec (.lowrst who v) s = .next ((m (R.sknLowrst.addr 0 0)).lowReset x)) ∧
    (∀ found, p < 2 → ok (R.swtExt.addr p 0) .swtExt 0 → x % 2 = 1 →
      exec (.extendedSelftest who p v found) s = .next ((m (R.swtExt.addr p 0)).extTest p found)) ∧
    (ok (R.modCmd.addr 0 0) .modCmd 0 → ∀ t, (m (R.modCmd.addr 0 0)).modeCommand (x % 16) (decide (who.who = .selvage)) = (true, t) →
      exec (.modCmdWrite who v) s = .next t)

/-- R23, R24, R31, R32, R33, R35: what moves the copies of a position domain between their states. A LOCKED copy whose active source is
overdue coasts from its estimate at its rate, with the cause and LOST recorded, or locks on a secondary that AUTO_SWITCH may take; a cyclic
one slow enough to stop holds its position in STOPPED; a COAST copy past its uncertainty or time limit goes to FAULT. Joined copies move
together. An observation is counted in its source's run, and one that completes the run of a copy in FAULT locks it with the next epoch. No
other domain changes, and no split copy of the other panel. That an unknown bound exceeds a known FAULT_UNC is the model's choice (log
entry 87). -/
def Obligations.DomainStates : Prop :=
  ∀ (s : State) (p n : Nat), p < 2 → n < 16 → SMap.sorted s.doms = true → s.domEn n = true → s.up p = true →
    let c := s.dom p n
    let src := c.src c.secondary
    let kind := s.srcKind n c.secondary
    let joined := (s.dom 0 n).split = false ∧ (s.dom 1 n).split = false
    let moved := fun (q : Nat) => q = p ∨ (joined ∧ q < 2)
    let others := fun (u : State) => ∀ q k, q < 2 → k < 16 → k ≠ n ∨ ¬ moved q → u.dom q k = s.dom q k
    let coasts := fun (x : Instr) (cause : DomCause) =>
      ∃ u, exec x s = .next u ∧ others u ∧ (s.evs = [] → (∀ q, moved q → s.rb R.domCtl 0 n 3 = false ∨ (s.dom q n).secondary = true) →
          u = { s with doms := u.doms, fresh := u.fresh }) ∧
        ∀ q, moved q → (s.dom q n).state = .locked →
          (s.rb R.domCtl 0 n 3 = false ∨ (s.dom q n).secondary = true →
            (u.dom q n).state = .coast ∧ (u.dom q n).cause = cause ∧ (u.dom q n).lost = true ∧ (u.dom q n).est (s.slewPpm n) s.now = s.est q n ∧
            (u.dom q n).rate = (s.dom q n).rate ∧ (u.dom q n).slew = 0 ∧ (u.dom q n).coastAt = s.now ∧ (u.dom q n).epoch = (s.dom q n).epoch) ∧
          (s.rb R.domCtl 0 n 3 = true → (s.dom q n).secondary = false → s.srcKind n true ≠ 0 → (s.dom q n).sec.need ≤ (s.dom q n).sec.run →
            0 < (s.dom q n).sec.run →
            (u.dom q n).state = .locked ∧ (u.dom q n).secondary = true ∧ (u.dom q n).pos = s.srcNow q n true ∧ (u.dom q n).at_ = s.now ∧
            (u.dom q n).epoch = nextEpoch (s.dom q n).epoch)
    let faults := fun (x : Instr) (cause : DomCause) => ∃ u, exec x s = .next u ∧ others u ∧ (s.evs = [] → u = { s with doms := u.doms }) ∧
      ∀ q, moved q → (u.dom q n).state = .fault ∧ (u.dom q n).cause = cause ∧ (u.dom q n).pos = s.est q n ∧ (u.dom q n).rate = 0 ∧
        (u.dom q n).epoch = (s.dom q n).epoch
    (∀ t, c.state = .locked → isEdge kind = false → src.lastT = some t → s.lossTo n < s.now - t → coasts (.sourceLost p n) .sourceLost) ∧
    (∀ t, c.state = .locked → isEdge kind = true → src.lastT = some t → s.lossTo n < s.now - t →
      let v := (src.lastV.getD 0).natAbs
      (s.domCyclic n = false → coasts (.edgeOverdue p n) .edgeOverdue) ∧
      (s.domCyclic n = true → c.secondary = true ∨ s.reporting p n = false →
        (v * secU * secU ≤ s.amax n * 16777216 * (s.now - t) * rateScale.toNat + s.vstopS n * secU →
          ∃ u, exec (.edgeOverdue p n) s = .next u ∧ others u ∧
            ∀ q, moved q → (u.dom q n).state = .stopped ∧ (u.dom q n).pos = s.est q n ∧ (u.dom q n).epoch = (s.dom q n).epoch) ∧
        (s.amax n * 16777216 * (s.now - t) * rateScale.toNat + s.vstopS n * secU < v * secU * secU → coasts (.edgeOverdue p n) .edgeOverdue))) ∧
    (∀ lim, c.state = .coast → uncBound (bits (s.rd R.domLimit 0 n).toNat 0 16) = some lim →
      (uncBound (s.unc p n) = none ∨ ∃ b, uncBound (s.unc p n) = some b ∧ lim < b) → faults (.uncLimit p n) .uncLimit) ∧
    (c.state = .coast → bits (s.rd R.domCoast 0 n).toNat 24 8 * 100 * msU < s.now - c.coastAt → faults (.coastLimit p n) .coastLimit) ∧
    (∀ ns ppb, s.srcKind n false = 1 → s.up (selPanel 1 (s.srcSel n false)) = true → joined →
      ppb.natAbs ≤ 200000 → c.state = .fault → c.secondary = false →
      let need := if c.prim.run = 0 then bits (s.rd R.domCtl 0 n).toNat 4 4 else c.prim.need
      ∃ u, exec (.sourceObservation n false (.gptp ns ppb true true)) s = .next u ∧ (∀ q k, k < 16 → k ≠ n → u.dom q k = s.dom q k) ∧
        (u.dom p n).prim.run = c.prim.run + 1 ∧ (u.dom p n).prim.accepted = c.prim.accepted + 1 ∧ (u.dom p n).prim.lastT = some s.now ∧
        (u.dom p n).prim.pos = ns % 2 ^ 48 * 256 ∧ (u.dom p n).full = ns ∧
        (c.prim.run + 1 < need → (u.dom p n).state = .fault ∧ (u.dom p n).epoch = c.epoch) ∧
        (need ≤ c.prim.run + 1 → (u.dom p n).state = .locked ∧ (u.dom p n).cause = .none ∧ (u.dom p n).epoch = nextEpoch c.epoch ∧
          (u.dom p n).pos = ns % 2 ^ 48 ∧ (u.dom p n).at_ = s.now))

/-- R39, R41, R42, R45, R185, R270: an armed event whose crossing has been found, and which is the next of its panel to fire in the order of
tick and acceptance, leaves the pending events and takes its action: a PIN_EDGE drives its OUTPUT pin, once the edges placed on the pin at
earlier instants have acted, and completes with FIRED or FIRED_ESTIMATE on its strand's queue; a WAKE joins its list, and one whose list
could not take it is offered again. An event that another of its panel comes before does not fire yet. -/
def Obligations.EventsFire : Prop :=
  ∀ (s : State) (i : Nat) (e : Ev), s.evs[i]? = some e → s.up e.wheel = true →
    (∀ st, e.fired = none → e.held = false → st = (s.dom e.copy e.domain).state → policyAct e.policy st = .armed → s.crossed e = true →
      ((∃ (j : Nat) (x : Ev), s.evs[j]? = some x ∧ j ≠ i ∧ x.wheel = e.wheel ∧ s.due x = true ∧
          (s.dueTick x < s.dueTick e ∨ (s.dueTick x = s.dueTick e ∧ j < i))) → exec (.eventFire i) s = .next s) ∧
      (s.firesNext i e = true →
        (∀ pin, pin = e.operand % 256 → e.kind = .pinEdge → e.placed = false → s.pinMode pin = 2 → SMap.sorted s.tio.pins = true → SMap.sorted s.evDone = true →
          (SMap.get s.evDone [] e.strand).length < 16 →
          (∀ x ∈ s.evs, x.kind = .pinEdge → x.operand % 256 = pin → s.due x = true → x.placed = false → s.dueAt e / 375 ≤ s.dueAt x / 375) →
          let a := bits e.operand 8 2
          let lvl := if a = 0 then 0 else if a = 1 then 1 else if a = 2 then (if (s.pin pin).out = 1 then 0 else 1) else 2
          ∃ u, exec (.eventFire i) s = .next u ∧ u = { s with evs := replaceEv s.evs e none, tio := u.tio, evDone := u.evDone } ∧
            (u.pin pin).out = lvl ∧ (∀ q, q ≠ pin → u.pin q = s.pin q) ∧
            SMap.get u.evDone [] e.strand = SMap.get s.evDone [] e.strand ++ [{ status := if st = .locked then 0 else 2, domain := e.domain, kind := 0, tag := e.tag, pos := s.est e.copy e.domain, epoch := (s.dom e.copy e.domain).epoch, late := 0 }]) ∧
        (∀ t, e.kind = .wake → s.listReach e.wheel (e.operand % 1024) = true → s.listEn (e.operand % 1024) = true →
          ({ s with evs := replaceEv s.evs e none } : State).appendItem (s.wakeItem (e.operand % 1024) e.tag) = some t → exec (.eventFire i) s = .next t))) ∧
    (∀ t, e.fired ≠ none → s.listReach e.wheel (e.operand % 1024) = true → s.listEn (e.operand % 1024) = true →
      ({ s with evs := replaceEv s.evs e none } : State).appendItem (s.wakeItem (e.operand % 1024) e.tag) = some t → exec (.wakeRetry i) s = .next t)

namespace Sys2Proof.Machine

/-- Command `c` runs to a next state of which `q` holds. -/
def Ends (c : Instr) (s : State) (q : State → Prop) : Prop := ∃ u, exec c s = .next u ∧ q u

/-- The state with what a panel's parser waits for replaced. -/
def State.withParse (s : State) (p : Nat) (l : List ParseItem) : State :=
  { s with swt := { s.swt with parseQ := SMap.set s.swt.parseQ [] p l } }

end Sys2Proof.Machine

/-- R49, R61, R254: a port that is UP and whose condition fails goes DOWN: WENT_DOWN of each port of its link is set and every frame
queued to one is dropped; the condition that returns brings it up again. An abandoned CAN frame leaves its queue and is
counted; preemption verification that succeeds is remembered, and one that fails is counted. No other port's condition changes. -/
def Obligations.LinkStates : Prop :=
  ∀ (s : State) (port : Nat), SMap.sorted s.swt.link = true → SMap.sorted s.swt.wentDown = true → SMap.sorted s.swt.qs = true →
    SMap.sorted s.swt.frames = true → SMap.sorted s.swt.rate = true → SMap.sorted s.swt.canTx = true →
    let falls := fun (c : Instr) (p : Nat) => s.condUp p = true → Ends c s fun u =>
      u = { s with swt := u.swt, ctrs := u.ctrs } ∧ u.condUp p = false ∧ (∀ k, k ≠ p → u.condUp k = s.condUp k) ∧
        (∀ k, SMap.get u.swt.wentDown false k = (SMap.get s.swt.wentDown false k || (decide (k ∈ linkGroup p) && decide (s.linkOf k = .up)))) ∧
        (∀ k ∈ linkGroup p, s.linkOf k = .up → ∀ tc < 8, ∀ n ∈ s.queue (portPanel k) k tc, u.fabFrame n = none)
    let rises := fun (c : Instr) (p : Nat) => s.condUp p = false → Ends c s fun u =>
      u = { s with swt := { s.swt with link := u.swt.link, rate := u.swt.rate } } ∧ u.condUp p = true ∧ (∀ k, k ≠ p → u.condUp k = s.condUp k)
    (linkPort port < 960 → falls (.portLinkDown port) (linkPort port)) ∧
    (960 ≤ port → port < 1024 → falls (.linDominantTimeout port) port ∧ rises (.linRecessiveRecovery port) port) ∧
    (800 ≤ port → port < 960 → rises (.canBusoffRecovery port) port) ∧
    (∀ rate, linkPort port < 800 → rises (.portLinkUp port rate) (linkPort port)) ∧
    (∀ rate, 4 ≤ port → port < 32 → s.condUp port = false → s.portModeOf port = 2 → rate ≤ 5 →
      Ends (.portLinkUp port rate) s fun u => SMap.get u.swt.rate 0 port = rate ∧ u.swt.wentDown = s.swt.wentDown) ∧
    (∀ c, SMap.find s.swt.canTx port = some c → c.first + 2 * msU ≤ s.now ∨ s.linkOf port ≠ .up →
      Ends (.txAbandon port) s fun u => u = { s with swt := u.swt, ctrs := u.ctrs } ∧ SMap.find u.swt.canTx port = none ∧ u.fabFrame c.frame = none ∧
        u.queue (portPanel port) port c.tc = (s.queue (portPanel port) port c.tc).drop 1 ∧ u.ctrs = (s.countPort port 8).ctrs) ∧
    (4 ≤ port → port < 32 → s.rb R.egrPcfg (portPanel port) (portLocal port) 20 = true → s.rb R.egrPcfg (portPanel port) (portLocal port) 23 = false →
      s.linkOf port = .up → SMap.get s.swt.verified false port = false → SMap.sorted s.swt.verified = true →
      Ends (.preemptionVerification port true) s (fun u => u = { s with swt := { s.swt with verified := u.swt.verified } } ∧
        ∀ k, SMap.get u.swt.verified false k = (decide (k = port) || SMap.get s.swt.verified false k)) ∧
      exec (.preemptionVerification port false) s = .next (s.countPort port 14))

/-- R52, R56, R57, R60, R62, R63, R100, R282, R425, R426: a frame received on a port that is UP waits for its panel's parser with its
ingress port, its stamp, the ingress cells it was admitted with and the packet buffer cells that hold its bytes; one that is too long,
unprotected, from the wrong node, from another node's source, of a format the port excludes, or for which no cells are free is dropped and
counted, and changes nothing else. A loaded LIN response is put on the bus and is received; a remote one is received with the status that its
bytes and its checksum give, by the checksum kind of the slot's entry. -/
def Obligations.FrameReception : Prop :=
  ∀ (s : State) (f : RxFrame), s.rxOpen f.port = true → s.md.mode ≠ .limp → SMap.sorted s.swt.parseQ = true →
    let p := portPanel f.port
    let stamp := s.stamp p (s.tsDom f.port)
    let waits := fun (c : Instr) (s0 : State) (port : Nat) (bs : List Byte) =>
      (∀ r x cs m, s0.admitIngress p (rxCells bs.length) = some (r, x) → s0.storeFrame p bs = (cs, m) →
        m = { s0 with mem := { s0.mem with dev := m.mem.dev }, fresh := s0.fresh + 1 } ∧
        exec c s = .next (m.withParse p (SMap.get s0.swt.parseQ [] p ++
          [{ port := port, ingress := port, frame := bs, stamp := stamp, cellsR := r, cellsS := x, cells := cs, rx := some s.now }]))) ∧
      (s0.admitIngress p (rxCells bs.length) = none → exec c s = .next (s0.countPort port 13))
    let rx := Instr.frameReceive f
    (∀ bs, f.data = .eth bs → f.port < 32 →
      (s.maxFrm f.port < bs.length + 4 → exec rx s = .next (s.countPort f.port 0)) ∧
      (bs.length + 4 ≤ s.maxFrm f.port → s.macsecOk f.port bs f.sec = false → exec rx s = .next (s.countPort f.port 1)) ∧
      (bs.length + 4 ≤ s.maxFrm f.port → s.macsecOk f.port bs f.sec = true → (s.hostPort f.port && s.hostTraffic bs) = false →
        (f.port = 0 → etherAt bs (rtagPos bs) ≠ 0x88B5) → waits rx s f.port bs)) ∧
    (∀ bs, f.data = .eth bs → 32 ≤ f.port → f.port < 800 →
      let sp := 32 + 8 * ((f.port - 32) / 8)
      let node := sp + f.opp
      let src := sliceZ bs 6 6
      (f.oppOk = false ∨ f.opp = 0 → exec rx s = .next (s.countPort sp 2)) ∧
      (f.oppOk = true → 0 < f.opp → f.opp < s.rf R.t1sPlca 0 ((f.port - 32) / 8) 0 4 →
        (s.rb R.npCfg 0 (node - 32) 0 = false ∨ s.portEn node = false → exec rx s = .next (s.countPort node 3)) ∧
        (s.rb R.npCfg 0 (node - 32) 0 = true → s.portEn node = true → bs.length + 4 ≤ s.maxFrm node → s.macsecOk node bs f.sec = true →
          (bit (byteAt src 0).toNat 0 = true → exec rx s = .next (s.countPort node 4)) ∧
          (bit (byteAt src 0).toNat 0 = false → s.boundAt node 0 = some (leVal src) → node < 32 + 8 * ((f.port - 32) / 8) + 8 →
            s.rxOpen node = true → s.tsDom node = s.tsDom f.port → waits rx s node bs)))) ∧
    (∀ kind ide rtr sec id brs esi sdt vcid af len data bs, f.data = .can kind ide rtr sec id brs esi sdt vcid af len data → 800 ≤ f.port → f.port < 960 →
      canEnv f.port kind ide rtr sec id brs esi sdt vcid af len data stamp = some bs →
      (s.portModeOf f.port < min kind 2 → exec rx s = .next (s.countPort f.port 7)) ∧
      (min kind 2 ≤ s.portModeOf f.port → waits rx s f.port bs)) ∧
    (∀ status fid enh own data, f.data = .lin status fid enh own data → 960 ≤ f.port → waits rx s f.port (linEnv f.port status fid enh own data stamp)) ∧
    (∀ (fid : BitVec 6) (response : List Byte) (checksum : Option Byte) (r : List Byte), 960 ≤ f.port →
      SMap.find s.swt.linResp (f.port * 64 + fid.toNat) = some r →
      waits (.linHeaderReceive f.port fid ⟨response, checksum⟩) (s.emit (.linResponse f.port fid.toNat (r.drop 32))) f.port
        (linEnv f.port .ok fid.toNat (decide (envF r 4 8 1 = 1)) true (r.drop 32) stamp)) ∧
    (∀ (fid : BitVec 6) (response : List Byte) (checksum : Option Byte), 960 ≤ f.port → SMap.find s.swt.linResp (f.port * 64 + fid.toNat) = none →
      ∃ enh, (∀ e, SMap.find s.tio.linSlot f.port = some e → s.portModeOf f.port = 0 → s.rf R.tioLsch p e 0 6 = fid.toNat → enh = s.rb R.tioLsch p e 6) ∧
        waits (.linHeaderReceive f.port fid ⟨response, checksum⟩) { s with fresh := s.fresh + 1 } f.port
          (linEnv f.port (linOutcome enh (linPid fid.toNat) response checksum) fid.toNat enh false response stamp)) ∧
    (∀ (fid : BitVec 6) (checksum : Option Byte), 960 ≤ f.port → s.portModeOf f.port ≠ 0 → SMap.find s.swt.linResp (f.port * 64 + fid.toNat) = none → ∀ r x,
      ({ s with fresh := s.fresh + 1 } : State).admitIngress p (rxCells 32) = some (r, x) →
      Ends (.linHeaderReceive f.port fid ⟨[], checksum⟩) s fun u =>
        u = { s with swt := { s.swt with parseQ := u.swt.parseQ }, mem := { s.mem with dev := u.mem.dev }, fresh := s.fresh + 2 } ∧
        ∃ it, SMap.get u.swt.parseQ [] p = SMap.get s.swt.parseQ [] p ++ [it] ∧ it.port = f.port ∧ envStatus it.frame = 1 ∧ envLen it.frame = 0)

/-- R242, R243, R247, R248, R250, R256, R258, R280–R282: the fabric counts its slots and moves cells, and changes nothing outside the switch
core. A frame at egress admission is dropped for a port that is not UP or whose station is fenced, for its length, or for cells, and counted;
one that is admitted joins its queue. An idle port sends the head frame of its highest eligible class. A missing cell is skipped after the
timeout. The bus schedules open a class, or send a header or count a slip. -/
def Obligations.SwitchCore : Prop :=
  ∀ (s : State), SMap.sorted s.swt.adm = true → SMap.sorted s.swt.qs = true → SMap.sorted s.swt.frames = true → SMap.sorted s.swt.frer = true →
    (Ends .fabricSlot s fun u => u = { s with swt := u.swt } ∧ u.swt.slotA = s.swt.slotA + b2n (s.up 0) ∧ u.swt.slotB = s.swt.slotB + b2n (s.up 1)) ∧
    (∀ p n rest f, p < 2 → SMap.get s.swt.adm [] p = n :: rest → s.fabFrame n = some f → f.port < 32 → f.mirror = none →
      let s0 : State := { s with swt := { s.swt with adm := SMap.set s.swt.adm [] p rest } }
      let drop := fun (k : Nat) => exec (.egressAdmission p) s = .next ((s0.forgetFrame n).countPc f.port f.tc k)
      let fenced := s.stationFenced (stationOf f.port (portPanel f.port))
      (s.egressUp f.port = false ∨ fenced = true → drop 4) ∧
      (s.egressUp f.port = true → fenced = false → s.maxFrm f.port < f.bytes.length + 4 → drop 5) ∧
      (s.egressUp f.port = true → fenced = false → f.bytes.length + 4 ≤ s.maxFrm f.port → s.frerEntry (portPanel f.port) f.port f.tc 15 = none →
        (s0.admitCells (portPanel f.port) f.port f.tc f.dp (cellsOf f.bytes.length) = none → drop f.dp) ∧
        (∀ g x, s0.admitCells (portPanel f.port) f.port f.tc f.dp (cellsOf f.bytes.length) = some (g, x) → s.monitored f.port f.tc = false →
          s.rb R.egrPcfg (portPanel f.port) (portLocal f.port) 24 = false ∨ (∀ m < 32, s.poolEn m = true → s.rb R.sknPcfg 0 m 1 = true) →
          Ends (.egressAdmission p) s fun u => u = { s with swt := u.swt } ∧ u.fabFrame n = some { f with gC := g, xC := x, lines := [], linesAt := s.now } ∧
            u.queue (portPanel f.port) f.port f.tc = s.queue (portPanel f.port) f.port f.tc ++ [n]))) ∧
    (∀ port tc n f, port < 32 → s.up (portPanel port) = true → s.linkOf port = .up → s.txBusy port = [] → s.pickClass port false = some (tc, none) →
      s.headOf (portPanel port) port tc = some (n, f) → s.monitoredPort port = false → f.port = port → f.lines.length ≤ f.got →
      Ends (.egressTransmit ⟨port, false⟩) s fun u => u = { s with swt := u.swt, out := Output.frame port tc f.bytes :: s.out } ∧ u.fabFrame n = none ∧
        u.queue (portPanel port) port tc = (s.queue (portPanel port) port tc).drop 1) ∧
    (∀ port tc, s.rf R.egrPcfg (portPanel port) (portLocal port) 0 8 = 255 → tc < 8 → s.eligibleTx port false tc = true →
      (∀ k, tc < k → k < 8 → s.eligibleTx port false k = false) → s.pickClass port false = some (tc, none)) ∧
    (∀ k t0 c, (s.stream k).gapAt = some t0 → t0 + s.rf R.egrFab (streamIn k / 8) 0 0 10 * usU ≤ s.now → SMap.sorted s.swt.streams = true →
      (s.stream k).lost.find? (fun c => decide (c.seq = (s.stream k).expect)) = some c →
      (∀ d ∈ (s.stream k).held, d.seq ≠ ((s.stream k).expect + 1) % 65536) →
      Ends (.resequenceTimeout (streamIn k / 8) k) s fun u => u = { s with swt := u.swt, ctrs := u.ctrs } ∧
        (u.stream k).expect = ((s.stream k).expect + 1) % 65536 ∧ ∀ e ∈ c.parts, u.fabFrame e.1 = none) ∧
    (∀ p e x, p < 2 → e < 256 → SMap.find s.swt.frer (p * 256 + e) = some x → x.passed + s.rf R.egrFrer1 p e 5 11 * msU ≤ s.now →
      Ends (.frerReset p e) s fun u => u = { s with swt := { s.swt with frer := u.swt.frer }, ctrs := u.ctrs } ∧ SMap.find u.swt.frer (p * 256 + e) = none ∧
        u.ctrs = (s.count 9 (p * 256 + e) 2).ctrs) ∧
    (∀ p e, p < 2 → e < 256 → s.rb R.tioCcyc p 0 0 = true → s.rb R.tioCsch p e 10 = true → s.up p = true → s.inService = true →
      let r := s.schedNow p p (s.rf R.tioCcyc p 0 1 4) (s.rf R.tioCcyc p 0 5 20 * 1000)
      let port := 800 + 80 * p + s.rf R.tioCsch p e 0 7
      let tc := s.rf R.tioCsch p e 7 3
      r.done.contains e = false → r.start + s.rf R.tioCsch p e 11 20 * usU ≤ s.now →
      (∀ i < e, s.rb R.tioCsch p i 10 = true → s.rf R.tioCsch p i 0 7 = s.rf R.tioCsch p e 0 7 → s.rf R.tioCsch p i 11 20 = s.rf R.tioCsch p e 11 20 →
        r.done.contains i = true ∧ (s.canOpen port).contains i = false) → s.queue p port tc ≠ [] →
      exec (.canScheduleEntry p e) s = .next { s with
        tio := { s.tio with sched := SMap.put s.tio.sched p { r with done := r.done ++ [e] }, canOpen := SMap.set s.tio.canOpen [] port (s.canOpen port ++ [e]) } }) ∧
    (∀ port, 960 ≤ port → port < 1024 →
      let p := portPanel port
      let l := (port - 960) % 32
      let first := s.rf R.tioLport p l 5 9
      let n := s.rf R.tioLport p l 14 7
      let at_ := fun (i : Nat) => sumN ((List.range i).map fun j => s.linSlotMs p l j)
      let r := s.schedNow port p (s.rf R.tioLport p l 1 4) (max 1 (at_ n) * 1000000)
      ∀ i, firstIdx n (fun k => !r.done.contains k) = some i → s.rb R.tioLport p l 0 = true → s.portModeOf port = 0 → s.linkOf port = .up →
        s.inService = true → r.start + at_ i * msU ≤ s.now →
        let s0 := s.putSched port { r with done := r.done ++ [i] }
        (s.now < SMap.get s.tio.linBusy 0 port → exec (.linSlotStart port) s = .next (s0.countPort port 16)) ∧
        (SMap.get s.tio.linBusy 0 port ≤ s.now → Ends (.linSlotStart port) s fun u =>
          u = { s0 with tio := { s0.tio with linBusy := u.tio.linBusy, linSlot := SMap.put s.tio.linSlot port (first + i) }, fresh := s.fresh + 1, out := Output.linHeader port (s.rf R.tioLsch p (first + i) 0 6) :: s.out }))

/-- R76, R83, R85, R94, R95, R98, R161: a parser takes the frame that waits longest; one released by the bind-off timeout is discarded, one that meets
an exception of the drop mask is counted under the lowest of them, and one that casts on takes the next marker of its ordering domain. A generation
without frames retires: a retire pass clears its bit in every versioned entry, and a copy pass gives STAGING the bit of CURRENT. An endpoint
with room in its yarn delivers its oldest frame of the highest class as a buffer and a message of four words. -/
def Obligations.ParseAndCharts : Prop :=
  ∀ (s : State),
    (∀ p parser x rest, p < 2 → parser < 4 → SMap.get s.swt.parseQ [] p = x :: rest → s.up p = true → s.isFenced p 8 (4 * p + parser) = false →
      let s0 := s.withParse p rest
      let r := s0.parseFrom (s.chr.curGen % 4) x.frame (s0.startState (s.chr.curGen % 4) x.port) 0 {} 64
      (x.dead = true → exec (.parsePass p parser) s = .next s0) ∧
      (x.dead = false → exec (.parsePass p parser) s = .next (s0.parse p x)) ∧
      (x.dead = false → x.ll = none → x.work = none → ∀ n, lowBit (r.exc &&& (s.bankW (s.chr.curGen % 4) (0x310C / 4)).toNat) = some n →
        exec (.parsePass p parser) s = .next (s0.countP p n))) ∧
    (∀ p (w : WorkItem) early, p < 2 → SMap.sorted s.odoms = true → w.panel = p → (bits w.action 8 2 = 1 → early = false) →
      let d := bits w.action 26 14
      let o := s.od p d
      ((o.next + 65536 - o.head) % 65536 < 512 → ((s.castOn p w early).od p d).next = (o.next + 1) % 65536) ∧
      (512 ≤ (o.next + 65536 - o.head) % 65536 → s.castOn p w early = s.countP p 13)) ∧
    (∀ g, s.chr.draining = some g → (∀ p < 2, s.reachable p = true → s.genCount p g = 0) →
      exec .generationRetire s = .next { s with chr := { s.chr with draining := none, passes := s.chr.passes ++ [.retire (g % 4)] } }) ∧
    (∀ g p, p < 2 → s.chr.draining = some g → s.reachable p = true → s.genCount p g ≠ 0 → exec .generationRetire s = .next s) ∧
    (∀ w rest, s.chr.passes = w :: rest → SMap.sorted s.tbl.a.ents = true → SMap.sorted s.tbl.b.ents = true → Ends .sweepPassEnd s fun u =>
      u = { s with chr := u.chr, tbl := u.tbl } ∧ u.chr.passes = rest ∧ u.chr.curGen = s.chr.curGen ∧
        let f := fun (v : Nat) => match w with | .copy => setBit v s.stagingSlot (bit v (s.chr.curGen % 4)) | .retire k => setBit v k false
        ∀ p h, SMap.find (u.tp p).ents h = match SMap.find (s.tp p).ents h with
          | none => none
          | some e => if e.vmask = 15 then some e else if f e.vmask = 0 then none else some { e with vmask := f e.vmask }) ∧
    (∀ e tc n f, e < 43 → s.epOk e = true →
      let c := s.sepCourse e
      let p := coursePanel c
      let key := c * 64 + s.rf R.sepCfg 0 e 4 6
      s.up p = true → (s.yarn key).count < 8 → s.innerHead p (1109 + e) = some (tc, n, f) →
      let s1 := (s.popQueue p (1109 + e) tc).delFrame n
      let q := SMap.get s.yrn.epSeq 0 e
      let s2 : State := { s1 with yrn := { s1.yrn with epSeq := SMap.set s1.yrn.epSeq 0 e ((q + 1) % 4294967296) } }
      let len := f.bytes.length
      (∀ a pl s3, s2.allocBuf (.endpoint e) (s.rf R.sepCfg 0 e 10 4) len false = (0, a, pl, s3) →
        let s4 := s3.devWrite p a f.bytes
        let m := [w32 a, w32 (a / 2 ^ 32 % 256 + (len % 16384) * 256 + tc * 2 ^ 22), w32 f.ingress, w32 q]
        exec (.endpointDelivery e) s = .next (s4.setYarn key { s4.yarn key with transit := (s4.yarn key).transit ++ [m] })) ∧
      (∀ st a pl s3, st ≠ 0 → s2.allocBuf (.endpoint e) (s.rf R.sepCfg 0 e 10 4) len false = (st, a, pl, s3) →
        exec (.endpointDelivery e) s = .next (s3.count 6 e 0)))

/-- R190, R197, R201, R203–R207, R209, R210, R317: a panel's learn engine takes the oldest work whose bucket no conditional delete holds. A learn
request inserts, at its home, an address that the table does not hold, confirms one on its own port, is counted for a static or pinned one and
for one in its guard time, which it makes pending, and moves any other, counting the move and pinning at the threshold; a host command has its
effect in its turn, or completes with NOT_READY while the panels are split. Hits and entry writes that come over the bridge are applied at the
other panel, a scan pass visits every entry that keeps activity, and a conditional delete completes by what it finds. -/
def Obligations.TableUpkeep : Prop :=
  ∀ (s : State) (p : Nat), p < 2 → SMap.sorted (s.tp p).ents = true → SMap.sorted (s.tp p).act = true → SMap.sorted (s.tp (1 - p)).ents = true →
    let q := 1 - p
    (∀ w n, s.up p = true → s.l2Table = some n → ((s.tp p).learnQ.find? fun w => !s.bucketHeld n (s.tblBucket n w.key)) = some w →
      let s0 := s.setTp p { s.tp p with learnQ := (s.tp p).learnQ.erase w }
      let only := fun (u : State) => u = { s with tbl := u.tbl, ctrs := u.ctrs, hst := u.hst, out := u.out, rcd := u.rcd }
      (∀ j k d, (w = .insert j k d → exec (.learn p) s = .next (if s.split then s0.finish j 0x04 [] else s0.unversioned .insert j n k d)) ∧
        (w = .modify j k d → exec (.learn p) s = .next (if s.split then s0.finish j 0x04 [] else s0.unversioned .modify j n k d)) ∧
        (w = .delete j k → exec (.learn p) s = .next (if s.split then s0.finish j 0x04 [] else s0.unversioned .delete j n k 0))) ∧
      ∀ r, w = .sight r →
        (s.homeFind p n r.key (fun _ => true) = none → s.tblPlace p n r.key = none → exec (.learn p) s = .next (s0.countP p 24)) ∧
        (∀ h, s.homeFind p n r.key (fun _ => true) = none → s.tblPlace p n r.key = some h → Ends (.learn p) s fun u => only u ∧
          let home := s.tblHome p (hIdx h)
          SMap.find (u.tp home).ents h = some { key := r.key, vmask := 15, data := r.port + 2 ^ 13, aux := mkAux 0 false 0 s.t8us s.tms } ∧
          (∀ k, k ≠ h → SMap.find (u.tp home).ents k = SMap.find (s.tp home).ents k) ∧ (u.tp (1 - home)).ents = (s.tp (1 - home)).ents) ∧
        (∀ h e, s.homeFind p n r.key (fun _ => true) = some (h, e) →
          let home := s.tblHome p (hIdx h)
          let guarded := (s.t8us + 16777216 - bits e.aux 16 24) % 16777216 < s.l2Guard
          (l2Port e.data = r.port → bit e.aux 11 = false ∨ guarded → exec (.learn p) s = .next (s0.hitEnt p h r.key)) ∧
          (l2Port e.data = r.port → bit e.aux 11 = true → ¬ guarded → Ends (.learn p) s fun u => only u ∧
            SMap.find (u.tp home).ents h = some { e with aux := setBit e.aux 11 false }) ∧
          (l2Port e.data ≠ r.port → bit e.data 11 = true ∨ bit e.data 12 = true → exec (.learn p) s = .next (s0.countP p 28)) ∧
          (l2Port e.data ≠ r.port → bit e.data 11 = false → bit e.data 12 = false →
            (guarded → Ends (.learn p) s fun u => only u ∧ u.ctrs = (s.countP p 27).ctrs ∧
              SMap.find (u.tp home).ents h = some { e with aux := setBit (setBits e.aux 0 11 r.port) 11 true }) ∧
            (¬ guarded → Ends (.learn p) s fun u => only u ∧
              let expired := s.l2Mwin ≤ (s.tms + 65536 - bits e.aux 40 16) % 65536
              let moves := min (if expired then 1 else bits e.aux 12 4 + 1) 15
              SMap.find (u.tp home).ents h = some { e with data := setBit (setBits e.data 0 11 r.port) 12 (decide (s.l2Mthr ≤ moves)), aux := mkAux 0 false moves s.t8us (if expired then s.tms else bits e.aux 40 16) })))) ∧
    (∀ m rest, (s.tp q).stream = m :: rest → s.joined = true →
      let s0 := s.setTp q { s.tp q with stream := rest }
      (∀ h key pos epoch, m = .hit h key pos epoch →
        (∀ e, SMap.find (s.tp p).ents h = some e → e.key = key → s.tblAge (hTable h) = true → Ends (.activityUpdate p) s fun u =>
          u = { s with tbl := u.tbl } ∧ (u.tp q).stream = rest ∧ (u.activity p h).pos = pos ∧ (u.activity p h).epoch = epoch ∧ (u.activity p h).hit = true ∧
          (u.activity p h).hitgen = (if (s.activity p h).hit then (s.activity p h).hitgen else ((s.activity p h).hitgen + 1) % 256)) ∧
        (SMap.find (s.tp p).ents h = none → exec (.activityUpdate p) s = .next s0)) ∧
      (∀ j, m = .marker j → Ends (.activityUpdate p) s fun u => u = { s with tbl := u.tbl } ∧ (u.tp q).stream = rest ∧
        (u.tp p).cdels = (s.tp p).cdels.map fun c => if c.jrec = j then { c with ready := true } else c)) ∧
    (∀ c rest, (s.tp p).copyQ = c :: rest → s.joined = true →
      (c.jrec = none → Ends (.remoteCopyWrite p) s fun u => u = { s with tbl := u.tbl } ∧ (u.tp p).copyQ = rest ∧
        ∀ k, SMap.find (u.tp q).ents k = if k = c.handle then c.entry else SMap.find (s.tp q).ents k) ∧
      (∀ j, c.jrec = some j →
        let s1 := (s.setTp p { s.tp p with copyQ := rest }).putCopy q c.handle c.entry
        let more := ∃ d ∈ rest ++ (s.tp q).copyQ, d.jrec = some j
        (more → exec (.remoteCopyWrite p) s = .next s1) ∧ (¬ more → exec (.remoteCopyWrite p) s = .next (s1.finish j 0 c.result)))) ∧
    (∀ t, (s.tp p).scanDue = some t → t ≤ s.now → s.scanPeriod ≠ 0 → s.inService = true → s.up p = true →
      ((s.tp p).scan ≠ none → exec (.scanPass p) s = .next ((s.setTp p { s.tp p with scanDue := none }).countP p 30)) ∧
      ((s.tp p).scan = none → (∀ e ∈ (s.tp p).ents, s.tblKind (hTable e.1) ≠ 6 ∧ (s.activity p e.1).hit = true) → Ends (.scanPass p) s fun u =>
        u = { s with tbl := u.tbl } ∧ (u.tp p).scan = none ∧ (u.tp p).scanDue = some (s.now + s.scanPeriod) ∧ (u.tp p).ents = (s.tp p).ents ∧
          ∀ e ∈ (s.tp p).ents, u.activity p e.1 = { s.activity p e.1 with hit := !(s.tblAge (hTable e.1) && decide (s.tblHome p (hIdx e.1) = p)) })) ∧
    (∀ c, (s.tp p).scan = some { todo := [], cands := c } → c ≠ [] → s.idleFull = false → s.inService = true → s.up p = true →
      let s1 := s.postEvent 2 c.length p c.flatten
      exec (.scanResume p) s = .next (s1.setTp p { s1.tp p with scan := none, scanDue := some ((s.tp p).scanDue.getD s.now) })) ∧
    (∀ c, s.split = true → (s.tp p).cdels.head? = some c →
      exec (.cdeleteDecide p) s = .next ((s.setTp p { s.tp p with cdels := (s.tp p).cdels.filter fun d => decide (d.jrec ≠ c.jrec) }).finish c.jrec 0x04 [])) ∧
    (∀ c, s.split = false → (s.tp p).cdels.find? (fun c => c.ready) = some c →
      let s0 := s.setTp p { s.tp p with cdels := (s.tp p).cdels.filter fun d => decide (d.jrec ≠ c.jrec) }
      (SMap.find (s.tp p).ents c.handle = none → exec (.cdeleteDecide p) s = .next (s0.finish c.jrec 0x02 [])) ∧
      (∀ e, SMap.find (s.tp p).ents c.handle = some e →
        (e.key ≠ c.key ∨ e.vmask ≠ 15 → exec (.cdeleteDecide p) s = .next (s0.finish c.jrec 0x02 [])) ∧
        (e.key = c.key → e.vmask = 15 → (s.activity p c.handle).hitgen ≠ c.hitgen → exec (.cdeleteDecide p) s = .next (s0.finish c.jrec 0x06 [])) ∧
        (e.key = c.key → e.vmask = 15 → (s.activity p c.handle).hitgen = c.hitgen → exec (.cdeleteDecide p) s = .next (s0.putEnt p c.handle none (some c.jrec)))))

/-- R104, R105, R107, R112, R113–R116, R138, R298: a round dispatches the first eligible item that a strand can take: it leaves its list, its lifeline runs, and
the strand enters at its dispatch entry with the item's words. Held and spilled items move in order; one whose place in the ring has gone is discarded. At its release turn an item that
passes every check commits and gives up its lifeline; one that fails is put back at the head of its list with its attempt counted, or, if it
is serial, is released. An item whose timeout has expired is released by its state, and one whose timeout has not is left alone. -/
def Obligations.CarriageTurns : Prop :=
  ∀ (s : State), SMap.sorted s.lls = true → SMap.sorted s.strands = true → SMap.sorted s.car.lists = true → SMap.sorted s.car.spill = true →
    (∀ c pr l ls i w t, c < 8 → pr < 8 → s.inService = true → s.up (coursePanel c) = true → (∀ q, pr < q → q < 8 → s.served c q = []) →
      s.served c pr = l :: ls → s.eligible l = some i → (s.items l)[i]? = some w → w.dead = false → s.timedOut w = false →
      s.strandFor c pr w = some t → (s.strand t).idle = true →
      let runs := fun (k : Nat) => Ends (.dispatch c) s fun u => u.items l = (s.items l).eraseIdx i ∧ (∀ j, j ≠ l → u.items j = s.items j) ∧
        (u.ll k).state = .running ∧ (u.ll k).strand = some t ∧ (u.ll k).item.list = w.list ∧ (∀ j, j ≠ k → u.ll j = s.ll j) ∧
        (u.strand t).inB1 = false ∧ (u.strand t).idle = false ∧ (u.bank t).item = some k ∧ (u.bank t).hasItem = true ∧
        (u.bank t).pc = (s.strand t).tvbase + 0x180#32 ∧ (u.bank t).wi = ({ (u.ll k).item with ll := some k } : WorkItem).words ∧
        (∀ j, j ≠ t → u.strand j = s.strand j) ∧ u.regs = s.regs ∧ u.mem = s.mem
      (∀ k x, w.ll = some k → SMap.find s.lls k = some x → runs k) ∧
      (∀ k s1, w.ll = none → s.pickLl w.panel = (some k, s1) → SMap.find s.lls k = none → runs k)) ∧
    (∀ p, p < 2 → s.hst.heldWork = [] →
      ((∀ w ∈ s.holdQ p, s.storeItem w.list w = none) → exec (.holdQueueRetry p) s = .next (s.setHeldWork [])) ∧
      (∀ w s1, s.holdQ p = [w] → s.storeItem w.list w = some s1 → exec (.holdQueueRetry p) s = .next ((s1.setHoldQ p []).setHeldWork []))) ∧
    (∀ l w rest, s.spilled l = w :: rest →
      let a := s.spillAddr l (w.ring.getD 0)
      let held := s.dramHolds (listPanel l) 2 a 32 false
      let asked := (s.setSpilled l rest).askDram (listPanel l) 2 a 32 false
      ((s.items l).length < s.listDepth l → s.storeUse (listPanel l) < s.storeSize (listPanel l) → held = false →
        (s.spillPoison l (w.ring.getD 0) = false → Ends (.spillReturn l) s fun u =>
          u = { asked with car := { s.car with spill := u.car.spill, lists := u.car.lists } } ∧ u.spilled l = rest ∧ u.items l = s.items l ++ [{ w with ring := none }] ∧
            ∀ j, j ≠ l → u.spilled j = s.spilled j ∧ u.items j = s.items j) ∧
        (s.spillPoison l (w.ring.getD 0) = true → exec (.spillReturn l) s = .next (asked.discardHead w))) ∧
      (s.listDepth l ≤ (s.items l).length ∨ s.storeSize (listPanel l) ≤ s.storeUse (listPanel l) ∨ held = true → exec (.spillReturn l) s = .next s)) ∧
    (∀ p i, p < 2 → i < 4096 →
      let k := p * 4096 + i
      let l := s.ll k
      (s.isTurn k = false → exec (.releaseTurn p i) s = .next s) ∧
      (s.up p = true → s.isTurn k = true → SMap.find s.lls k = some l →
        (s.commitFails k = none → l.item.kind ≠ .frame ∨ bits (leVal l.egr) 0 11 < 1024 ∨ 1027 < bits (leVal l.egr) 0 11 →
          Ends (.releaseTurn p i) s fun u => SMap.find u.lls k = none) ∧
        (∀ r, s.commitFails k = some r → l.serial = true → Ends (.releaseTurn p i) s fun u => SMap.find u.lls k = none) ∧
        (∀ r, s.commitFails k = some r → l.serial = false → Ends (.releaseTurn p i) s fun u => ∃ x rest, SMap.find u.lls k = some x ∧ x.state = .queued ∧
          x.rs = [] ∧ x.log = [] ∧ x.tents = [] ∧ x.frogRsi = r ∧ x.strand = none ∧ x.item.attempt = min (l.item.attempt + 1) 3 ∧
          x.serial = decide (3 ≤ l.item.attempt + 1) ∧ x.frame = l.frame0 ∧ x.fmeta = l.fmeta0 ∧ u.items l.item.list = x.item :: rest ∧ rest = s.items l.item.list)) ∧
      (s.timedOut l.item = false → exec (.bindTimeout (.held p i)) s = .next s) ∧
      (s.timedOut l.item = true → SMap.find s.lls k = some l →
        (l.state = .queued ∨ l.state = .recirc → Ends (.bindTimeout (.held p i)) s fun u => SMap.find u.lls k = none) ∧
        (∀ t, l.state = .running → l.strand = some t → (∀ o ∈ (s.strand t).ops, o.onLock = false) → Ends (.bindTimeout (.held p i)) s fun u =>
          (u.ll k).state = .timedOut ∧ (u.ll k).rs = [] ∧ (u.ll k).log = [] ∧ u.strands = s.strands))) ∧
    (∀ p d m w, p < 2 → d < 16384 → m < 65536 → s.items w.list = [w] → s.car.lists = [(w.list, [w])] → w.waitsAs p d m = true →
      (s.timedOut w = false → exec (.bindTimeout (.listed p d m)) s = .next s) ∧
      (s.timedOut w = true → Ends (.bindTimeout (.listed p d m)) s fun u => u.items w.list = [{ w with dead := true }]))

/-- R110, R116, R221, R227, R289: a read takes the lock it waits for once no other item holds it and no earlier read waits for it; the read that found
the miss queue full first is offered to it again when it has room; a panel serves the misses at the head of its queue within its rate and that of its DRAM,
filling their contexts, and a read of a record that is gone answers ABSENT; an adopted record whose key the stash also holds is freed and counted. -/
def Obligations.FlowProgress : Prop :=
  ∀ (s : State),
    (∀ t o p key, (s.strand t).ops.find? HookOp.onLock = some o → o.wait = .lock p key →
      let f := s.flw p
      let first := f.lockWait.find? fun u => (s.strand u).ops.any fun q => decide (q.wait = .lock p key)
      ((∃ l ∈ f.locks, l.key + b2n l.onBucket * 2 ^ 26 = key) ∨ first ≠ some t → exec (.lockGrant t) s = .next s) ∧
      ((∀ l ∈ f.locks, l.key + b2n l.onBucket * 2 ^ 26 ≠ key) → first = some t →
        exec (.lockGrant t) s = .next (s.rerun t HookOp.onLock))) ∧
    (∀ t, (s.strand t).ops.find? HookOp.onLock = none → exec (.lockGrant t) s = .next s) ∧
    (∀ t o k n p c, SMap.sorted s.strands = true → (s.strand t).ops = [o] → o.home = p → s.overBridge t p = false → s.flwEn p = true → o.key = [] → o.ridx ≠ ridxNone → o.func = 1 →
      s.ctxOf p o.ridx = some n → c = s.ctx p n → c.state = .clean → c.ridx = o.ridx → s.opLl t o = some k → repeatOf (s.ll k).rs p n c.ridx = none →
      (s.ll k).rs.length < 12 → (s.ll k).serial = true → o.wait = .lock p c.ridx → (∀ l ∈ (s.flw p).locks, l.key + b2n l.onBucket * 2 ^ 26 ≠ c.ridx) →
      s.lockedByOther p false c.ridx k = false → ((s.flw p).lockWait.find? fun u => (s.strand u).ops.any fun q => decide (q.wait = .lock p c.ridx)) = some t →
      Ends (.lockGrant t) s fun u => (u.strand t).ops = [{ o with wait := .ready, val := readVal 0x00 (s.ll k).rs.length c.ridx c.ver, rsi := (s.ll k).rs.length }] ∧
        ∀ j, j ≠ t → u.strand j = s.strand j) ∧
    (∀ p, p < 2 →
      let f := s.flw p
      let waits := fun (u : Nat) => (s.strand u).ops.any fun q => decide (q.wait = .missFull p)
      (4096 ≤ f.missQ.length → exec (.missQueueAdmit p) s = .next s) ∧
      (∀ t, f.missQ.length < 4096 → f.missWait.find? waits = some t →
        exec (.missQueueAdmit p) s = .next ((s.setFlw p { f with missWait := f.missWait.filter fun u => decide (u ≠ t) }).rerun t fun o => decide (o.wait = .missFull p))) ∧
      (f.missQ = [] → exec (.missServe p) s = .next s) ∧
      (∀ n rest, f.missQ = n :: rest →
        let done := if f.servedUs = s.now / usU then f.served else 0
        let c := s.ctx p n
        let r := s.missReads p c
        (s.up p = false ∨ s.missRate p ≤ done ∨ s.dramHolds p 0 r.1 r.2 false = true → exec (.missServe p) s = .next s) ∧
        (s.up p = true → done < s.missRate p → s.dramHolds p 0 r.1 r.2 false = false →
          (s.missReaders p n = [] → exec (.missServe p) s =
            .next (((s.askDram p 0 r.1 r.2 false).setFlw p { f with missQ := rest, served := done + 1, servedUs := s.now / usU }).fillCtx p n)) ∧
          (c.state = .filling → c.ridx ≠ ridxNone → s.hasRecord p c.ridx = false → SMap.sorted s.strands = true → Ends (.missServe p) s fun u =>
              (u.flw p).missQ = rest ∧ ∀ t, (u.strand t).ops = (s.strand t).ops.map fun o => if o.wait = .miss p n then o.absent else o))) ∧
      (∀ m b, SMap.sorted f.adoptUsed = true → (f.adoptUsed.find? fun e => e.2 && s.adoptDup p e.1) = some (m, b) →
        Ends (.adoptConflict p) s fun u => SMap.get (u.flw p).adoptUsed false m = false ∧ u.ctrs = (s.countP p 36).ctrs ∧ u.strands = s.strands ∧ u.regs = s.regs) ∧
      ((f.adoptUsed.find? fun e => e.2 && s.adoptDup p e.1) = none → exec (.adoptConflict p) s = .next s))

/-- R263–R268, R271, R273–R277, R279: a raw change waits for its filter, one that falls back within it is a glitch, and a level that has held is
accepted, delivering its edge unless the last one was less than 20 ns before. A capture record joins the panel's store with the next SEQ of its
stream. A delayed edge drives its pin when it is due. A SENT frame, a conversion and a sinc3 output give the record that the spec lays
down, and a sample of a MAINS input raises the peak of its half-cycle, or begins that of the next, by the phase of the fundamental, which is a
free value (log entry 89). -/
def Obligations.TimedInputs : Prop :=
  ∀ (s : State), SMap.sorted s.tio.pins = true → SMap.sorted s.tio.dead = true → SMap.sorted s.tio.sdmOut = true → SMap.sorted s.tio.seq = true →
    SMap.sorted s.tio.phase = true → SMap.sorted s.tio.peak = true →
    (∀ n level, n < 256 → s.up (n / 128) = true → (s.pin n).raw ≠ level →
      let x := s.pin n
      (x.rawAt = none → level ≠ x.level → Ends (.pinTransition n level) s fun u => u = { s with tio := { s.tio with pins := u.tio.pins } } ∧
        u.pin n = { x with raw := level, rawAt := some s.now, rawStamp := s.stamp (n / 128) (s.pinDom n) } ∧ ∀ k, k ≠ n → u.pin k = s.pin k) ∧
      (∀ t, x.rawAt = some t → s.now < t + s.glitchTime n → level = x.level → (s.pinMode n = 1 → ∀ e ∈ s.pinSources n, s.srcKind e.1 e.2 ≠ 3) → Ends (.pinTransition n level) s fun u =>
        u = { s with tio := { s.tio with pins := u.tio.pins }, ctrs := u.ctrs } ∧ u.ctrs = (s.count 0xB n 0).ctrs ∧
        u.pin n = { x with raw := level, rawAt := none, glitch := true } ∧ ∀ k, k ≠ n → u.pin k = s.pin k)) ∧
    (∀ n t, n < 256 → (s.pin n).rawAt = some t →
      let x := s.pin n
      (s.now < t + s.glitchTime n ∨ s.up (n / 128) = false → exec (.pinEdgeAccept n) s = .next s) ∧
      (t + s.glitchTime n ≤ s.now → s.up (n / 128) = true → s.pinMode n ≠ 1 ∨ (s.pinSources n = [] ∧ s.pinDecoders n = []) →
        (∀ t0, x.lastAcc = some t0 → t < t0 + 20 * nsU → Ends (.pinEdgeAccept n) s fun u => u = { s with tio := { s.tio with pins := u.tio.pins }, ctrs := u.ctrs } ∧
          u.ctrs = (s.count 0xB n 1).ctrs ∧ u.pin n = { x with level := x.raw, rawAt := none, lastAcc := some t, overrate := true }) ∧
        ((∀ t0, x.lastAcc = some t0 → t0 + 20 * nsU ≤ t) → Ends (.pinEdgeAccept n) s fun u => u.pin n = { x with level := x.raw, rawAt := none, lastAcc := some t, lastDel := some t } ∧
          (∀ k, k ≠ n → u.pin k = s.pin k) ∧ u.regs = s.regs ∧ u.doms = s.doms ∧ u.strands = s.strands ∧ u.mem.sram = s.mem.sram ∧ u.mem.scratch = s.mem.scratch ∧
          (s.rb R.tioScfg0 (n / 128) (s.rf R.tioPcfg (n / 128) (n % 128) 17 4) 5 = false → u.mem = s.mem)))) ∧
    (∀ p st kind level src data stamp, p < 2 → st < 16 →
      let q := max 1 (SMap.get s.tio.seq 0 (p * 16 + st))
      let a := s.recordAddr p st q
      let next := fun (u : State) => SMap.get u.tio.seq 0 (p * 16 + st) = if q = 0xFFFFFFFF then 1 else q + 1
      (s.rb R.tioScfg0 p st 0 = true → s.devOk p a 32 = true → (s.tioStore p).length < 256 → s.rb R.tioScfg0 p st 5 = false →
        ∀ u, u = s.capture p st kind level src data stamp → u = { s with tio := u.tio } ∧ next u ∧
          u.tioStore p = s.tioStore p ++
            [{ addr := a, bytes := leBytes 16 stamp.toNat ++ leBytes 4 q ++ leBytes 4 (kind + level * 8 + src * 16) ++ leBytes 8 data, at_ := s.now }]) ∧
      (s.rb R.tioScfg0 p st 0 = false ∨ 256 ≤ (s.tioStore p).length → s.rb R.tioScfg0 p st 5 = false →
        ∀ u, u = s.capture p st kind level src data stamp → u = { s with tio := { s.tio with seq := u.tio.seq }, ctrs := (s.count 0xC (p * 16 + st) 0).ctrs } ∧ next u)) ∧
    (∀ p m d, p < 2 → m < 64 → SMap.find s.tio.dead (p * 64 + m) = some d → s.up p = true →
      let r := posRel (s.est d.copy d.domain) d.due
      let fires := Ends (.deadTimeExpire p m) s fun u => u = { s with tio := { s.tio with dead := u.tio.dead, pins := u.tio.pins } } ∧
        SMap.find u.tio.dead (p * 64 + m) = none ∧ (u.pin d.pin).out = 1 ∧ ∀ k, k ≠ d.pin → u.pin k = s.pin k
      (d.byPos = false → (d.due ≤ s.now → fires) ∧ (s.now < d.due → exec (.deadTimeExpire p m) s = .next s)) ∧
      (d.byPos = true → (r = .equal ∨ r = .after → fires) ∧ (r ≠ .equal → r ≠ .after → exec (.deadTimeExpire p m) s = .next s))) ∧
    (∀ r sync status data tail sinceNs, r < 32 →
      let p := r / 16
      let c := (s.rd R.tioSent p (r % 16)).toNat
      let pin := 128 * p + bits c 0 7
      let nom := 56 * bits c 8 10 * 1000
      let prev := SMap.get s.tio.sentSync 0 r
      let far := fun (a b part : Nat) => b < part * (max a b - min a b)
      let k := bits c 18 3
      let ticks := (status.toList ++ data ++ tail).map (sentTicks sync)
      let nibs := ticks.take (k + 2)
      let whole := ticks.length = k + 2 ∨ (bit c 22 = true ∧ ticks.length = k + 3)
      let nib := ((nibs.drop 1).take k).map fun n => n - 12
      let gives := fun (d : Nat) => exec (.sentFrame r sync status data tail sinceNs) s =
        .next (({ s with fresh := s.fresh + 2, tio := { s.tio with sentSync := SMap.set s.tio.sentSync 0 r sync } } : State).capture p (bits c 23 4) 1 0 r d
          (s.stampAt p (s.pinDom pin) (s.now - sinceNs * nsU)))
      bit c 7 = true → s.pinMode pin = 5 → s.up p = true →
        ((∀ n ∈ nibs, 12 ≤ n ∧ n ≤ 27) → whole → ¬ far sync nom 4 → prev = 0 ∨ ¬ far sync prev 64 →
          let crc := nibs.getD (k + 1) 0 - 12
          gives (nibs.getD 0 0 - 12 + sumN (nib.zipIdx.map fun e => e.1 * 2 ^ (4 * e.2 + 4)) + crc * 2 ^ 32 +
            (if sentCrc (bit c 21) nib = crc then 0 else 2 ^ 36))) ∧
        ((∃ n ∈ nibs, n < 12 ∨ 27 < n) ∨ ¬ whole ∨ far sync nom 4 ∨ (prev ≠ 0 ∧ far sync prev 64) →
          ∃ status crc, status < 16 ∧ crc < 16 ∧ (∀ n, nibs.head? = some n → 12 ≤ n → n ≤ 27 → status = n - 12) ∧ gives (status + crc * 2 ^ 32 + 2 ^ 37))) ∧
    (∀ c codes q rest, c < 4 → SMap.get s.tio.sar [] c = q :: rest → s.up (c / 2) = true →
      let s0 : State := { s with tio := { s.tio with sar := SMap.set s.tio.sar [] c rest } }
      exec (.sarConversion c codes) s = .next ((List.range (q.count + 1)).foldl (fun s i =>
        s.capture q.panel q.stream 2 0 (q.input + i) (codes.getD i 0 % 16384 + q.tag % 65536 * 65536) (s.stampAt q.panel q.domain (s.now + i * 200 * nsU))) s0)) ∧
    (∀ n bs, n < 8 → s.up (n / 4) = true →
      let c := (s.rd R.tioSdm (n / 4) (n % 4)).toNat
      let f := SMap.get s.tio.sdm {} n
      let o := (bs.foldl SdmFilter.push f).output s.now
      let w := (o.1.signExtend 32).toNat
      let s1 : State := { s with tio := { s.tio with sdm := SMap.set s.tio.sdm {} n o.2, sdmOut := SMap.set s.tio.sdmOut 0 n w } }
      bit c 0 = true →
        (bs.length ≠ bits c 8 8 + 1 ∨ s.now < f.at_ + sdmTime c → exec (.sdmOutput n bs) s = .next s) ∧
        (bs.length = bits c 8 8 + 1 → f.at_ + sdmTime c ≤ s.now →
          (bit c 7 = false → exec (.sdmOutput n bs) s = .next s1 ∧ SMap.get s1.tio.sdmOut 0 n = w ∧ ∀ k, k ≠ n → SMap.get s1.tio.sdmOut 0 k = SMap.get s.tio.sdmOut 0 k) ∧
          (bit c 7 = true → exec (.sdmOutput n bs) s = .next (s1.capture (n / 4) (bits c 16 4) 3 0 n w (s.stamp (n / 4) (bits c 20 4)))))) ∧
    (∀ i a b n, i < 32 → n < 16 → s.rb R.tioAcfg (i / 16) (i / 8 % 2) 0 = true → s.up (i / 16) = true → s.domEn n = true → s.srcKind n false = 5 → s.srcSel n false = i →
      (∀ k x, s.srcKind k x = 4 → s.srcSel k x ≠ i) → a < 16384 →
      let last := SMap.get s.tio.phase 0 i
      let mag := max a 8192 - min a 8192
      Ends (.sourceSample i a b) s fun u => ∃ ph, ph < 16777216 ∧ ((8388608 < last ∧ ph < 8388608) ∨
        (u = { s with tio := { s.tio with phase := u.tio.phase, peak := u.tio.peak }, fresh := s.fresh + 1 } ∧ SMap.get u.tio.phase 0 i = ph + 1 ∧
          SMap.get u.tio.peak 0 i = if last ≠ 0 ∧ last ≤ 8388608 ∧ 8388608 ≤ ph then mag else max (SMap.get s.tio.peak 0 i) mag)))

/-- R287, R293–R297, R378: a channel issues a refresh owed for eight intervals first, then what a real-time port at PANIC asks for, then a refresh
or refresh management, then the other requests by level, then a patrol-scrub read. A row that is not open is opened first. A refresh that falls due
is postponed while a PANIC request waits. What the mode registers say is kept. A retraining that is due starts, or is deferred while
a real-time port is pressed; it ends in service, or in a widened search that ends in service or in a fence. The oldest read completes; a corrected
error is counted, and an uncorrectable one retrains the channel and, if it comes again, fences it. A completed resynchronisation leaves nothing
marked. -/
def Obligations.DramChannels : Prop :=
  ∀ (s : State) (p n : Nat), p < 2 → n < 4 → SMap.sorted s.regs = true → SMap.sorted s.drm.due = true → SMap.sorted s.drm.rate = true → SMap.sorted s.drm.errTrain = true →
    SMap.sorted s.drm.reading = true → SMap.sorted s.drm.rows = true → s.up p = true →
    let c := chanNo p n
    let due := SMap.get s.drm.due 0 c
    let l := s.cands c
    let panic := l.filter fun x => decide (x.level = 2)
    let others := fun (u : State) => ∀ k, k < 8 → k ≠ c → u.chanState k = s.chanState k ∧ u.postp k = s.postp k ∧ SMap.get u.drm.due 0 k = SMap.get s.drm.due 0 k
    let train := fun (x : Instr) => Ends x s fun u => u = { s with regs := u.regs, drm := u.drm } ∧ u.chanState c = 1 ∧ SMap.get u.drm.due 0 c = due - 1 ∧ others u
    let banks := fun (u : State) => { s.drm with due := u.drm.due, bank := u.drm.bank, rows := u.drm.rows, acts := u.drm.acts }
    (s.chanState c = 0 →
      (8 ≤ s.postp c → Ends (.dramCommandIssue p n) s fun u => u = { s with regs := u.regs, drm := banks u } ∧ u.drm.due = s.drm.due ∧ u.postp c = 7 ∧ u.chanState c = 0 ∧ others u) ∧
      (s.postp c < 8 →
        (∀ u, s.serveLevel c panic = some u → exec (.dramCommandIssue p n) s = .next u) ∧
        (panic = [] → 0 < due → Ends (.dramCommandIssue p n) s fun u => u = { s with drm := banks u } ∧ SMap.get u.drm.due 0 c = due - 1 ∧ others u) ∧
        (∀ u, panic = [] → s.issueRefresh c = some u → exec (.dramCommandIssue p n) s = .next u) ∧
        (∀ u, panic = [] → s.issueRefresh c = none → s.serveLevel c (firstLevel l) = some u → exec (.dramCommandIssue p n) s = .next u) ∧
        (s.issueRefresh c = none → l = [] → exec (.dramCommandIssue p n) s = .next (s.scrubNext c))) ∧
      (∀ x, s.postp c < 8 → s.issueRefresh c = none → l = [x] → s.rb R.drmRh p 0 0 = false →
        let s1 := (s.activate c x.ca).2
        (s.rowHit c x.ca = true → s1 = s) ∧
        (s.rowHit c x.ca = false → s1 = { s with drm := { s.drm with rows := s1.drm.rows, acts := s1.drm.acts } } ∧ s1.rowHit c x.ca = true) ∧
        (∀ i e, x.src = .cap i → (s.tioStore p)[i]? = some e → exec (.dramCommandIssue p n) s = .next (s1.writeCapture p i e)) ∧
        (∀ i r, x.src = .req i → (SMap.get s.drm.reqs [] c)[i]? = some r → r.port < 9 →
          let s2 : State := { s1 with drm := { s1.drm with reqs := SMap.set s1.drm.reqs [] c ((SMap.get s.drm.reqs [] c).eraseIdx i) } }
          (r.write = true ∧ r.short = false → exec (.dramCommandIssue p n) s = .next (s2.reqDone p r)) ∧
          (r.write = false ∨ r.short = true → exec (.dramCommandIssue p n) s =
            .next { s2 with drm := { s2.drm with reading := SMap.set s.drm.reading [] c (SMap.get s.drm.reading [] c ++ [r]) } })))) ∧
    (s.chanState c = 1 → exec (.dramCommandIssue p n) s = .next s) ∧
    (s.chanState c = 2 → (s.issueRefresh c = none → exec (.dramCommandIssue p n) s = .next s) ∧ ∀ u, s.issueRefresh c = some u → exec (.dramCommandIssue p n) s = .next u) ∧
    (s.chanState c = 3 → exec (.dramCommandIssue p n) s = .next s ∧ exec (.refreshDue p n) s = .next s) ∧
    (s.refreshOver c = false → exec (.refreshDue p n) s = .next s) ∧
    (s.chanState c ≠ 3 →
      (s.refreshOver c = true → s.panicOn c = true → s.postp c < 8 → Ends (.refreshDue p n) s fun u =>
        u = { s with regs := u.regs, drm := { s.drm with refAt := u.drm.refAt }, ctrs := (s.count 0xF c 3).ctrs } ∧ u.postp c = s.postp c + 1 ∧ others u) ∧
      (s.refreshOver c = true → s.panicOn c = false ∨ 8 ≤ s.postp c → Ends (.refreshDue p n) s fun u =>
        u = { s with drm := { s.drm with due := u.drm.due, refAt := u.drm.refAt } } ∧ SMap.get u.drm.due 0 c = due + 1 ∧ others u) ∧
      (∀ rate rfm, SMap.get s.drm.mr4At 0 c + 16 * msU ≤ s.now → Ends (.mr4Read p n rate rfm) s fun u => u = { s with regs := u.regs, drm := { s.drm with rate := u.drm.rate, mr4At := u.drm.mr4At } } ∧
        SMap.get u.drm.rate 0 c = rate ∧ u.rb R.drmCstat p n 2 = rfm ∧ others u)) ∧
    (∀ trigger temp, s.chanState c = 0 → (trigger = 0 ∧ SMap.get s.drm.trainedAt 0 c + s.rf R.drmTrn p 0 0 8 * msU ≤ s.now) ∨
        (trigger = 1 ∧ s.rf R.drmTrn p 0 8 4 ≤ (temp - SMap.get s.drm.temp 0 c).natAbs) ∨ 2 ≤ trigger →
      let pressed := 0 < s.captureLevel p ∨ 0 < s.schedLevel p
      (¬ pressed → train (.retrain p n trigger temp)) ∧
      (pressed → SMap.get s.drm.deferAt 0 c = 0 → exec (.retrain p n trigger temp) s = .next { s with drm := { s.drm with deferAt := SMap.put s.drm.deferAt c (s.now + 1) } }) ∧
      (SMap.get s.drm.deferAt 0 c ≠ 0 → SMap.get s.drm.deferAt 0 c - 1 + 10 * msU ≤ s.now → train (.retrain p n trigger temp))) ∧
    (∀ temp, s.chanState c = 1 →
      (Ends (.retrainComplete p n true temp) s fun u => u = { s with regs := u.regs, drm := u.drm } ∧ u.chanState c = 0 ∧ others u) ∧
      (Ends (.retrainComplete p n false temp) s fun u => u = { s with regs := u.regs, drm := u.drm } ∧ u.chanState c = 2 ∧ others u)) ∧
    (∀ temp, s.chanState c = 2 →
      (Ends (.wideSearchComplete p n true temp) s fun u => u = { s with regs := u.regs, drm := u.drm, ctrs := (s.count 0xF c 1).ctrs } ∧ u.chanState c = 0 ∧ others u) ∧
      exec (.wideSearchComplete p n false temp) s = .next (s.loseChannel c 5)) ∧
    (SMap.get s.drm.reading [] c = [] → ∀ err, exec (.dramReadComplete p n err) s = .next s) ∧
    (∀ r rest, s.chanState c = 0 → SMap.get s.drm.reading [] c = r :: rest →
      let ends := fun (m : State) => (({ m with drm := { m.drm with reading := SMap.set s.drm.reading [] c rest, errTrain := SMap.set s.drm.errTrain false c false } } : State).reqDone p r)
      exec (.dramReadComplete p n 0) s = .next (ends s) ∧
      exec (.dramReadComplete p n 1) s = .next (ends ((s.count 0xF c 0).countUnit p 5 0)) ∧
      (r.who = none → r.frame = none → Ends (.dramReadComplete p n 0) s fun u =>
        u = { s with drm := { s.drm with errTrain := u.drm.errTrain, reading := u.drm.reading }, rcd := u.rcd } ∧ SMap.get u.drm.errTrain false c = false ∧
          SMap.get u.drm.reading [] c = rest) ∧
      (SMap.get s.drm.errTrain false c = false → train (.dramReadComplete p n 2) ∧ Ends (.dramReadComplete p n 2) s fun u =>
        SMap.get u.drm.errTrain false c = true ∧ SMap.get u.drm.reading [] c = r :: rest) ∧
      (SMap.get s.drm.errTrain false c = true →
        exec (.dramReadComplete p n 2) s = .next (({ s with drm := { s.drm with errTrain := SMap.set s.drm.errTrain false c false } } : State).loseChannel c 0))) ∧
    (s.drm.resync = true → s.joined = true → Ends .resyncComplete s fun u => u.drm.resync = false ∧ u.drm.marked = [] ∧ u.drm.whole = none ∧ u.regs = s.regs ∧ u.strands = s.strands) ∧
    (s.drm.resync = false ∨ s.joined = false → exec .resyncComplete s = .next s)

/-- R302–R305, R308, R309, R316, R289: a host message in PSN order is applied and acknowledged, a gap is answered with a sequence-error NAK, a duplicate is acknowledged
again, and an access that no region allows is NAKed and changes nothing. A doorbell moves its ring's index or is counted. An acknowledgement
frees the requests that it covers, and counts the packets of one that it covers in part; a timeout or an RNR NAK sends them again, until RETRY puts the QP in ERROR. A CNP cuts the rate and an increase
raises it. A fetch reads a batch of commands, which are taken when the data comes. Failover moves the QPs to port 2. -/
def Obligations.HostTransport : Prop :=
  ∀ (s : State) (n : Nat), n < 64 → SMap.sorted s.hst.qps = true → SMap.sorted s.hst.rings = true →
    let q := s.qp n
    let others := fun (u : State) => ∀ k, k ≠ n → u.qp k = s.qp k
    let fails := fun (x : Instr) => Ends x s fun u => u = { s with hst := u.hst, out := u.out, ctrs := u.ctrs } ∧ (u.qp n).state = 2 ∧ (u.qp n).sq = []
    (∀ (psn va : Nat) (rkey : Word) (bs : List Byte), ∀ x ∈ [Instr.rdmaWrite n psn rkey va bs false, Instr.doorbell n psn rkey va bs false],
      (s.qpOpen n = false → exec x s = .next s) ∧
      (s.qpOpen n = true →
        (psn = q.epsn → s.hostWrite n rkey va bs = none → exec x s = .next (s.emit (.rdmaNak (s.wire n psn) 2))) ∧
        (∀ w a, psn = q.epsn → rkey ≠ s.rd R.hstDbkey 0 0 → s.window rkey = some w → s.rb R.hstMwin0 0 w 1 = true → s.mwinAddr w va bs.length = some a →
          s.devOk s.hostPanel a bs.length = true →
          let t := (s.devWrite s.hostPanel a bs).askDram s.hostPanel 4 a bs.length true
          exec x s = .next ((t.setQp n { q with epsn := (psn + s.npkts n bs.length) % 16777216 }).ackMsg n psn (s.npkts n bs.length))) ∧
        (∀ r g, psn = q.epsn → rkey = s.rd R.hstDbkey 0 0 → va + 8 ≤ 4096 → bs.length = 8 → r = leVal (sliceZ bs 0 4) → g = s.ring r →
          let idx := leVal (sliceZ bs 4 4)
          (va % 8 = 0 → r < 256 → s.ringEn r = true → s.ringQp r = n → s.ringKind r = 0 → idxBehind idx g.prod = false → idxBehind idx g.cons = false →
            idxDiff idx g.cons ≤ s.ringSize r → Ends x s fun u => u = { s with hst := { s.hst with rings := u.hst.rings, qps := u.hst.qps }, out := Output.rdmaAck (s.wire n (psn % 16777216)) :: s.out } ∧
              u.ring r = { g with prod := idx } ∧ (∀ k, k ≠ r → u.ring k = s.ring k) ∧ u.qp n = { q with epsn := (psn + 1) % 16777216 } ∧ others u) ∧
          (va % 8 ≠ 0 ∨ 256 ≤ r ∨ s.ringEn r = false ∨ s.ringQp r ≠ n → Ends x s fun u => u = { s with hst := { s.hst with qps := u.hst.qps }, ctrs := u.ctrs, out := u.out } ∧
            u.ctrs = (s.count 0x10 n 1).ctrs ∧ u.qp n = { q with epsn := (psn + 1) % 16777216 } ∧ others u)) ∧
        (psn ≠ q.epsn → psnBehind psn q.epsn = true → exec x s = .next (s.ackMsg n psn (s.npkts n bs.length))) ∧
        (psn ≠ q.epsn → psnBehind psn q.epsn = false → exec x s = .next (s.emit (.rdmaNak (s.wire n q.epsn) 0))))) ∧
    (∀ (psn va len : Nat) (rkey : Word), s.qpOpen n = true →
      let x := Instr.rdmaRead n psn rkey va len false
      (psn = q.epsn ∨ psnBehind psn q.epsn = true → s.hostRead rkey va len = none → exec x s = .next (s.emit (.rdmaNak (s.wire n psn) 2))) ∧
      (∀ bs, psn = q.epsn → s.hostRead rkey va len = some bs →
        exec x s = .next (((s.setQp n { q with epsn := (psn + s.npkts n len) % 16777216 }).askRead rkey va len).emit (.rdmaResp (s.wire n psn) bs))) ∧
      (∀ bs, psn ≠ q.epsn → psnBehind psn q.epsn = true → s.hostRead rkey va len = some bs → exec x s = .next ((s.askRead rkey va len).emit (.rdmaResp (s.wire n psn) bs))) ∧
      (psn ≠ q.epsn → psnBehind psn q.epsn = false → exec x s = .next (s.emit (.rdmaNak (s.wire n q.epsn) 0)))) ∧
    (∀ (psn : Nat) (v : BitVec 8), s.qpOpen n = true →
      (∀ w, bits v.toNat 5 2 = 0 → q.sq = [w] → w.kind ≠ .read → w.jrec = none → psnBehind psn w.psn = false → psnBehind psn ((w.psn + w.npkts - 1) % 16777216) = false →
        exec (.ackReceive n psn v false) s = .next (s.setQp n { q with sq := [], tries := 0, rnrTries := 0, rnr := false, sentAt := s.now })) ∧
      (∀ w k, bits v.toNat 5 2 = 0 → q.sq = [w] → w.kind ≠ .read → psnBehind psn w.psn = false → psnBehind psn ((w.psn + w.npkts - 1) % 16777216) = true →
        k = (psn + 16777217 - w.psn) % 16777216 → w.acks < k →
        exec (.ackReceive n psn v false) s = .next (s.setQp n { q with sq := [{ w with acks := k }], tries := 0, rnrTries := 0, rnr := false, sentAt := s.now })) ∧
      (∀ w, bits v.toNat 5 2 = 1 → q.sq = [w] → psnBehind ((psn + 16777215) % 16777216) w.psn = true → exec (.ackReceive n psn v false) s = .next (s.setQp n { q with rnr := true, rnrAt := s.now })) ∧
      (bits v.toNat 5 2 = 3 → bits v.toNat 0 5 ≠ 0 → fails (.ackReceive n psn v false)) ∧
      (bits v.toNat 5 2 = 2 → exec (.ackReceive n psn v false) s = .next s)) ∧
    (s.qpOpen n = true → q.sq ≠ [] → q.rnr = false → q.sentAt + 4915200 * 2 ^ s.rf R.hstQp0 0 n 6 5 ≤ s.now →
      (q.tries < s.rf R.hstQp0 0 n 3 3 → Ends (.ackTimeout n) s fun u => u = { s with hst := { s.hst with qps := u.hst.qps }, out := u.out } ∧
        u.qp n = { q with tries := q.tries + 1, sentAt := s.now } ∧ others u ∧ u.out.length = s.out.length + q.sq.length) ∧
      (s.rf R.hstQp0 0 n 3 3 ≤ q.tries → fails (.ackTimeout n))) ∧
    (s.qpOpen n = false ∨ q.sq = [] ∨ s.now < q.sentAt + 4915200 * 2 ^ s.rf R.hstQp0 0 n 6 5 → exec (.ackTimeout n) s = .next s) ∧
    (s.qpOpen n = true → q.rnr = true → q.rnrAt + 10 * usU ≤ s.now →
      (q.rnrTries < s.rf R.hstQp0 0 n 3 3 → Ends (.rnrRetry n) s fun u => u = { s with hst := { s.hst with qps := u.hst.qps }, out := u.out } ∧
        u.qp n = { q with rnr := false, rnrTries := q.rnrTries + 1, sentAt := s.now } ∧ others u ∧ u.out.length = s.out.length + q.sq.length) ∧
      (s.rf R.hstQp0 0 n 3 3 ≤ q.rnrTries → fails (.rnrRetry n))) ∧
    (s.qpOpen n = true →
      let g : Rat := 1 / ((2 : Nat) ^ s.rf R.hstCc 0 0 0 4 : Nat)
      ((∀ t, q.cutAt = some t → t + 50 * usU ≤ s.now) → exec (.cnpReceive n) s = .next (s.setQp n { q with
        rt := q.rc, rc := max ((100 * s.rf R.hstCc 0 0 18 10 : Nat) : Rat) (q.rc * (1 - q.alpha / 2)), alpha := q.alpha + g * (1 - q.alpha), n := 0, cutAt := some s.now, tickAt := s.now })) ∧
      (∀ t, q.cutAt = some t → s.now < t + 50 * usU → exec (.cnpReceive n) s = .next s) ∧
      (q.tickAt + 55 * usU ≤ s.now → ∀ rt : Rat, rt = (if 5 < q.n + 1 then min 100000 (q.rt + ((s.rf R.hstCc 0 0 4 14 : Nat) : Rat)) else q.rt) →
        exec (.rateIncrease n) s = .next (s.setQp n { q with alpha := q.alpha * (1 - g), n := q.n + 1, rt := rt, rc := min 100000 ((q.rc + rt) / 2), tickAt := s.now })) ∧
      (s.now < q.tickAt + 55 * usU → exec (.rateIncrease n) s = .next s)) ∧
    (∀ r, r < 256 → s.ringQp r = n → s.ringEn r = true → s.ringKind r = 0 → s.qpOpen n = true → 0 < s.fetchable r → SMap.get s.hst.pausedWork false r = false → s.fetchOut r = none →
      let g := s.ring r
      let k := s.fetchable r
      let va := s.ringVa r + 64 * (g.cons % s.ringSize r)
      let w : Wqe := { kind := .read, psn := q.spsn, npkts := s.npkts n (64 * k), rkey := s.ringKey r, va := va, len := 64 * k, ring := some r }
      let asks := fun (u : State) => u = { s with
        hst := { s.hst with qps := u.hst.qps, rings := u.hst.rings }
        out := Output.rdmaRead (s.wire n (q.spsn % 16777216)) (s.ringKey r) va (64 * k) :: s.out } ∧ others u
      let sent : Qp := { q with sq := q.sq ++ [w], spsn := (q.spsn + s.npkts n (64 * k)) % 16777216, sentAt := if q.sq.isEmpty then s.now else q.sentAt }
      (Ends (.commandFetch r ⟨.lost, false⟩) s fun u => asks u ∧ u.hst.rings = s.hst.rings ∧ u.qp n = sent) ∧
      (q.sq = [] → Ends (.commandFetch r ⟨.data, false⟩) s fun u => asks u ∧ u.qp n = { sent with sq := [], tries := 0, rnrTries := 0, rnr := false, sentAt := s.now } ∧
        u.ring r = { g with cons := (g.cons + k) % 4294967296, ready := g.ready + k, inflight := g.inflight + k } ∧ ∀ j, j ≠ r → u.ring j = s.ring j) ∧
      fails (.commandFetch r ⟨.nak, false⟩)) ∧
    (s.failoverEn = true → s.hst.port2 = false → s.up 1 = true → s.up 0 = false ∨ s.linkOf 0 = .down → Ends .failover s fun u => u.hst.port2 = true ∧
      u.regs = s.regs ∧ u.swt = s.swt ∧ u.strands = s.strands) ∧
    (s.failoverEn = false ∨ s.hst.port2 = true ∨ s.up 1 = false ∨ (s.up 0 = true ∧ s.linkOf 0 ≠ .down) → exec .failover s = .next s)

namespace Sys2Proof.Machine

/-- The journal record of a command of opcode `op` that passes every check of R312, and the state in which it executes. -/
def State.inCommand (s : State) (op : Nat) (c : CmdIn) : Nat × State :=
  let x := s.startCmd (c.ring % 256) op c
  (x.1, x.2.setRing (c.ring % 256) { x.2.ring (c.ring % 256) with expSeq := some ((c.seq.toNat + 1) % 4294967296) })

/-- The command may start and passes every check of R312; `rsv` says whether a reserved field is set. -/
def Admitted (s : State) (op : Nat) (c : CmdIn) (rsv : Bool) : Prop :=
  s.mayStart (c.ring % 256) c = true ∧ rsv = false ∧ c.rsv = 0#6 ∧ c.rsv2 = 0#6 ∧ (s.ring (c.ring % 256)).expSeq.getD c.seq.toNat = c.seq.toNat ∧
    (s.md.mode = .limp → limpCmd op = true)

/-- The command completes with a status and a result, and does nothing else. -/
def Answers (x : Instr) (s : State) (op : Nat) (c : CmdIn) (st : Nat) (res : List Byte) : Prop :=
  exec x s = .next ((s.inCommand op c).2.finish (s.inCommand op c).1 st res)

/-- The commands of a ring (R314) where they start: the entry, the opcode, and whether a reserved field is set. A NOP row with another row's opcode,
and a TX_FRAME that only takes the answer it waits for, start nothing. -/
def hostRow (s : State) (i : Instr) : Option (CmdIn × Nat × Bool) :=
  match i with
  | .nop ⟨c, op⟩ => if op ≠ 0#8 && ringOps.contains op.toNat then none else some (c, op.toNat, decide (op ≠ 0#8) || c.listBad || !c.pz 16 48 || !c.xz 0)
  | .stagedInsert c | .unversionedInsert c => some (c, 1, s.tblRsv .insert c)
  | .stagedDelete c | .unversionedDelete c => some (c, 2, s.tblRsv .delete c)
  | .stagedModify c | .unversionedModify c => some (c, 3, s.tblRsv .modify c)
  | .tblCdelete c => some (c, 4, s.cdelRsv c)
  | .hostFlowInsert c => some (c, 0x10, flowRsv .insert c)
  | .hostFlowDelete c => some (c, 0x11, flowRsv .delete c)
  | .flowWrite c => some (c, 0x12, flowRsv .write c)
  | .hostFlowRead c => some (c, 0x13, flowRsv .read c)
  | .flowSetms c => some (c, 0x14, flowRsv .setms c)
  | .bindSet c => some (c, 0x20, c.listBad || decide (bits (c.p 16 4) 13 19 ≠ 0) || decide (1152 ≤ bits (c.p 16 4) 0 11) || !c.pz 20 4 || !c.pz 30 2 || !c.pz 38 26 || !c.xz 0)
  | .stats c => some (c, 0x21, c.listBad || decide (bits (c.p 20 4) 13 19 ≠ 0) || !c.pz 24 40 || !c.xz 0)
  | .regRead c => some (c, 0x22, c.listBad || decide (bits (c.p 20 4) 4 28 ≠ 0) || !c.pz 24 40 || !c.xz 0)
  | .regWrite ⟨c, _⟩ => some (c, 0x23, c.listBad || decide (bits (c.p 20 4) 4 28 ≠ 0) || regTail c || !c.xz 0)
  | .modeCmd c => some (c, 0x24, c.listBad || decide (8 ≤ c.p 16 4) || !c.pz 20 44 || !c.xz 0)
  | .keyLoad c => some (c, 0x30, keyRsv false c)
  | .keyErase c => some (c, 0x30, keyRsv true c)
  | .work c => some (c, 0x40, !c.xz 0)
  | .txFrame c _ => if s.qpOpen (s.ringQp (c.ring % 256)) && (s.txWaits c).isSome then none
    else some (c, 0x41, c.listBad || decide (bits (c.p 28 4) 14 18 ≠ 0) || !c.pz 32 32 || !c.xz 0)
  | _ => none

/-- The table commands: the entry, the opcode, the operation, and whether it is staged. -/
def tblRow (i : Instr) : Option (CmdIn × Nat × TblOp × Bool) :=
  match i with
  | .stagedInsert c => some (c, 1, .insert, true)
  | .unversionedInsert c => some (c, 1, .insert, false)
  | .stagedDelete c => some (c, 2, .delete, true)
  | .unversionedDelete c => some (c, 2, .delete, false)
  | .stagedModify c => some (c, 3, .modify, true)
  | .unversionedModify c => some (c, 3, .modify, false)
  | _ => none

end Sys2Proof.Machine

/-- R309, R310, R312, R315, R340: a command that its ring has not fetched, or that is fenced by one before it, does not start. One with a reserved field, an old
or an unexpected SEQ, or that LIMP does not execute, completes with its status in that order and has no other effect. A completion makes
the journal record DONE and takes the command out of flight; where a QP that is not in RTS has stopped its ring, it is discarded with its record
(log entry 101). -/
def Obligations.HostCommandChecks : Prop :=
  ∀ (s : State) (x : Instr) (c : CmdIn) (op : Nat) (rsv : Bool), hostRow s x = some (c, op, rsv) →
    let r := c.ring % 256
    let st := s.startCmd r op c
    let exp := (s.ring r).expSeq.getD c.seq.toNat
    let free := rsv = false ∧ c.rsv = 0#6 ∧ c.rsv2 = 0#6
    (s.mayStart r c = false → exec x s = .next s) ∧
    (s.mayStart r c = true → SMap.sorted s.hst.rings = true →
      (¬ free → exec x s = .next (st.2.refuseCmd st.1 0x12 [])) ∧
      (free → idxBehind c.seq.toNat exp = true →
        exec x s = .next (st.2.refuseCmd st.1 0x0F [match SMap.get s.hst.seqs 0 (r * 2 ^ 32 + c.seq.toNat) with | 0 => 0xFF#8 | k + 1 => BitVec.ofNat 8 k])) ∧
      (free → idxBehind c.seq.toNat exp = false → c.seq.toNat ≠ exp → exec x s = .next (st.2.refuseCmd st.1 0x0E [])) ∧
      (free → c.seq.toNat = exp → s.md.mode = .limp → limpCmd op = false → Answers x s op c 0x0B [])) ∧
    (∀ rec j status res, SMap.sorted s.hst.jrnl = true → SMap.find s.hst.jrnl rec = some j → (s.qp (s.ringQp (s.ringPair j.ring))).state ≠ 1 →
      SMap.find (s.finish rec status res).hst.jrnl rec = none ∧ (s.finish rec status res).out = s.out) ∧
    (∀ rec j status res u, SMap.sorted s.hst.jrnl = true → SMap.find s.hst.jrnl rec = some j → (s.qp (s.ringQp (s.ringPair j.ring))).state = 1 → u = s.finish rec status res →
      u = { s with hst := u.hst, out := u.out } ∧ ∃ k, SMap.find u.hst.jrnl rec = some k ∧ k.state = .done ∧ k.status = status ∧ k.seq = j.seq ∧ k.tag = j.tag ∧
        k.entry = cplEntry status j.opcode j.ring j.seq j.tag j.index res ∧ k.slot = (s.ring (s.ringPair j.ring)).prod) ∧
    (∀ rec j status res, SMap.sorted s.hst.rings = true → SMap.find s.hst.jrnl rec = some j → ((s.finish rec status res).ring j.ring).inflight = (s.ring j.ring).inflight - 1)

/-- R91, R190, R196, R199, R200, R201, R203, R206, R209: what the table commands answer, and the entry they insert, free or change. A table that the command does not fit
answers NO_TABLE, a fenced engine FENCED, and a closed STAGING NOT_READY; no entry changes then. A command for an L2 bucket that earlier work waits
for takes its place in the queue of the bucket's engine. -/
def Obligations.HostTables : Prop :=
  ∀ (s : State) (c : CmdIn), SMap.sorted s.hst.rings = true →
    let n := c.p 16 1 % 64
    let k := s.tblKind n
    let key := c.key.take (keyWidth k)
    let data := c.p 24 8
    let lpm := k = 4 ∨ k = 5
    let st := s.stagingSlot
    (∀ x op o staged, tblRow x = some (c, op, o, staged) → Admitted s op c (s.tblRsv o c) →
      let rec_ := (s.inCommand op c).1
      let m := (s.inCommand op c).2
      let fits := k ≠ 0 ∧ k ≠ 7 ∧ (lpm → staged = true) ∧ (k = 6 → staged = false)
      let open_ := fits ∧ s.engFenced n = false ∧ s.split = false ∧ (staged = true → s.stageReady = true)
      (¬ fits → Answers x s op c 0x05 []) ∧
      (fits → s.engFenced n = true → Answers x s op c 0x13 []) ∧
      (fits → s.engFenced n = false → s.split = true ∨ (staged = true ∧ s.stageReady = false) → Answers x s op c 0x04 []) ∧
      (open_ → ¬ lpm → staged = true →
        let here := s.homeFind 0 n key fun e => decide (e.vmask ≠ 15) && bit e.vmask st
        (o = .insert → here ≠ none ∨ s.homeFind 0 n key (fun e => decide (e.vmask = 15)) ≠ none → Answers x s op c 0x01 []) ∧
        (o = .insert → here = none → s.homeFind 0 n key (fun e => decide (e.vmask = 15)) = none → exec x s = .next (m.insertEnt rec_ n { key := key, vmask := 2 ^ st, data := data })) ∧
        (o ≠ .insert → here = none → Answers x s op c 0x02 []) ∧
        (∀ h e, o = .delete → here = some (h, e) → exec x s = .next (m.putEnt (s.tblHome 0 (hIdx h)) h (dropBit st e) (some rec_) (leBytes 4 h))) ∧
        (∀ h e t, o = .modify → here = some (h, e) → t = m.putEnt (s.tblHome 0 (hIdx h)) h (dropBit st e) →
          (t.tblPlace (t.tblHome 0 (t.tblBucket n key)) n key = none → Answers x s op c 0x03 []) ∧
          (∀ g, t.tblPlace (t.tblHome 0 (t.tblBucket n key)) n key = some g → exec x s = .next
            ((if s.joined then m.putEnt (s.tblHome 0 (hIdx h)) h (dropBit st e) (some rec_) (leBytes 4 g) else t).insertEnt rec_ n { key := key, vmask := 2 ^ st, data := data })))) ∧
      (open_ → k = 6 → s.l2Waits n (s.tblBucket n key) = true → exec x s = .next (m.queueL2 n key
        (match o with | .insert => .insert rec_ key data | .delete => .delete rec_ key | .modify => .modify rec_ key data))) ∧
      (open_ → ¬ lpm → staged = false → (k = 6 → s.l2Waits n (s.tblBucket n key) = false) →
        let aux := if k = 6 then mkAux 0 false 0 s.t8us s.tms else 0
        let here := s.homeFind 0 n key fun e => decide (e.vmask = 15)
        (o = .insert → s.homeFind 0 n key (fun _ => true) ≠ none → Answers x s op c 0x01 []) ∧
        (o = .insert → s.homeFind 0 n key (fun _ => true) = none → exec x s = .next (m.insertEnt rec_ n { key := key, vmask := 15, data := data, aux := aux })) ∧
        (o ≠ .insert → here = none → Answers x s op c 0x02 []) ∧
        (∀ h e, o = .delete → here = some (h, e) → exec x s = .next (m.putEnt (s.tblHome 0 (hIdx h)) h none (some rec_) (leBytes 4 h))) ∧
        (∀ h e, o = .modify → here = some (h, e) → exec x s = .next (m.putEnt (s.tblHome 0 (hIdx h)) h
          (some { e with data := if k = 6 then setBit data 13 (bit e.data 13) else data, aux := aux }) (some rec_) (leBytes 4 h)))) ∧
      (open_ → lpm →
        let plen := c.p 17 1
        let addr := beVal key
        let l := s.prefixes n st
        let mine := fun (p : Prefix) => decide (p.len = plen) && decide (p.addr = addr)
        let full := 4096 < (s.lpmTouch n plen addr).length ∨ (o = .insert ∧ (if k = 4 then 262144 else 65536) < s.familyUse k)
        let add := if o = .delete then ([] : List Prefix) else [{ len := plen, addr := addr, data := data }]
        (o = .insert → l.any mine = true → Answers x s op c 0x01 []) ∧
        (o ≠ .insert → l.any mine = false → Answers x s op c 0x02 []) ∧
        ((o = .insert ↔ l.any mine = false) → full → Answers x s op c 0x03 []) ∧
        ((o = .insert ↔ l.any mine = false) → ¬ full → exec x s = .next (({ m with tbl := { m.tbl with lpm := SMap.set m.tbl.lpm [] (n * 4 + st) (l.filter (fun p => !mine p) ++ add), lpmChg := m.lpmTouch n plen addr } } : State).finish rec_ 0 [])))) ∧
    (∀ (m : State) rec_ (e : TblEntry), (∀ h, m.tblPlace (m.tblHome 0 (m.tblBucket n e.key)) n e.key = some h →
        m.insertEnt rec_ n e = (m.newActivity (m.tblHome 0 (hIdx h)) h).putEnt (m.tblHome 0 (hIdx h)) h (some e) (some rec_) (leBytes 4 h)) ∧
      (m.tblPlace (m.tblHome 0 (m.tblBucket n e.key)) n e.key = none → m.insertEnt rec_ n e = m.finish rec_ 0x03 [])) ∧
    (Admitted s 4 c (s.cdelRsv c) →
      let w := c.p 16 4
      let h := c.p 20 4
      let tn := w % 64
      let kind := s.tblKind tn
      let aged := (1 ≤ kind ∧ kind ≤ 3 ∨ kind = 6) ∧ s.tblAge tn = true
      let x := Instr.tblCdelete c
      (¬ aged → Answers x s 4 c 0x05 []) ∧
      (aged → s.engFenced tn = true → Answers x s 4 c 0x13 []) ∧
      (aged → s.engFenced tn = false → s.split = true → Answers x s 4 c 0x04 []) ∧
      (aged → s.engFenced tn = false → s.split = false → hTable h ≠ tn → Answers x s 4 c 0x02 []) ∧
      (aged → s.engFenced tn = false → s.joined = true → hTable h = tn → (kind = 6 → s.l2Waits tn (s.tblBucket tn (c.key.take (keyWidth kind))) = false) → Ends x s fun u =>
        let home := hIdx h % 2
        let d : CdelReq := { jrec := (s.inCommand 4 c).1, handle := h, key := c.key.take (keyWidth kind), hitgen := bits w 16 8 }
        u = { s with hst := u.hst, tbl := u.tbl } ∧ (u.tp home).cdels = (s.tp home).cdels ++ [d] ∧ (u.tp (1 - home)).stream = (s.tp (1 - home)).stream ++ [.marker d.jrec] ∧
          (u.tp home).ents = (s.tp home).ents ∧ (u.tp (1 - home)).ents = (s.tp (1 - home)).ents))

/-- R5, R57, R100, R224, R226, R306, R333, R354, R405, R411: what the other commands of a ring do and answer: the flow commands at the panel they name, the source
binding, the counters, the registers, the mode, the keys, work items and transmitted frames. -/
def Obligations.HostCommands : Prop :=
  ∀ (s : State) (c : CmdIn), SMap.sorted s.hst.rings = true →
    let w := c.p 16 4
    let no := fun (x : Instr) (op : Nat) (q : Prop) (st : Nat) => q → Answers x s op c st []
    (Admitted s 0 c (c.listBad || !c.pz 16 48 || !c.xz 0) → Answers (.nop ⟨c, 0#8⟩) s 0 c 0 []) ∧
    (∀ row ∈ [(Instr.hostFlowInsert c, 0x10, FlowCmd.insert), (.hostFlowDelete c, 0x11, .delete), (.flowWrite c, 0x12, .write), (.hostFlowRead c, 0x13, .read), (.flowSetms c, 0x14, .setms)],
      Admitted s row.2.1 c (flowRsv row.2.2 c) →
      let x := row.1
      let op := row.2.1
      let o := row.2.2
      let p := b2n (bit w 0)
      let off := bits (c.p 24 4) 0 7
      let len := c.p 25 1
      let rec_ := (s.inCommand op c).1
      let m := (s.inCommand op c).2
      let range := (o = .write ∨ o = .read) ∧ (len = 0 ∨ 32 < len ∨ 80 < off + len)
      no x op (s.reach s.hostPanel p = false) 0x13 ∧ no x op (s.reach s.hostPanel p = true ∧ range) 0x09 ∧
      (s.reach s.hostPanel p = true → ¬ range →
        (o ≠ .insert → (m.flowNamed p c).1 = none → exec x s = .next ((m.flowNamed p c).2.finish rec_ 0x02 [])) ∧
        (∀ i m1, m.flowNamed p c = (some i, m1) →
          (o = .insert → exec x s = .next (m1.finish rec_ 0x01 [])) ∧
          (o = .delete → exec x s = .next ((m1.deleteRecord p i).finish rec_ 0 [])) ∧
          (o = .write → exec x s = .next ((m1.hostTouch p i fun st => putState st (sliceZ c.payload 16 len) off).finish rec_ 0 [])) ∧
          (o = .read → exec x s = .next (m1.finish rec_ 0 (leBytes 4 i ++ leBytes 4 (m1.recVer p i % 2 ^ 24) ++ sliceZ (m1.recState p i) off len))) ∧
          (∀ m2, o = .setms → bit w 2 = true → (match m1.entryOf p i with | some e => if e.2.ms then some m1 else m1.allocMirror p i | none => m1.allocMirror p i) = some m2 →
            exec x s = .next (((m2.setMs p i true).hostTouch p i (withMs true)).finish rec_ 0 [])) ∧
          (o = .setms → bit w 2 = true → (match m1.entryOf p i with | some e => if e.2.ms then some m1 else m1.allocMirror p i | none => m1.allocMirror p i) = none →
            exec x s = .next (m1.finish rec_ 0x08 [])) ∧
          (o = .setms → bit w 2 = false → exec x s = .next (((((m1.freeMirror p i).setMs p i false).hostTouch p i (withMs false)).finish rec_ 0 [])))) ∧
        (∀ m1 m2, o = .insert → m.flowNamed p c = (none, m1) → m1.reserve p (c.x 0 48) = (none, m2) → exec x s = .next (m2.finish rec_ 0x07 [])) ∧
        (∀ m1 m2 l i, o = .insert → m.flowNamed p c = (none, m1) → m1.reserve p (c.x 0 48) = (some (l, i), m2) → (m2.makeRecord p l i (c.x 0 48)).ctxOfKey p (c.x 0 48) = none →
          exec x s = .next (((m2.makeRecord p l i (c.x 0 48)).hostTouch p i id).finish rec_ 0 (leBytes 4 i))))) ∧
    (Admitted s 0x20 c (c.listBad || decide (bits (c.p 16 4) 13 19 ≠ 0) || decide (1152 ≤ bits (c.p 16 4) 0 11) || !c.pz 20 4 || !c.pz 30 2 || !c.pz 38 26 || !c.xz 0) → SMap.sorted s.swt.bound = true →
      let n := bits w 0 11
      let a := fun (i : Nat) => if bit w (11 + i) then some (c.p (24 + 8 * i) 6) else none
      let bad := n < 32 ∨ 800 ≤ n ∨ (n - 32) % 8 = 0 ∨ ∃ i y, i < 2 ∧ a i = some y ∧ bit y 0 = true
      let taken := ∃ i y, i < 2 ∧ a i = some y ∧ s.boundElse n y ≠ none
      no (.bindSet c) 0x20 bad 0x09 ∧ no (.bindSet c) 0x20 (¬ bad ∧ taken) 0x01 ∧
      (¬ bad → ¬ taken → Ends (.bindSet c) s fun u => u = { s with swt := { s.swt with bound := u.swt.bound }, hst := u.hst, out := u.out } ∧
        u.boundAt n 0 = a 0 ∧ u.boundAt n 1 = a 1 ∧ ∀ q i, i < 2 → q ≠ n → u.boundAt q i = s.boundAt q i)) ∧
    (Admitted s 0x21 c (c.listBad || decide (bits (c.p 20 4) 13 19 ≠ 0) || !c.pz 24 40 || !c.xz 0) → SMap.sorted s.ctrs = true →
      let set := c.p 16 2
      let i := c.p 18 2
      let first := c.p 20 1
      let n := bits (c.p 20 4) 8 4
      let bad := (ctrSet set).1 ≤ i ∨ n = 0 ∨ 8 < n ∨ (ctrSet set).2 < first + n
      no (.stats c) 0x21 bad 0x09 ∧
      (¬ bad → (∀ p, s.ctrPanel set i = some p → s.reach s.hostPanel p = true) →
        let vals := (List.range n).flatMap fun k => leBytes 4 (s.ctr set i (first + k)).toNat
        (bit (c.p 20 4) 12 = false → Answers (.stats c) s 0x21 c 0 vals) ∧
        (bit (c.p 20 4) 12 = true → Ends (.stats c) s fun u => u = { s with ctrs := u.ctrs, hst := u.hst, out := u.out } ∧ ∀ k < n, u.ctr set i (first + k) = 0#32)) ∧
      (¬ bad → (∃ p, s.ctrPanel set i = some p ∧ s.reach s.hostPanel p = false) → Answers (.stats c) s 0x21 c 0 ((List.range n).flatMap fun _ => leBytes 4 0))) ∧
    (∀ rivals, ∀ row ∈ [(Instr.regRead c, 0x22, false), (.regWrite ⟨c, rivals⟩, 0x23, true)],
      Admitted s row.2.1 c (c.listBad || decide (bits (c.p 20 4) 4 28 ≠ 0) || (if row.2.2 then regTail c else !c.pz 24 40) || !c.xz 0) →
      let n := c.p 20 4
      let m := (s.inCommand row.2.1 c).2
      let rec_ := (s.inCommand row.2.1 c).1
      no row.1 row.2.1 (n = 0 ∨ 8 < n) 0x09 ∧ no row.1 row.2.1 (0 < n ∧ n ≤ 8 ∧ s.spanCut w n = true) 0x13 ∧
      (0 < n → n ≤ 8 → s.spanCut w n = false →
        (row.2.2 = false → ∀ l u, m.readMany s.hostPanel w n = (l, u) → exec row.1 s = .next (u.finish rec_ 0 (wordBytes l))) ∧
        (row.2.2 = true → ∀ k u, m.writeWords .host w rivals 0 (c.words n) = (k, u) → exec row.1 s = .next (u.finish rec_ (if k = 0 then 0 else 0x0A) (leBytes 4 k))))) ∧
    (Admitted s 0x24 c (c.listBad || decide (8 ≤ c.p 16 4) || !c.pz 20 44 || !c.xz 0) →
      ∀ ok u, (s.inCommand 0x24 c).2.modeCommand w false = (ok, u) → exec (.modeCmd c) s = .next (u.finish (s.inCommand 0x24 c).1 (if ok then 0 else 0x0B) [])) ∧
    (∀ row ∈ [(Instr.keyLoad c, false), (.keyErase c, true)], Admitted s 0x30 c (keyRsv row.2 c) →
      let ps := idxs 2 fun p => bit w (8 + p)
      let mac := 2 ≤ bits w 4 4
      let port := bits (c.p 20 4) 0 11
      let link := s.rb R.prtCfg 0 (2 * s.hostPanel) 20 = true
      let bad := ps = [] ∨ (mac ∧ (800 ≤ port ∨ portPanel port ∉ ps))
      let slot := bits w 10 10
      no row.1 0x30 (¬ link) 0x20 ∧ no row.1 0x30 (link ∧ bad) 0x22 ∧ no row.1 0x30 (link ∧ ¬ bad ∧ ∃ p ∈ ps, s.reach s.hostPanel p = false) 0x13 ∧
      (link → ¬ bad → (∀ p ∈ ps, s.reach s.hostPanel p = true) → ¬ mac → SMap.sorted s.sec.keys = true →
        (row.2 = true → (∃ p ∈ ps, SMap.find s.sec.keys (p * 1024 + slot) = none) → Answers row.1 s 0x30 c 0x23 []) ∧
        ((row.2 = true → ∀ p ∈ ps, SMap.find s.sec.keys (p * 1024 + slot) ≠ none) → Ends row.1 s fun u => u = { s with sec := { s.sec with keys := u.sec.keys }, hst := u.hst, out := u.out } ∧
          ∀ p i, p < 2 → i < 1024 → SMap.find u.sec.keys (p * 1024 + i) = if p ∈ ps ∧ i = slot then (if row.2 then none else some (sliceZ c.payload 16 (if bits w 4 4 = 0 then 16 else 32)))
            else SMap.find s.sec.keys (p * 1024 + i))) ∧
      (link → ¬ bad → (∀ p ∈ ps, s.reach s.hostPanel p = true) → mac → exec row.1 s = .next ((s.inCommand 0x30 c).2.keySa row.2 c (s.inCommand 0x30 c).1))) ∧
    (Admitted s 0x40 c (!c.xz 0) → ∀ j, j = ({ ring := c.ring % 256, index := (s.ring (c.ring % 256)).started, seq := c.seq.toNat, tag := c.tag.toNat, opcode := 0x40, list := c.list.toNat, payload := c.payload } : JRec) →
      let l := c.list.toNat
      (s.listEn l = false ∨ s.reach s.hostPanel (listPanel l) = false → SMap.sorted s.hst.jrnl = true → Answers (.work c) s 0x40 c 0x0C []) ∧
      (s.listEn l = true → s.reach s.hostPanel (listPanel l) = true → s.hst.heldWork = [] → SMap.sorted s.hst.jrnl = true →
        let m := (s.inCommand 0x40 c).2
        let it := m.workItem (s.inCommand 0x40 c).1 j
        (∀ u, m.appendItem it = some u → exec (.work c) s = .next u) ∧
        (m.appendItem it = none → exec (.work c) s = .next (m.setHeldWork [(c.ring % 256, it)])))) ∧
    (∀ rsp f, Admitted s 0x41 c (c.listBad || decide (bits (c.p 28 4) 14 18 ≠ 0) || !c.pz 32 32 || !c.xz 0) → s.txWaits c = none →
      SMap.sorted s.hst.jrnl = true → SMap.sorted s.hst.qps = true →
      let len := bits (c.p 28 4) 0 14
      let n := s.ringQp (c.ring % 256)
      let m := (s.inCommand 0x41 c).2
      let rec_ := (s.inCommand 0x41 c).1
      let x := Instr.txFrame c ⟨rsp, f, false⟩
      let m1 := m.qpPost n { kind := .read, psn := 0, npkts := 0, rkey := w32 (c.p 24 4), va := c.p 16 8, len := len, tx := some rec_ }
      let m2 := m1.setQp n { m1.qp n with sq := [], tries := 0, rnrTries := 0, rnr := false, sentAt := s.now }
      (len < 60 ∨ 9216 < len → Answers x s 0x41 c 0x09 []) ∧
      (60 ≤ len → len ≤ 9216 →
        (rsp = .lost → exec x s = .next m1) ∧
        ((s.qp n).sq = [] → rsp = .nak → exec x s = .next (m2.finish rec_ 0x10 [])) ∧
        ((s.qp n).sq = [] → rsp = .data → m2.inject s.hostPanel (1028 + n) (sliceZ f 0 len) (some rec_) = none → exec x s = .next (m2.finish rec_ 0x11 [])) ∧
        (∀ u, (s.qp n).sq = [] → rsp = .data → m2.inject s.hostPanel (1028 + n) (sliceZ f 0 len) (some rec_) = some u → exec x s = .next u))) ∧
    (∀ ans y, s.qpOpen (s.ringQp (c.ring % 256)) = true → s.txWaits c = some y → exec (.txFrame c ans) s = .next (s.txArrive y.1 y.2 ans))

namespace Sys2Proof.Machine

/-- The Selvage requests (R323, R324): the request, its OP, whether a bit of ADDR that it does not use is set, and whether LEN is wrong. -/
def svRow (i : Instr) : Option (SvReq × Nat × Bool × Bool) :=
  let plain := fun (r : SvReq) (op : Nat) => some (r, op, decide (r.addr ≠ 0#20), decide (r.len ≠ 0#6))
  let mode := fun (r : SvReq) => some (r, 6, decide (5 ≤ r.addr.toNat), decide (r.len ≠ 0#6))
  match i with
  | .svNop ⟨r, op⟩ => if op = 0#6 then plain r 0 else if svOps.contains op.toNat then none else some (r, op.toNat, true, false)
  | .setpage r => some (r, 1, decide (1024 ≤ r.addr.toNat), decide (r.len ≠ 0#6))
  | .rdS r => some (r, 2, false, decide (r.len = 0#6) || decide (32 < r.len.toNat))
  | .wrS ⟨r, _⟩ => some (r, 3, false, decide (r.len = 0#6) || decide (32 < r.len.toNat))
  | .mbxSend r => some (r, 4, decide (256 ≤ r.addr.toNat), decide (r.addr.toNat % 256 < 60) || decide (252 < r.addr.toNat % 256) || decide (r.len.toNat ≠ (r.addr.toNat % 256 + 3) / 4))
  | .mbxRecv r => plain r 5
  | .resetA r => mode r
  | .resetB r => mode r
  | .svLimp r => mode r
  | .svSleep r => mode r
  | .svWake r => mode r
  | .recRead r => some (r, 7, decide (4096 ≤ r.addr.toNat), decide (r.len ≠ 16#6) && decide (r.len ≠ 32#6))
  | .flashRd r => some (r, 8, decide (r.addr ≠ 0#20), decide (r.len ≠ 1#6))
  | .flashWr r => some (r, 9, decide (r.addr ≠ 0#20), decide (r.len.toNat < 2) || decide (256 < (svWord r 0).toNat % 256 + 4 * (r.len.toNat - 1)))
  | .flashErase r => some (r, 0xA, decide (r.addr ≠ 0#20), decide (r.len ≠ 1#6))
  | .attest r => some (r, 0xB, decide (r.addr ≠ 0#20), decide (r.len ≠ 8#6))
  | .attestRd r => some (r, 0xC, decide (256 ≤ r.addr.toNat), decide (r.len ≠ 0#6))
  | .resend r => plain r 0xE
  | _ => none

end Sys2Proof.Machine

/-- R322–R327, R333, R335, R341, R352, R394, R398, R407: in OFF the Selvage port is dead; a request with a reserved bit set, or whose LEN is wrong, is answered so, in that
order, and has no other effect; every other request has the effect of its operation and is answered with its status and payload. A response whose
assertion has ended is kept and sent again on RESEND. -/
def Obligations.SelvagePort : Prop :=
  ∀ (s : State),
    (∀ x r op rsv bad, svRow x = some (r, op, rsv, bad) →
      (s.md.mode = .off → exec x s = .next s) ∧
      (s.md.mode ≠ .off → rsv = true → exec x s = .next (s.respond r op 0x12 [])) ∧
      (s.md.mode ≠ .off → rsv = false → bad = true → exec x s = .next (s.respond r op 0x41 []))) ∧
    (∀ r op st p, (r.early = false → s.respond r op st p = { s with sv := { s.sv with kept := none }, out := Output.selvage (withCrc (svHeader op p.length st :: p)) :: s.out }) ∧
      (r.early = true → s.respond r op st p = { s with sv := { s.sv with kept := some (withCrc (svHeader op p.length st :: p)) } })) ∧
    (s.md.mode ≠ .off → ∀ (r : SvReq),
      let ok := fun (x : Instr) => ∃ op, svRow x = some (r, op, false, false)
      let replies := fun (x : Instr) (op st : Nat) (p : List Word) (u : State) => exec x s = .next (u.respond r op st p)
      let a := r.addr.toNat
      let reg := s.sv.page * 4194304 + 4 * a
      let at_ := (svWord r 0).toNat
      let fl := s.flashOk
      (ok (.svNop ⟨r, 0#6⟩) → replies (.svNop ⟨r, 0#6⟩) 0 0 [] s) ∧
      (∀ op : BitVec 6, op ≠ 0#6 → svOps.contains op.toNat = true → exec (.svNop ⟨r, op⟩) s = .next s) ∧
      (ok (.setpage r) → replies (.setpage r) 1 0 [] { s with sv := { s.sv with page := a } }) ∧
      (ok (.rdS r) → s.spanCut reg r.len.toNat = true → replies (.rdS r) 2 0x42 [] s) ∧
      (ok (.rdS r) → s.spanCut reg r.len.toNat = false → ∀ l u, s.readMany (if s.reachable 0 then 0 else 1) reg r.len.toNat = (l, u) → replies (.rdS r) 2 0 l u) ∧
      (∀ rivals, ok (.wrS ⟨r, rivals⟩) → s.spanCut reg r.len.toNat = true → replies (.wrS ⟨r, rivals⟩) 3 0x42 [] s) ∧
      (∀ rivals, ok (.wrS ⟨r, rivals⟩) → s.spanCut reg r.len.toNat = false →
        ∀ m u, s.writeWords .selvage reg rivals 0 ((List.range r.len.toNat).map fun i => svWord r i) = (m, u) →
          replies (.wrS ⟨r, rivals⟩) 3 (if m = 0 then 0 else 0x0A) [w32 m] u) ∧
      (ok (.mbxSend r) →
        (s.up 0 = false → s.up 1 = false → replies (.mbxSend r) 4 0x42 [] s) ∧
        (∀ p, s.svPanel = some p → 4 ≤ s.mboxWait → replies (.mbxSend r) 4 0x44 [] s) ∧
        (∀ p, s.svPanel = some p → s.mboxWait < 4 →
          let bs := sliceZ (wordBytes r.payload) 0 (a % 256)
          (∀ c e cs m, s.admitIngress p (rxCells bs.length) = some (c, e) → s.storeFrame p bs = (cs, m) →
            m = { s with mem := { s.mem with dev := m.mem.dev }, fresh := s.fresh + 1 } ∧ replies (.mbxSend r) 4 0 []
              (m.withParse p (SMap.get s.swt.parseQ [] p ++ [{ port := 1108, ingress := 1108, frame := bs, cellsR := c, cellsS := e, cells := cs }]))) ∧
          (s.admitIngress p (rxCells bs.length) = none → replies (.mbxSend r) 4 0 [] s))) ∧
      (ok (.mbxRecv r) → s.swt.mboxRx = [] → replies (.mbxRecv r) 5 0x43 [] s) ∧
      (∀ f l, ok (.mbxRecv r) → s.swt.mboxRx = f :: l → replies (.mbxRecv r) 5 0 (w32 f.length :: byteWords f) { s with swt := { s.swt with mboxRx := l } }) ∧
      (ok (.resetA r) → replies (.resetA r) 6 0 [] (s.noteSel.leavePanel 0 true)) ∧
      (ok (.resetB r) → replies (.resetB r) 6 0 [] (s.noteSel.leavePanel 1 true)) ∧
      (ok (.svLimp r) → ∀ y u, s.noteSel.modeCommand 5 true = (y, u) → replies (.svLimp r) 6 (if y then 0 else 0x0B) [] u) ∧
      (ok (.svSleep r) → ∀ y u, s.noteSel.modeCommand 6 true = (y, u) → replies (.svSleep r) 6 (if y then 0 else 0x0B) [] u) ∧
      (ok (.svWake r) → s.judged = .sleep → replies (.svWake r) 6 0 [] (s.noteSel.wakeBy .selvage)) ∧
      (ok (.svWake r) → s.judged ≠ .sleep → replies (.svWake r) 6 0x0B [] s.noteSel) ∧
      (ok (.recRead r) → replies (.recRead r) 7 0 ((List.range r.len.toNat).map fun i => w32 (s.ringWord ((a + i / 16) % 4096) (i % 16))) s) ∧
      (ok (.flashRd r) → fl = false → replies (.flashRd r) 8 0x0B [] s) ∧
      (ok (.flashRd r) → fl = true → Config.freeBool s.fresh = false → replies (.flashRd r) 8 0 (byteWords (s.flashBytes at_ 256)) { s with fresh := s.fresh + 1 }) ∧
      (ok (.flashRd r) → fl = true → Config.freeBool s.fresh = true → replies (.flashRd r) 8 0x45 [] { s with fresh := s.fresh + 1 }) ∧
      (ok (.flashWr r) →
        let n := 4 * (r.len.toNat - 1)
        let part := inRecPart at_ || inRecPart (at_ + n - 1)
        (fl = false ∨ part = true → replies (.flashWr r) 9 0x0B [] s) ∧
        (fl = true → part = false → Config.freeBool s.fresh = false → replies (.flashWr r) 9 0 []
          (({ s with fresh := s.fresh + 1 } : State).flashProg at_ (sliceZ (wordBytes (r.payload.drop 1)) 0 n))) ∧
        (fl = true → part = false → Config.freeBool s.fresh = true → ∃ u, replies (.flashWr r) 9 0x45 [] u ∧ u = { s with fresh := s.fresh + 2, flash := u.flash } ∧
          (SMap.sorted s.flash = true → ∀ k, k < at_ ∨ at_ + n ≤ k → SMap.get u.flash 0xFF#8 k = SMap.get s.flash 0xFF#8 k))) ∧
      (ok (.flashErase r) →
        let b := at_ / 4096 * 4096
        (fl = false ∨ inRecPart b = true → replies (.flashErase r) 0xA 0x0B [] s) ∧
        (fl = true → inRecPart b = false → Config.freeBool s.fresh = false → replies (.flashErase r) 0xA 0 [] (({ s with fresh := s.fresh + 1 } : State).flashErase b)) ∧
        (fl = true → inRecPart b = false → Config.freeBool s.fresh = true → ∃ u, replies (.flashErase r) 0xA 0x45 [] u ∧ u = { s with fresh := s.fresh + 2, flash := u.flash })) ∧
      (ok (.attest r) → s.up 0 = false → s.up 1 = false → replies (.attest r) 0xB 0x42 [] s) ∧
      (ok (.attest r) → s.up 0 = true ∨ s.up 1 = true → replies (.attest r) 0xB 0 [] { s with sv := { s.sv with nonce := some (sliceZ (wordBytes r.payload) 0 32), report := none } }) ∧
      (ok (.attestRd r) → s.sv.nonce ≠ none → replies (.attestRd r) 0xC 0x04 [] s) ∧
      (ok (.attestRd r) → s.sv.nonce = none → s.sv.report = none → replies (.attestRd r) 0xC 0x09 [] s) ∧
      (∀ bs, ok (.attestRd r) → s.sv.nonce = none → s.sv.report = some bs →
        (40 < a → replies (.attestRd r) 0xC 0x09 [] s) ∧ (a ≤ 40 → replies (.attestRd r) 0xC 0 (byteWords (sliceZ bs (128 * a) 128)) s)) ∧
      (∀ ws, ok (.resend r) → s.sv.kept = some ws → exec (.resend r) s = .next (s.sendResp r.early ws)) ∧
      (ok (.resend r) → s.sv.kept = none → replies (.resend r) 0xE 0x43 [] s) ∧
      exec .frameAbort s = .next (s.count 0x11 0 2) ∧
      exec .crcErr s = .next ((s.count 0x11 0 3).emit (.selvage (withCrc [svHeader 0 0 0x40])))) ∧
    (s.md.mode = .off → exec .frameAbort s = .next s ∧ exec .crcErr s = .next s)

/-- R300, R301, R318, R319, R405: a Register Access Frame is obeyed only in CONFIG, from the host role's association; any other is counted and changes nothing else. One that
repeats the last SEQ gets the saved response again; a reserved field answers RESERVED_FIELD and an unreachable part FENCED, with no effect on any
word; a read answers the words, a write makes them and answers the mask of those discarded. A host frame with a bad invariant CRC is dropped and counted. -/
def Obligations.RegisterAccessFrames : Prop :=
  ∀ (s : State) (f : RxFrame) (bs : List Byte), f.data = .eth bs → f.port = 0 → s.hostOpen 0 = true → bs.length + 4 ≤ s.maxFrm 0 → s.macsecOk 0 bs f.sec = true →
    (s.hostTraffic bs = false → etherAt bs (rtagPos bs) = 0x88B5 → ∀ rivals, ∀ x ∈ [(Instr.rafRead f, []), (.rafWrite ⟨f, rivals⟩, rivals), (.frameReceive f, [])],
      let p := bs.drop (rtagPos bs + 2)
      let dst := sliceZ bs 6 6
      let w := leVal (sliceZ p 0 4)
      let seq := leVal (sliceZ p 4 4)
      let a := leVal (sliceZ p 8 4)
      let n := bits w 8 6
      let answers := fun (u : State) (r : List Byte) => exec x.1 s = .next (({ u with hst := { u.hst with rafSeq := some seq, rafResp := r } } : State).emit (.raf dst r))
      let well := rafBad w (leVal (sliceZ p 12 4)) = false ∧ s.spanCut a n = false
      (s.rafOk f = false → exec x.1 s = .next (s.count 0x11 0 1)) ∧
      (s.rafOk f = true → s.hst.rafSeq = some seq → exec x.1 s = .next (s.emit (.raf dst s.hst.rafResp))) ∧
      (s.rafOk f = true → s.hst.rafSeq ≠ some seq →
        (rafBad w (leVal (sliceZ p 12 4)) = true → answers s (rafResp w seq a 0x12 [])) ∧
        (rafBad w (leVal (sliceZ p 12 4)) = false → s.spanCut a n = true → answers s (rafResp w seq a 0x13 [])) ∧
        (well → bits w 4 4 = 0 → ∀ l u, s.readMany 0 a n = (l, u) → answers u (rafResp w seq a 0 l)) ∧
        (well → bits w 4 4 = 1 → ∀ m u, s.writeWords .host a x.2 0 ((List.range n).map fun i => w32 (leVal (sliceZ p (16 + 4 * i) 4))) = (m, u) →
          answers u (rafResp w seq a (if m = 0 then 0 else 0x0A) [w32 m])))) ∧
    (s.hostTraffic bs = true →
      let o := rtagPos bs
      let q := beVal (sliceZ bs (udpAt bs o + 8 + 5) 3)
      (icrcOk bs o = false → 256 ≤ q → q < 320 → exec (.frameReceive f) s = .next (s.count 0x10 (q - 256) 0)) ∧
      (icrcOk bs o = true → 256 ≤ q → q < 320 → s.qpOpen (q - 256) = true → rocePlain (byteAt bs (udpAt bs o + 8)).toNat = false →
        exec (.frameReceive f) s = .next ((s.noteCe (q - 256) (ceAt bs o)).emit (.rdmaNak (s.wire (q - 256) (beVal (sliceZ bs (udpAt bs o + 8 + 9) 3))) 1))) ∧
      (icrcOk bs o = true → s.qpOpen (q - 256) = false ∨ rocePlain (byteAt bs (udpAt bs o + 8)).toNat = true ∨ q < 256 ∨ 320 ≤ q → exec (.frameReceive f) s = .next s))

/-- R333–R337, R339–R343, R414: what each trigger of the mode table does: power, the start and the boot of a panel, its inputs, SLEEP, wake events and the mode commands.
A trigger that the table does not list for the mode changes nothing. -/
def Obligations.ModeTransitions : Prop :=
  ∀ (s : State), SMap.sorted s.regs = true →
    (Ends .powerLoss s fun u => u.md.mode = .off ∧ u.regs = [] ∧ u.strands = [] ∧ u.flash = s.flash ∧ u.flt.log = s.readLog.flt.log ∧ u.sec.owners = s.sec.owners ∧ u.sec.arb = s.sec.arb) ∧
    (Ends (.powerOn false) s fun u => u.md.mode = .boot ∧ u.md.held = true ∧ u.md.bootDev = 1 ∧ u.md.cause = MCause.bootCritical.code ∧ u.flash = s.flash) ∧
    (Ends (.powerOn true) s fun u => u.md.mode = .boot ∧ u.flash = s.flash ∧ (if u.md.held then u.md.bootDev = 2 else u.md.aonDone = some s.now ∧ u.md.a.req = true ∧ u.md.b.req = true)) ∧
    (∀ p, p < 2 →
      let x := s.pan p
      let ready := s.md.mode ≠ .off ∧ s.md.mode ≠ .sleep ∧ s.md.held = false ∧ s.md.aonDone ≠ none ∧ x.phase = .off ∧ x.pg = true ∧ x.rst = true ∧ x.refclk = true ∧ x.refSince + 100 * usU ≤ s.now
      (ready → exec (.panelStart p) s = .next (s.setPan p { x with phase := .booting, begun := true })) ∧ (¬ ready → exec (.panelStart p) s = .next s) ∧
      (∀ found ok temp, x.phase ≠ .booting → exec (.panelBootDone p found ok temp) s = .next s) ∧
      (∀ found ok temp, x.phase = .booting → ok = false ∨ s.logBroken = true → Ends (.panelBootDone p found ok temp) s fun u =>
        (u.pan p).phase = .failed ∧ (u.pan p).bootCause = 6) ∧
      (∀ found temp, x.phase = .booting → s.logBroken = false → Ends (.panelBootDone p found true temp) s fun u =>
        ((u.pan p).phase = .failed ∧ 2 ≤ (u.pan p).bootCause ∧ (u.pan p).bootCause ≤ 7) ∨
        ((u.pan p).phase = .up ∧ (u.pan p).bootCause = 0 ∧ u.md.mode ≠ .boot)) ∧
      (∀ t, s.md.aonDone = some t →
        let due := s.md.mode ≠ .off ∧ s.md.mode ≠ .sleep ∧ s.md.held = false ∧ x.begun = false ∧ x.phase = .off ∧ t + secU ≤ s.now
        (due → Ends (.panelNotPowered p) s fun u => (u.pan p).phase = .failed ∧ (u.pan p).bootCause = 1) ∧ (¬ due → exec (.panelNotPowered p) s = .next s)) ∧
      (∀ v, exec (.panelReset p (.refclk v)) s = .next (s.setPan p { x with refclk := v, refSince := if v && !x.refclk then s.now else x.refSince })) ∧
      exec (.panelReset p (.rst true)) s = .next (s.setPan p { x with rst := true }) ∧
      exec (.panelReset p (.pg true)) s = .next (s.setPan p { x with pg := true }) ∧
      (x.rst = true → s.md.sleeping = false → s.md.mode = .config → Ends (.panelReset p (.rst false)) s fun u =>
        u.md.mode = .boot ∧ u.md.cause = MCause.panelReset.code ∧ (u.pan 0).phase = .off ∧ (u.pan 1).phase = .off ∧ u.md.aonDone = some s.now ∧ u.lls = [] ∧ u.doms = [] ∧ (u.pan p).rst = false) ∧
      (x.rst = true → s.md.sleeping = false → s.md.mode = .boot → s.md.held = false → Ends (.panelReset p (.rst false)) s fun u =>
        u.md.mode = .boot ∧ (u.pan p).phase = .off ∧ (u.pan p).vid = 20 ∧ (u.pan p).bootCause = 0 ∧ (u.pan (1 - p)) = (s.pan (1 - p))) ∧
      (∀ up, s.up p = true → s.md.mode ≠ .sleep → x.vidAt + 20 * usU ≤ s.now →
        (up = true → x.vid < 40 → exec (.vidStep p up) s = .next (s.setPan p { x with vid := x.vid + 1, vidAt := s.now })) ∧
        (up = false → 0 < x.vid → exec (.vidStep p up) s = .next (s.setPan p { x with vid := x.vid - 1, vidAt := s.now })) ∧
        (up = true ∧ 40 ≤ x.vid ∨ up = false ∧ x.vid = 0 → exec (.vidStep p up) s = .next s)) ∧
      (∀ up, s.up p = false ∨ s.now < x.vidAt + 20 * usU → exec (.vidStep p up) s = .next s)) ∧
    (s.md.sleeping = false → exec .sleepEntryComplete s = .next s) ∧
    (s.md.sleeping = true → s.drained = false → s.now < s.md.sleepAt + s.sleepLimit → exec .sleepEntryComplete s = .next s) ∧
    (s.md.sleeping = true → s.drained = true ∨ s.md.sleepAt + s.sleepLimit ≤ s.now → Ends .sleepEntryComplete s fun u =>
      u.md.sleeping = false ∧ u.md.wakeMask = s.rd R.modWake 0 0 ∧ (u.pan 0).phase = .off ∧ (u.pan 1).phase = .off ∧ u.lls = [] ∧
        (s.md.heldWake = false → u.md.mode = .sleep ∧ u.md.a.req = false ∧ u.md.b.req = false) ∧ (s.md.heldWake = true → u.md.mode = .boot ∧ u.md.a.req = true ∧ u.md.b.req = true)) ∧
    (∀ w, s.md.sleeping = false → s.md.mode ≠ .sleep → exec (.wakeEvent w) s = .next s) ∧
    (∀ w, s.md.sleeping = false → s.md.mode = .sleep →
      (s.wakeOf s.md.wakeMask.toNat s.md.wakePorts w = none → exec (.wakeEvent w) s = .next s) ∧
      (∀ a b, s.wakeOf s.md.wakeMask.toNat s.md.wakePorts w = some (a, b) → Ends (.wakeEvent w) s fun u =>
        u.md.mode = .boot ∧ u.md.cause = MCause.wake.code ∧ u.md.wSrc = a ∧ u.md.wWhich = b ∧ u.md.a.req = true ∧ u.md.b.req = true ∧ u.md.aonDone = some s.now)) ∧
    (∀ w a b, s.md.sleeping = true → s.md.heldWake = false → s.wakeOf (s.rd R.modWake 0 0).toNat ((List.range 1024).filter fun q => s.rb R.prtCfg 0 q 0) w = some (a, b) →
      exec (.wakeEvent w) s = .next { s with md := { s.md with heldWake := true, wSrc := a, wWhich := b } }) ∧
    (∀ t sel, t ≠ 3 → t ≠ 5 → t ≠ 6 → t ≠ 7 → (s.modeCommand t sel).1 = false) ∧
    (∀ t, s.md.selCycle = some (s.now / 48000) ∨ s.selWaits = true → s.modeCommand t false = (false, s)) ∧
    (s.md.selCycle ≠ some (s.now / 48000) → s.selWaits = false → s.md.sleeping = false →
      (s.md.mode = .config → (s.modeCommand 3 false).1 = true ∧ (s.modeCommand 3 false).2.md.mode = if s.anyFenced || !s.joined then .degraded else .run) ∧
      (s.md.mode = .run → s.modeCommand 3 false = (false, s)) ∧
      (s.md.mode = .config ∨ s.md.mode = .run ∨ s.md.mode = .degraded →
        ((s.modeCommand 5 false).1 = true ∧ (s.modeCommand 5 false).2.md.mode = .limp) ∧
        ((s.modeCommand 6 false).1 = true ∧ (s.modeCommand 6 false).2.md.sleeping = true ∧ (s.modeCommand 6 false).2.md.mode = s.md.mode)) ∧
      (s.md.mode = .config → s.sec.token ≠ none → (s.modeCommand 7 false).1 = true ∧ (s.modeCommand 7 false).2.md.mode = .service) ∧
      (s.md.mode ≠ .config ∨ s.sec.token = none → s.modeCommand 7 false = (false, s)))

/-- R331, R352, R353: a token that is being verified ends the verification with its status; one that passes is held, and its DEBUG grant takes
effect at once. A report that is being built is signed and held, and the host is told. -/
def Obligations.SecurityCompletions : Prop :=
  ∀ (s : State),
    (s.sec.verifying = false → exec .tokenVerifyComplete s = .next s) ∧
    (s.sec.verifying = true → Ends .tokenVerifyComplete s fun u => u = { s with sec := u.sec } ∧ u.sec.verifying = false ∧ u.sec.last = s.checkToken s.tokenObj ∧
      u.sec.keys = s.sec.keys ∧ u.sec.owners = s.sec.owners ∧ u.sec.arb = s.sec.arb ∧
      (s.checkToken s.tokenObj ≠ 1 → u.sec.token = s.sec.token ∧ u.sec.dbg = s.sec.dbg) ∧
      (s.checkToken s.tokenObj = 1 → ∃ t, u.sec.token = some t ∧ t.grants = leVal (sliceZ s.tokenObj.body 64 4) ∧ u.sec.dbg = (s.sec.dbg || bit t.grants 2))) ∧
    (∀ n, s.sv.nonce = some n → SMap.sorted s.regs = true →
      (s.up 0 = false → s.up 1 = false → exec .attestComplete s = .next s) ∧
      (s.up 0 = true ∨ s.up 1 = true → Ends .attestComplete s fun u => u = { s with sv := { s.sv with nonce := none, report := u.sv.report }, regs := u.regs } ∧
        u.sv.report = some (s.reportBody n ++ sliceZ (Config.mldsaSign s.atSeed (s.reportBody n)) 0 4627 ++ leBytes 109 0) ∧ u.rb R.svAttn 0 0 4 = true)) ∧
    (s.sv.nonce = none → exec .attestComplete s = .next s)

/-- R358, R360, R361, R364–R367, R370, R372, R418: what each report and each end of a step does to the darning controllers: errors are counted, recovered in a slot, or take out a
panel or the device; a recovery closes with its unit in service, or fenced, and what lasts is written to both copies of the repair log; the panels part and rejoin; the AON domain goes on without its crystal. -/
def Obligations.FaultRecoveries : Prop :=
  ∀ (s : State), SMap.sorted s.flt.slots = true → SMap.sorted s.flt.fenced = true → SMap.sorted s.regs = true →
    (∀ e : ErrIn, e.unit < 1 ∨ 16 < e.unit ∨ (e.unit < 15 ∧ s.up (e.panel % 2) = false) → exec (.errorDetected e) s = .next s) ∧
    (∀ e : ErrIn, 1 ≤ e.unit → e.unit ≤ 16 → (e.unit < 15 → s.up (e.panel % 2) = true) →
      let p := e.panel % 2
      (e.sev = 0 → exec (.errorDetected e) s = .next (s.countUnit p e.unit 0)) ∧
      (4 ≤ e.sev ∧ e.unit ≤ 12 ∨ 1 ≤ e.sev ∧ e.unit = 16 → s.md.mode = .run → s.md.sleeping = false → s.up 0 = true ∨ s.up 1 = true →
        Ends (.errorDetected e) s fun u => u.md.mode = .limp ∧ u.md.cause = MCause.error.code) ∧
      (e.sev = 1 → e.unit ≤ 8 ∨ e.unit = 10 → e.item = none → s.underRecovery p e.unit (e.index % 4096) = none →
        ∀ i, i < 4 → s.slot p i = none → (∀ j, j < i → s.slot p j ≠ none) → Ends (.errorDetected e) s fun u =>
          u.md = s.md ∧ u.lls = s.lls ∧ u.strands = s.strands ∧ u.mem = s.mem ∧ u.swa = s.swa ∧ u.flt = { s.flt with slots := u.flt.slots } ∧
          (∃ r, u.slot p i = some r ∧ r.sev = 1 ∧ r.unit = e.unit ∧ r.index = e.index % 4096 ∧ r.susp = false ∧ r.fenced = false) ∧
          ∀ j, j < 5 → j ≠ i → (∀ r, s.slot p j = some r → 1 ≤ r.sev) → u.slot p j = s.slot p j)) ∧
    (∀ p, p < 2 →
      let lastSeq := match s.flt.log.getLast? with | some e => e.seq | none => 0
      let place := match s.logUsed.getLast? with | some k => k + 1 | none => 0
      let logs := fun (u : State) (e : RepEntry) => e.seq = lastSeq + 1 ∧ u.flt.log = s.flt.log ++ [e] ∧
        u.flash = if place < 2048 then ((s.flashProg (logCopy 0 + 16 * place) e.bytes).flashProg (logCopy 1 + 16 * place) e.bytes).flash else s.flash
      (∀ r rest i, s.errQueue p = r :: rest → i < 4 → s.slot p i = none → (∀ j, j < i → s.slot p j ≠ none) →
        exec (.recoveryStart p) s = .next (((s.setErrQueue p rest).suspendBelow p r.sev).begin p i r)) ∧
      (s.errQueue p = [] ∨ (∀ i, i < 4 → s.slot p i ≠ none) → exec (.recoveryStart p) s = .next s) ∧
      (Ends (.recoveryResume p) s fun u => u.flt.fenced = s.flt.fenced ∧ u.md = s.md ∧
        (∀ i, i < 5 → s.slot p i = none → u.slot p i = none) ∧
        (∀ i r, i < 5 → s.slot p i = some r → r.susp = false → u.slot p i = some r) ∧
        (∀ i r j q, i < 5 → j < 5 → s.slot p i = some r → s.slot p j = some q → q.susp = false → q.waits = false → r.sev < q.sev → u.slot p i = some r) ∧
        (∀ i r, i < 5 → s.slot p i = some r → r.susp = true → (∀ j q, j < 5 → s.slot p j = some q → q.susp = true ∨ q.waits = true ∨ q.sev ≤ r.sev) →
          u.slot p i = if s.isFenced p r.unit r.index && !r.fenced then none else some { r with susp := false, step := min 15 (r.step + 1) })) ∧
      (∀ i n, i < 5 → s.slot p i = none → exec (.recoveryClose p i n) s = .next s) ∧
      (∀ i n r, i < 5 → s.slot p i = some r →
        (r.susp = true ∨ (r.fenced = true ∧ r.waits = true) → exec (.recoveryClose p i n) s = .next s) ∧
        (r.susp = false → 3 ≤ r.sev → r.fenced = false → exec (.recoveryClose p i n) s = .next (s.clearSlot p i)) ∧
        (r.susp = false → r.sev ≤ 1 → r.fenced = false → s.rb R.fltCfg p 0 4 = false → exec (.recoveryClose p i n) s = .next (s.clearSlot p i)) ∧
        (r.susp = false → r.sev ≤ 1 → r.fenced = false → Ends (.recoveryClose p i n) s fun u => u.slot p i = none ∧ u.flt.log = s.flt.log ∧ u.flt.fenced = s.flt.fenced) ∧
        (r.susp = false → r.sev = 2 → r.fenced = true → r.waits = false → Ends (.recoveryClose p i n) s fun u => u.slot p i = none ∧ u.flt.fenced = s.flt.fenced ∧
          logs u { unit := r.unit, panel := p, index := r.index, kind := 4, addr := r.addr, spare := 0, seq := lastSeq + 1 }) ∧
        (r.susp = false → r.sev = 2 → r.fenced = false → n < 8 → n ≠ 2 → Ends (.recoveryClose p i n) s fun u => u.slot p i = none ∧ u.flt.fenced = s.flt.fenced ∧
          if r.unit = 1 ∨ r.unit = 2 ∨ r.unit = 6 ∨ r.unit = 7 then
            ∃ l, logs u l ∧ l.unit = r.unit ∧ l.panel = p ∧ l.index = r.index ∧ l.kind = repKind r
          else u.flt.log = s.flt.log ∧ u.flash = s.flash)) ∧
      (∀ i r pass, i < 5 → s.slot p i = some r → r.fenced = true → r.waits = true → (∀ j q, j < i → s.slot p j = some q → q.unit = r.unit → q.index = r.index → q.fenced = true → q.waits = false) →
        Ends (.retestComplete p r.unit r.index pass) s fun u => u.slot p i = none ∧
          (pass = true → u.isFenced p r.unit r.index = false ∧ u.flt.log = s.flt.log) ∧
          (pass = false → u.flt.fenced = s.flt.fenced ∧ logs u { unit := r.unit, panel := p, index := r.index, kind := 4, addr := r.addr, spare := 0, seq := lastSeq + 1 })) ∧
      (∀ unit index pass, (∀ i r, i < 5 → s.slot p i = some r → r.unit = unit → r.index = index → r.fenced = false ∨ r.waits = false) → exec (.retestComplete p unit index pass) s = .next s) ∧
      (∀ k, s.up p = false ∨ (k = true ∧ s.md.crystalOk = false) → exec (.panelLoss ⟨p, k⟩) s = .next s) ∧
      (∀ k, k = false ∨ s.md.crystalOk = true → s.up p = true → s.up (1 - p) = true → s.md.sleeping = false →
        (s.md.mode = .run → Ends (.panelLoss ⟨p, k⟩) s fun u => u.up p = false ∧ u.up (1 - p) = true ∧ u.md.mode = .degraded) ∧
        (s.md.mode = .config → Ends (.panelLoss ⟨p, k⟩) s fun u => u.up p = false ∧ u.md.mode = .boot))) ∧
    (s.joined = false → exec .bridgeFailure s = .next s) ∧
    (s.joined = true → s.md.sleeping = false → s.md.mode = .run → Ends .bridgeFailure s fun u => u.md.bridge = false ∧ u.md.retrainAt = s.now ∧ u.md.mode = .degraded ∧ u.up 0 = true ∧ u.up 1 = true) ∧
    (∀ pass, s.md.bridge = true ∨ s.up 0 = false ∨ s.up 1 = false ∨ s.now < s.md.retrainAt + 100 * msU → exec (.bridgeRetrain pass) s = .next s) ∧
    (s.md.bridge = false → s.up 0 = true → s.up 1 = true → s.md.retrainAt + 100 * msU ≤ s.now →
      exec (.bridgeRetrain false) s = .next { s with md := { s.md with retrainAt := s.now } } ∧
      Ends (.bridgeRetrain true) s fun u => u.md.bridge = true ∧ u.md.retrainAt = s.now ∧ u.md.mode = s.md.mode) ∧
    exec (.crystalFail true) s = .next { s with md := { s.md with crystalOk := true } } ∧
    (s.md.crystalOk = false → exec (.crystalFail false) s = .next s) ∧
    (s.md.crystalOk = true → s.md.sleeping = false → s.md.mode = .run → s.up 0 = true ∨ s.up 1 = true → Ends (.crystalFail false) s fun u => u.md.mode = .limp ∧ u.md.crystalOk = false)

/-- R378–R383, R385, R390, R391, R394: the swatch of a panel begins a cycle, takes its next slice and ends the running one with a result; the Row Counter ends an interval, samples
the life histograms and flushes its ring. Out of turn each changes nothing. -/
def Obligations.SwatchAndRecorder : Prop :=
  ∀ (s : State),
    (∀ p, p < 2 →
      let n := SMap.get s.swa.next 0 p
      let unit := (kindUnit (sliceKind n)).getD 0
      let ready := s.swatchOn p = true ∧ SMap.find s.swa.run p = none
      let turn := ready ∧ n < 440 ∧ s.cycleStart p + n * s.cycleLen p / 440 ≤ s.now
      let held := (∃ i r, i < 5 ∧ s.slot p i = some r ∧ 2 ≤ r.sev) ∨ s.underRecovery p unit (sliceIndex p n) ≠ none
      (ready → 440 ≤ n → s.cycleStart p + s.cycleLen p ≤ s.now → exec (.swatchCycleStart p) s = .next (s.beginCycle p (s.cycleStart p + s.cycleLen p))) ∧
      (¬ ready ∨ n < 440 ∨ s.now < s.cycleStart p + s.cycleLen p → exec (.swatchCycleStart p) s = .next s) ∧
      (¬ turn → exec (.sliceStart p) s = .next s) ∧
      (turn → s.isFenced p unit (sliceIndex p n) = true → exec (.sliceStart p) s = .next (s.nextSlice p n)) ∧
      (turn → s.isFenced p unit (sliceIndex p n) = false → held → exec (.sliceStart p) s = .next s) ∧
      (turn → s.isFenced p unit (sliceIndex p n) = false → ¬ held →
        (s.noSpare p n = false → exec (.sliceStart p) s = .next { s with swa := { s.swa with last := SMap.set s.swa.last 0 p n, run := SMap.put s.swa.run p { slice := n, start := s.now } } }) ∧
        (s.noSpare p n = true → exec (.sliceStart p) s = .next (({ s with swa := { s.swa with last := SMap.set s.swa.last 0 p n } }.putResult p n 3 0 0 0 0 0 0 4).nextSlice p n))) ∧
      (∀ pass pat misr, SMap.find s.swa.run p = none → exec (.sliceComplete p pass pat misr) s = .next s) ∧
      (∀ pat misr r, SMap.find s.swa.run p = some r →
        let c := kindCov (sliceKind r.slice)
        exec (.sliceComplete p true pat misr) s =
          .next (({ s with swa := { s.swa with run := SMap.del s.swa.run p } }.putResult p r.slice 1 0 c.1 c.2 ((s.now - r.start) / usU) pat.toNat misr.toNat 0).nextSlice p r.slice)) ∧
      (∀ pat misr r, SMap.find s.swa.run p = some r → SMap.sorted s.swa.results = true → SMap.sorted s.swa.run = true →
        s.underRecovery p ((kindUnit (sliceKind r.slice)).getD 0) (sliceIndex p r.slice) = none → Ends (.sliceComplete p false pat misr) s fun u =>
        bits (u.resWord p r.slice 0).toNat 20 2 = 2 ∧ u.resWord p r.slice 3 = pat ∧ u.resWord p r.slice 4 = misr)) ∧
    (∀ pass pat misr, s.swa.aon = none → exec (.sliceComplete 2 pass pat misr) s = .next s) ∧
    (s.now < s.rcd.intervalAt + s.rf R.recCfg 0 0 8 8 * minU → exec .intervalEnd s = .next s) ∧
    (s.rcd.intervalAt + s.rf R.recCfg 0 0 8 8 * minU ≤ s.now → Ends .intervalEnd s fun u => u.rcd.intervalAt = s.now ∧
      (∀ e ∈ u.rcd.counts, 2 ≤ e.1 / 8 / 64) ∧ (∀ e ∈ u.rcd.hist, e.1 / 32 / 65536 / 16 < 2 → 5 ≤ e.1 / 32 / 65536 % 16) ∧ u.rcd.ext.all (fun e => decide (3 ≤ e.1 / 65536 / 16)) = true) ∧
    (∀ temps volts, SMap.sorted s.rcd.hist = true → Ends (.lifeSample temps volts) s fun u => u = { s with rcd := { s.rcd with hist := u.rcd.hist, ext := u.rcd.ext } } ∧
      (∀ i b, i < 13 → b < 32 → let k := (5 * 65536 + i) * 32 + b
        SMap.get u.rcd.hist 0 k = match temps[i]? with
          | some t => if s.sampled (sensorPanel i) = true ∧ tempBin t = b then min 0xFFFFFFFF (SMap.get s.rcd.hist 0 k + 1) else SMap.get s.rcd.hist 0 k
          | none => SMap.get s.rcd.hist 0 k) ∧
      (∀ i b, i < 5 → b < 32 → let k := (6 * 65536 + i) * 32 + b
        SMap.get u.rcd.hist 0 k = match volts[i]? with
          | some v => if s.sampled (railPanel i) = true ∧ voltBin v = b then min 0xFFFFFFFF (SMap.get s.rcd.hist 0 k + 1) else SMap.get s.rcd.hist 0 k
          | none => SMap.get s.rcd.hist 0 k)) ∧
    (∀ bad, let due := s.rcd.flushDue = true ∨ s.rcd.flushedAt + s.rf R.recCfg 0 0 0 8 * minU ≤ s.now
      (¬ due → exec (.flush bad) s = .next s) ∧
      (due → Ends (.flush bad) s fun u => u.rcd.flushDue = false ∧ u.rcd.flushedAt = s.now ∧ u.rcd.buf = [] ∧ (∀ e ∈ u.rcd.ring, e.2.flushed = true) ∧ u.md = s.md ∧ u.strands = s.strands))

/-- Every command has its effect: it ends in a next state, whatever the state, and so does every step of every run. -/
def Obligations.EveryRunIsSafe : Prop :=
  (∀ (c : Instr) (s : State), Goes (exec c s)) ∧ ∀ (s : State) (n : Nat), SafeRun s n

/-- R139, R346: every step keeps the three memories and the flash in their canonical form: addresses strictly rising and no entry equal to what an
unlisted address reads as (log entry 5). -/
def Obligations.EveryStepKeepsMemory : Prop :=
  ∀ (s u : State), s.memoryOk = true → step s = .next u → u.memoryOk = true

/-- R173: every step keeps the maps that the other statements take to be in canonical order so (registers, strands, lifelines, lists, tables,
frames), and leaves no strand in the middle of an operation that a hook unit takes from its queue. -/
def Obligations.EveryStepKeepsMaps : Prop :=
  ∀ (s u : State), s.mapsOk = true → step s = .next u → u.mapsOk = true ∧ (s.unitsIdle = true → u.unitsIdle = true)

/-- R141, R142, R333, R402, R411: at reset the device is in BOOT, every register reads its reset value and every counter zero, every strand's general registers, trap and watch registers
and predicates but p0 read zero, no command waits, and the invariants of every step hold. Values that the spec leaves open are the model's (log entries 5, 6). -/
def Obligations.ResetState : Prop :=
  let s := State.reset
  s.mapsOk = true ∧ s.unitsIdle = true ∧ s.memoryOk = true ∧ s.pending = [] ∧ s.md.mode = .boot ∧
  (∀ (d : RegDesc) (p i j : Nat), s.rd d p i j = d.rst p i j) ∧ (∀ set inst n, s.ctr set inst n = 0) ∧
  (∀ t r, (s.bank t).rg r = 0#32) ∧ (∀ t r, (s.bank t).rp r = decide (r = 0)) ∧
  (∀ t, (s.bank t).exl = false ∧ (s.bank t).epc = 0#32 ∧ (s.bank t).ecause = 0#32 ∧ (s.bank t).einfo = 0#32 ∧ (s.bank t).eaddr = 0#32 ∧
    (s.strand t).wpctl = 0#32 ∧ (s.strand t).wpaddr = 0#32) ∧
  (∀ k, (s.ll k).state = .free)
end

