-- ==== Sys2Proof/Laws/SMap.lean ====
section
/-! SUPPORT. Sparse maps: what a read gives after a write, and that every operation keeps the canonical form. -/

namespace Sys2Proof.Machine

theorem SMap.find_put {β : Type} (m : SMap β) (k j : Nat) (v : β) (h : SMap.sorted m = true) :
    SMap.find (SMap.put m k v) j = if k = j then some v else SMap.find m j := by
  induction m with
  | nil => simp [SMap.put, SMap.find]
  | cons e m ih =>
    obtain ⟨a, w⟩ := e
    have hm : SMap.sorted m = true := by
      cases m with
      | nil => rfl
      | cons e' m' => simp only [SMap.sorted, Bool.and_eq_true] at h; exact h.2
    simp only [SMap.put]
    split
    · simp [SMap.find]
    · split
      · subst_vars; simp only [SMap.find]; split <;> simp_all
      · rename_i h1 h2
        simp only [SMap.find, ih hm]
        split
        · rename_i h3; subst h3; rw [if_neg (fun x => h2 x.symm)]
        · rfl

theorem SMap.sorted_tail {β : Type} {e : Nat × β} {m : SMap β} (h : SMap.sorted (e :: m) = true) : SMap.sorted m = true := by
  cases m with
  | nil => rfl
  | cons e' m' => simp only [SMap.sorted, Bool.and_eq_true] at h; exact h.2

/-- In a sorted map every later key is greater than the first. -/
theorem SMap.sorted_head {β : Type} {e : Nat × β} {m : SMap β} (h : SMap.sorted (e :: m) = true) : ∀ x ∈ m, e.1 < x.1 := by
  induction m generalizing e with
  | nil => simp
  | cons e' m' ih =>
    have ht := SMap.sorted_tail h
    simp only [SMap.sorted, Bool.and_eq_true, decide_eq_true_eq] at h
    intro x hx
    rcases List.mem_cons.1 hx with rfl | hx
    · exact h.1
    · exact lt_trans h.1 (ih ht x hx)

theorem SMap.sorted_cons {β : Type} {e : Nat × β} {m : SMap β} (hm : SMap.sorted m = true) (h : ∀ x ∈ m, e.1 < x.1) : SMap.sorted (e :: m) = true := by
  cases m with
  | nil => rfl
  | cons e' m' => simp only [SMap.sorted, Bool.and_eq_true, decide_eq_true_eq]; exact ⟨h e' (by simp), hm⟩

theorem SMap.mem_put {β : Type} {m : SMap β} {k : Nat} {v : β} {x : Nat × β} (h : x ∈ SMap.put m k v) : x = (k, v) ∨ x ∈ m := by
  induction m with
  | nil => simpa [SMap.put] using h
  | cons e m ih =>
    obtain ⟨a, w⟩ := e
    simp only [SMap.put] at h
    split at h
    · simpa using h
    · split at h
      · rcases List.mem_cons.1 h with h | h
        · exact .inl h
        · exact .inr (List.mem_cons_of_mem _ h)
      · rcases List.mem_cons.1 h with h | h
        · exact .inr (by simp [h])
        · rcases ih h with h | h
          · exact .inl h
          · exact .inr (List.mem_cons_of_mem _ h)

theorem SMap.sorted_put {β : Type} {m : SMap β} (k : Nat) (v : β) (h : SMap.sorted m = true) : SMap.sorted (SMap.put m k v) = true := by
  induction m with
  | nil => rfl
  | cons e m ih =>
    obtain ⟨a, w⟩ := e
    simp only [SMap.put]
    split
    · rename_i hk
      refine SMap.sorted_cons h fun x hx => ?_
      rcases List.mem_cons.1 hx with rfl | hx
      · exact hk
      · exact lt_trans hk (SMap.sorted_head h x hx)
    · split
      · rename_i hk; subst hk
        exact SMap.sorted_cons (SMap.sorted_tail h) fun x hx => SMap.sorted_head h x hx
      · rename_i h1 h2
        refine SMap.sorted_cons (ih (SMap.sorted_tail h)) fun x hx => ?_
        rcases SMap.mem_put hx with rfl | hx
        · exact lt_of_le_of_ne (not_lt.1 h1) h2
        · exact SMap.sorted_head h x hx

theorem SMap.mem_del {β : Type} {m : SMap β} {k : Nat} {x : Nat × β} (h : x ∈ SMap.del m k) : x ∈ m := by
  induction m with
  | nil => exact h
  | cons e m ih =>
    obtain ⟨a, w⟩ := e
    simp only [SMap.del] at h
    split at h
    · exact List.mem_cons_of_mem _ h
    · rcases List.mem_cons.1 h with h | h
      · simp [h]
      · exact List.mem_cons_of_mem _ (ih h)

theorem SMap.sorted_del {β : Type} {m : SMap β} (k : Nat) (h : SMap.sorted m = true) : SMap.sorted (SMap.del m k) = true := by
  induction m with
  | nil => rfl
  | cons e m ih =>
    obtain ⟨a, w⟩ := e
    simp only [SMap.del]
    split
    · exact SMap.sorted_tail h
    · exact SMap.sorted_cons (ih (SMap.sorted_tail h)) fun x hx => SMap.sorted_head h x (SMap.mem_del hx)

theorem SMap.sorted_filter {β : Type} {m : SMap β} (q : Nat × β → Bool) (h : SMap.sorted m = true) : SMap.sorted (m.filter q) = true := by
  induction m with
  | nil => rfl
  | cons e m ih =>
    simp only [List.filter]
    split
    · exact SMap.sorted_cons (ih (SMap.sorted_tail h)) fun x hx => SMap.sorted_head h x (List.mem_of_mem_filter hx)
    · exact ih (SMap.sorted_tail h)

theorem SMap.wf_iff {β : Type} [DecidableEq β] {m : SMap β} {d : β} :
    SMap.wf m d = true ↔ SMap.sorted m = true ∧ ∀ e ∈ m, e.2 ≠ d := by
  simp [SMap.wf, List.all_eq_true]

/-- A write keeps the canonical form. -/
theorem SMap.wf_set {β : Type} [DecidableEq β] {m : SMap β} {d : β} (k : Nat) (v : β) (h : SMap.wf m d = true) :
    SMap.wf (SMap.set m d k v) d = true := by
  rw [SMap.wf_iff] at h ⊢
  simp only [SMap.set]
  split
  · exact ⟨SMap.sorted_del k h.1, fun e he => h.2 e (SMap.mem_del he)⟩
  · rename_i hv
    refine ⟨SMap.sorted_put k v h.1, fun e he => ?_⟩
    rcases SMap.mem_put he with rfl | he
    · exact hv
    · exact h.2 e he

/-- Taking entries out keeps the canonical form. -/
theorem SMap.wf_filter {β : Type} [DecidableEq β] {m : SMap β} {d : β} (q : Nat × β → Bool) (h : SMap.wf m d = true) :
    SMap.wf (m.filter q) d = true := by
  rw [SMap.wf_iff] at h ⊢
  exact ⟨SMap.sorted_filter q h.1, fun e he => h.2 e (List.mem_of_mem_filter he)⟩

theorem SMap.find_none_of_lt {β : Type} {m : SMap β} {k : Nat} (h : ∀ x ∈ m, k < x.1) : SMap.find m k = none := by
  induction m with
  | nil => rfl
  | cons e m ih =>
    obtain ⟨a, w⟩ := e
    have ha : k < a := h (a, w) (by simp)
    simp only [SMap.find]
    rw [if_neg (by omega)]
    exact ih fun x hx => h x (List.mem_cons_of_mem _ hx)

theorem SMap.find_del {β : Type} (m : SMap β) (k j : Nat) (h : SMap.sorted m = true) :
    SMap.find (SMap.del m k) j = if k = j then none else SMap.find m j := by
  induction m with
  | nil => simp [SMap.del, SMap.find]
  | cons e m ih =>
    obtain ⟨a, w⟩ := e
    simp only [SMap.del]
    split
    · rename_i ha; subst ha
      split
      · rename_i hj; subst hj; exact SMap.find_none_of_lt (SMap.sorted_head h)
      · rename_i hj; simp [SMap.find, hj]
    · rename_i ha
      simp only [SMap.find, ih (SMap.sorted_tail h)]
      split
      · rename_i hj; subst hj; rw [if_neg (fun x => ha x.symm)]
      · rfl

/-- What a read gives after a write: the value written, or what it gave before. -/
theorem SMap.get_set {β : Type} [DecidableEq β] (m : SMap β) (d : β) (k j : Nat) (v : β) (h : SMap.sorted m = true) :
    SMap.get (SMap.set m d k v) d j = if k = j then v else SMap.get m d j := by
  simp only [SMap.get, SMap.set]
  split
  · rename_i hv; subst hv; rw [SMap.find_del m k j h]; split <;> simp
  · rw [SMap.find_put m k j v h]; split <;> simp

/-- Bytes: what a read gives after a write of one byte. -/
theorem cellGet_cellSet (m : List Host.Cell) (a b : Nat) (v : Byte) (h : cellsWf m = true) :
    cellGet (cellSet m a v) b = if a = b then v else cellGet m b :=
  SMap.get_set m 0#8 a b v (SMap.wf_iff.1 h).1

theorem cellsWf_cellSet {m : List Host.Cell} (a : Nat) (v : Byte) (h : cellsWf m = true) : cellsWf (cellSet m a v) = true :=
  SMap.wf_set a v h

theorem cellsWf_cellWrite {m : List Host.Cell} (a : Nat) (bs : List Byte) (h : cellsWf m = true) : cellsWf (cellWrite m a bs) = true := by
  induction bs generalizing m a with
  | nil => exact h
  | cons b bs ih => exact ih (a + 1) (cellsWf_cellSet a b h)

/-- Bytes: a write of several leaves every byte outside them alone. -/
theorem cellGet_cellWrite_out (m : List Host.Cell) (a b : Nat) (bs : List Byte) (h : cellsWf m = true) (hb : b < a ∨ a + bs.length ≤ b) :
    cellGet (cellWrite m a bs) b = cellGet m b := by
  induction bs generalizing m a with
  | nil => rfl
  | cons c cs ih =>
    simp only [List.length_cons] at hb
    rw [cellWrite, ih (cellSet m a c) (a + 1) (cellsWf_cellSet a c h) (by omega), cellGet_cellSet m a b c h, if_neg (by omega)]

theorem cellsWf_foldl_cellSet {m : List Host.Cell} (l : List Nat) (v : Byte) (h : cellsWf m = true) :
    cellsWf (l.foldl (fun m k => cellSet m k v) m) = true := by
  induction l generalizing m with
  | nil => exact h
  | cons k l ih => exact ih (cellsWf_cellSet k v h)

theorem SMap.put_put {β : Type} (m : SMap β) (k : Nat) (v w : β) : SMap.put (SMap.put m k v) k w = SMap.put m k w := by
  induction m with
  | nil => simp [SMap.put]
  | cons e m ih =>
    obtain ⟨a, x⟩ := e
    simp only [SMap.put]
    split
    · simp [SMap.put]
    · split
      · rename_i h1 h2
        subst h2
        simp [SMap.put]
      · rename_i h1 h2
        simp only [SMap.put, h1, h2, if_false, ih]

theorem SMap.del_of_lt {β : Type} {m : SMap β} {k : Nat} (h : ∀ x ∈ m, k < x.1) : SMap.del m k = m := by
  induction m with
  | nil => rfl
  | cons e m ih =>
    obtain ⟨a, x⟩ := e
    have ha : k < a := h (a, x) (by simp)
    simp only [SMap.del, if_neg (Nat.ne_of_gt ha), ih fun y hy => h y (by simp [hy])]

theorem SMap.put_of_lt {β : Type} {m : SMap β} {k : Nat} (v : β) (h : ∀ x ∈ m, k < x.1) : SMap.put m k v = (k, v) :: m := by
  cases m with
  | nil => rfl
  | cons e m =>
    obtain ⟨a, x⟩ := e
    simp only [SMap.put, if_pos (h (a, x) (by simp))]

theorem SMap.del_put {β : Type} {m : SMap β} (k : Nat) (v : β) (h : SMap.sorted m = true) : SMap.del (SMap.put m k v) k = SMap.del m k := by
  induction m with
  | nil => simp [SMap.put, SMap.del]
  | cons e m ih =>
    obtain ⟨a, x⟩ := e
    simp only [SMap.put]
    split
    · rename_i h1
      have h2 : ∀ y ∈ (a, x) :: m, k < y.1 := by
        intro y hy
        rcases List.mem_cons.1 hy with rfl | hy
        · exact h1
        · exact Nat.lt_trans h1 (SMap.sorted_head h y hy)
      rw [SMap.del_of_lt h2]
      simp [SMap.del]
    · split
      · rename_i h1 h2
        subst h2
        simp [SMap.del]
      · rename_i h1 h2
        simp only [SMap.del, h2, if_false, ih (SMap.sorted_tail h)]

theorem SMap.put_del {β : Type} {m : SMap β} (k : Nat) (v : β) (h : SMap.sorted m = true) : SMap.put (SMap.del m k) k v = SMap.put m k v := by
  induction m with
  | nil => rfl
  | cons e m ih =>
    obtain ⟨a, x⟩ := e
    simp only [SMap.del]
    split
    · rename_i h1
      subst h1
      rw [SMap.put_of_lt v (SMap.sorted_head h)]
      simp [SMap.put]
    · rename_i h1
      simp only [SMap.put, h1, if_false, ih (SMap.sorted_tail h)]
      split
      · rename_i h2
        have h3 : ∀ y ∈ m, k < y.1 := fun y hy => Nat.lt_trans h2 (SMap.sorted_head h y hy)
        rw [SMap.del_of_lt h3]
      · rfl

theorem SMap.del_del {β : Type} {m : SMap β} (k : Nat) (h : SMap.sorted m = true) : SMap.del (SMap.del m k) k = SMap.del m k := by
  induction m with
  | nil => rfl
  | cons e m ih =>
    obtain ⟨a, x⟩ := e
    simp only [SMap.del]
    split
    · rename_i h1
      subst h1
      exact SMap.del_of_lt (SMap.sorted_head h)
    · rename_i h1
      simp only [SMap.del, h1, if_false, ih (SMap.sorted_tail h)]

/-- The last of two writes of one key stands. -/
theorem SMap.set_set {β : Type} [DecidableEq β] {m : SMap β} (d : β) (k : Nat) (v w : β) (h : SMap.sorted m = true) :
    SMap.set (SMap.set m d k v) d k w = SMap.set m d k w := by
  simp only [SMap.set]
  split <;> split
  · exact SMap.del_del k h
  · exact SMap.del_put k v h
  · exact SMap.put_del k w h
  · exact SMap.put_put m k v w

end Sys2Proof.Machine
end

