-- ==== Sys2Proof/Laws/State.lean ====
section
/-! SUPPORT. What each small update of the state leaves alone: one lemma per field and update. -/

namespace Sys2Proof.Machine

-- emit
@[simp] theorem State.emit_part (s : State) (o : Output) : (s.emit o).part = s.part := rfl
@[simp] theorem State.emit_now (s : State) (o : Output) : (s.emit o).now = s.now := rfl
@[simp] theorem State.emit_pending (s : State) (o : Output) : (s.emit o).pending = s.pending := rfl
@[simp] theorem State.emit_fresh (s : State) (o : Output) : (s.emit o).fresh = s.fresh := rfl
@[simp] theorem State.emit_regs (s : State) (o : Output) : (s.emit o).regs = s.regs := rfl
@[simp] theorem State.emit_ctrs (s : State) (o : Output) : (s.emit o).ctrs = s.ctrs := rfl
@[simp] theorem State.emit_md (s : State) (o : Output) : (s.emit o).md = s.md := rfl
@[simp] theorem State.emit_doms (s : State) (o : Output) : (s.emit o).doms = s.doms := rfl
@[simp] theorem State.emit_evs (s : State) (o : Output) : (s.emit o).evs = s.evs := rfl
@[simp] theorem State.emit_evDone (s : State) (o : Output) : (s.emit o).evDone = s.evDone := rfl
@[simp] theorem State.emit_tio (s : State) (o : Output) : (s.emit o).tio = s.tio := rfl
@[simp] theorem State.emit_odoms (s : State) (o : Output) : (s.emit o).odoms = s.odoms := rfl
@[simp] theorem State.emit_car (s : State) (o : Output) : (s.emit o).car = s.car := rfl
@[simp] theorem State.emit_lls (s : State) (o : Output) : (s.emit o).lls = s.lls := rfl
@[simp] theorem State.emit_strands (s : State) (o : Output) : (s.emit o).strands = s.strands := rfl
@[simp] theorem State.emit_yrn (s : State) (o : Output) : (s.emit o).yrn = s.yrn := rfl
@[simp] theorem State.emit_flwA (s : State) (o : Output) : (s.emit o).flwA = s.flwA := rfl
@[simp] theorem State.emit_flwB (s : State) (o : Output) : (s.emit o).flwB = s.flwB := rfl
@[simp] theorem State.emit_skn (s : State) (o : Output) : (s.emit o).skn = s.skn := rfl
@[simp] theorem State.emit_mem (s : State) (o : Output) : (s.emit o).mem = s.mem := rfl
@[simp] theorem State.emit_flt (s : State) (o : Output) : (s.emit o).flt = s.flt := rfl
@[simp] theorem State.emit_drm (s : State) (o : Output) : (s.emit o).drm = s.drm := rfl
@[simp] theorem State.emit_rcd (s : State) (o : Output) : (s.emit o).rcd = s.rcd := rfl
@[simp] theorem State.emit_chr (s : State) (o : Output) : (s.emit o).chr = s.chr := rfl
@[simp] theorem State.emit_tbl (s : State) (o : Output) : (s.emit o).tbl = s.tbl := rfl
@[simp] theorem State.emit_sec (s : State) (o : Output) : (s.emit o).sec = s.sec := rfl
@[simp] theorem State.emit_sv (s : State) (o : Output) : (s.emit o).sv = s.sv := rfl
@[simp] theorem State.emit_swa (s : State) (o : Output) : (s.emit o).swa = s.swa := rfl
@[simp] theorem State.emit_flash (s : State) (o : Output) : (s.emit o).flash = s.flash := rfl
@[simp] theorem State.emit_swt (s : State) (o : Output) : (s.emit o).swt = s.swt := rfl
@[simp] theorem State.emit_hst (s : State) (o : Output) : (s.emit o).hst = s.hst := rfl

-- setRd
@[simp] theorem State.setRd_part (s : State) (d : RegDesc) (p i j : Nat) (v : Word) : (s.setRd d p i j v).part = s.part := rfl
@[simp] theorem State.setRd_now (s : State) (d : RegDesc) (p i j : Nat) (v : Word) : (s.setRd d p i j v).now = s.now := rfl
@[simp] theorem State.setRd_pending (s : State) (d : RegDesc) (p i j : Nat) (v : Word) : (s.setRd d p i j v).pending = s.pending := rfl
@[simp] theorem State.setRd_fresh (s : State) (d : RegDesc) (p i j : Nat) (v : Word) : (s.setRd d p i j v).fresh = s.fresh := rfl
@[simp] theorem State.setRd_out (s : State) (d : RegDesc) (p i j : Nat) (v : Word) : (s.setRd d p i j v).out = s.out := rfl
@[simp] theorem State.setRd_ctrs (s : State) (d : RegDesc) (p i j : Nat) (v : Word) : (s.setRd d p i j v).ctrs = s.ctrs := rfl
@[simp] theorem State.setRd_md (s : State) (d : RegDesc) (p i j : Nat) (v : Word) : (s.setRd d p i j v).md = s.md := rfl
@[simp] theorem State.setRd_doms (s : State) (d : RegDesc) (p i j : Nat) (v : Word) : (s.setRd d p i j v).doms = s.doms := rfl
@[simp] theorem State.setRd_evs (s : State) (d : RegDesc) (p i j : Nat) (v : Word) : (s.setRd d p i j v).evs = s.evs := rfl
@[simp] theorem State.setRd_evDone (s : State) (d : RegDesc) (p i j : Nat) (v : Word) : (s.setRd d p i j v).evDone = s.evDone := rfl
@[simp] theorem State.setRd_tio (s : State) (d : RegDesc) (p i j : Nat) (v : Word) : (s.setRd d p i j v).tio = s.tio := rfl
@[simp] theorem State.setRd_odoms (s : State) (d : RegDesc) (p i j : Nat) (v : Word) : (s.setRd d p i j v).odoms = s.odoms := rfl
@[simp] theorem State.setRd_car (s : State) (d : RegDesc) (p i j : Nat) (v : Word) : (s.setRd d p i j v).car = s.car := rfl
@[simp] theorem State.setRd_lls (s : State) (d : RegDesc) (p i j : Nat) (v : Word) : (s.setRd d p i j v).lls = s.lls := rfl
@[simp] theorem State.setRd_strands (s : State) (d : RegDesc) (p i j : Nat) (v : Word) : (s.setRd d p i j v).strands = s.strands := rfl
@[simp] theorem State.setRd_yrn (s : State) (d : RegDesc) (p i j : Nat) (v : Word) : (s.setRd d p i j v).yrn = s.yrn := rfl
@[simp] theorem State.setRd_flwA (s : State) (d : RegDesc) (p i j : Nat) (v : Word) : (s.setRd d p i j v).flwA = s.flwA := rfl
@[simp] theorem State.setRd_flwB (s : State) (d : RegDesc) (p i j : Nat) (v : Word) : (s.setRd d p i j v).flwB = s.flwB := rfl
@[simp] theorem State.setRd_skn (s : State) (d : RegDesc) (p i j : Nat) (v : Word) : (s.setRd d p i j v).skn = s.skn := rfl
@[simp] theorem State.setRd_mem (s : State) (d : RegDesc) (p i j : Nat) (v : Word) : (s.setRd d p i j v).mem = s.mem := rfl
@[simp] theorem State.setRd_flt (s : State) (d : RegDesc) (p i j : Nat) (v : Word) : (s.setRd d p i j v).flt = s.flt := rfl
@[simp] theorem State.setRd_drm (s : State) (d : RegDesc) (p i j : Nat) (v : Word) : (s.setRd d p i j v).drm = s.drm := rfl
@[simp] theorem State.setRd_rcd (s : State) (d : RegDesc) (p i j : Nat) (v : Word) : (s.setRd d p i j v).rcd = s.rcd := rfl
@[simp] theorem State.setRd_chr (s : State) (d : RegDesc) (p i j : Nat) (v : Word) : (s.setRd d p i j v).chr = s.chr := rfl
@[simp] theorem State.setRd_tbl (s : State) (d : RegDesc) (p i j : Nat) (v : Word) : (s.setRd d p i j v).tbl = s.tbl := rfl
@[simp] theorem State.setRd_sec (s : State) (d : RegDesc) (p i j : Nat) (v : Word) : (s.setRd d p i j v).sec = s.sec := rfl
@[simp] theorem State.setRd_sv (s : State) (d : RegDesc) (p i j : Nat) (v : Word) : (s.setRd d p i j v).sv = s.sv := rfl
@[simp] theorem State.setRd_swa (s : State) (d : RegDesc) (p i j : Nat) (v : Word) : (s.setRd d p i j v).swa = s.swa := rfl
@[simp] theorem State.setRd_flash (s : State) (d : RegDesc) (p i j : Nat) (v : Word) : (s.setRd d p i j v).flash = s.flash := rfl
@[simp] theorem State.setRd_swt (s : State) (d : RegDesc) (p i j : Nat) (v : Word) : (s.setRd d p i j v).swt = s.swt := rfl
@[simp] theorem State.setRd_hst (s : State) (d : RegDesc) (p i j : Nat) (v : Word) : (s.setRd d p i j v).hst = s.hst := rfl

-- count
@[simp] theorem State.count_part (s : State) (a i n : Nat) : (s.count a i n).part = s.part := rfl
@[simp] theorem State.count_now (s : State) (a i n : Nat) : (s.count a i n).now = s.now := rfl
@[simp] theorem State.count_pending (s : State) (a i n : Nat) : (s.count a i n).pending = s.pending := rfl
@[simp] theorem State.count_fresh (s : State) (a i n : Nat) : (s.count a i n).fresh = s.fresh := rfl
@[simp] theorem State.count_out (s : State) (a i n : Nat) : (s.count a i n).out = s.out := rfl
@[simp] theorem State.count_regs (s : State) (a i n : Nat) : (s.count a i n).regs = s.regs := rfl
@[simp] theorem State.count_md (s : State) (a i n : Nat) : (s.count a i n).md = s.md := rfl
@[simp] theorem State.count_doms (s : State) (a i n : Nat) : (s.count a i n).doms = s.doms := rfl
@[simp] theorem State.count_evs (s : State) (a i n : Nat) : (s.count a i n).evs = s.evs := rfl
@[simp] theorem State.count_evDone (s : State) (a i n : Nat) : (s.count a i n).evDone = s.evDone := rfl
@[simp] theorem State.count_tio (s : State) (a i n : Nat) : (s.count a i n).tio = s.tio := rfl
@[simp] theorem State.count_odoms (s : State) (a i n : Nat) : (s.count a i n).odoms = s.odoms := rfl
@[simp] theorem State.count_car (s : State) (a i n : Nat) : (s.count a i n).car = s.car := rfl
@[simp] theorem State.count_lls (s : State) (a i n : Nat) : (s.count a i n).lls = s.lls := rfl
@[simp] theorem State.count_strands (s : State) (a i n : Nat) : (s.count a i n).strands = s.strands := rfl
@[simp] theorem State.count_yrn (s : State) (a i n : Nat) : (s.count a i n).yrn = s.yrn := rfl
@[simp] theorem State.count_flwA (s : State) (a i n : Nat) : (s.count a i n).flwA = s.flwA := rfl
@[simp] theorem State.count_flwB (s : State) (a i n : Nat) : (s.count a i n).flwB = s.flwB := rfl
@[simp] theorem State.count_skn (s : State) (a i n : Nat) : (s.count a i n).skn = s.skn := rfl
@[simp] theorem State.count_mem (s : State) (a i n : Nat) : (s.count a i n).mem = s.mem := rfl
@[simp] theorem State.count_flt (s : State) (a i n : Nat) : (s.count a i n).flt = s.flt := rfl
@[simp] theorem State.count_drm (s : State) (a i n : Nat) : (s.count a i n).drm = s.drm := rfl
@[simp] theorem State.count_rcd (s : State) (a i n : Nat) : (s.count a i n).rcd = s.rcd := rfl
@[simp] theorem State.count_chr (s : State) (a i n : Nat) : (s.count a i n).chr = s.chr := rfl
@[simp] theorem State.count_tbl (s : State) (a i n : Nat) : (s.count a i n).tbl = s.tbl := rfl
@[simp] theorem State.count_sec (s : State) (a i n : Nat) : (s.count a i n).sec = s.sec := rfl
@[simp] theorem State.count_sv (s : State) (a i n : Nat) : (s.count a i n).sv = s.sv := rfl
@[simp] theorem State.count_swa (s : State) (a i n : Nat) : (s.count a i n).swa = s.swa := rfl
@[simp] theorem State.count_flash (s : State) (a i n : Nat) : (s.count a i n).flash = s.flash := rfl
@[simp] theorem State.count_swt (s : State) (a i n : Nat) : (s.count a i n).swt = s.swt := rfl
@[simp] theorem State.count_hst (s : State) (a i n : Nat) : (s.count a i n).hst = s.hst := rfl

-- countN
@[simp] theorem State.countN_part (s : State) (a i n k : Nat) : (s.countN a i n k).part = s.part := rfl
@[simp] theorem State.countN_now (s : State) (a i n k : Nat) : (s.countN a i n k).now = s.now := rfl
@[simp] theorem State.countN_pending (s : State) (a i n k : Nat) : (s.countN a i n k).pending = s.pending := rfl
@[simp] theorem State.countN_fresh (s : State) (a i n k : Nat) : (s.countN a i n k).fresh = s.fresh := rfl
@[simp] theorem State.countN_out (s : State) (a i n k : Nat) : (s.countN a i n k).out = s.out := rfl
@[simp] theorem State.countN_regs (s : State) (a i n k : Nat) : (s.countN a i n k).regs = s.regs := rfl
@[simp] theorem State.countN_md (s : State) (a i n k : Nat) : (s.countN a i n k).md = s.md := rfl
@[simp] theorem State.countN_doms (s : State) (a i n k : Nat) : (s.countN a i n k).doms = s.doms := rfl
@[simp] theorem State.countN_evs (s : State) (a i n k : Nat) : (s.countN a i n k).evs = s.evs := rfl
@[simp] theorem State.countN_evDone (s : State) (a i n k : Nat) : (s.countN a i n k).evDone = s.evDone := rfl
@[simp] theorem State.countN_tio (s : State) (a i n k : Nat) : (s.countN a i n k).tio = s.tio := rfl
@[simp] theorem State.countN_odoms (s : State) (a i n k : Nat) : (s.countN a i n k).odoms = s.odoms := rfl
@[simp] theorem State.countN_car (s : State) (a i n k : Nat) : (s.countN a i n k).car = s.car := rfl
@[simp] theorem State.countN_lls (s : State) (a i n k : Nat) : (s.countN a i n k).lls = s.lls := rfl
@[simp] theorem State.countN_strands (s : State) (a i n k : Nat) : (s.countN a i n k).strands = s.strands := rfl
@[simp] theorem State.countN_yrn (s : State) (a i n k : Nat) : (s.countN a i n k).yrn = s.yrn := rfl
@[simp] theorem State.countN_flwA (s : State) (a i n k : Nat) : (s.countN a i n k).flwA = s.flwA := rfl
@[simp] theorem State.countN_flwB (s : State) (a i n k : Nat) : (s.countN a i n k).flwB = s.flwB := rfl
@[simp] theorem State.countN_skn (s : State) (a i n k : Nat) : (s.countN a i n k).skn = s.skn := rfl
@[simp] theorem State.countN_mem (s : State) (a i n k : Nat) : (s.countN a i n k).mem = s.mem := rfl
@[simp] theorem State.countN_flt (s : State) (a i n k : Nat) : (s.countN a i n k).flt = s.flt := rfl
@[simp] theorem State.countN_drm (s : State) (a i n k : Nat) : (s.countN a i n k).drm = s.drm := rfl
@[simp] theorem State.countN_rcd (s : State) (a i n k : Nat) : (s.countN a i n k).rcd = s.rcd := rfl
@[simp] theorem State.countN_chr (s : State) (a i n k : Nat) : (s.countN a i n k).chr = s.chr := rfl
@[simp] theorem State.countN_tbl (s : State) (a i n k : Nat) : (s.countN a i n k).tbl = s.tbl := rfl
@[simp] theorem State.countN_sec (s : State) (a i n k : Nat) : (s.countN a i n k).sec = s.sec := rfl
@[simp] theorem State.countN_sv (s : State) (a i n k : Nat) : (s.countN a i n k).sv = s.sv := rfl
@[simp] theorem State.countN_swa (s : State) (a i n k : Nat) : (s.countN a i n k).swa = s.swa := rfl
@[simp] theorem State.countN_flash (s : State) (a i n k : Nat) : (s.countN a i n k).flash = s.flash := rfl
@[simp] theorem State.countN_swt (s : State) (a i n k : Nat) : (s.countN a i n k).swt = s.swt := rfl
@[simp] theorem State.countN_hst (s : State) (a i n k : Nat) : (s.countN a i n k).hst = s.hst := rfl

-- countP
@[simp] theorem State.countP_part (s : State) (p n : Nat) : (s.countP p n).part = s.part := rfl
@[simp] theorem State.countP_now (s : State) (p n : Nat) : (s.countP p n).now = s.now := rfl
@[simp] theorem State.countP_pending (s : State) (p n : Nat) : (s.countP p n).pending = s.pending := rfl
@[simp] theorem State.countP_fresh (s : State) (p n : Nat) : (s.countP p n).fresh = s.fresh := rfl
@[simp] theorem State.countP_out (s : State) (p n : Nat) : (s.countP p n).out = s.out := rfl
@[simp] theorem State.countP_regs (s : State) (p n : Nat) : (s.countP p n).regs = s.regs := rfl
@[simp] theorem State.countP_md (s : State) (p n : Nat) : (s.countP p n).md = s.md := rfl
@[simp] theorem State.countP_doms (s : State) (p n : Nat) : (s.countP p n).doms = s.doms := rfl
@[simp] theorem State.countP_evs (s : State) (p n : Nat) : (s.countP p n).evs = s.evs := rfl
@[simp] theorem State.countP_evDone (s : State) (p n : Nat) : (s.countP p n).evDone = s.evDone := rfl
@[simp] theorem State.countP_tio (s : State) (p n : Nat) : (s.countP p n).tio = s.tio := rfl
@[simp] theorem State.countP_odoms (s : State) (p n : Nat) : (s.countP p n).odoms = s.odoms := rfl
@[simp] theorem State.countP_car (s : State) (p n : Nat) : (s.countP p n).car = s.car := rfl
@[simp] theorem State.countP_lls (s : State) (p n : Nat) : (s.countP p n).lls = s.lls := rfl
@[simp] theorem State.countP_strands (s : State) (p n : Nat) : (s.countP p n).strands = s.strands := rfl
@[simp] theorem State.countP_yrn (s : State) (p n : Nat) : (s.countP p n).yrn = s.yrn := rfl
@[simp] theorem State.countP_flwA (s : State) (p n : Nat) : (s.countP p n).flwA = s.flwA := rfl
@[simp] theorem State.countP_flwB (s : State) (p n : Nat) : (s.countP p n).flwB = s.flwB := rfl
@[simp] theorem State.countP_skn (s : State) (p n : Nat) : (s.countP p n).skn = s.skn := rfl
@[simp] theorem State.countP_mem (s : State) (p n : Nat) : (s.countP p n).mem = s.mem := rfl
@[simp] theorem State.countP_flt (s : State) (p n : Nat) : (s.countP p n).flt = s.flt := rfl
@[simp] theorem State.countP_drm (s : State) (p n : Nat) : (s.countP p n).drm = s.drm := rfl
@[simp] theorem State.countP_rcd (s : State) (p n : Nat) : (s.countP p n).rcd = s.rcd := rfl
@[simp] theorem State.countP_chr (s : State) (p n : Nat) : (s.countP p n).chr = s.chr := rfl
@[simp] theorem State.countP_tbl (s : State) (p n : Nat) : (s.countP p n).tbl = s.tbl := rfl
@[simp] theorem State.countP_sec (s : State) (p n : Nat) : (s.countP p n).sec = s.sec := rfl
@[simp] theorem State.countP_sv (s : State) (p n : Nat) : (s.countP p n).sv = s.sv := rfl
@[simp] theorem State.countP_swa (s : State) (p n : Nat) : (s.countP p n).swa = s.swa := rfl
@[simp] theorem State.countP_flash (s : State) (p n : Nat) : (s.countP p n).flash = s.flash := rfl
@[simp] theorem State.countP_swt (s : State) (p n : Nat) : (s.countP p n).swt = s.swt := rfl
@[simp] theorem State.countP_hst (s : State) (p n : Nat) : (s.countP p n).hst = s.hst := rfl

-- countPort
@[simp] theorem State.countPort_part (s : State) (p n : Nat) : (s.countPort p n).part = s.part := rfl
@[simp] theorem State.countPort_now (s : State) (p n : Nat) : (s.countPort p n).now = s.now := rfl
@[simp] theorem State.countPort_pending (s : State) (p n : Nat) : (s.countPort p n).pending = s.pending := rfl
@[simp] theorem State.countPort_fresh (s : State) (p n : Nat) : (s.countPort p n).fresh = s.fresh := rfl
@[simp] theorem State.countPort_out (s : State) (p n : Nat) : (s.countPort p n).out = s.out := rfl
@[simp] theorem State.countPort_regs (s : State) (p n : Nat) : (s.countPort p n).regs = s.regs := rfl
@[simp] theorem State.countPort_md (s : State) (p n : Nat) : (s.countPort p n).md = s.md := rfl
@[simp] theorem State.countPort_doms (s : State) (p n : Nat) : (s.countPort p n).doms = s.doms := rfl
@[simp] theorem State.countPort_evs (s : State) (p n : Nat) : (s.countPort p n).evs = s.evs := rfl
@[simp] theorem State.countPort_evDone (s : State) (p n : Nat) : (s.countPort p n).evDone = s.evDone := rfl
@[simp] theorem State.countPort_tio (s : State) (p n : Nat) : (s.countPort p n).tio = s.tio := rfl
@[simp] theorem State.countPort_odoms (s : State) (p n : Nat) : (s.countPort p n).odoms = s.odoms := rfl
@[simp] theorem State.countPort_car (s : State) (p n : Nat) : (s.countPort p n).car = s.car := rfl
@[simp] theorem State.countPort_lls (s : State) (p n : Nat) : (s.countPort p n).lls = s.lls := rfl
@[simp] theorem State.countPort_strands (s : State) (p n : Nat) : (s.countPort p n).strands = s.strands := rfl
@[simp] theorem State.countPort_yrn (s : State) (p n : Nat) : (s.countPort p n).yrn = s.yrn := rfl
@[simp] theorem State.countPort_flwA (s : State) (p n : Nat) : (s.countPort p n).flwA = s.flwA := rfl
@[simp] theorem State.countPort_flwB (s : State) (p n : Nat) : (s.countPort p n).flwB = s.flwB := rfl
@[simp] theorem State.countPort_skn (s : State) (p n : Nat) : (s.countPort p n).skn = s.skn := rfl
@[simp] theorem State.countPort_mem (s : State) (p n : Nat) : (s.countPort p n).mem = s.mem := rfl
@[simp] theorem State.countPort_flt (s : State) (p n : Nat) : (s.countPort p n).flt = s.flt := rfl
@[simp] theorem State.countPort_drm (s : State) (p n : Nat) : (s.countPort p n).drm = s.drm := rfl
@[simp] theorem State.countPort_rcd (s : State) (p n : Nat) : (s.countPort p n).rcd = s.rcd := rfl
@[simp] theorem State.countPort_chr (s : State) (p n : Nat) : (s.countPort p n).chr = s.chr := rfl
@[simp] theorem State.countPort_tbl (s : State) (p n : Nat) : (s.countPort p n).tbl = s.tbl := rfl
@[simp] theorem State.countPort_sec (s : State) (p n : Nat) : (s.countPort p n).sec = s.sec := rfl
@[simp] theorem State.countPort_sv (s : State) (p n : Nat) : (s.countPort p n).sv = s.sv := rfl
@[simp] theorem State.countPort_swa (s : State) (p n : Nat) : (s.countPort p n).swa = s.swa := rfl
@[simp] theorem State.countPort_flash (s : State) (p n : Nat) : (s.countPort p n).flash = s.flash := rfl
@[simp] theorem State.countPort_swt (s : State) (p n : Nat) : (s.countPort p n).swt = s.swt := rfl
@[simp] theorem State.countPort_hst (s : State) (p n : Nat) : (s.countPort p n).hst = s.hst := rfl

-- setPan
@[simp] theorem State.setPan_part (s : State) (p : Nat) (x : PanelState) : (s.setPan p x).part = s.part := by unfold State.setPan; split <;> rfl
@[simp] theorem State.setPan_now (s : State) (p : Nat) (x : PanelState) : (s.setPan p x).now = s.now := by unfold State.setPan; split <;> rfl
@[simp] theorem State.setPan_pending (s : State) (p : Nat) (x : PanelState) : (s.setPan p x).pending = s.pending := by unfold State.setPan; split <;> rfl
@[simp] theorem State.setPan_fresh (s : State) (p : Nat) (x : PanelState) : (s.setPan p x).fresh = s.fresh := by unfold State.setPan; split <;> rfl
@[simp] theorem State.setPan_out (s : State) (p : Nat) (x : PanelState) : (s.setPan p x).out = s.out := by unfold State.setPan; split <;> rfl
@[simp] theorem State.setPan_regs (s : State) (p : Nat) (x : PanelState) : (s.setPan p x).regs = s.regs := by unfold State.setPan; split <;> rfl
@[simp] theorem State.setPan_ctrs (s : State) (p : Nat) (x : PanelState) : (s.setPan p x).ctrs = s.ctrs := by unfold State.setPan; split <;> rfl
@[simp] theorem State.setPan_doms (s : State) (p : Nat) (x : PanelState) : (s.setPan p x).doms = s.doms := by unfold State.setPan; split <;> rfl
@[simp] theorem State.setPan_evs (s : State) (p : Nat) (x : PanelState) : (s.setPan p x).evs = s.evs := by unfold State.setPan; split <;> rfl
@[simp] theorem State.setPan_evDone (s : State) (p : Nat) (x : PanelState) : (s.setPan p x).evDone = s.evDone := by unfold State.setPan; split <;> rfl
@[simp] theorem State.setPan_tio (s : State) (p : Nat) (x : PanelState) : (s.setPan p x).tio = s.tio := by unfold State.setPan; split <;> rfl
@[simp] theorem State.setPan_odoms (s : State) (p : Nat) (x : PanelState) : (s.setPan p x).odoms = s.odoms := by unfold State.setPan; split <;> rfl
@[simp] theorem State.setPan_car (s : State) (p : Nat) (x : PanelState) : (s.setPan p x).car = s.car := by unfold State.setPan; split <;> rfl
@[simp] theorem State.setPan_lls (s : State) (p : Nat) (x : PanelState) : (s.setPan p x).lls = s.lls := by unfold State.setPan; split <;> rfl
@[simp] theorem State.setPan_strands (s : State) (p : Nat) (x : PanelState) : (s.setPan p x).strands = s.strands := by unfold State.setPan; split <;> rfl
@[simp] theorem State.setPan_yrn (s : State) (p : Nat) (x : PanelState) : (s.setPan p x).yrn = s.yrn := by unfold State.setPan; split <;> rfl
@[simp] theorem State.setPan_flwA (s : State) (p : Nat) (x : PanelState) : (s.setPan p x).flwA = s.flwA := by unfold State.setPan; split <;> rfl
@[simp] theorem State.setPan_flwB (s : State) (p : Nat) (x : PanelState) : (s.setPan p x).flwB = s.flwB := by unfold State.setPan; split <;> rfl
@[simp] theorem State.setPan_skn (s : State) (p : Nat) (x : PanelState) : (s.setPan p x).skn = s.skn := by unfold State.setPan; split <;> rfl
@[simp] theorem State.setPan_mem (s : State) (p : Nat) (x : PanelState) : (s.setPan p x).mem = s.mem := by unfold State.setPan; split <;> rfl
@[simp] theorem State.setPan_flt (s : State) (p : Nat) (x : PanelState) : (s.setPan p x).flt = s.flt := by unfold State.setPan; split <;> rfl
@[simp] theorem State.setPan_drm (s : State) (p : Nat) (x : PanelState) : (s.setPan p x).drm = s.drm := by unfold State.setPan; split <;> rfl
@[simp] theorem State.setPan_rcd (s : State) (p : Nat) (x : PanelState) : (s.setPan p x).rcd = s.rcd := by unfold State.setPan; split <;> rfl
@[simp] theorem State.setPan_chr (s : State) (p : Nat) (x : PanelState) : (s.setPan p x).chr = s.chr := by unfold State.setPan; split <;> rfl
@[simp] theorem State.setPan_tbl (s : State) (p : Nat) (x : PanelState) : (s.setPan p x).tbl = s.tbl := by unfold State.setPan; split <;> rfl
@[simp] theorem State.setPan_sec (s : State) (p : Nat) (x : PanelState) : (s.setPan p x).sec = s.sec := by unfold State.setPan; split <;> rfl
@[simp] theorem State.setPan_sv (s : State) (p : Nat) (x : PanelState) : (s.setPan p x).sv = s.sv := by unfold State.setPan; split <;> rfl
@[simp] theorem State.setPan_swa (s : State) (p : Nat) (x : PanelState) : (s.setPan p x).swa = s.swa := by unfold State.setPan; split <;> rfl
@[simp] theorem State.setPan_flash (s : State) (p : Nat) (x : PanelState) : (s.setPan p x).flash = s.flash := by unfold State.setPan; split <;> rfl
@[simp] theorem State.setPan_swt (s : State) (p : Nat) (x : PanelState) : (s.setPan p x).swt = s.swt := by unfold State.setPan; split <;> rfl
@[simp] theorem State.setPan_hst (s : State) (p : Nat) (x : PanelState) : (s.setPan p x).hst = s.hst := by unfold State.setPan; split <;> rfl

-- setFlw
@[simp] theorem State.setFlw_part (s : State) (p : Nat) (x : FlwPanel) : (s.setFlw p x).part = s.part := by unfold State.setFlw; split <;> rfl
@[simp] theorem State.setFlw_now (s : State) (p : Nat) (x : FlwPanel) : (s.setFlw p x).now = s.now := by unfold State.setFlw; split <;> rfl
@[simp] theorem State.setFlw_pending (s : State) (p : Nat) (x : FlwPanel) : (s.setFlw p x).pending = s.pending := by unfold State.setFlw; split <;> rfl
@[simp] theorem State.setFlw_fresh (s : State) (p : Nat) (x : FlwPanel) : (s.setFlw p x).fresh = s.fresh := by unfold State.setFlw; split <;> rfl
@[simp] theorem State.setFlw_out (s : State) (p : Nat) (x : FlwPanel) : (s.setFlw p x).out = s.out := by unfold State.setFlw; split <;> rfl
@[simp] theorem State.setFlw_regs (s : State) (p : Nat) (x : FlwPanel) : (s.setFlw p x).regs = s.regs := by unfold State.setFlw; split <;> rfl
@[simp] theorem State.setFlw_ctrs (s : State) (p : Nat) (x : FlwPanel) : (s.setFlw p x).ctrs = s.ctrs := by unfold State.setFlw; split <;> rfl
@[simp] theorem State.setFlw_md (s : State) (p : Nat) (x : FlwPanel) : (s.setFlw p x).md = s.md := by unfold State.setFlw; split <;> rfl
@[simp] theorem State.setFlw_doms (s : State) (p : Nat) (x : FlwPanel) : (s.setFlw p x).doms = s.doms := by unfold State.setFlw; split <;> rfl
@[simp] theorem State.setFlw_evs (s : State) (p : Nat) (x : FlwPanel) : (s.setFlw p x).evs = s.evs := by unfold State.setFlw; split <;> rfl
@[simp] theorem State.setFlw_evDone (s : State) (p : Nat) (x : FlwPanel) : (s.setFlw p x).evDone = s.evDone := by unfold State.setFlw; split <;> rfl
@[simp] theorem State.setFlw_tio (s : State) (p : Nat) (x : FlwPanel) : (s.setFlw p x).tio = s.tio := by unfold State.setFlw; split <;> rfl
@[simp] theorem State.setFlw_odoms (s : State) (p : Nat) (x : FlwPanel) : (s.setFlw p x).odoms = s.odoms := by unfold State.setFlw; split <;> rfl
@[simp] theorem State.setFlw_car (s : State) (p : Nat) (x : FlwPanel) : (s.setFlw p x).car = s.car := by unfold State.setFlw; split <;> rfl
@[simp] theorem State.setFlw_lls (s : State) (p : Nat) (x : FlwPanel) : (s.setFlw p x).lls = s.lls := by unfold State.setFlw; split <;> rfl
@[simp] theorem State.setFlw_strands (s : State) (p : Nat) (x : FlwPanel) : (s.setFlw p x).strands = s.strands := by unfold State.setFlw; split <;> rfl
@[simp] theorem State.setFlw_yrn (s : State) (p : Nat) (x : FlwPanel) : (s.setFlw p x).yrn = s.yrn := by unfold State.setFlw; split <;> rfl
@[simp] theorem State.setFlw_skn (s : State) (p : Nat) (x : FlwPanel) : (s.setFlw p x).skn = s.skn := by unfold State.setFlw; split <;> rfl
@[simp] theorem State.setFlw_mem (s : State) (p : Nat) (x : FlwPanel) : (s.setFlw p x).mem = s.mem := by unfold State.setFlw; split <;> rfl
@[simp] theorem State.setFlw_flt (s : State) (p : Nat) (x : FlwPanel) : (s.setFlw p x).flt = s.flt := by unfold State.setFlw; split <;> rfl
@[simp] theorem State.setFlw_drm (s : State) (p : Nat) (x : FlwPanel) : (s.setFlw p x).drm = s.drm := by unfold State.setFlw; split <;> rfl
@[simp] theorem State.setFlw_rcd (s : State) (p : Nat) (x : FlwPanel) : (s.setFlw p x).rcd = s.rcd := by unfold State.setFlw; split <;> rfl
@[simp] theorem State.setFlw_chr (s : State) (p : Nat) (x : FlwPanel) : (s.setFlw p x).chr = s.chr := by unfold State.setFlw; split <;> rfl
@[simp] theorem State.setFlw_tbl (s : State) (p : Nat) (x : FlwPanel) : (s.setFlw p x).tbl = s.tbl := by unfold State.setFlw; split <;> rfl
@[simp] theorem State.setFlw_sec (s : State) (p : Nat) (x : FlwPanel) : (s.setFlw p x).sec = s.sec := by unfold State.setFlw; split <;> rfl
@[simp] theorem State.setFlw_sv (s : State) (p : Nat) (x : FlwPanel) : (s.setFlw p x).sv = s.sv := by unfold State.setFlw; split <;> rfl
@[simp] theorem State.setFlw_swa (s : State) (p : Nat) (x : FlwPanel) : (s.setFlw p x).swa = s.swa := by unfold State.setFlw; split <;> rfl
@[simp] theorem State.setFlw_flash (s : State) (p : Nat) (x : FlwPanel) : (s.setFlw p x).flash = s.flash := by unfold State.setFlw; split <;> rfl
@[simp] theorem State.setFlw_swt (s : State) (p : Nat) (x : FlwPanel) : (s.setFlw p x).swt = s.swt := by unfold State.setFlw; split <;> rfl
@[simp] theorem State.setFlw_hst (s : State) (p : Nat) (x : FlwPanel) : (s.setFlw p x).hst = s.hst := by unfold State.setFlw; split <;> rfl

-- setStrand
@[simp] theorem State.setStrand_part (s : State) (t : Nat) (x : Strand) : (s.setStrand t x).part = s.part := rfl
@[simp] theorem State.setStrand_now (s : State) (t : Nat) (x : Strand) : (s.setStrand t x).now = s.now := rfl
@[simp] theorem State.setStrand_pending (s : State) (t : Nat) (x : Strand) : (s.setStrand t x).pending = s.pending := rfl
@[simp] theorem State.setStrand_fresh (s : State) (t : Nat) (x : Strand) : (s.setStrand t x).fresh = s.fresh := rfl
@[simp] theorem State.setStrand_out (s : State) (t : Nat) (x : Strand) : (s.setStrand t x).out = s.out := rfl
@[simp] theorem State.setStrand_regs (s : State) (t : Nat) (x : Strand) : (s.setStrand t x).regs = s.regs := rfl
@[simp] theorem State.setStrand_ctrs (s : State) (t : Nat) (x : Strand) : (s.setStrand t x).ctrs = s.ctrs := rfl
@[simp] theorem State.setStrand_md (s : State) (t : Nat) (x : Strand) : (s.setStrand t x).md = s.md := rfl
@[simp] theorem State.setStrand_doms (s : State) (t : Nat) (x : Strand) : (s.setStrand t x).doms = s.doms := rfl
@[simp] theorem State.setStrand_evs (s : State) (t : Nat) (x : Strand) : (s.setStrand t x).evs = s.evs := rfl
@[simp] theorem State.setStrand_evDone (s : State) (t : Nat) (x : Strand) : (s.setStrand t x).evDone = s.evDone := rfl
@[simp] theorem State.setStrand_tio (s : State) (t : Nat) (x : Strand) : (s.setStrand t x).tio = s.tio := rfl
@[simp] theorem State.setStrand_odoms (s : State) (t : Nat) (x : Strand) : (s.setStrand t x).odoms = s.odoms := rfl
@[simp] theorem State.setStrand_car (s : State) (t : Nat) (x : Strand) : (s.setStrand t x).car = s.car := rfl
@[simp] theorem State.setStrand_lls (s : State) (t : Nat) (x : Strand) : (s.setStrand t x).lls = s.lls := rfl
@[simp] theorem State.setStrand_yrn (s : State) (t : Nat) (x : Strand) : (s.setStrand t x).yrn = s.yrn := rfl
@[simp] theorem State.setStrand_flwA (s : State) (t : Nat) (x : Strand) : (s.setStrand t x).flwA = s.flwA := rfl
@[simp] theorem State.setStrand_flwB (s : State) (t : Nat) (x : Strand) : (s.setStrand t x).flwB = s.flwB := rfl
@[simp] theorem State.setStrand_skn (s : State) (t : Nat) (x : Strand) : (s.setStrand t x).skn = s.skn := rfl
@[simp] theorem State.setStrand_mem (s : State) (t : Nat) (x : Strand) : (s.setStrand t x).mem = s.mem := rfl
@[simp] theorem State.setStrand_flt (s : State) (t : Nat) (x : Strand) : (s.setStrand t x).flt = s.flt := rfl
@[simp] theorem State.setStrand_drm (s : State) (t : Nat) (x : Strand) : (s.setStrand t x).drm = s.drm := rfl
@[simp] theorem State.setStrand_rcd (s : State) (t : Nat) (x : Strand) : (s.setStrand t x).rcd = s.rcd := rfl
@[simp] theorem State.setStrand_chr (s : State) (t : Nat) (x : Strand) : (s.setStrand t x).chr = s.chr := rfl
@[simp] theorem State.setStrand_tbl (s : State) (t : Nat) (x : Strand) : (s.setStrand t x).tbl = s.tbl := rfl
@[simp] theorem State.setStrand_sec (s : State) (t : Nat) (x : Strand) : (s.setStrand t x).sec = s.sec := rfl
@[simp] theorem State.setStrand_sv (s : State) (t : Nat) (x : Strand) : (s.setStrand t x).sv = s.sv := rfl
@[simp] theorem State.setStrand_swa (s : State) (t : Nat) (x : Strand) : (s.setStrand t x).swa = s.swa := rfl
@[simp] theorem State.setStrand_flash (s : State) (t : Nat) (x : Strand) : (s.setStrand t x).flash = s.flash := rfl
@[simp] theorem State.setStrand_swt (s : State) (t : Nat) (x : Strand) : (s.setStrand t x).swt = s.swt := rfl
@[simp] theorem State.setStrand_hst (s : State) (t : Nat) (x : Strand) : (s.setStrand t x).hst = s.hst := rfl

-- setBank
@[simp] theorem State.setBank_part (s : State) (t : Nat) (y : Bank) : (s.setBank t y).part = s.part := rfl
@[simp] theorem State.setBank_now (s : State) (t : Nat) (y : Bank) : (s.setBank t y).now = s.now := rfl
@[simp] theorem State.setBank_pending (s : State) (t : Nat) (y : Bank) : (s.setBank t y).pending = s.pending := rfl
@[simp] theorem State.setBank_fresh (s : State) (t : Nat) (y : Bank) : (s.setBank t y).fresh = s.fresh := rfl
@[simp] theorem State.setBank_out (s : State) (t : Nat) (y : Bank) : (s.setBank t y).out = s.out := rfl
@[simp] theorem State.setBank_regs (s : State) (t : Nat) (y : Bank) : (s.setBank t y).regs = s.regs := rfl
@[simp] theorem State.setBank_ctrs (s : State) (t : Nat) (y : Bank) : (s.setBank t y).ctrs = s.ctrs := rfl
@[simp] theorem State.setBank_md (s : State) (t : Nat) (y : Bank) : (s.setBank t y).md = s.md := rfl
@[simp] theorem State.setBank_doms (s : State) (t : Nat) (y : Bank) : (s.setBank t y).doms = s.doms := rfl
@[simp] theorem State.setBank_evs (s : State) (t : Nat) (y : Bank) : (s.setBank t y).evs = s.evs := rfl
@[simp] theorem State.setBank_evDone (s : State) (t : Nat) (y : Bank) : (s.setBank t y).evDone = s.evDone := rfl
@[simp] theorem State.setBank_tio (s : State) (t : Nat) (y : Bank) : (s.setBank t y).tio = s.tio := rfl
@[simp] theorem State.setBank_odoms (s : State) (t : Nat) (y : Bank) : (s.setBank t y).odoms = s.odoms := rfl
@[simp] theorem State.setBank_car (s : State) (t : Nat) (y : Bank) : (s.setBank t y).car = s.car := rfl
@[simp] theorem State.setBank_lls (s : State) (t : Nat) (y : Bank) : (s.setBank t y).lls = s.lls := rfl
@[simp] theorem State.setBank_yrn (s : State) (t : Nat) (y : Bank) : (s.setBank t y).yrn = s.yrn := rfl
@[simp] theorem State.setBank_flwA (s : State) (t : Nat) (y : Bank) : (s.setBank t y).flwA = s.flwA := rfl
@[simp] theorem State.setBank_flwB (s : State) (t : Nat) (y : Bank) : (s.setBank t y).flwB = s.flwB := rfl
@[simp] theorem State.setBank_skn (s : State) (t : Nat) (y : Bank) : (s.setBank t y).skn = s.skn := rfl
@[simp] theorem State.setBank_mem (s : State) (t : Nat) (y : Bank) : (s.setBank t y).mem = s.mem := rfl
@[simp] theorem State.setBank_flt (s : State) (t : Nat) (y : Bank) : (s.setBank t y).flt = s.flt := rfl
@[simp] theorem State.setBank_drm (s : State) (t : Nat) (y : Bank) : (s.setBank t y).drm = s.drm := rfl
@[simp] theorem State.setBank_rcd (s : State) (t : Nat) (y : Bank) : (s.setBank t y).rcd = s.rcd := rfl
@[simp] theorem State.setBank_chr (s : State) (t : Nat) (y : Bank) : (s.setBank t y).chr = s.chr := rfl
@[simp] theorem State.setBank_tbl (s : State) (t : Nat) (y : Bank) : (s.setBank t y).tbl = s.tbl := rfl
@[simp] theorem State.setBank_sec (s : State) (t : Nat) (y : Bank) : (s.setBank t y).sec = s.sec := rfl
@[simp] theorem State.setBank_sv (s : State) (t : Nat) (y : Bank) : (s.setBank t y).sv = s.sv := rfl
@[simp] theorem State.setBank_swa (s : State) (t : Nat) (y : Bank) : (s.setBank t y).swa = s.swa := rfl
@[simp] theorem State.setBank_flash (s : State) (t : Nat) (y : Bank) : (s.setBank t y).flash = s.flash := rfl
@[simp] theorem State.setBank_swt (s : State) (t : Nat) (y : Bank) : (s.setBank t y).swt = s.swt := rfl
@[simp] theorem State.setBank_hst (s : State) (t : Nat) (y : Bank) : (s.setBank t y).hst = s.hst := rfl

-- setLl
@[simp] theorem State.setLl_part (s : State) (k : Nat) (l : Lifeline) : (s.setLl k l).part = s.part := rfl
@[simp] theorem State.setLl_now (s : State) (k : Nat) (l : Lifeline) : (s.setLl k l).now = s.now := rfl
@[simp] theorem State.setLl_pending (s : State) (k : Nat) (l : Lifeline) : (s.setLl k l).pending = s.pending := rfl
@[simp] theorem State.setLl_fresh (s : State) (k : Nat) (l : Lifeline) : (s.setLl k l).fresh = s.fresh := rfl
@[simp] theorem State.setLl_out (s : State) (k : Nat) (l : Lifeline) : (s.setLl k l).out = s.out := rfl
@[simp] theorem State.setLl_regs (s : State) (k : Nat) (l : Lifeline) : (s.setLl k l).regs = s.regs := rfl
@[simp] theorem State.setLl_ctrs (s : State) (k : Nat) (l : Lifeline) : (s.setLl k l).ctrs = s.ctrs := rfl
@[simp] theorem State.setLl_md (s : State) (k : Nat) (l : Lifeline) : (s.setLl k l).md = s.md := rfl
@[simp] theorem State.setLl_doms (s : State) (k : Nat) (l : Lifeline) : (s.setLl k l).doms = s.doms := rfl
@[simp] theorem State.setLl_evs (s : State) (k : Nat) (l : Lifeline) : (s.setLl k l).evs = s.evs := rfl
@[simp] theorem State.setLl_evDone (s : State) (k : Nat) (l : Lifeline) : (s.setLl k l).evDone = s.evDone := rfl
@[simp] theorem State.setLl_tio (s : State) (k : Nat) (l : Lifeline) : (s.setLl k l).tio = s.tio := rfl
@[simp] theorem State.setLl_odoms (s : State) (k : Nat) (l : Lifeline) : (s.setLl k l).odoms = s.odoms := rfl
@[simp] theorem State.setLl_car (s : State) (k : Nat) (l : Lifeline) : (s.setLl k l).car = s.car := rfl
@[simp] theorem State.setLl_strands (s : State) (k : Nat) (l : Lifeline) : (s.setLl k l).strands = s.strands := rfl
@[simp] theorem State.setLl_yrn (s : State) (k : Nat) (l : Lifeline) : (s.setLl k l).yrn = s.yrn := rfl
@[simp] theorem State.setLl_flwA (s : State) (k : Nat) (l : Lifeline) : (s.setLl k l).flwA = s.flwA := rfl
@[simp] theorem State.setLl_flwB (s : State) (k : Nat) (l : Lifeline) : (s.setLl k l).flwB = s.flwB := rfl
@[simp] theorem State.setLl_skn (s : State) (k : Nat) (l : Lifeline) : (s.setLl k l).skn = s.skn := rfl
@[simp] theorem State.setLl_mem (s : State) (k : Nat) (l : Lifeline) : (s.setLl k l).mem = s.mem := rfl
@[simp] theorem State.setLl_flt (s : State) (k : Nat) (l : Lifeline) : (s.setLl k l).flt = s.flt := rfl
@[simp] theorem State.setLl_drm (s : State) (k : Nat) (l : Lifeline) : (s.setLl k l).drm = s.drm := rfl
@[simp] theorem State.setLl_rcd (s : State) (k : Nat) (l : Lifeline) : (s.setLl k l).rcd = s.rcd := rfl
@[simp] theorem State.setLl_chr (s : State) (k : Nat) (l : Lifeline) : (s.setLl k l).chr = s.chr := rfl
@[simp] theorem State.setLl_tbl (s : State) (k : Nat) (l : Lifeline) : (s.setLl k l).tbl = s.tbl := rfl
@[simp] theorem State.setLl_sec (s : State) (k : Nat) (l : Lifeline) : (s.setLl k l).sec = s.sec := rfl
@[simp] theorem State.setLl_sv (s : State) (k : Nat) (l : Lifeline) : (s.setLl k l).sv = s.sv := rfl
@[simp] theorem State.setLl_swa (s : State) (k : Nat) (l : Lifeline) : (s.setLl k l).swa = s.swa := rfl
@[simp] theorem State.setLl_flash (s : State) (k : Nat) (l : Lifeline) : (s.setLl k l).flash = s.flash := rfl
@[simp] theorem State.setLl_swt (s : State) (k : Nat) (l : Lifeline) : (s.setLl k l).swt = s.swt := rfl
@[simp] theorem State.setLl_hst (s : State) (k : Nat) (l : Lifeline) : (s.setLl k l).hst = s.hst := rfl

-- freeN
@[simp] theorem State.freeN_part (s : State) : (s.freeN.2).part = s.part := rfl
@[simp] theorem State.freeN_now (s : State) : (s.freeN.2).now = s.now := rfl
@[simp] theorem State.freeN_pending (s : State) : (s.freeN.2).pending = s.pending := rfl
@[simp] theorem State.freeN_out (s : State) : (s.freeN.2).out = s.out := rfl
@[simp] theorem State.freeN_regs (s : State) : (s.freeN.2).regs = s.regs := rfl
@[simp] theorem State.freeN_ctrs (s : State) : (s.freeN.2).ctrs = s.ctrs := rfl
@[simp] theorem State.freeN_md (s : State) : (s.freeN.2).md = s.md := rfl
@[simp] theorem State.freeN_doms (s : State) : (s.freeN.2).doms = s.doms := rfl
@[simp] theorem State.freeN_evs (s : State) : (s.freeN.2).evs = s.evs := rfl
@[simp] theorem State.freeN_evDone (s : State) : (s.freeN.2).evDone = s.evDone := rfl
@[simp] theorem State.freeN_tio (s : State) : (s.freeN.2).tio = s.tio := rfl
@[simp] theorem State.freeN_odoms (s : State) : (s.freeN.2).odoms = s.odoms := rfl
@[simp] theorem State.freeN_car (s : State) : (s.freeN.2).car = s.car := rfl
@[simp] theorem State.freeN_lls (s : State) : (s.freeN.2).lls = s.lls := rfl
@[simp] theorem State.freeN_strands (s : State) : (s.freeN.2).strands = s.strands := rfl
@[simp] theorem State.freeN_yrn (s : State) : (s.freeN.2).yrn = s.yrn := rfl
@[simp] theorem State.freeN_flwA (s : State) : (s.freeN.2).flwA = s.flwA := rfl
@[simp] theorem State.freeN_flwB (s : State) : (s.freeN.2).flwB = s.flwB := rfl
@[simp] theorem State.freeN_skn (s : State) : (s.freeN.2).skn = s.skn := rfl
@[simp] theorem State.freeN_mem (s : State) : (s.freeN.2).mem = s.mem := rfl
@[simp] theorem State.freeN_flt (s : State) : (s.freeN.2).flt = s.flt := rfl
@[simp] theorem State.freeN_drm (s : State) : (s.freeN.2).drm = s.drm := rfl
@[simp] theorem State.freeN_rcd (s : State) : (s.freeN.2).rcd = s.rcd := rfl
@[simp] theorem State.freeN_chr (s : State) : (s.freeN.2).chr = s.chr := rfl
@[simp] theorem State.freeN_tbl (s : State) : (s.freeN.2).tbl = s.tbl := rfl
@[simp] theorem State.freeN_sec (s : State) : (s.freeN.2).sec = s.sec := rfl
@[simp] theorem State.freeN_sv (s : State) : (s.freeN.2).sv = s.sv := rfl
@[simp] theorem State.freeN_swa (s : State) : (s.freeN.2).swa = s.swa := rfl
@[simp] theorem State.freeN_flash (s : State) : (s.freeN.2).flash = s.flash := rfl
@[simp] theorem State.freeN_swt (s : State) : (s.freeN.2).swt = s.swt := rfl
@[simp] theorem State.freeN_hst (s : State) : (s.freeN.2).hst = s.hst := rfl

-- freeW
@[simp] theorem State.freeW_part (s : State) : (s.freeW.2).part = s.part := rfl
@[simp] theorem State.freeW_now (s : State) : (s.freeW.2).now = s.now := rfl
@[simp] theorem State.freeW_pending (s : State) : (s.freeW.2).pending = s.pending := rfl
@[simp] theorem State.freeW_out (s : State) : (s.freeW.2).out = s.out := rfl
@[simp] theorem State.freeW_regs (s : State) : (s.freeW.2).regs = s.regs := rfl
@[simp] theorem State.freeW_ctrs (s : State) : (s.freeW.2).ctrs = s.ctrs := rfl
@[simp] theorem State.freeW_md (s : State) : (s.freeW.2).md = s.md := rfl
@[simp] theorem State.freeW_doms (s : State) : (s.freeW.2).doms = s.doms := rfl
@[simp] theorem State.freeW_evs (s : State) : (s.freeW.2).evs = s.evs := rfl
@[simp] theorem State.freeW_evDone (s : State) : (s.freeW.2).evDone = s.evDone := rfl
@[simp] theorem State.freeW_tio (s : State) : (s.freeW.2).tio = s.tio := rfl
@[simp] theorem State.freeW_odoms (s : State) : (s.freeW.2).odoms = s.odoms := rfl
@[simp] theorem State.freeW_car (s : State) : (s.freeW.2).car = s.car := rfl
@[simp] theorem State.freeW_lls (s : State) : (s.freeW.2).lls = s.lls := rfl
@[simp] theorem State.freeW_strands (s : State) : (s.freeW.2).strands = s.strands := rfl
@[simp] theorem State.freeW_yrn (s : State) : (s.freeW.2).yrn = s.yrn := rfl
@[simp] theorem State.freeW_flwA (s : State) : (s.freeW.2).flwA = s.flwA := rfl
@[simp] theorem State.freeW_flwB (s : State) : (s.freeW.2).flwB = s.flwB := rfl
@[simp] theorem State.freeW_skn (s : State) : (s.freeW.2).skn = s.skn := rfl
@[simp] theorem State.freeW_mem (s : State) : (s.freeW.2).mem = s.mem := rfl
@[simp] theorem State.freeW_flt (s : State) : (s.freeW.2).flt = s.flt := rfl
@[simp] theorem State.freeW_drm (s : State) : (s.freeW.2).drm = s.drm := rfl
@[simp] theorem State.freeW_rcd (s : State) : (s.freeW.2).rcd = s.rcd := rfl
@[simp] theorem State.freeW_chr (s : State) : (s.freeW.2).chr = s.chr := rfl
@[simp] theorem State.freeW_tbl (s : State) : (s.freeW.2).tbl = s.tbl := rfl
@[simp] theorem State.freeW_sec (s : State) : (s.freeW.2).sec = s.sec := rfl
@[simp] theorem State.freeW_sv (s : State) : (s.freeW.2).sv = s.sv := rfl
@[simp] theorem State.freeW_swa (s : State) : (s.freeW.2).swa = s.swa := rfl
@[simp] theorem State.freeW_flash (s : State) : (s.freeW.2).flash = s.flash := rfl
@[simp] theorem State.freeW_swt (s : State) : (s.freeW.2).swt = s.swt := rfl
@[simp] theorem State.freeW_hst (s : State) : (s.freeW.2).hst = s.hst := rfl

-- freeB
@[simp] theorem State.freeB_part (s : State) : (s.freeB.2).part = s.part := rfl
@[simp] theorem State.freeB_now (s : State) : (s.freeB.2).now = s.now := rfl
@[simp] theorem State.freeB_pending (s : State) : (s.freeB.2).pending = s.pending := rfl
@[simp] theorem State.freeB_out (s : State) : (s.freeB.2).out = s.out := rfl
@[simp] theorem State.freeB_regs (s : State) : (s.freeB.2).regs = s.regs := rfl
@[simp] theorem State.freeB_ctrs (s : State) : (s.freeB.2).ctrs = s.ctrs := rfl
@[simp] theorem State.freeB_md (s : State) : (s.freeB.2).md = s.md := rfl
@[simp] theorem State.freeB_doms (s : State) : (s.freeB.2).doms = s.doms := rfl
@[simp] theorem State.freeB_evs (s : State) : (s.freeB.2).evs = s.evs := rfl
@[simp] theorem State.freeB_evDone (s : State) : (s.freeB.2).evDone = s.evDone := rfl
@[simp] theorem State.freeB_tio (s : State) : (s.freeB.2).tio = s.tio := rfl
@[simp] theorem State.freeB_odoms (s : State) : (s.freeB.2).odoms = s.odoms := rfl
@[simp] theorem State.freeB_car (s : State) : (s.freeB.2).car = s.car := rfl
@[simp] theorem State.freeB_lls (s : State) : (s.freeB.2).lls = s.lls := rfl
@[simp] theorem State.freeB_strands (s : State) : (s.freeB.2).strands = s.strands := rfl
@[simp] theorem State.freeB_yrn (s : State) : (s.freeB.2).yrn = s.yrn := rfl
@[simp] theorem State.freeB_flwA (s : State) : (s.freeB.2).flwA = s.flwA := rfl
@[simp] theorem State.freeB_flwB (s : State) : (s.freeB.2).flwB = s.flwB := rfl
@[simp] theorem State.freeB_skn (s : State) : (s.freeB.2).skn = s.skn := rfl
@[simp] theorem State.freeB_mem (s : State) : (s.freeB.2).mem = s.mem := rfl
@[simp] theorem State.freeB_flt (s : State) : (s.freeB.2).flt = s.flt := rfl
@[simp] theorem State.freeB_drm (s : State) : (s.freeB.2).drm = s.drm := rfl
@[simp] theorem State.freeB_rcd (s : State) : (s.freeB.2).rcd = s.rcd := rfl
@[simp] theorem State.freeB_chr (s : State) : (s.freeB.2).chr = s.chr := rfl
@[simp] theorem State.freeB_tbl (s : State) : (s.freeB.2).tbl = s.tbl := rfl
@[simp] theorem State.freeB_sec (s : State) : (s.freeB.2).sec = s.sec := rfl
@[simp] theorem State.freeB_sv (s : State) : (s.freeB.2).sv = s.sv := rfl
@[simp] theorem State.freeB_swa (s : State) : (s.freeB.2).swa = s.swa := rfl
@[simp] theorem State.freeB_flash (s : State) : (s.freeB.2).flash = s.flash := rfl
@[simp] theorem State.freeB_swt (s : State) : (s.freeB.2).swt = s.swt := rfl
@[simp] theorem State.freeB_hst (s : State) : (s.freeB.2).hst = s.hst := rfl

-- setDom
@[simp] theorem State.setDom_part (s : State) (p n : Nat) (c : DomCopy) : (s.setDom p n c).part = s.part := rfl
@[simp] theorem State.setDom_now (s : State) (p n : Nat) (c : DomCopy) : (s.setDom p n c).now = s.now := rfl
@[simp] theorem State.setDom_pending (s : State) (p n : Nat) (c : DomCopy) : (s.setDom p n c).pending = s.pending := rfl
@[simp] theorem State.setDom_fresh (s : State) (p n : Nat) (c : DomCopy) : (s.setDom p n c).fresh = s.fresh := rfl
@[simp] theorem State.setDom_out (s : State) (p n : Nat) (c : DomCopy) : (s.setDom p n c).out = s.out := rfl
@[simp] theorem State.setDom_regs (s : State) (p n : Nat) (c : DomCopy) : (s.setDom p n c).regs = s.regs := rfl
@[simp] theorem State.setDom_ctrs (s : State) (p n : Nat) (c : DomCopy) : (s.setDom p n c).ctrs = s.ctrs := rfl
@[simp] theorem State.setDom_md (s : State) (p n : Nat) (c : DomCopy) : (s.setDom p n c).md = s.md := rfl
@[simp] theorem State.setDom_evs (s : State) (p n : Nat) (c : DomCopy) : (s.setDom p n c).evs = s.evs := rfl
@[simp] theorem State.setDom_evDone (s : State) (p n : Nat) (c : DomCopy) : (s.setDom p n c).evDone = s.evDone := rfl
@[simp] theorem State.setDom_tio (s : State) (p n : Nat) (c : DomCopy) : (s.setDom p n c).tio = s.tio := rfl
@[simp] theorem State.setDom_odoms (s : State) (p n : Nat) (c : DomCopy) : (s.setDom p n c).odoms = s.odoms := rfl
@[simp] theorem State.setDom_car (s : State) (p n : Nat) (c : DomCopy) : (s.setDom p n c).car = s.car := rfl
@[simp] theorem State.setDom_lls (s : State) (p n : Nat) (c : DomCopy) : (s.setDom p n c).lls = s.lls := rfl
@[simp] theorem State.setDom_strands (s : State) (p n : Nat) (c : DomCopy) : (s.setDom p n c).strands = s.strands := rfl
@[simp] theorem State.setDom_yrn (s : State) (p n : Nat) (c : DomCopy) : (s.setDom p n c).yrn = s.yrn := rfl
@[simp] theorem State.setDom_flwA (s : State) (p n : Nat) (c : DomCopy) : (s.setDom p n c).flwA = s.flwA := rfl
@[simp] theorem State.setDom_flwB (s : State) (p n : Nat) (c : DomCopy) : (s.setDom p n c).flwB = s.flwB := rfl
@[simp] theorem State.setDom_skn (s : State) (p n : Nat) (c : DomCopy) : (s.setDom p n c).skn = s.skn := rfl
@[simp] theorem State.setDom_mem (s : State) (p n : Nat) (c : DomCopy) : (s.setDom p n c).mem = s.mem := rfl
@[simp] theorem State.setDom_flt (s : State) (p n : Nat) (c : DomCopy) : (s.setDom p n c).flt = s.flt := rfl
@[simp] theorem State.setDom_drm (s : State) (p n : Nat) (c : DomCopy) : (s.setDom p n c).drm = s.drm := rfl
@[simp] theorem State.setDom_rcd (s : State) (p n : Nat) (c : DomCopy) : (s.setDom p n c).rcd = s.rcd := rfl
@[simp] theorem State.setDom_chr (s : State) (p n : Nat) (c : DomCopy) : (s.setDom p n c).chr = s.chr := rfl
@[simp] theorem State.setDom_tbl (s : State) (p n : Nat) (c : DomCopy) : (s.setDom p n c).tbl = s.tbl := rfl
@[simp] theorem State.setDom_sec (s : State) (p n : Nat) (c : DomCopy) : (s.setDom p n c).sec = s.sec := rfl
@[simp] theorem State.setDom_sv (s : State) (p n : Nat) (c : DomCopy) : (s.setDom p n c).sv = s.sv := rfl
@[simp] theorem State.setDom_swa (s : State) (p n : Nat) (c : DomCopy) : (s.setDom p n c).swa = s.swa := rfl
@[simp] theorem State.setDom_flash (s : State) (p n : Nat) (c : DomCopy) : (s.setDom p n c).flash = s.flash := rfl
@[simp] theorem State.setDom_swt (s : State) (p n : Nat) (c : DomCopy) : (s.setDom p n c).swt = s.swt := rfl
@[simp] theorem State.setDom_hst (s : State) (p n : Nat) (c : DomCopy) : (s.setDom p n c).hst = s.hst := rfl

-- setPin
@[simp] theorem State.setPin_part (s : State) (n : Nat) (p : Pin) : (s.setPin n p).part = s.part := rfl
@[simp] theorem State.setPin_now (s : State) (n : Nat) (p : Pin) : (s.setPin n p).now = s.now := rfl
@[simp] theorem State.setPin_pending (s : State) (n : Nat) (p : Pin) : (s.setPin n p).pending = s.pending := rfl
@[simp] theorem State.setPin_fresh (s : State) (n : Nat) (p : Pin) : (s.setPin n p).fresh = s.fresh := rfl
@[simp] theorem State.setPin_out (s : State) (n : Nat) (p : Pin) : (s.setPin n p).out = s.out := rfl
@[simp] theorem State.setPin_regs (s : State) (n : Nat) (p : Pin) : (s.setPin n p).regs = s.regs := rfl
@[simp] theorem State.setPin_ctrs (s : State) (n : Nat) (p : Pin) : (s.setPin n p).ctrs = s.ctrs := rfl
@[simp] theorem State.setPin_md (s : State) (n : Nat) (p : Pin) : (s.setPin n p).md = s.md := rfl
@[simp] theorem State.setPin_doms (s : State) (n : Nat) (p : Pin) : (s.setPin n p).doms = s.doms := rfl
@[simp] theorem State.setPin_evs (s : State) (n : Nat) (p : Pin) : (s.setPin n p).evs = s.evs := rfl
@[simp] theorem State.setPin_evDone (s : State) (n : Nat) (p : Pin) : (s.setPin n p).evDone = s.evDone := rfl
@[simp] theorem State.setPin_odoms (s : State) (n : Nat) (p : Pin) : (s.setPin n p).odoms = s.odoms := rfl
@[simp] theorem State.setPin_car (s : State) (n : Nat) (p : Pin) : (s.setPin n p).car = s.car := rfl
@[simp] theorem State.setPin_lls (s : State) (n : Nat) (p : Pin) : (s.setPin n p).lls = s.lls := rfl
@[simp] theorem State.setPin_strands (s : State) (n : Nat) (p : Pin) : (s.setPin n p).strands = s.strands := rfl
@[simp] theorem State.setPin_yrn (s : State) (n : Nat) (p : Pin) : (s.setPin n p).yrn = s.yrn := rfl
@[simp] theorem State.setPin_flwA (s : State) (n : Nat) (p : Pin) : (s.setPin n p).flwA = s.flwA := rfl
@[simp] theorem State.setPin_flwB (s : State) (n : Nat) (p : Pin) : (s.setPin n p).flwB = s.flwB := rfl
@[simp] theorem State.setPin_skn (s : State) (n : Nat) (p : Pin) : (s.setPin n p).skn = s.skn := rfl
@[simp] theorem State.setPin_mem (s : State) (n : Nat) (p : Pin) : (s.setPin n p).mem = s.mem := rfl
@[simp] theorem State.setPin_flt (s : State) (n : Nat) (p : Pin) : (s.setPin n p).flt = s.flt := rfl
@[simp] theorem State.setPin_drm (s : State) (n : Nat) (p : Pin) : (s.setPin n p).drm = s.drm := rfl
@[simp] theorem State.setPin_rcd (s : State) (n : Nat) (p : Pin) : (s.setPin n p).rcd = s.rcd := rfl
@[simp] theorem State.setPin_chr (s : State) (n : Nat) (p : Pin) : (s.setPin n p).chr = s.chr := rfl
@[simp] theorem State.setPin_tbl (s : State) (n : Nat) (p : Pin) : (s.setPin n p).tbl = s.tbl := rfl
@[simp] theorem State.setPin_sec (s : State) (n : Nat) (p : Pin) : (s.setPin n p).sec = s.sec := rfl
@[simp] theorem State.setPin_sv (s : State) (n : Nat) (p : Pin) : (s.setPin n p).sv = s.sv := rfl
@[simp] theorem State.setPin_swa (s : State) (n : Nat) (p : Pin) : (s.setPin n p).swa = s.swa := rfl
@[simp] theorem State.setPin_flash (s : State) (n : Nat) (p : Pin) : (s.setPin n p).flash = s.flash := rfl
@[simp] theorem State.setPin_swt (s : State) (n : Nat) (p : Pin) : (s.setPin n p).swt = s.swt := rfl
@[simp] theorem State.setPin_hst (s : State) (n : Nat) (p : Pin) : (s.setPin n p).hst = s.hst := rfl

-- setOd
@[simp] theorem State.setOd_part (s : State) (p d : Nat) (o : Odom) : (s.setOd p d o).part = s.part := rfl
@[simp] theorem State.setOd_now (s : State) (p d : Nat) (o : Odom) : (s.setOd p d o).now = s.now := rfl
@[simp] theorem State.setOd_pending (s : State) (p d : Nat) (o : Odom) : (s.setOd p d o).pending = s.pending := rfl
@[simp] theorem State.setOd_fresh (s : State) (p d : Nat) (o : Odom) : (s.setOd p d o).fresh = s.fresh := rfl
@[simp] theorem State.setOd_out (s : State) (p d : Nat) (o : Odom) : (s.setOd p d o).out = s.out := rfl
@[simp] theorem State.setOd_regs (s : State) (p d : Nat) (o : Odom) : (s.setOd p d o).regs = s.regs := rfl
@[simp] theorem State.setOd_ctrs (s : State) (p d : Nat) (o : Odom) : (s.setOd p d o).ctrs = s.ctrs := rfl
@[simp] theorem State.setOd_md (s : State) (p d : Nat) (o : Odom) : (s.setOd p d o).md = s.md := rfl
@[simp] theorem State.setOd_doms (s : State) (p d : Nat) (o : Odom) : (s.setOd p d o).doms = s.doms := rfl
@[simp] theorem State.setOd_evs (s : State) (p d : Nat) (o : Odom) : (s.setOd p d o).evs = s.evs := rfl
@[simp] theorem State.setOd_evDone (s : State) (p d : Nat) (o : Odom) : (s.setOd p d o).evDone = s.evDone := rfl
@[simp] theorem State.setOd_tio (s : State) (p d : Nat) (o : Odom) : (s.setOd p d o).tio = s.tio := rfl
@[simp] theorem State.setOd_car (s : State) (p d : Nat) (o : Odom) : (s.setOd p d o).car = s.car := rfl
@[simp] theorem State.setOd_lls (s : State) (p d : Nat) (o : Odom) : (s.setOd p d o).lls = s.lls := rfl
@[simp] theorem State.setOd_strands (s : State) (p d : Nat) (o : Odom) : (s.setOd p d o).strands = s.strands := rfl
@[simp] theorem State.setOd_yrn (s : State) (p d : Nat) (o : Odom) : (s.setOd p d o).yrn = s.yrn := rfl
@[simp] theorem State.setOd_flwA (s : State) (p d : Nat) (o : Odom) : (s.setOd p d o).flwA = s.flwA := rfl
@[simp] theorem State.setOd_flwB (s : State) (p d : Nat) (o : Odom) : (s.setOd p d o).flwB = s.flwB := rfl
@[simp] theorem State.setOd_skn (s : State) (p d : Nat) (o : Odom) : (s.setOd p d o).skn = s.skn := rfl
@[simp] theorem State.setOd_mem (s : State) (p d : Nat) (o : Odom) : (s.setOd p d o).mem = s.mem := rfl
@[simp] theorem State.setOd_flt (s : State) (p d : Nat) (o : Odom) : (s.setOd p d o).flt = s.flt := rfl
@[simp] theorem State.setOd_drm (s : State) (p d : Nat) (o : Odom) : (s.setOd p d o).drm = s.drm := rfl
@[simp] theorem State.setOd_rcd (s : State) (p d : Nat) (o : Odom) : (s.setOd p d o).rcd = s.rcd := rfl
@[simp] theorem State.setOd_chr (s : State) (p d : Nat) (o : Odom) : (s.setOd p d o).chr = s.chr := rfl
@[simp] theorem State.setOd_tbl (s : State) (p d : Nat) (o : Odom) : (s.setOd p d o).tbl = s.tbl := rfl
@[simp] theorem State.setOd_sec (s : State) (p d : Nat) (o : Odom) : (s.setOd p d o).sec = s.sec := rfl
@[simp] theorem State.setOd_sv (s : State) (p d : Nat) (o : Odom) : (s.setOd p d o).sv = s.sv := rfl
@[simp] theorem State.setOd_swa (s : State) (p d : Nat) (o : Odom) : (s.setOd p d o).swa = s.swa := rfl
@[simp] theorem State.setOd_flash (s : State) (p d : Nat) (o : Odom) : (s.setOd p d o).flash = s.flash := rfl
@[simp] theorem State.setOd_swt (s : State) (p d : Nat) (o : Odom) : (s.setOd p d o).swt = s.swt := rfl
@[simp] theorem State.setOd_hst (s : State) (p d : Nat) (o : Odom) : (s.setOd p d o).hst = s.hst := rfl

-- setItems
@[simp] theorem State.setItems_part (s : State) (l : Nat) (x : List WorkItem) : (s.setItems l x).part = s.part := rfl
@[simp] theorem State.setItems_now (s : State) (l : Nat) (x : List WorkItem) : (s.setItems l x).now = s.now := rfl
@[simp] theorem State.setItems_pending (s : State) (l : Nat) (x : List WorkItem) : (s.setItems l x).pending = s.pending := rfl
@[simp] theorem State.setItems_fresh (s : State) (l : Nat) (x : List WorkItem) : (s.setItems l x).fresh = s.fresh := rfl
@[simp] theorem State.setItems_out (s : State) (l : Nat) (x : List WorkItem) : (s.setItems l x).out = s.out := rfl
@[simp] theorem State.setItems_regs (s : State) (l : Nat) (x : List WorkItem) : (s.setItems l x).regs = s.regs := rfl
@[simp] theorem State.setItems_ctrs (s : State) (l : Nat) (x : List WorkItem) : (s.setItems l x).ctrs = s.ctrs := rfl
@[simp] theorem State.setItems_md (s : State) (l : Nat) (x : List WorkItem) : (s.setItems l x).md = s.md := rfl
@[simp] theorem State.setItems_doms (s : State) (l : Nat) (x : List WorkItem) : (s.setItems l x).doms = s.doms := rfl
@[simp] theorem State.setItems_evs (s : State) (l : Nat) (x : List WorkItem) : (s.setItems l x).evs = s.evs := rfl
@[simp] theorem State.setItems_evDone (s : State) (l : Nat) (x : List WorkItem) : (s.setItems l x).evDone = s.evDone := rfl
@[simp] theorem State.setItems_tio (s : State) (l : Nat) (x : List WorkItem) : (s.setItems l x).tio = s.tio := rfl
@[simp] theorem State.setItems_odoms (s : State) (l : Nat) (x : List WorkItem) : (s.setItems l x).odoms = s.odoms := rfl
@[simp] theorem State.setItems_lls (s : State) (l : Nat) (x : List WorkItem) : (s.setItems l x).lls = s.lls := rfl
@[simp] theorem State.setItems_strands (s : State) (l : Nat) (x : List WorkItem) : (s.setItems l x).strands = s.strands := rfl
@[simp] theorem State.setItems_yrn (s : State) (l : Nat) (x : List WorkItem) : (s.setItems l x).yrn = s.yrn := rfl
@[simp] theorem State.setItems_flwA (s : State) (l : Nat) (x : List WorkItem) : (s.setItems l x).flwA = s.flwA := rfl
@[simp] theorem State.setItems_flwB (s : State) (l : Nat) (x : List WorkItem) : (s.setItems l x).flwB = s.flwB := rfl
@[simp] theorem State.setItems_skn (s : State) (l : Nat) (x : List WorkItem) : (s.setItems l x).skn = s.skn := rfl
@[simp] theorem State.setItems_mem (s : State) (l : Nat) (x : List WorkItem) : (s.setItems l x).mem = s.mem := rfl
@[simp] theorem State.setItems_flt (s : State) (l : Nat) (x : List WorkItem) : (s.setItems l x).flt = s.flt := rfl
@[simp] theorem State.setItems_drm (s : State) (l : Nat) (x : List WorkItem) : (s.setItems l x).drm = s.drm := rfl
@[simp] theorem State.setItems_rcd (s : State) (l : Nat) (x : List WorkItem) : (s.setItems l x).rcd = s.rcd := rfl
@[simp] theorem State.setItems_chr (s : State) (l : Nat) (x : List WorkItem) : (s.setItems l x).chr = s.chr := rfl
@[simp] theorem State.setItems_tbl (s : State) (l : Nat) (x : List WorkItem) : (s.setItems l x).tbl = s.tbl := rfl
@[simp] theorem State.setItems_sec (s : State) (l : Nat) (x : List WorkItem) : (s.setItems l x).sec = s.sec := rfl
@[simp] theorem State.setItems_sv (s : State) (l : Nat) (x : List WorkItem) : (s.setItems l x).sv = s.sv := rfl
@[simp] theorem State.setItems_swa (s : State) (l : Nat) (x : List WorkItem) : (s.setItems l x).swa = s.swa := rfl
@[simp] theorem State.setItems_flash (s : State) (l : Nat) (x : List WorkItem) : (s.setItems l x).flash = s.flash := rfl
@[simp] theorem State.setItems_swt (s : State) (l : Nat) (x : List WorkItem) : (s.setItems l x).swt = s.swt := rfl
@[simp] theorem State.setItems_hst (s : State) (l : Nat) (x : List WorkItem) : (s.setItems l x).hst = s.hst := rfl

-- setSpilled
@[simp] theorem State.setSpilled_part (s : State) (l : Nat) (x : List WorkItem) : (s.setSpilled l x).part = s.part := rfl
@[simp] theorem State.setSpilled_now (s : State) (l : Nat) (x : List WorkItem) : (s.setSpilled l x).now = s.now := rfl
@[simp] theorem State.setSpilled_pending (s : State) (l : Nat) (x : List WorkItem) : (s.setSpilled l x).pending = s.pending := rfl
@[simp] theorem State.setSpilled_fresh (s : State) (l : Nat) (x : List WorkItem) : (s.setSpilled l x).fresh = s.fresh := rfl
@[simp] theorem State.setSpilled_out (s : State) (l : Nat) (x : List WorkItem) : (s.setSpilled l x).out = s.out := rfl
@[simp] theorem State.setSpilled_regs (s : State) (l : Nat) (x : List WorkItem) : (s.setSpilled l x).regs = s.regs := rfl
@[simp] theorem State.setSpilled_ctrs (s : State) (l : Nat) (x : List WorkItem) : (s.setSpilled l x).ctrs = s.ctrs := rfl
@[simp] theorem State.setSpilled_md (s : State) (l : Nat) (x : List WorkItem) : (s.setSpilled l x).md = s.md := rfl
@[simp] theorem State.setSpilled_doms (s : State) (l : Nat) (x : List WorkItem) : (s.setSpilled l x).doms = s.doms := rfl
@[simp] theorem State.setSpilled_evs (s : State) (l : Nat) (x : List WorkItem) : (s.setSpilled l x).evs = s.evs := rfl
@[simp] theorem State.setSpilled_evDone (s : State) (l : Nat) (x : List WorkItem) : (s.setSpilled l x).evDone = s.evDone := rfl
@[simp] theorem State.setSpilled_tio (s : State) (l : Nat) (x : List WorkItem) : (s.setSpilled l x).tio = s.tio := rfl
@[simp] theorem State.setSpilled_odoms (s : State) (l : Nat) (x : List WorkItem) : (s.setSpilled l x).odoms = s.odoms := rfl
@[simp] theorem State.setSpilled_lls (s : State) (l : Nat) (x : List WorkItem) : (s.setSpilled l x).lls = s.lls := rfl
@[simp] theorem State.setSpilled_strands (s : State) (l : Nat) (x : List WorkItem) : (s.setSpilled l x).strands = s.strands := rfl
@[simp] theorem State.setSpilled_yrn (s : State) (l : Nat) (x : List WorkItem) : (s.setSpilled l x).yrn = s.yrn := rfl
@[simp] theorem State.setSpilled_flwA (s : State) (l : Nat) (x : List WorkItem) : (s.setSpilled l x).flwA = s.flwA := rfl
@[simp] theorem State.setSpilled_flwB (s : State) (l : Nat) (x : List WorkItem) : (s.setSpilled l x).flwB = s.flwB := rfl
@[simp] theorem State.setSpilled_skn (s : State) (l : Nat) (x : List WorkItem) : (s.setSpilled l x).skn = s.skn := rfl
@[simp] theorem State.setSpilled_mem (s : State) (l : Nat) (x : List WorkItem) : (s.setSpilled l x).mem = s.mem := rfl
@[simp] theorem State.setSpilled_flt (s : State) (l : Nat) (x : List WorkItem) : (s.setSpilled l x).flt = s.flt := rfl
@[simp] theorem State.setSpilled_drm (s : State) (l : Nat) (x : List WorkItem) : (s.setSpilled l x).drm = s.drm := rfl
@[simp] theorem State.setSpilled_rcd (s : State) (l : Nat) (x : List WorkItem) : (s.setSpilled l x).rcd = s.rcd := rfl
@[simp] theorem State.setSpilled_chr (s : State) (l : Nat) (x : List WorkItem) : (s.setSpilled l x).chr = s.chr := rfl
@[simp] theorem State.setSpilled_tbl (s : State) (l : Nat) (x : List WorkItem) : (s.setSpilled l x).tbl = s.tbl := rfl
@[simp] theorem State.setSpilled_sec (s : State) (l : Nat) (x : List WorkItem) : (s.setSpilled l x).sec = s.sec := rfl
@[simp] theorem State.setSpilled_sv (s : State) (l : Nat) (x : List WorkItem) : (s.setSpilled l x).sv = s.sv := rfl
@[simp] theorem State.setSpilled_swa (s : State) (l : Nat) (x : List WorkItem) : (s.setSpilled l x).swa = s.swa := rfl
@[simp] theorem State.setSpilled_flash (s : State) (l : Nat) (x : List WorkItem) : (s.setSpilled l x).flash = s.flash := rfl
@[simp] theorem State.setSpilled_swt (s : State) (l : Nat) (x : List WorkItem) : (s.setSpilled l x).swt = s.swt := rfl
@[simp] theorem State.setSpilled_hst (s : State) (l : Nat) (x : List WorkItem) : (s.setSpilled l x).hst = s.hst := rfl

-- setHoldQ
@[simp] theorem State.setHoldQ_part (s : State) (p : Nat) (x : List WorkItem) : (s.setHoldQ p x).part = s.part := by unfold State.setHoldQ; split <;> rfl
@[simp] theorem State.setHoldQ_now (s : State) (p : Nat) (x : List WorkItem) : (s.setHoldQ p x).now = s.now := by unfold State.setHoldQ; split <;> rfl
@[simp] theorem State.setHoldQ_pending (s : State) (p : Nat) (x : List WorkItem) : (s.setHoldQ p x).pending = s.pending := by unfold State.setHoldQ; split <;> rfl
@[simp] theorem State.setHoldQ_fresh (s : State) (p : Nat) (x : List WorkItem) : (s.setHoldQ p x).fresh = s.fresh := by unfold State.setHoldQ; split <;> rfl
@[simp] theorem State.setHoldQ_out (s : State) (p : Nat) (x : List WorkItem) : (s.setHoldQ p x).out = s.out := by unfold State.setHoldQ; split <;> rfl
@[simp] theorem State.setHoldQ_regs (s : State) (p : Nat) (x : List WorkItem) : (s.setHoldQ p x).regs = s.regs := by unfold State.setHoldQ; split <;> rfl
@[simp] theorem State.setHoldQ_ctrs (s : State) (p : Nat) (x : List WorkItem) : (s.setHoldQ p x).ctrs = s.ctrs := by unfold State.setHoldQ; split <;> rfl
@[simp] theorem State.setHoldQ_md (s : State) (p : Nat) (x : List WorkItem) : (s.setHoldQ p x).md = s.md := by unfold State.setHoldQ; split <;> rfl
@[simp] theorem State.setHoldQ_doms (s : State) (p : Nat) (x : List WorkItem) : (s.setHoldQ p x).doms = s.doms := by unfold State.setHoldQ; split <;> rfl
@[simp] theorem State.setHoldQ_evs (s : State) (p : Nat) (x : List WorkItem) : (s.setHoldQ p x).evs = s.evs := by unfold State.setHoldQ; split <;> rfl
@[simp] theorem State.setHoldQ_evDone (s : State) (p : Nat) (x : List WorkItem) : (s.setHoldQ p x).evDone = s.evDone := by unfold State.setHoldQ; split <;> rfl
@[simp] theorem State.setHoldQ_tio (s : State) (p : Nat) (x : List WorkItem) : (s.setHoldQ p x).tio = s.tio := by unfold State.setHoldQ; split <;> rfl
@[simp] theorem State.setHoldQ_odoms (s : State) (p : Nat) (x : List WorkItem) : (s.setHoldQ p x).odoms = s.odoms := by unfold State.setHoldQ; split <;> rfl
@[simp] theorem State.setHoldQ_lls (s : State) (p : Nat) (x : List WorkItem) : (s.setHoldQ p x).lls = s.lls := by unfold State.setHoldQ; split <;> rfl
@[simp] theorem State.setHoldQ_strands (s : State) (p : Nat) (x : List WorkItem) : (s.setHoldQ p x).strands = s.strands := by unfold State.setHoldQ; split <;> rfl
@[simp] theorem State.setHoldQ_yrn (s : State) (p : Nat) (x : List WorkItem) : (s.setHoldQ p x).yrn = s.yrn := by unfold State.setHoldQ; split <;> rfl
@[simp] theorem State.setHoldQ_flwA (s : State) (p : Nat) (x : List WorkItem) : (s.setHoldQ p x).flwA = s.flwA := by unfold State.setHoldQ; split <;> rfl
@[simp] theorem State.setHoldQ_flwB (s : State) (p : Nat) (x : List WorkItem) : (s.setHoldQ p x).flwB = s.flwB := by unfold State.setHoldQ; split <;> rfl
@[simp] theorem State.setHoldQ_skn (s : State) (p : Nat) (x : List WorkItem) : (s.setHoldQ p x).skn = s.skn := by unfold State.setHoldQ; split <;> rfl
@[simp] theorem State.setHoldQ_mem (s : State) (p : Nat) (x : List WorkItem) : (s.setHoldQ p x).mem = s.mem := by unfold State.setHoldQ; split <;> rfl
@[simp] theorem State.setHoldQ_flt (s : State) (p : Nat) (x : List WorkItem) : (s.setHoldQ p x).flt = s.flt := by unfold State.setHoldQ; split <;> rfl
@[simp] theorem State.setHoldQ_drm (s : State) (p : Nat) (x : List WorkItem) : (s.setHoldQ p x).drm = s.drm := by unfold State.setHoldQ; split <;> rfl
@[simp] theorem State.setHoldQ_rcd (s : State) (p : Nat) (x : List WorkItem) : (s.setHoldQ p x).rcd = s.rcd := by unfold State.setHoldQ; split <;> rfl
@[simp] theorem State.setHoldQ_chr (s : State) (p : Nat) (x : List WorkItem) : (s.setHoldQ p x).chr = s.chr := by unfold State.setHoldQ; split <;> rfl
@[simp] theorem State.setHoldQ_tbl (s : State) (p : Nat) (x : List WorkItem) : (s.setHoldQ p x).tbl = s.tbl := by unfold State.setHoldQ; split <;> rfl
@[simp] theorem State.setHoldQ_sec (s : State) (p : Nat) (x : List WorkItem) : (s.setHoldQ p x).sec = s.sec := by unfold State.setHoldQ; split <;> rfl
@[simp] theorem State.setHoldQ_sv (s : State) (p : Nat) (x : List WorkItem) : (s.setHoldQ p x).sv = s.sv := by unfold State.setHoldQ; split <;> rfl
@[simp] theorem State.setHoldQ_swa (s : State) (p : Nat) (x : List WorkItem) : (s.setHoldQ p x).swa = s.swa := by unfold State.setHoldQ; split <;> rfl
@[simp] theorem State.setHoldQ_flash (s : State) (p : Nat) (x : List WorkItem) : (s.setHoldQ p x).flash = s.flash := by unfold State.setHoldQ; split <;> rfl
@[simp] theorem State.setHoldQ_swt (s : State) (p : Nat) (x : List WorkItem) : (s.setHoldQ p x).swt = s.swt := by unfold State.setHoldQ; split <;> rfl
@[simp] theorem State.setHoldQ_hst (s : State) (p : Nat) (x : List WorkItem) : (s.setHoldQ p x).hst = s.hst := by unfold State.setHoldQ; split <;> rfl

-- setYarn
@[simp] theorem State.setYarn_part (s : State) (k : Nat) (y : Yarn) : (s.setYarn k y).part = s.part := rfl
@[simp] theorem State.setYarn_now (s : State) (k : Nat) (y : Yarn) : (s.setYarn k y).now = s.now := rfl
@[simp] theorem State.setYarn_pending (s : State) (k : Nat) (y : Yarn) : (s.setYarn k y).pending = s.pending := rfl
@[simp] theorem State.setYarn_fresh (s : State) (k : Nat) (y : Yarn) : (s.setYarn k y).fresh = s.fresh := rfl
@[simp] theorem State.setYarn_out (s : State) (k : Nat) (y : Yarn) : (s.setYarn k y).out = s.out := rfl
@[simp] theorem State.setYarn_regs (s : State) (k : Nat) (y : Yarn) : (s.setYarn k y).regs = s.regs := rfl
@[simp] theorem State.setYarn_ctrs (s : State) (k : Nat) (y : Yarn) : (s.setYarn k y).ctrs = s.ctrs := rfl
@[simp] theorem State.setYarn_md (s : State) (k : Nat) (y : Yarn) : (s.setYarn k y).md = s.md := rfl
@[simp] theorem State.setYarn_doms (s : State) (k : Nat) (y : Yarn) : (s.setYarn k y).doms = s.doms := rfl
@[simp] theorem State.setYarn_evs (s : State) (k : Nat) (y : Yarn) : (s.setYarn k y).evs = s.evs := rfl
@[simp] theorem State.setYarn_evDone (s : State) (k : Nat) (y : Yarn) : (s.setYarn k y).evDone = s.evDone := rfl
@[simp] theorem State.setYarn_tio (s : State) (k : Nat) (y : Yarn) : (s.setYarn k y).tio = s.tio := rfl
@[simp] theorem State.setYarn_odoms (s : State) (k : Nat) (y : Yarn) : (s.setYarn k y).odoms = s.odoms := rfl
@[simp] theorem State.setYarn_car (s : State) (k : Nat) (y : Yarn) : (s.setYarn k y).car = s.car := rfl
@[simp] theorem State.setYarn_lls (s : State) (k : Nat) (y : Yarn) : (s.setYarn k y).lls = s.lls := rfl
@[simp] theorem State.setYarn_strands (s : State) (k : Nat) (y : Yarn) : (s.setYarn k y).strands = s.strands := rfl
@[simp] theorem State.setYarn_flwA (s : State) (k : Nat) (y : Yarn) : (s.setYarn k y).flwA = s.flwA := rfl
@[simp] theorem State.setYarn_flwB (s : State) (k : Nat) (y : Yarn) : (s.setYarn k y).flwB = s.flwB := rfl
@[simp] theorem State.setYarn_skn (s : State) (k : Nat) (y : Yarn) : (s.setYarn k y).skn = s.skn := rfl
@[simp] theorem State.setYarn_mem (s : State) (k : Nat) (y : Yarn) : (s.setYarn k y).mem = s.mem := rfl
@[simp] theorem State.setYarn_flt (s : State) (k : Nat) (y : Yarn) : (s.setYarn k y).flt = s.flt := rfl
@[simp] theorem State.setYarn_drm (s : State) (k : Nat) (y : Yarn) : (s.setYarn k y).drm = s.drm := rfl
@[simp] theorem State.setYarn_rcd (s : State) (k : Nat) (y : Yarn) : (s.setYarn k y).rcd = s.rcd := rfl
@[simp] theorem State.setYarn_chr (s : State) (k : Nat) (y : Yarn) : (s.setYarn k y).chr = s.chr := rfl
@[simp] theorem State.setYarn_tbl (s : State) (k : Nat) (y : Yarn) : (s.setYarn k y).tbl = s.tbl := rfl
@[simp] theorem State.setYarn_sec (s : State) (k : Nat) (y : Yarn) : (s.setYarn k y).sec = s.sec := rfl
@[simp] theorem State.setYarn_sv (s : State) (k : Nat) (y : Yarn) : (s.setYarn k y).sv = s.sv := rfl
@[simp] theorem State.setYarn_swa (s : State) (k : Nat) (y : Yarn) : (s.setYarn k y).swa = s.swa := rfl
@[simp] theorem State.setYarn_flash (s : State) (k : Nat) (y : Yarn) : (s.setYarn k y).flash = s.flash := rfl
@[simp] theorem State.setYarn_swt (s : State) (k : Nat) (y : Yarn) : (s.setYarn k y).swt = s.swt := rfl
@[simp] theorem State.setYarn_hst (s : State) (k : Nat) (y : Yarn) : (s.setYarn k y).hst = s.hst := rfl

-- setPool
@[simp] theorem State.setPool_part (s : State) (n : Nat) (x : Pool) : (s.setPool n x).part = s.part := rfl
@[simp] theorem State.setPool_now (s : State) (n : Nat) (x : Pool) : (s.setPool n x).now = s.now := rfl
@[simp] theorem State.setPool_pending (s : State) (n : Nat) (x : Pool) : (s.setPool n x).pending = s.pending := rfl
@[simp] theorem State.setPool_fresh (s : State) (n : Nat) (x : Pool) : (s.setPool n x).fresh = s.fresh := rfl
@[simp] theorem State.setPool_out (s : State) (n : Nat) (x : Pool) : (s.setPool n x).out = s.out := rfl
@[simp] theorem State.setPool_regs (s : State) (n : Nat) (x : Pool) : (s.setPool n x).regs = s.regs := rfl
@[simp] theorem State.setPool_ctrs (s : State) (n : Nat) (x : Pool) : (s.setPool n x).ctrs = s.ctrs := rfl
@[simp] theorem State.setPool_md (s : State) (n : Nat) (x : Pool) : (s.setPool n x).md = s.md := rfl
@[simp] theorem State.setPool_doms (s : State) (n : Nat) (x : Pool) : (s.setPool n x).doms = s.doms := rfl
@[simp] theorem State.setPool_evs (s : State) (n : Nat) (x : Pool) : (s.setPool n x).evs = s.evs := rfl
@[simp] theorem State.setPool_evDone (s : State) (n : Nat) (x : Pool) : (s.setPool n x).evDone = s.evDone := rfl
@[simp] theorem State.setPool_tio (s : State) (n : Nat) (x : Pool) : (s.setPool n x).tio = s.tio := rfl
@[simp] theorem State.setPool_odoms (s : State) (n : Nat) (x : Pool) : (s.setPool n x).odoms = s.odoms := rfl
@[simp] theorem State.setPool_car (s : State) (n : Nat) (x : Pool) : (s.setPool n x).car = s.car := rfl
@[simp] theorem State.setPool_lls (s : State) (n : Nat) (x : Pool) : (s.setPool n x).lls = s.lls := rfl
@[simp] theorem State.setPool_strands (s : State) (n : Nat) (x : Pool) : (s.setPool n x).strands = s.strands := rfl
@[simp] theorem State.setPool_yrn (s : State) (n : Nat) (x : Pool) : (s.setPool n x).yrn = s.yrn := rfl
@[simp] theorem State.setPool_flwA (s : State) (n : Nat) (x : Pool) : (s.setPool n x).flwA = s.flwA := rfl
@[simp] theorem State.setPool_flwB (s : State) (n : Nat) (x : Pool) : (s.setPool n x).flwB = s.flwB := rfl
@[simp] theorem State.setPool_mem (s : State) (n : Nat) (x : Pool) : (s.setPool n x).mem = s.mem := rfl
@[simp] theorem State.setPool_flt (s : State) (n : Nat) (x : Pool) : (s.setPool n x).flt = s.flt := rfl
@[simp] theorem State.setPool_drm (s : State) (n : Nat) (x : Pool) : (s.setPool n x).drm = s.drm := rfl
@[simp] theorem State.setPool_rcd (s : State) (n : Nat) (x : Pool) : (s.setPool n x).rcd = s.rcd := rfl
@[simp] theorem State.setPool_chr (s : State) (n : Nat) (x : Pool) : (s.setPool n x).chr = s.chr := rfl
@[simp] theorem State.setPool_tbl (s : State) (n : Nat) (x : Pool) : (s.setPool n x).tbl = s.tbl := rfl
@[simp] theorem State.setPool_sec (s : State) (n : Nat) (x : Pool) : (s.setPool n x).sec = s.sec := rfl
@[simp] theorem State.setPool_sv (s : State) (n : Nat) (x : Pool) : (s.setPool n x).sv = s.sv := rfl
@[simp] theorem State.setPool_swa (s : State) (n : Nat) (x : Pool) : (s.setPool n x).swa = s.swa := rfl
@[simp] theorem State.setPool_flash (s : State) (n : Nat) (x : Pool) : (s.setPool n x).flash = s.flash := rfl
@[simp] theorem State.setPool_swt (s : State) (n : Nat) (x : Pool) : (s.setPool n x).swt = s.swt := rfl
@[simp] theorem State.setPool_hst (s : State) (n : Nat) (x : Pool) : (s.setPool n x).hst = s.hst := rfl

-- setQp
@[simp] theorem State.setQp_part (s : State) (n : Nat) (x : Qp) : (s.setQp n x).part = s.part := rfl
@[simp] theorem State.setQp_now (s : State) (n : Nat) (x : Qp) : (s.setQp n x).now = s.now := rfl
@[simp] theorem State.setQp_pending (s : State) (n : Nat) (x : Qp) : (s.setQp n x).pending = s.pending := rfl
@[simp] theorem State.setQp_fresh (s : State) (n : Nat) (x : Qp) : (s.setQp n x).fresh = s.fresh := rfl
@[simp] theorem State.setQp_out (s : State) (n : Nat) (x : Qp) : (s.setQp n x).out = s.out := rfl
@[simp] theorem State.setQp_regs (s : State) (n : Nat) (x : Qp) : (s.setQp n x).regs = s.regs := rfl
@[simp] theorem State.setQp_ctrs (s : State) (n : Nat) (x : Qp) : (s.setQp n x).ctrs = s.ctrs := rfl
@[simp] theorem State.setQp_md (s : State) (n : Nat) (x : Qp) : (s.setQp n x).md = s.md := rfl
@[simp] theorem State.setQp_doms (s : State) (n : Nat) (x : Qp) : (s.setQp n x).doms = s.doms := rfl
@[simp] theorem State.setQp_evs (s : State) (n : Nat) (x : Qp) : (s.setQp n x).evs = s.evs := rfl
@[simp] theorem State.setQp_evDone (s : State) (n : Nat) (x : Qp) : (s.setQp n x).evDone = s.evDone := rfl
@[simp] theorem State.setQp_tio (s : State) (n : Nat) (x : Qp) : (s.setQp n x).tio = s.tio := rfl
@[simp] theorem State.setQp_odoms (s : State) (n : Nat) (x : Qp) : (s.setQp n x).odoms = s.odoms := rfl
@[simp] theorem State.setQp_car (s : State) (n : Nat) (x : Qp) : (s.setQp n x).car = s.car := rfl
@[simp] theorem State.setQp_lls (s : State) (n : Nat) (x : Qp) : (s.setQp n x).lls = s.lls := rfl
@[simp] theorem State.setQp_strands (s : State) (n : Nat) (x : Qp) : (s.setQp n x).strands = s.strands := rfl
@[simp] theorem State.setQp_yrn (s : State) (n : Nat) (x : Qp) : (s.setQp n x).yrn = s.yrn := rfl
@[simp] theorem State.setQp_flwA (s : State) (n : Nat) (x : Qp) : (s.setQp n x).flwA = s.flwA := rfl
@[simp] theorem State.setQp_flwB (s : State) (n : Nat) (x : Qp) : (s.setQp n x).flwB = s.flwB := rfl
@[simp] theorem State.setQp_skn (s : State) (n : Nat) (x : Qp) : (s.setQp n x).skn = s.skn := rfl
@[simp] theorem State.setQp_mem (s : State) (n : Nat) (x : Qp) : (s.setQp n x).mem = s.mem := rfl
@[simp] theorem State.setQp_flt (s : State) (n : Nat) (x : Qp) : (s.setQp n x).flt = s.flt := rfl
@[simp] theorem State.setQp_drm (s : State) (n : Nat) (x : Qp) : (s.setQp n x).drm = s.drm := rfl
@[simp] theorem State.setQp_rcd (s : State) (n : Nat) (x : Qp) : (s.setQp n x).rcd = s.rcd := rfl
@[simp] theorem State.setQp_chr (s : State) (n : Nat) (x : Qp) : (s.setQp n x).chr = s.chr := rfl
@[simp] theorem State.setQp_tbl (s : State) (n : Nat) (x : Qp) : (s.setQp n x).tbl = s.tbl := rfl
@[simp] theorem State.setQp_sec (s : State) (n : Nat) (x : Qp) : (s.setQp n x).sec = s.sec := rfl
@[simp] theorem State.setQp_sv (s : State) (n : Nat) (x : Qp) : (s.setQp n x).sv = s.sv := rfl
@[simp] theorem State.setQp_swa (s : State) (n : Nat) (x : Qp) : (s.setQp n x).swa = s.swa := rfl
@[simp] theorem State.setQp_flash (s : State) (n : Nat) (x : Qp) : (s.setQp n x).flash = s.flash := rfl
@[simp] theorem State.setQp_swt (s : State) (n : Nat) (x : Qp) : (s.setQp n x).swt = s.swt := rfl

-- setRing
@[simp] theorem State.setRing_part (s : State) (n : Nat) (x : Ring) : (s.setRing n x).part = s.part := rfl
@[simp] theorem State.setRing_now (s : State) (n : Nat) (x : Ring) : (s.setRing n x).now = s.now := rfl
@[simp] theorem State.setRing_pending (s : State) (n : Nat) (x : Ring) : (s.setRing n x).pending = s.pending := rfl
@[simp] theorem State.setRing_fresh (s : State) (n : Nat) (x : Ring) : (s.setRing n x).fresh = s.fresh := rfl
@[simp] theorem State.setRing_out (s : State) (n : Nat) (x : Ring) : (s.setRing n x).out = s.out := rfl
@[simp] theorem State.setRing_regs (s : State) (n : Nat) (x : Ring) : (s.setRing n x).regs = s.regs := rfl
@[simp] theorem State.setRing_ctrs (s : State) (n : Nat) (x : Ring) : (s.setRing n x).ctrs = s.ctrs := rfl
@[simp] theorem State.setRing_md (s : State) (n : Nat) (x : Ring) : (s.setRing n x).md = s.md := rfl
@[simp] theorem State.setRing_doms (s : State) (n : Nat) (x : Ring) : (s.setRing n x).doms = s.doms := rfl
@[simp] theorem State.setRing_evs (s : State) (n : Nat) (x : Ring) : (s.setRing n x).evs = s.evs := rfl
@[simp] theorem State.setRing_evDone (s : State) (n : Nat) (x : Ring) : (s.setRing n x).evDone = s.evDone := rfl
@[simp] theorem State.setRing_tio (s : State) (n : Nat) (x : Ring) : (s.setRing n x).tio = s.tio := rfl
@[simp] theorem State.setRing_odoms (s : State) (n : Nat) (x : Ring) : (s.setRing n x).odoms = s.odoms := rfl
@[simp] theorem State.setRing_car (s : State) (n : Nat) (x : Ring) : (s.setRing n x).car = s.car := rfl
@[simp] theorem State.setRing_lls (s : State) (n : Nat) (x : Ring) : (s.setRing n x).lls = s.lls := rfl
@[simp] theorem State.setRing_strands (s : State) (n : Nat) (x : Ring) : (s.setRing n x).strands = s.strands := rfl
@[simp] theorem State.setRing_yrn (s : State) (n : Nat) (x : Ring) : (s.setRing n x).yrn = s.yrn := rfl
@[simp] theorem State.setRing_flwA (s : State) (n : Nat) (x : Ring) : (s.setRing n x).flwA = s.flwA := rfl
@[simp] theorem State.setRing_flwB (s : State) (n : Nat) (x : Ring) : (s.setRing n x).flwB = s.flwB := rfl
@[simp] theorem State.setRing_skn (s : State) (n : Nat) (x : Ring) : (s.setRing n x).skn = s.skn := rfl
@[simp] theorem State.setRing_mem (s : State) (n : Nat) (x : Ring) : (s.setRing n x).mem = s.mem := rfl
@[simp] theorem State.setRing_flt (s : State) (n : Nat) (x : Ring) : (s.setRing n x).flt = s.flt := rfl
@[simp] theorem State.setRing_drm (s : State) (n : Nat) (x : Ring) : (s.setRing n x).drm = s.drm := rfl
@[simp] theorem State.setRing_rcd (s : State) (n : Nat) (x : Ring) : (s.setRing n x).rcd = s.rcd := rfl
@[simp] theorem State.setRing_chr (s : State) (n : Nat) (x : Ring) : (s.setRing n x).chr = s.chr := rfl
@[simp] theorem State.setRing_tbl (s : State) (n : Nat) (x : Ring) : (s.setRing n x).tbl = s.tbl := rfl
@[simp] theorem State.setRing_sec (s : State) (n : Nat) (x : Ring) : (s.setRing n x).sec = s.sec := rfl
@[simp] theorem State.setRing_sv (s : State) (n : Nat) (x : Ring) : (s.setRing n x).sv = s.sv := rfl
@[simp] theorem State.setRing_swa (s : State) (n : Nat) (x : Ring) : (s.setRing n x).swa = s.swa := rfl
@[simp] theorem State.setRing_flash (s : State) (n : Nat) (x : Ring) : (s.setRing n x).flash = s.flash := rfl
@[simp] theorem State.setRing_swt (s : State) (n : Nat) (x : Ring) : (s.setRing n x).swt = s.swt := rfl

-- setTp
@[simp] theorem State.setTp_part (s : State) (p : Nat) (x : TblPanel) : (s.setTp p x).part = s.part := by unfold State.setTp; split <;> rfl
@[simp] theorem State.setTp_now (s : State) (p : Nat) (x : TblPanel) : (s.setTp p x).now = s.now := by unfold State.setTp; split <;> rfl
@[simp] theorem State.setTp_pending (s : State) (p : Nat) (x : TblPanel) : (s.setTp p x).pending = s.pending := by unfold State.setTp; split <;> rfl
@[simp] theorem State.setTp_fresh (s : State) (p : Nat) (x : TblPanel) : (s.setTp p x).fresh = s.fresh := by unfold State.setTp; split <;> rfl
@[simp] theorem State.setTp_out (s : State) (p : Nat) (x : TblPanel) : (s.setTp p x).out = s.out := by unfold State.setTp; split <;> rfl
@[simp] theorem State.setTp_regs (s : State) (p : Nat) (x : TblPanel) : (s.setTp p x).regs = s.regs := by unfold State.setTp; split <;> rfl
@[simp] theorem State.setTp_ctrs (s : State) (p : Nat) (x : TblPanel) : (s.setTp p x).ctrs = s.ctrs := by unfold State.setTp; split <;> rfl
@[simp] theorem State.setTp_md (s : State) (p : Nat) (x : TblPanel) : (s.setTp p x).md = s.md := by unfold State.setTp; split <;> rfl
@[simp] theorem State.setTp_doms (s : State) (p : Nat) (x : TblPanel) : (s.setTp p x).doms = s.doms := by unfold State.setTp; split <;> rfl
@[simp] theorem State.setTp_evs (s : State) (p : Nat) (x : TblPanel) : (s.setTp p x).evs = s.evs := by unfold State.setTp; split <;> rfl
@[simp] theorem State.setTp_evDone (s : State) (p : Nat) (x : TblPanel) : (s.setTp p x).evDone = s.evDone := by unfold State.setTp; split <;> rfl
@[simp] theorem State.setTp_tio (s : State) (p : Nat) (x : TblPanel) : (s.setTp p x).tio = s.tio := by unfold State.setTp; split <;> rfl
@[simp] theorem State.setTp_odoms (s : State) (p : Nat) (x : TblPanel) : (s.setTp p x).odoms = s.odoms := by unfold State.setTp; split <;> rfl
@[simp] theorem State.setTp_car (s : State) (p : Nat) (x : TblPanel) : (s.setTp p x).car = s.car := by unfold State.setTp; split <;> rfl
@[simp] theorem State.setTp_lls (s : State) (p : Nat) (x : TblPanel) : (s.setTp p x).lls = s.lls := by unfold State.setTp; split <;> rfl
@[simp] theorem State.setTp_strands (s : State) (p : Nat) (x : TblPanel) : (s.setTp p x).strands = s.strands := by unfold State.setTp; split <;> rfl
@[simp] theorem State.setTp_yrn (s : State) (p : Nat) (x : TblPanel) : (s.setTp p x).yrn = s.yrn := by unfold State.setTp; split <;> rfl
@[simp] theorem State.setTp_flwA (s : State) (p : Nat) (x : TblPanel) : (s.setTp p x).flwA = s.flwA := by unfold State.setTp; split <;> rfl
@[simp] theorem State.setTp_flwB (s : State) (p : Nat) (x : TblPanel) : (s.setTp p x).flwB = s.flwB := by unfold State.setTp; split <;> rfl
@[simp] theorem State.setTp_skn (s : State) (p : Nat) (x : TblPanel) : (s.setTp p x).skn = s.skn := by unfold State.setTp; split <;> rfl
@[simp] theorem State.setTp_mem (s : State) (p : Nat) (x : TblPanel) : (s.setTp p x).mem = s.mem := by unfold State.setTp; split <;> rfl
@[simp] theorem State.setTp_flt (s : State) (p : Nat) (x : TblPanel) : (s.setTp p x).flt = s.flt := by unfold State.setTp; split <;> rfl
@[simp] theorem State.setTp_drm (s : State) (p : Nat) (x : TblPanel) : (s.setTp p x).drm = s.drm := by unfold State.setTp; split <;> rfl
@[simp] theorem State.setTp_rcd (s : State) (p : Nat) (x : TblPanel) : (s.setTp p x).rcd = s.rcd := by unfold State.setTp; split <;> rfl
@[simp] theorem State.setTp_chr (s : State) (p : Nat) (x : TblPanel) : (s.setTp p x).chr = s.chr := by unfold State.setTp; split <;> rfl
@[simp] theorem State.setTp_sec (s : State) (p : Nat) (x : TblPanel) : (s.setTp p x).sec = s.sec := by unfold State.setTp; split <;> rfl
@[simp] theorem State.setTp_sv (s : State) (p : Nat) (x : TblPanel) : (s.setTp p x).sv = s.sv := by unfold State.setTp; split <;> rfl
@[simp] theorem State.setTp_swa (s : State) (p : Nat) (x : TblPanel) : (s.setTp p x).swa = s.swa := by unfold State.setTp; split <;> rfl
@[simp] theorem State.setTp_flash (s : State) (p : Nat) (x : TblPanel) : (s.setTp p x).flash = s.flash := by unfold State.setTp; split <;> rfl
@[simp] theorem State.setTp_swt (s : State) (p : Nat) (x : TblPanel) : (s.setTp p x).swt = s.swt := by unfold State.setTp; split <;> rfl
@[simp] theorem State.setTp_hst (s : State) (p : Nat) (x : TblPanel) : (s.setTp p x).hst = s.hst := by unfold State.setTp; split <;> rfl

-- setQueue
@[simp] theorem State.setQueue_part (s : State) (p port tc : Nat) (l : List Nat) : (s.setQueue p port tc l).part = s.part := by unfold State.setQueue; split <;> rfl
@[simp] theorem State.setQueue_now (s : State) (p port tc : Nat) (l : List Nat) : (s.setQueue p port tc l).now = s.now := by unfold State.setQueue; split <;> rfl
@[simp] theorem State.setQueue_pending (s : State) (p port tc : Nat) (l : List Nat) : (s.setQueue p port tc l).pending = s.pending := by unfold State.setQueue; split <;> rfl
@[simp] theorem State.setQueue_fresh (s : State) (p port tc : Nat) (l : List Nat) : (s.setQueue p port tc l).fresh = s.fresh := by unfold State.setQueue; split <;> rfl
@[simp] theorem State.setQueue_out (s : State) (p port tc : Nat) (l : List Nat) : (s.setQueue p port tc l).out = s.out := by unfold State.setQueue; split <;> rfl
@[simp] theorem State.setQueue_regs (s : State) (p port tc : Nat) (l : List Nat) : (s.setQueue p port tc l).regs = s.regs := by unfold State.setQueue; split <;> rfl
@[simp] theorem State.setQueue_ctrs (s : State) (p port tc : Nat) (l : List Nat) : (s.setQueue p port tc l).ctrs = s.ctrs := by unfold State.setQueue; split <;> rfl
@[simp] theorem State.setQueue_md (s : State) (p port tc : Nat) (l : List Nat) : (s.setQueue p port tc l).md = s.md := by unfold State.setQueue; split <;> rfl
@[simp] theorem State.setQueue_doms (s : State) (p port tc : Nat) (l : List Nat) : (s.setQueue p port tc l).doms = s.doms := by unfold State.setQueue; split <;> rfl
@[simp] theorem State.setQueue_evs (s : State) (p port tc : Nat) (l : List Nat) : (s.setQueue p port tc l).evs = s.evs := by unfold State.setQueue; split <;> rfl
@[simp] theorem State.setQueue_evDone (s : State) (p port tc : Nat) (l : List Nat) : (s.setQueue p port tc l).evDone = s.evDone := by unfold State.setQueue; split <;> rfl
@[simp] theorem State.setQueue_tio (s : State) (p port tc : Nat) (l : List Nat) : (s.setQueue p port tc l).tio = s.tio := by unfold State.setQueue; split <;> rfl
@[simp] theorem State.setQueue_odoms (s : State) (p port tc : Nat) (l : List Nat) : (s.setQueue p port tc l).odoms = s.odoms := by unfold State.setQueue; split <;> rfl
@[simp] theorem State.setQueue_car (s : State) (p port tc : Nat) (l : List Nat) : (s.setQueue p port tc l).car = s.car := by unfold State.setQueue; split <;> rfl
@[simp] theorem State.setQueue_lls (s : State) (p port tc : Nat) (l : List Nat) : (s.setQueue p port tc l).lls = s.lls := by unfold State.setQueue; split <;> rfl
@[simp] theorem State.setQueue_strands (s : State) (p port tc : Nat) (l : List Nat) : (s.setQueue p port tc l).strands = s.strands := by unfold State.setQueue; split <;> rfl
@[simp] theorem State.setQueue_yrn (s : State) (p port tc : Nat) (l : List Nat) : (s.setQueue p port tc l).yrn = s.yrn := by unfold State.setQueue; split <;> rfl
@[simp] theorem State.setQueue_flwA (s : State) (p port tc : Nat) (l : List Nat) : (s.setQueue p port tc l).flwA = s.flwA := by unfold State.setQueue; split <;> rfl
@[simp] theorem State.setQueue_flwB (s : State) (p port tc : Nat) (l : List Nat) : (s.setQueue p port tc l).flwB = s.flwB := by unfold State.setQueue; split <;> rfl
@[simp] theorem State.setQueue_skn (s : State) (p port tc : Nat) (l : List Nat) : (s.setQueue p port tc l).skn = s.skn := by unfold State.setQueue; split <;> rfl
@[simp] theorem State.setQueue_mem (s : State) (p port tc : Nat) (l : List Nat) : (s.setQueue p port tc l).mem = s.mem := by unfold State.setQueue; split <;> rfl
@[simp] theorem State.setQueue_flt (s : State) (p port tc : Nat) (l : List Nat) : (s.setQueue p port tc l).flt = s.flt := by unfold State.setQueue; split <;> rfl
@[simp] theorem State.setQueue_drm (s : State) (p port tc : Nat) (l : List Nat) : (s.setQueue p port tc l).drm = s.drm := by unfold State.setQueue; split <;> rfl
@[simp] theorem State.setQueue_rcd (s : State) (p port tc : Nat) (l : List Nat) : (s.setQueue p port tc l).rcd = s.rcd := by unfold State.setQueue; split <;> rfl
@[simp] theorem State.setQueue_chr (s : State) (p port tc : Nat) (l : List Nat) : (s.setQueue p port tc l).chr = s.chr := by unfold State.setQueue; split <;> rfl
@[simp] theorem State.setQueue_tbl (s : State) (p port tc : Nat) (l : List Nat) : (s.setQueue p port tc l).tbl = s.tbl := by unfold State.setQueue; split <;> rfl
@[simp] theorem State.setQueue_sec (s : State) (p port tc : Nat) (l : List Nat) : (s.setQueue p port tc l).sec = s.sec := by unfold State.setQueue; split <;> rfl
@[simp] theorem State.setQueue_sv (s : State) (p port tc : Nat) (l : List Nat) : (s.setQueue p port tc l).sv = s.sv := by unfold State.setQueue; split <;> rfl
@[simp] theorem State.setQueue_swa (s : State) (p port tc : Nat) (l : List Nat) : (s.setQueue p port tc l).swa = s.swa := by unfold State.setQueue; split <;> rfl
@[simp] theorem State.setQueue_flash (s : State) (p port tc : Nat) (l : List Nat) : (s.setQueue p port tc l).flash = s.flash := by unfold State.setQueue; split <;> rfl
@[simp] theorem State.setQueue_hst (s : State) (p port tc : Nat) (l : List Nat) : (s.setQueue p port tc l).hst = s.hst := by unfold State.setQueue; split <;> rfl

-- putFrame
@[simp] theorem State.putFrame_part (s : State) (n : Nat) (f : FabFrame) : (s.putFrame n f).part = s.part := rfl
@[simp] theorem State.putFrame_now (s : State) (n : Nat) (f : FabFrame) : (s.putFrame n f).now = s.now := rfl
@[simp] theorem State.putFrame_pending (s : State) (n : Nat) (f : FabFrame) : (s.putFrame n f).pending = s.pending := rfl
@[simp] theorem State.putFrame_fresh (s : State) (n : Nat) (f : FabFrame) : (s.putFrame n f).fresh = s.fresh := rfl
@[simp] theorem State.putFrame_out (s : State) (n : Nat) (f : FabFrame) : (s.putFrame n f).out = s.out := rfl
@[simp] theorem State.putFrame_regs (s : State) (n : Nat) (f : FabFrame) : (s.putFrame n f).regs = s.regs := rfl
@[simp] theorem State.putFrame_ctrs (s : State) (n : Nat) (f : FabFrame) : (s.putFrame n f).ctrs = s.ctrs := rfl
@[simp] theorem State.putFrame_md (s : State) (n : Nat) (f : FabFrame) : (s.putFrame n f).md = s.md := rfl
@[simp] theorem State.putFrame_doms (s : State) (n : Nat) (f : FabFrame) : (s.putFrame n f).doms = s.doms := rfl
@[simp] theorem State.putFrame_evs (s : State) (n : Nat) (f : FabFrame) : (s.putFrame n f).evs = s.evs := rfl
@[simp] theorem State.putFrame_evDone (s : State) (n : Nat) (f : FabFrame) : (s.putFrame n f).evDone = s.evDone := rfl
@[simp] theorem State.putFrame_tio (s : State) (n : Nat) (f : FabFrame) : (s.putFrame n f).tio = s.tio := rfl
@[simp] theorem State.putFrame_odoms (s : State) (n : Nat) (f : FabFrame) : (s.putFrame n f).odoms = s.odoms := rfl
@[simp] theorem State.putFrame_car (s : State) (n : Nat) (f : FabFrame) : (s.putFrame n f).car = s.car := rfl
@[simp] theorem State.putFrame_lls (s : State) (n : Nat) (f : FabFrame) : (s.putFrame n f).lls = s.lls := rfl
@[simp] theorem State.putFrame_strands (s : State) (n : Nat) (f : FabFrame) : (s.putFrame n f).strands = s.strands := rfl
@[simp] theorem State.putFrame_yrn (s : State) (n : Nat) (f : FabFrame) : (s.putFrame n f).yrn = s.yrn := rfl
@[simp] theorem State.putFrame_flwA (s : State) (n : Nat) (f : FabFrame) : (s.putFrame n f).flwA = s.flwA := rfl
@[simp] theorem State.putFrame_flwB (s : State) (n : Nat) (f : FabFrame) : (s.putFrame n f).flwB = s.flwB := rfl
@[simp] theorem State.putFrame_skn (s : State) (n : Nat) (f : FabFrame) : (s.putFrame n f).skn = s.skn := rfl
@[simp] theorem State.putFrame_mem (s : State) (n : Nat) (f : FabFrame) : (s.putFrame n f).mem = s.mem := rfl
@[simp] theorem State.putFrame_flt (s : State) (n : Nat) (f : FabFrame) : (s.putFrame n f).flt = s.flt := rfl
@[simp] theorem State.putFrame_drm (s : State) (n : Nat) (f : FabFrame) : (s.putFrame n f).drm = s.drm := rfl
@[simp] theorem State.putFrame_rcd (s : State) (n : Nat) (f : FabFrame) : (s.putFrame n f).rcd = s.rcd := rfl
@[simp] theorem State.putFrame_chr (s : State) (n : Nat) (f : FabFrame) : (s.putFrame n f).chr = s.chr := rfl
@[simp] theorem State.putFrame_tbl (s : State) (n : Nat) (f : FabFrame) : (s.putFrame n f).tbl = s.tbl := rfl
@[simp] theorem State.putFrame_sec (s : State) (n : Nat) (f : FabFrame) : (s.putFrame n f).sec = s.sec := rfl
@[simp] theorem State.putFrame_sv (s : State) (n : Nat) (f : FabFrame) : (s.putFrame n f).sv = s.sv := rfl
@[simp] theorem State.putFrame_swa (s : State) (n : Nat) (f : FabFrame) : (s.putFrame n f).swa = s.swa := rfl
@[simp] theorem State.putFrame_flash (s : State) (n : Nat) (f : FabFrame) : (s.putFrame n f).flash = s.flash := rfl
@[simp] theorem State.putFrame_hst (s : State) (n : Nat) (f : FabFrame) : (s.putFrame n f).hst = s.hst := rfl

-- delFrame
@[simp] theorem State.delFrame_part (s : State) (n : Nat) : (s.delFrame n).part = s.part := rfl
@[simp] theorem State.delFrame_now (s : State) (n : Nat) : (s.delFrame n).now = s.now := rfl
@[simp] theorem State.delFrame_pending (s : State) (n : Nat) : (s.delFrame n).pending = s.pending := rfl
@[simp] theorem State.delFrame_fresh (s : State) (n : Nat) : (s.delFrame n).fresh = s.fresh := rfl
@[simp] theorem State.delFrame_out (s : State) (n : Nat) : (s.delFrame n).out = s.out := rfl
@[simp] theorem State.delFrame_regs (s : State) (n : Nat) : (s.delFrame n).regs = s.regs := rfl
@[simp] theorem State.delFrame_ctrs (s : State) (n : Nat) : (s.delFrame n).ctrs = s.ctrs := rfl
@[simp] theorem State.delFrame_md (s : State) (n : Nat) : (s.delFrame n).md = s.md := rfl
@[simp] theorem State.delFrame_doms (s : State) (n : Nat) : (s.delFrame n).doms = s.doms := rfl
@[simp] theorem State.delFrame_evs (s : State) (n : Nat) : (s.delFrame n).evs = s.evs := rfl
@[simp] theorem State.delFrame_evDone (s : State) (n : Nat) : (s.delFrame n).evDone = s.evDone := rfl
@[simp] theorem State.delFrame_tio (s : State) (n : Nat) : (s.delFrame n).tio = s.tio := rfl
@[simp] theorem State.delFrame_odoms (s : State) (n : Nat) : (s.delFrame n).odoms = s.odoms := rfl
@[simp] theorem State.delFrame_car (s : State) (n : Nat) : (s.delFrame n).car = s.car := rfl
@[simp] theorem State.delFrame_lls (s : State) (n : Nat) : (s.delFrame n).lls = s.lls := rfl
@[simp] theorem State.delFrame_strands (s : State) (n : Nat) : (s.delFrame n).strands = s.strands := rfl
@[simp] theorem State.delFrame_yrn (s : State) (n : Nat) : (s.delFrame n).yrn = s.yrn := rfl
@[simp] theorem State.delFrame_flwA (s : State) (n : Nat) : (s.delFrame n).flwA = s.flwA := rfl
@[simp] theorem State.delFrame_flwB (s : State) (n : Nat) : (s.delFrame n).flwB = s.flwB := rfl
@[simp] theorem State.delFrame_skn (s : State) (n : Nat) : (s.delFrame n).skn = s.skn := rfl
@[simp] theorem State.delFrame_mem (s : State) (n : Nat) : (s.delFrame n).mem = s.mem := rfl
@[simp] theorem State.delFrame_flt (s : State) (n : Nat) : (s.delFrame n).flt = s.flt := rfl
@[simp] theorem State.delFrame_drm (s : State) (n : Nat) : (s.delFrame n).drm = s.drm := rfl
@[simp] theorem State.delFrame_rcd (s : State) (n : Nat) : (s.delFrame n).rcd = s.rcd := rfl
@[simp] theorem State.delFrame_chr (s : State) (n : Nat) : (s.delFrame n).chr = s.chr := rfl
@[simp] theorem State.delFrame_tbl (s : State) (n : Nat) : (s.delFrame n).tbl = s.tbl := rfl
@[simp] theorem State.delFrame_sec (s : State) (n : Nat) : (s.delFrame n).sec = s.sec := rfl
@[simp] theorem State.delFrame_sv (s : State) (n : Nat) : (s.delFrame n).sv = s.sv := rfl
@[simp] theorem State.delFrame_swa (s : State) (n : Nat) : (s.delFrame n).swa = s.swa := rfl
@[simp] theorem State.delFrame_flash (s : State) (n : Nat) : (s.delFrame n).flash = s.flash := rfl
@[simp] theorem State.delFrame_hst (s : State) (n : Nat) : (s.delFrame n).hst = s.hst := rfl

-- setStream
@[simp] theorem State.setStream_part (s : State) (k : Nat) (x : Stream) : (s.setStream k x).part = s.part := rfl
@[simp] theorem State.setStream_now (s : State) (k : Nat) (x : Stream) : (s.setStream k x).now = s.now := rfl
@[simp] theorem State.setStream_pending (s : State) (k : Nat) (x : Stream) : (s.setStream k x).pending = s.pending := rfl
@[simp] theorem State.setStream_fresh (s : State) (k : Nat) (x : Stream) : (s.setStream k x).fresh = s.fresh := rfl
@[simp] theorem State.setStream_out (s : State) (k : Nat) (x : Stream) : (s.setStream k x).out = s.out := rfl
@[simp] theorem State.setStream_regs (s : State) (k : Nat) (x : Stream) : (s.setStream k x).regs = s.regs := rfl
@[simp] theorem State.setStream_ctrs (s : State) (k : Nat) (x : Stream) : (s.setStream k x).ctrs = s.ctrs := rfl
@[simp] theorem State.setStream_md (s : State) (k : Nat) (x : Stream) : (s.setStream k x).md = s.md := rfl
@[simp] theorem State.setStream_doms (s : State) (k : Nat) (x : Stream) : (s.setStream k x).doms = s.doms := rfl
@[simp] theorem State.setStream_evs (s : State) (k : Nat) (x : Stream) : (s.setStream k x).evs = s.evs := rfl
@[simp] theorem State.setStream_evDone (s : State) (k : Nat) (x : Stream) : (s.setStream k x).evDone = s.evDone := rfl
@[simp] theorem State.setStream_tio (s : State) (k : Nat) (x : Stream) : (s.setStream k x).tio = s.tio := rfl
@[simp] theorem State.setStream_odoms (s : State) (k : Nat) (x : Stream) : (s.setStream k x).odoms = s.odoms := rfl
@[simp] theorem State.setStream_car (s : State) (k : Nat) (x : Stream) : (s.setStream k x).car = s.car := rfl
@[simp] theorem State.setStream_lls (s : State) (k : Nat) (x : Stream) : (s.setStream k x).lls = s.lls := rfl
@[simp] theorem State.setStream_strands (s : State) (k : Nat) (x : Stream) : (s.setStream k x).strands = s.strands := rfl
@[simp] theorem State.setStream_yrn (s : State) (k : Nat) (x : Stream) : (s.setStream k x).yrn = s.yrn := rfl
@[simp] theorem State.setStream_flwA (s : State) (k : Nat) (x : Stream) : (s.setStream k x).flwA = s.flwA := rfl
@[simp] theorem State.setStream_flwB (s : State) (k : Nat) (x : Stream) : (s.setStream k x).flwB = s.flwB := rfl
@[simp] theorem State.setStream_skn (s : State) (k : Nat) (x : Stream) : (s.setStream k x).skn = s.skn := rfl
@[simp] theorem State.setStream_mem (s : State) (k : Nat) (x : Stream) : (s.setStream k x).mem = s.mem := rfl
@[simp] theorem State.setStream_flt (s : State) (k : Nat) (x : Stream) : (s.setStream k x).flt = s.flt := rfl
@[simp] theorem State.setStream_drm (s : State) (k : Nat) (x : Stream) : (s.setStream k x).drm = s.drm := rfl
@[simp] theorem State.setStream_rcd (s : State) (k : Nat) (x : Stream) : (s.setStream k x).rcd = s.rcd := rfl
@[simp] theorem State.setStream_chr (s : State) (k : Nat) (x : Stream) : (s.setStream k x).chr = s.chr := rfl
@[simp] theorem State.setStream_tbl (s : State) (k : Nat) (x : Stream) : (s.setStream k x).tbl = s.tbl := rfl
@[simp] theorem State.setStream_sec (s : State) (k : Nat) (x : Stream) : (s.setStream k x).sec = s.sec := rfl
@[simp] theorem State.setStream_sv (s : State) (k : Nat) (x : Stream) : (s.setStream k x).sv = s.sv := rfl
@[simp] theorem State.setStream_swa (s : State) (k : Nat) (x : Stream) : (s.setStream k x).swa = s.swa := rfl
@[simp] theorem State.setStream_flash (s : State) (k : Nat) (x : Stream) : (s.setStream k x).flash = s.flash := rfl
@[simp] theorem State.setStream_hst (s : State) (k : Nat) (x : Stream) : (s.setStream k x).hst = s.hst := rfl

-- setSlot
@[simp] theorem State.setSlot_part (s : State) (p i : Nat) (r : Recov) : (s.setSlot p i r).part = s.part := rfl
@[simp] theorem State.setSlot_now (s : State) (p i : Nat) (r : Recov) : (s.setSlot p i r).now = s.now := rfl
@[simp] theorem State.setSlot_pending (s : State) (p i : Nat) (r : Recov) : (s.setSlot p i r).pending = s.pending := rfl
@[simp] theorem State.setSlot_fresh (s : State) (p i : Nat) (r : Recov) : (s.setSlot p i r).fresh = s.fresh := rfl
@[simp] theorem State.setSlot_out (s : State) (p i : Nat) (r : Recov) : (s.setSlot p i r).out = s.out := rfl
@[simp] theorem State.setSlot_regs (s : State) (p i : Nat) (r : Recov) : (s.setSlot p i r).regs = s.regs := rfl
@[simp] theorem State.setSlot_ctrs (s : State) (p i : Nat) (r : Recov) : (s.setSlot p i r).ctrs = s.ctrs := rfl
@[simp] theorem State.setSlot_md (s : State) (p i : Nat) (r : Recov) : (s.setSlot p i r).md = s.md := rfl
@[simp] theorem State.setSlot_doms (s : State) (p i : Nat) (r : Recov) : (s.setSlot p i r).doms = s.doms := rfl
@[simp] theorem State.setSlot_evs (s : State) (p i : Nat) (r : Recov) : (s.setSlot p i r).evs = s.evs := rfl
@[simp] theorem State.setSlot_evDone (s : State) (p i : Nat) (r : Recov) : (s.setSlot p i r).evDone = s.evDone := rfl
@[simp] theorem State.setSlot_tio (s : State) (p i : Nat) (r : Recov) : (s.setSlot p i r).tio = s.tio := rfl
@[simp] theorem State.setSlot_odoms (s : State) (p i : Nat) (r : Recov) : (s.setSlot p i r).odoms = s.odoms := rfl
@[simp] theorem State.setSlot_car (s : State) (p i : Nat) (r : Recov) : (s.setSlot p i r).car = s.car := rfl
@[simp] theorem State.setSlot_lls (s : State) (p i : Nat) (r : Recov) : (s.setSlot p i r).lls = s.lls := rfl
@[simp] theorem State.setSlot_strands (s : State) (p i : Nat) (r : Recov) : (s.setSlot p i r).strands = s.strands := rfl
@[simp] theorem State.setSlot_yrn (s : State) (p i : Nat) (r : Recov) : (s.setSlot p i r).yrn = s.yrn := rfl
@[simp] theorem State.setSlot_flwA (s : State) (p i : Nat) (r : Recov) : (s.setSlot p i r).flwA = s.flwA := rfl
@[simp] theorem State.setSlot_flwB (s : State) (p i : Nat) (r : Recov) : (s.setSlot p i r).flwB = s.flwB := rfl
@[simp] theorem State.setSlot_skn (s : State) (p i : Nat) (r : Recov) : (s.setSlot p i r).skn = s.skn := rfl
@[simp] theorem State.setSlot_mem (s : State) (p i : Nat) (r : Recov) : (s.setSlot p i r).mem = s.mem := rfl
@[simp] theorem State.setSlot_drm (s : State) (p i : Nat) (r : Recov) : (s.setSlot p i r).drm = s.drm := rfl
@[simp] theorem State.setSlot_rcd (s : State) (p i : Nat) (r : Recov) : (s.setSlot p i r).rcd = s.rcd := rfl
@[simp] theorem State.setSlot_chr (s : State) (p i : Nat) (r : Recov) : (s.setSlot p i r).chr = s.chr := rfl
@[simp] theorem State.setSlot_tbl (s : State) (p i : Nat) (r : Recov) : (s.setSlot p i r).tbl = s.tbl := rfl
@[simp] theorem State.setSlot_sec (s : State) (p i : Nat) (r : Recov) : (s.setSlot p i r).sec = s.sec := rfl
@[simp] theorem State.setSlot_sv (s : State) (p i : Nat) (r : Recov) : (s.setSlot p i r).sv = s.sv := rfl
@[simp] theorem State.setSlot_swa (s : State) (p i : Nat) (r : Recov) : (s.setSlot p i r).swa = s.swa := rfl
@[simp] theorem State.setSlot_flash (s : State) (p i : Nat) (r : Recov) : (s.setSlot p i r).flash = s.flash := rfl
@[simp] theorem State.setSlot_swt (s : State) (p i : Nat) (r : Recov) : (s.setSlot p i r).swt = s.swt := rfl
@[simp] theorem State.setSlot_hst (s : State) (p i : Nat) (r : Recov) : (s.setSlot p i r).hst = s.hst := rfl

-- setErrQueue
@[simp] theorem State.setErrQueue_part (s : State) (p : Nat) (l : List Recov) : (s.setErrQueue p l).part = s.part := rfl
@[simp] theorem State.setErrQueue_now (s : State) (p : Nat) (l : List Recov) : (s.setErrQueue p l).now = s.now := rfl
@[simp] theorem State.setErrQueue_pending (s : State) (p : Nat) (l : List Recov) : (s.setErrQueue p l).pending = s.pending := rfl
@[simp] theorem State.setErrQueue_fresh (s : State) (p : Nat) (l : List Recov) : (s.setErrQueue p l).fresh = s.fresh := rfl
@[simp] theorem State.setErrQueue_out (s : State) (p : Nat) (l : List Recov) : (s.setErrQueue p l).out = s.out := rfl
@[simp] theorem State.setErrQueue_regs (s : State) (p : Nat) (l : List Recov) : (s.setErrQueue p l).regs = s.regs := rfl
@[simp] theorem State.setErrQueue_ctrs (s : State) (p : Nat) (l : List Recov) : (s.setErrQueue p l).ctrs = s.ctrs := rfl
@[simp] theorem State.setErrQueue_md (s : State) (p : Nat) (l : List Recov) : (s.setErrQueue p l).md = s.md := rfl
@[simp] theorem State.setErrQueue_doms (s : State) (p : Nat) (l : List Recov) : (s.setErrQueue p l).doms = s.doms := rfl
@[simp] theorem State.setErrQueue_evs (s : State) (p : Nat) (l : List Recov) : (s.setErrQueue p l).evs = s.evs := rfl
@[simp] theorem State.setErrQueue_evDone (s : State) (p : Nat) (l : List Recov) : (s.setErrQueue p l).evDone = s.evDone := rfl
@[simp] theorem State.setErrQueue_tio (s : State) (p : Nat) (l : List Recov) : (s.setErrQueue p l).tio = s.tio := rfl
@[simp] theorem State.setErrQueue_odoms (s : State) (p : Nat) (l : List Recov) : (s.setErrQueue p l).odoms = s.odoms := rfl
@[simp] theorem State.setErrQueue_car (s : State) (p : Nat) (l : List Recov) : (s.setErrQueue p l).car = s.car := rfl
@[simp] theorem State.setErrQueue_lls (s : State) (p : Nat) (l : List Recov) : (s.setErrQueue p l).lls = s.lls := rfl
@[simp] theorem State.setErrQueue_strands (s : State) (p : Nat) (l : List Recov) : (s.setErrQueue p l).strands = s.strands := rfl
@[simp] theorem State.setErrQueue_yrn (s : State) (p : Nat) (l : List Recov) : (s.setErrQueue p l).yrn = s.yrn := rfl
@[simp] theorem State.setErrQueue_flwA (s : State) (p : Nat) (l : List Recov) : (s.setErrQueue p l).flwA = s.flwA := rfl
@[simp] theorem State.setErrQueue_flwB (s : State) (p : Nat) (l : List Recov) : (s.setErrQueue p l).flwB = s.flwB := rfl
@[simp] theorem State.setErrQueue_skn (s : State) (p : Nat) (l : List Recov) : (s.setErrQueue p l).skn = s.skn := rfl
@[simp] theorem State.setErrQueue_mem (s : State) (p : Nat) (l : List Recov) : (s.setErrQueue p l).mem = s.mem := rfl
@[simp] theorem State.setErrQueue_drm (s : State) (p : Nat) (l : List Recov) : (s.setErrQueue p l).drm = s.drm := rfl
@[simp] theorem State.setErrQueue_rcd (s : State) (p : Nat) (l : List Recov) : (s.setErrQueue p l).rcd = s.rcd := rfl
@[simp] theorem State.setErrQueue_chr (s : State) (p : Nat) (l : List Recov) : (s.setErrQueue p l).chr = s.chr := rfl
@[simp] theorem State.setErrQueue_tbl (s : State) (p : Nat) (l : List Recov) : (s.setErrQueue p l).tbl = s.tbl := rfl
@[simp] theorem State.setErrQueue_sec (s : State) (p : Nat) (l : List Recov) : (s.setErrQueue p l).sec = s.sec := rfl
@[simp] theorem State.setErrQueue_sv (s : State) (p : Nat) (l : List Recov) : (s.setErrQueue p l).sv = s.sv := rfl
@[simp] theorem State.setErrQueue_swa (s : State) (p : Nat) (l : List Recov) : (s.setErrQueue p l).swa = s.swa := rfl
@[simp] theorem State.setErrQueue_flash (s : State) (p : Nat) (l : List Recov) : (s.setErrQueue p l).flash = s.flash := rfl
@[simp] theorem State.setErrQueue_swt (s : State) (p : Nat) (l : List Recov) : (s.setErrQueue p l).swt = s.swt := rfl
@[simp] theorem State.setErrQueue_hst (s : State) (p : Nat) (l : List Recov) : (s.setErrQueue p l).hst = s.hst := rfl

-- setEv
@[simp] theorem State.setEv_part (s : State) (e : Ev) (r : Option Ev) : (s.setEv e r).part = s.part := rfl
@[simp] theorem State.setEv_now (s : State) (e : Ev) (r : Option Ev) : (s.setEv e r).now = s.now := rfl
@[simp] theorem State.setEv_pending (s : State) (e : Ev) (r : Option Ev) : (s.setEv e r).pending = s.pending := rfl
@[simp] theorem State.setEv_fresh (s : State) (e : Ev) (r : Option Ev) : (s.setEv e r).fresh = s.fresh := rfl
@[simp] theorem State.setEv_out (s : State) (e : Ev) (r : Option Ev) : (s.setEv e r).out = s.out := rfl
@[simp] theorem State.setEv_regs (s : State) (e : Ev) (r : Option Ev) : (s.setEv e r).regs = s.regs := rfl
@[simp] theorem State.setEv_ctrs (s : State) (e : Ev) (r : Option Ev) : (s.setEv e r).ctrs = s.ctrs := rfl
@[simp] theorem State.setEv_md (s : State) (e : Ev) (r : Option Ev) : (s.setEv e r).md = s.md := rfl
@[simp] theorem State.setEv_doms (s : State) (e : Ev) (r : Option Ev) : (s.setEv e r).doms = s.doms := rfl
@[simp] theorem State.setEv_evDone (s : State) (e : Ev) (r : Option Ev) : (s.setEv e r).evDone = s.evDone := rfl
@[simp] theorem State.setEv_tio (s : State) (e : Ev) (r : Option Ev) : (s.setEv e r).tio = s.tio := rfl
@[simp] theorem State.setEv_odoms (s : State) (e : Ev) (r : Option Ev) : (s.setEv e r).odoms = s.odoms := rfl
@[simp] theorem State.setEv_car (s : State) (e : Ev) (r : Option Ev) : (s.setEv e r).car = s.car := rfl
@[simp] theorem State.setEv_lls (s : State) (e : Ev) (r : Option Ev) : (s.setEv e r).lls = s.lls := rfl
@[simp] theorem State.setEv_strands (s : State) (e : Ev) (r : Option Ev) : (s.setEv e r).strands = s.strands := rfl
@[simp] theorem State.setEv_yrn (s : State) (e : Ev) (r : Option Ev) : (s.setEv e r).yrn = s.yrn := rfl
@[simp] theorem State.setEv_flwA (s : State) (e : Ev) (r : Option Ev) : (s.setEv e r).flwA = s.flwA := rfl
@[simp] theorem State.setEv_flwB (s : State) (e : Ev) (r : Option Ev) : (s.setEv e r).flwB = s.flwB := rfl
@[simp] theorem State.setEv_skn (s : State) (e : Ev) (r : Option Ev) : (s.setEv e r).skn = s.skn := rfl
@[simp] theorem State.setEv_mem (s : State) (e : Ev) (r : Option Ev) : (s.setEv e r).mem = s.mem := rfl
@[simp] theorem State.setEv_flt (s : State) (e : Ev) (r : Option Ev) : (s.setEv e r).flt = s.flt := rfl
@[simp] theorem State.setEv_drm (s : State) (e : Ev) (r : Option Ev) : (s.setEv e r).drm = s.drm := rfl
@[simp] theorem State.setEv_rcd (s : State) (e : Ev) (r : Option Ev) : (s.setEv e r).rcd = s.rcd := rfl
@[simp] theorem State.setEv_chr (s : State) (e : Ev) (r : Option Ev) : (s.setEv e r).chr = s.chr := rfl
@[simp] theorem State.setEv_tbl (s : State) (e : Ev) (r : Option Ev) : (s.setEv e r).tbl = s.tbl := rfl
@[simp] theorem State.setEv_sec (s : State) (e : Ev) (r : Option Ev) : (s.setEv e r).sec = s.sec := rfl
@[simp] theorem State.setEv_sv (s : State) (e : Ev) (r : Option Ev) : (s.setEv e r).sv = s.sv := rfl
@[simp] theorem State.setEv_swa (s : State) (e : Ev) (r : Option Ev) : (s.setEv e r).swa = s.swa := rfl
@[simp] theorem State.setEv_flash (s : State) (e : Ev) (r : Option Ev) : (s.setEv e r).flash = s.flash := rfl
@[simp] theorem State.setEv_swt (s : State) (e : Ev) (r : Option Ev) : (s.setEv e r).swt = s.swt := rfl
@[simp] theorem State.setEv_hst (s : State) (e : Ev) (r : Option Ev) : (s.setEv e r).hst = s.hst := rfl

-- setBankW
@[simp] theorem State.setBankW_part (s : State) (slot w : Nat) (v : Word) : (s.setBankW slot w v).part = s.part := rfl
@[simp] theorem State.setBankW_now (s : State) (slot w : Nat) (v : Word) : (s.setBankW slot w v).now = s.now := rfl
@[simp] theorem State.setBankW_pending (s : State) (slot w : Nat) (v : Word) : (s.setBankW slot w v).pending = s.pending := rfl
@[simp] theorem State.setBankW_fresh (s : State) (slot w : Nat) (v : Word) : (s.setBankW slot w v).fresh = s.fresh := rfl
@[simp] theorem State.setBankW_out (s : State) (slot w : Nat) (v : Word) : (s.setBankW slot w v).out = s.out := rfl
@[simp] theorem State.setBankW_regs (s : State) (slot w : Nat) (v : Word) : (s.setBankW slot w v).regs = s.regs := rfl
@[simp] theorem State.setBankW_ctrs (s : State) (slot w : Nat) (v : Word) : (s.setBankW slot w v).ctrs = s.ctrs := rfl
@[simp] theorem State.setBankW_md (s : State) (slot w : Nat) (v : Word) : (s.setBankW slot w v).md = s.md := rfl
@[simp] theorem State.setBankW_doms (s : State) (slot w : Nat) (v : Word) : (s.setBankW slot w v).doms = s.doms := rfl
@[simp] theorem State.setBankW_evs (s : State) (slot w : Nat) (v : Word) : (s.setBankW slot w v).evs = s.evs := rfl
@[simp] theorem State.setBankW_evDone (s : State) (slot w : Nat) (v : Word) : (s.setBankW slot w v).evDone = s.evDone := rfl
@[simp] theorem State.setBankW_tio (s : State) (slot w : Nat) (v : Word) : (s.setBankW slot w v).tio = s.tio := rfl
@[simp] theorem State.setBankW_odoms (s : State) (slot w : Nat) (v : Word) : (s.setBankW slot w v).odoms = s.odoms := rfl
@[simp] theorem State.setBankW_car (s : State) (slot w : Nat) (v : Word) : (s.setBankW slot w v).car = s.car := rfl
@[simp] theorem State.setBankW_lls (s : State) (slot w : Nat) (v : Word) : (s.setBankW slot w v).lls = s.lls := rfl
@[simp] theorem State.setBankW_strands (s : State) (slot w : Nat) (v : Word) : (s.setBankW slot w v).strands = s.strands := rfl
@[simp] theorem State.setBankW_yrn (s : State) (slot w : Nat) (v : Word) : (s.setBankW slot w v).yrn = s.yrn := rfl
@[simp] theorem State.setBankW_flwA (s : State) (slot w : Nat) (v : Word) : (s.setBankW slot w v).flwA = s.flwA := rfl
@[simp] theorem State.setBankW_flwB (s : State) (slot w : Nat) (v : Word) : (s.setBankW slot w v).flwB = s.flwB := rfl
@[simp] theorem State.setBankW_skn (s : State) (slot w : Nat) (v : Word) : (s.setBankW slot w v).skn = s.skn := rfl
@[simp] theorem State.setBankW_mem (s : State) (slot w : Nat) (v : Word) : (s.setBankW slot w v).mem = s.mem := rfl
@[simp] theorem State.setBankW_flt (s : State) (slot w : Nat) (v : Word) : (s.setBankW slot w v).flt = s.flt := rfl
@[simp] theorem State.setBankW_drm (s : State) (slot w : Nat) (v : Word) : (s.setBankW slot w v).drm = s.drm := rfl
@[simp] theorem State.setBankW_rcd (s : State) (slot w : Nat) (v : Word) : (s.setBankW slot w v).rcd = s.rcd := rfl
@[simp] theorem State.setBankW_tbl (s : State) (slot w : Nat) (v : Word) : (s.setBankW slot w v).tbl = s.tbl := rfl
@[simp] theorem State.setBankW_sec (s : State) (slot w : Nat) (v : Word) : (s.setBankW slot w v).sec = s.sec := rfl
@[simp] theorem State.setBankW_sv (s : State) (slot w : Nat) (v : Word) : (s.setBankW slot w v).sv = s.sv := rfl
@[simp] theorem State.setBankW_swa (s : State) (slot w : Nat) (v : Word) : (s.setBankW slot w v).swa = s.swa := rfl
@[simp] theorem State.setBankW_flash (s : State) (slot w : Nat) (v : Word) : (s.setBankW slot w v).flash = s.flash := rfl
@[simp] theorem State.setBankW_swt (s : State) (slot w : Nat) (v : Word) : (s.setBankW slot w v).swt = s.swt := rfl
@[simp] theorem State.setBankW_hst (s : State) (slot w : Nat) (v : Word) : (s.setBankW slot w v).hst = s.hst := rfl

-- setAttn
@[simp] theorem State.setAttn_part (s : State) (n : Nat) : (s.setAttn n).part = s.part := rfl
@[simp] theorem State.setAttn_now (s : State) (n : Nat) : (s.setAttn n).now = s.now := rfl
@[simp] theorem State.setAttn_pending (s : State) (n : Nat) : (s.setAttn n).pending = s.pending := rfl
@[simp] theorem State.setAttn_fresh (s : State) (n : Nat) : (s.setAttn n).fresh = s.fresh := rfl
@[simp] theorem State.setAttn_out (s : State) (n : Nat) : (s.setAttn n).out = s.out := rfl
@[simp] theorem State.setAttn_ctrs (s : State) (n : Nat) : (s.setAttn n).ctrs = s.ctrs := rfl
@[simp] theorem State.setAttn_md (s : State) (n : Nat) : (s.setAttn n).md = s.md := rfl
@[simp] theorem State.setAttn_doms (s : State) (n : Nat) : (s.setAttn n).doms = s.doms := rfl
@[simp] theorem State.setAttn_evs (s : State) (n : Nat) : (s.setAttn n).evs = s.evs := rfl
@[simp] theorem State.setAttn_evDone (s : State) (n : Nat) : (s.setAttn n).evDone = s.evDone := rfl
@[simp] theorem State.setAttn_tio (s : State) (n : Nat) : (s.setAttn n).tio = s.tio := rfl
@[simp] theorem State.setAttn_odoms (s : State) (n : Nat) : (s.setAttn n).odoms = s.odoms := rfl
@[simp] theorem State.setAttn_car (s : State) (n : Nat) : (s.setAttn n).car = s.car := rfl
@[simp] theorem State.setAttn_lls (s : State) (n : Nat) : (s.setAttn n).lls = s.lls := rfl
@[simp] theorem State.setAttn_strands (s : State) (n : Nat) : (s.setAttn n).strands = s.strands := rfl
@[simp] theorem State.setAttn_yrn (s : State) (n : Nat) : (s.setAttn n).yrn = s.yrn := rfl
@[simp] theorem State.setAttn_flwA (s : State) (n : Nat) : (s.setAttn n).flwA = s.flwA := rfl
@[simp] theorem State.setAttn_flwB (s : State) (n : Nat) : (s.setAttn n).flwB = s.flwB := rfl
@[simp] theorem State.setAttn_skn (s : State) (n : Nat) : (s.setAttn n).skn = s.skn := rfl
@[simp] theorem State.setAttn_mem (s : State) (n : Nat) : (s.setAttn n).mem = s.mem := rfl
@[simp] theorem State.setAttn_flt (s : State) (n : Nat) : (s.setAttn n).flt = s.flt := rfl
@[simp] theorem State.setAttn_drm (s : State) (n : Nat) : (s.setAttn n).drm = s.drm := rfl
@[simp] theorem State.setAttn_rcd (s : State) (n : Nat) : (s.setAttn n).rcd = s.rcd := rfl
@[simp] theorem State.setAttn_chr (s : State) (n : Nat) : (s.setAttn n).chr = s.chr := rfl
@[simp] theorem State.setAttn_tbl (s : State) (n : Nat) : (s.setAttn n).tbl = s.tbl := rfl
@[simp] theorem State.setAttn_sec (s : State) (n : Nat) : (s.setAttn n).sec = s.sec := rfl
@[simp] theorem State.setAttn_sv (s : State) (n : Nat) : (s.setAttn n).sv = s.sv := rfl
@[simp] theorem State.setAttn_swa (s : State) (n : Nat) : (s.setAttn n).swa = s.swa := rfl
@[simp] theorem State.setAttn_flash (s : State) (n : Nat) : (s.setAttn n).flash = s.flash := rfl
@[simp] theorem State.setAttn_swt (s : State) (n : Nat) : (s.setAttn n).swt = s.swt := rfl
@[simp] theorem State.setAttn_hst (s : State) (n : Nat) : (s.setAttn n).hst = s.hst := rfl

-- wreg
@[simp] theorem State.wreg_part (s : State) (t r : Nat) (v : Word) : (s.wreg t r v).part = s.part := rfl
@[simp] theorem State.wreg_now (s : State) (t r : Nat) (v : Word) : (s.wreg t r v).now = s.now := rfl
@[simp] theorem State.wreg_pending (s : State) (t r : Nat) (v : Word) : (s.wreg t r v).pending = s.pending := rfl
@[simp] theorem State.wreg_fresh (s : State) (t r : Nat) (v : Word) : (s.wreg t r v).fresh = s.fresh := rfl
@[simp] theorem State.wreg_out (s : State) (t r : Nat) (v : Word) : (s.wreg t r v).out = s.out := rfl
@[simp] theorem State.wreg_regs (s : State) (t r : Nat) (v : Word) : (s.wreg t r v).regs = s.regs := rfl
@[simp] theorem State.wreg_ctrs (s : State) (t r : Nat) (v : Word) : (s.wreg t r v).ctrs = s.ctrs := rfl
@[simp] theorem State.wreg_md (s : State) (t r : Nat) (v : Word) : (s.wreg t r v).md = s.md := rfl
@[simp] theorem State.wreg_doms (s : State) (t r : Nat) (v : Word) : (s.wreg t r v).doms = s.doms := rfl
@[simp] theorem State.wreg_evs (s : State) (t r : Nat) (v : Word) : (s.wreg t r v).evs = s.evs := rfl
@[simp] theorem State.wreg_evDone (s : State) (t r : Nat) (v : Word) : (s.wreg t r v).evDone = s.evDone := rfl
@[simp] theorem State.wreg_tio (s : State) (t r : Nat) (v : Word) : (s.wreg t r v).tio = s.tio := rfl
@[simp] theorem State.wreg_odoms (s : State) (t r : Nat) (v : Word) : (s.wreg t r v).odoms = s.odoms := rfl
@[simp] theorem State.wreg_car (s : State) (t r : Nat) (v : Word) : (s.wreg t r v).car = s.car := rfl
@[simp] theorem State.wreg_lls (s : State) (t r : Nat) (v : Word) : (s.wreg t r v).lls = s.lls := rfl
@[simp] theorem State.wreg_yrn (s : State) (t r : Nat) (v : Word) : (s.wreg t r v).yrn = s.yrn := rfl
@[simp] theorem State.wreg_flwA (s : State) (t r : Nat) (v : Word) : (s.wreg t r v).flwA = s.flwA := rfl
@[simp] theorem State.wreg_flwB (s : State) (t r : Nat) (v : Word) : (s.wreg t r v).flwB = s.flwB := rfl
@[simp] theorem State.wreg_skn (s : State) (t r : Nat) (v : Word) : (s.wreg t r v).skn = s.skn := rfl
@[simp] theorem State.wreg_mem (s : State) (t r : Nat) (v : Word) : (s.wreg t r v).mem = s.mem := rfl
@[simp] theorem State.wreg_flt (s : State) (t r : Nat) (v : Word) : (s.wreg t r v).flt = s.flt := rfl
@[simp] theorem State.wreg_drm (s : State) (t r : Nat) (v : Word) : (s.wreg t r v).drm = s.drm := rfl
@[simp] theorem State.wreg_rcd (s : State) (t r : Nat) (v : Word) : (s.wreg t r v).rcd = s.rcd := rfl
@[simp] theorem State.wreg_chr (s : State) (t r : Nat) (v : Word) : (s.wreg t r v).chr = s.chr := rfl
@[simp] theorem State.wreg_tbl (s : State) (t r : Nat) (v : Word) : (s.wreg t r v).tbl = s.tbl := rfl
@[simp] theorem State.wreg_sec (s : State) (t r : Nat) (v : Word) : (s.wreg t r v).sec = s.sec := rfl
@[simp] theorem State.wreg_sv (s : State) (t r : Nat) (v : Word) : (s.wreg t r v).sv = s.sv := rfl
@[simp] theorem State.wreg_swa (s : State) (t r : Nat) (v : Word) : (s.wreg t r v).swa = s.swa := rfl
@[simp] theorem State.wreg_flash (s : State) (t r : Nat) (v : Word) : (s.wreg t r v).flash = s.flash := rfl
@[simp] theorem State.wreg_swt (s : State) (t r : Nat) (v : Word) : (s.wreg t r v).swt = s.swt := rfl
@[simp] theorem State.wreg_hst (s : State) (t r : Nat) (v : Word) : (s.wreg t r v).hst = s.hst := rfl

-- wpred
@[simp] theorem State.wpred_part (s : State) (t p : Nat) (v : Bool) : (s.wpred t p v).part = s.part := rfl
@[simp] theorem State.wpred_now (s : State) (t p : Nat) (v : Bool) : (s.wpred t p v).now = s.now := rfl
@[simp] theorem State.wpred_pending (s : State) (t p : Nat) (v : Bool) : (s.wpred t p v).pending = s.pending := rfl
@[simp] theorem State.wpred_fresh (s : State) (t p : Nat) (v : Bool) : (s.wpred t p v).fresh = s.fresh := rfl
@[simp] theorem State.wpred_out (s : State) (t p : Nat) (v : Bool) : (s.wpred t p v).out = s.out := rfl
@[simp] theorem State.wpred_regs (s : State) (t p : Nat) (v : Bool) : (s.wpred t p v).regs = s.regs := rfl
@[simp] theorem State.wpred_ctrs (s : State) (t p : Nat) (v : Bool) : (s.wpred t p v).ctrs = s.ctrs := rfl
@[simp] theorem State.wpred_md (s : State) (t p : Nat) (v : Bool) : (s.wpred t p v).md = s.md := rfl
@[simp] theorem State.wpred_doms (s : State) (t p : Nat) (v : Bool) : (s.wpred t p v).doms = s.doms := rfl
@[simp] theorem State.wpred_evs (s : State) (t p : Nat) (v : Bool) : (s.wpred t p v).evs = s.evs := rfl
@[simp] theorem State.wpred_evDone (s : State) (t p : Nat) (v : Bool) : (s.wpred t p v).evDone = s.evDone := rfl
@[simp] theorem State.wpred_tio (s : State) (t p : Nat) (v : Bool) : (s.wpred t p v).tio = s.tio := rfl
@[simp] theorem State.wpred_odoms (s : State) (t p : Nat) (v : Bool) : (s.wpred t p v).odoms = s.odoms := rfl
@[simp] theorem State.wpred_car (s : State) (t p : Nat) (v : Bool) : (s.wpred t p v).car = s.car := rfl
@[simp] theorem State.wpred_lls (s : State) (t p : Nat) (v : Bool) : (s.wpred t p v).lls = s.lls := rfl
@[simp] theorem State.wpred_yrn (s : State) (t p : Nat) (v : Bool) : (s.wpred t p v).yrn = s.yrn := rfl
@[simp] theorem State.wpred_flwA (s : State) (t p : Nat) (v : Bool) : (s.wpred t p v).flwA = s.flwA := rfl
@[simp] theorem State.wpred_flwB (s : State) (t p : Nat) (v : Bool) : (s.wpred t p v).flwB = s.flwB := rfl
@[simp] theorem State.wpred_skn (s : State) (t p : Nat) (v : Bool) : (s.wpred t p v).skn = s.skn := rfl
@[simp] theorem State.wpred_mem (s : State) (t p : Nat) (v : Bool) : (s.wpred t p v).mem = s.mem := rfl
@[simp] theorem State.wpred_flt (s : State) (t p : Nat) (v : Bool) : (s.wpred t p v).flt = s.flt := rfl
@[simp] theorem State.wpred_drm (s : State) (t p : Nat) (v : Bool) : (s.wpred t p v).drm = s.drm := rfl
@[simp] theorem State.wpred_rcd (s : State) (t p : Nat) (v : Bool) : (s.wpred t p v).rcd = s.rcd := rfl
@[simp] theorem State.wpred_chr (s : State) (t p : Nat) (v : Bool) : (s.wpred t p v).chr = s.chr := rfl
@[simp] theorem State.wpred_tbl (s : State) (t p : Nat) (v : Bool) : (s.wpred t p v).tbl = s.tbl := rfl
@[simp] theorem State.wpred_sec (s : State) (t p : Nat) (v : Bool) : (s.wpred t p v).sec = s.sec := rfl
@[simp] theorem State.wpred_sv (s : State) (t p : Nat) (v : Bool) : (s.wpred t p v).sv = s.sv := rfl
@[simp] theorem State.wpred_swa (s : State) (t p : Nat) (v : Bool) : (s.wpred t p v).swa = s.swa := rfl
@[simp] theorem State.wpred_flash (s : State) (t p : Nat) (v : Bool) : (s.wpred t p v).flash = s.flash := rfl
@[simp] theorem State.wpred_swt (s : State) (t p : Nat) (v : Bool) : (s.wpred t p v).swt = s.swt := rfl
@[simp] theorem State.wpred_hst (s : State) (t p : Nat) (v : Bool) : (s.wpred t p v).hst = s.hst := rfl

-- advance
@[simp] theorem State.advance_part (s : State) (t : Nat) : (s.advance t).part = s.part := rfl
@[simp] theorem State.advance_now (s : State) (t : Nat) : (s.advance t).now = s.now := rfl
@[simp] theorem State.advance_pending (s : State) (t : Nat) : (s.advance t).pending = s.pending := rfl
@[simp] theorem State.advance_fresh (s : State) (t : Nat) : (s.advance t).fresh = s.fresh := rfl
@[simp] theorem State.advance_out (s : State) (t : Nat) : (s.advance t).out = s.out := rfl
@[simp] theorem State.advance_regs (s : State) (t : Nat) : (s.advance t).regs = s.regs := rfl
@[simp] theorem State.advance_ctrs (s : State) (t : Nat) : (s.advance t).ctrs = s.ctrs := rfl
@[simp] theorem State.advance_md (s : State) (t : Nat) : (s.advance t).md = s.md := rfl
@[simp] theorem State.advance_doms (s : State) (t : Nat) : (s.advance t).doms = s.doms := rfl
@[simp] theorem State.advance_evs (s : State) (t : Nat) : (s.advance t).evs = s.evs := rfl
@[simp] theorem State.advance_evDone (s : State) (t : Nat) : (s.advance t).evDone = s.evDone := rfl
@[simp] theorem State.advance_tio (s : State) (t : Nat) : (s.advance t).tio = s.tio := rfl
@[simp] theorem State.advance_odoms (s : State) (t : Nat) : (s.advance t).odoms = s.odoms := rfl
@[simp] theorem State.advance_car (s : State) (t : Nat) : (s.advance t).car = s.car := rfl
@[simp] theorem State.advance_lls (s : State) (t : Nat) : (s.advance t).lls = s.lls := rfl
@[simp] theorem State.advance_yrn (s : State) (t : Nat) : (s.advance t).yrn = s.yrn := rfl
@[simp] theorem State.advance_flwA (s : State) (t : Nat) : (s.advance t).flwA = s.flwA := rfl
@[simp] theorem State.advance_flwB (s : State) (t : Nat) : (s.advance t).flwB = s.flwB := rfl
@[simp] theorem State.advance_skn (s : State) (t : Nat) : (s.advance t).skn = s.skn := rfl
@[simp] theorem State.advance_mem (s : State) (t : Nat) : (s.advance t).mem = s.mem := rfl
@[simp] theorem State.advance_flt (s : State) (t : Nat) : (s.advance t).flt = s.flt := rfl
@[simp] theorem State.advance_drm (s : State) (t : Nat) : (s.advance t).drm = s.drm := rfl
@[simp] theorem State.advance_rcd (s : State) (t : Nat) : (s.advance t).rcd = s.rcd := rfl
@[simp] theorem State.advance_chr (s : State) (t : Nat) : (s.advance t).chr = s.chr := rfl
@[simp] theorem State.advance_tbl (s : State) (t : Nat) : (s.advance t).tbl = s.tbl := rfl
@[simp] theorem State.advance_sec (s : State) (t : Nat) : (s.advance t).sec = s.sec := rfl
@[simp] theorem State.advance_sv (s : State) (t : Nat) : (s.advance t).sv = s.sv := rfl
@[simp] theorem State.advance_swa (s : State) (t : Nat) : (s.advance t).swa = s.swa := rfl
@[simp] theorem State.advance_flash (s : State) (t : Nat) : (s.advance t).flash = s.flash := rfl
@[simp] theorem State.advance_swt (s : State) (t : Nat) : (s.advance t).swt = s.swt := rfl
@[simp] theorem State.advance_hst (s : State) (t : Nat) : (s.advance t).hst = s.hst := rfl

-- enterTrap
@[simp] theorem State.enterTrap_part (s : State) (t : Nat) (c : TCause) (dt hi : Nat) (info addr resume : Word) : (s.enterTrap t c dt hi info addr resume).part = s.part := rfl
@[simp] theorem State.enterTrap_now (s : State) (t : Nat) (c : TCause) (dt hi : Nat) (info addr resume : Word) : (s.enterTrap t c dt hi info addr resume).now = s.now := rfl
@[simp] theorem State.enterTrap_pending (s : State) (t : Nat) (c : TCause) (dt hi : Nat) (info addr resume : Word) : (s.enterTrap t c dt hi info addr resume).pending = s.pending := rfl
@[simp] theorem State.enterTrap_fresh (s : State) (t : Nat) (c : TCause) (dt hi : Nat) (info addr resume : Word) : (s.enterTrap t c dt hi info addr resume).fresh = s.fresh := rfl
@[simp] theorem State.enterTrap_out (s : State) (t : Nat) (c : TCause) (dt hi : Nat) (info addr resume : Word) : (s.enterTrap t c dt hi info addr resume).out = s.out := rfl
@[simp] theorem State.enterTrap_regs (s : State) (t : Nat) (c : TCause) (dt hi : Nat) (info addr resume : Word) : (s.enterTrap t c dt hi info addr resume).regs = s.regs := rfl
@[simp] theorem State.enterTrap_ctrs (s : State) (t : Nat) (c : TCause) (dt hi : Nat) (info addr resume : Word) : (s.enterTrap t c dt hi info addr resume).ctrs = s.ctrs := rfl
@[simp] theorem State.enterTrap_md (s : State) (t : Nat) (c : TCause) (dt hi : Nat) (info addr resume : Word) : (s.enterTrap t c dt hi info addr resume).md = s.md := rfl
@[simp] theorem State.enterTrap_doms (s : State) (t : Nat) (c : TCause) (dt hi : Nat) (info addr resume : Word) : (s.enterTrap t c dt hi info addr resume).doms = s.doms := rfl
@[simp] theorem State.enterTrap_evs (s : State) (t : Nat) (c : TCause) (dt hi : Nat) (info addr resume : Word) : (s.enterTrap t c dt hi info addr resume).evs = s.evs := rfl
@[simp] theorem State.enterTrap_evDone (s : State) (t : Nat) (c : TCause) (dt hi : Nat) (info addr resume : Word) : (s.enterTrap t c dt hi info addr resume).evDone = s.evDone := rfl
@[simp] theorem State.enterTrap_tio (s : State) (t : Nat) (c : TCause) (dt hi : Nat) (info addr resume : Word) : (s.enterTrap t c dt hi info addr resume).tio = s.tio := rfl
@[simp] theorem State.enterTrap_odoms (s : State) (t : Nat) (c : TCause) (dt hi : Nat) (info addr resume : Word) : (s.enterTrap t c dt hi info addr resume).odoms = s.odoms := rfl
@[simp] theorem State.enterTrap_car (s : State) (t : Nat) (c : TCause) (dt hi : Nat) (info addr resume : Word) : (s.enterTrap t c dt hi info addr resume).car = s.car := rfl
@[simp] theorem State.enterTrap_lls (s : State) (t : Nat) (c : TCause) (dt hi : Nat) (info addr resume : Word) : (s.enterTrap t c dt hi info addr resume).lls = s.lls := rfl
@[simp] theorem State.enterTrap_yrn (s : State) (t : Nat) (c : TCause) (dt hi : Nat) (info addr resume : Word) : (s.enterTrap t c dt hi info addr resume).yrn = s.yrn := rfl
@[simp] theorem State.enterTrap_flwA (s : State) (t : Nat) (c : TCause) (dt hi : Nat) (info addr resume : Word) : (s.enterTrap t c dt hi info addr resume).flwA = s.flwA := rfl
@[simp] theorem State.enterTrap_flwB (s : State) (t : Nat) (c : TCause) (dt hi : Nat) (info addr resume : Word) : (s.enterTrap t c dt hi info addr resume).flwB = s.flwB := rfl
@[simp] theorem State.enterTrap_skn (s : State) (t : Nat) (c : TCause) (dt hi : Nat) (info addr resume : Word) : (s.enterTrap t c dt hi info addr resume).skn = s.skn := rfl
@[simp] theorem State.enterTrap_mem (s : State) (t : Nat) (c : TCause) (dt hi : Nat) (info addr resume : Word) : (s.enterTrap t c dt hi info addr resume).mem = s.mem := rfl
@[simp] theorem State.enterTrap_flt (s : State) (t : Nat) (c : TCause) (dt hi : Nat) (info addr resume : Word) : (s.enterTrap t c dt hi info addr resume).flt = s.flt := rfl
@[simp] theorem State.enterTrap_drm (s : State) (t : Nat) (c : TCause) (dt hi : Nat) (info addr resume : Word) : (s.enterTrap t c dt hi info addr resume).drm = s.drm := rfl
@[simp] theorem State.enterTrap_rcd (s : State) (t : Nat) (c : TCause) (dt hi : Nat) (info addr resume : Word) : (s.enterTrap t c dt hi info addr resume).rcd = s.rcd := rfl
@[simp] theorem State.enterTrap_chr (s : State) (t : Nat) (c : TCause) (dt hi : Nat) (info addr resume : Word) : (s.enterTrap t c dt hi info addr resume).chr = s.chr := rfl
@[simp] theorem State.enterTrap_tbl (s : State) (t : Nat) (c : TCause) (dt hi : Nat) (info addr resume : Word) : (s.enterTrap t c dt hi info addr resume).tbl = s.tbl := rfl
@[simp] theorem State.enterTrap_sec (s : State) (t : Nat) (c : TCause) (dt hi : Nat) (info addr resume : Word) : (s.enterTrap t c dt hi info addr resume).sec = s.sec := rfl
@[simp] theorem State.enterTrap_sv (s : State) (t : Nat) (c : TCause) (dt hi : Nat) (info addr resume : Word) : (s.enterTrap t c dt hi info addr resume).sv = s.sv := rfl
@[simp] theorem State.enterTrap_swa (s : State) (t : Nat) (c : TCause) (dt hi : Nat) (info addr resume : Word) : (s.enterTrap t c dt hi info addr resume).swa = s.swa := rfl
@[simp] theorem State.enterTrap_flash (s : State) (t : Nat) (c : TCause) (dt hi : Nat) (info addr resume : Word) : (s.enterTrap t c dt hi info addr resume).flash = s.flash := rfl
@[simp] theorem State.enterTrap_swt (s : State) (t : Nat) (c : TCause) (dt hi : Nat) (info addr resume : Word) : (s.enterTrap t c dt hi info addr resume).swt = s.swt := rfl
@[simp] theorem State.enterTrap_hst (s : State) (t : Nat) (c : TCause) (dt hi : Nat) (info addr resume : Word) : (s.enterTrap t c dt hi info addr resume).hst = s.hst := rfl

-- returnTrap
@[simp] theorem State.returnTrap_part (s : State) (t : Nat) : (s.returnTrap t).part = s.part := rfl
@[simp] theorem State.returnTrap_now (s : State) (t : Nat) : (s.returnTrap t).now = s.now := rfl
@[simp] theorem State.returnTrap_pending (s : State) (t : Nat) : (s.returnTrap t).pending = s.pending := rfl
@[simp] theorem State.returnTrap_fresh (s : State) (t : Nat) : (s.returnTrap t).fresh = s.fresh := rfl
@[simp] theorem State.returnTrap_out (s : State) (t : Nat) : (s.returnTrap t).out = s.out := rfl
@[simp] theorem State.returnTrap_regs (s : State) (t : Nat) : (s.returnTrap t).regs = s.regs := rfl
@[simp] theorem State.returnTrap_ctrs (s : State) (t : Nat) : (s.returnTrap t).ctrs = s.ctrs := rfl
@[simp] theorem State.returnTrap_md (s : State) (t : Nat) : (s.returnTrap t).md = s.md := rfl
@[simp] theorem State.returnTrap_doms (s : State) (t : Nat) : (s.returnTrap t).doms = s.doms := rfl
@[simp] theorem State.returnTrap_evs (s : State) (t : Nat) : (s.returnTrap t).evs = s.evs := rfl
@[simp] theorem State.returnTrap_evDone (s : State) (t : Nat) : (s.returnTrap t).evDone = s.evDone := rfl
@[simp] theorem State.returnTrap_tio (s : State) (t : Nat) : (s.returnTrap t).tio = s.tio := rfl
@[simp] theorem State.returnTrap_odoms (s : State) (t : Nat) : (s.returnTrap t).odoms = s.odoms := rfl
@[simp] theorem State.returnTrap_car (s : State) (t : Nat) : (s.returnTrap t).car = s.car := rfl
@[simp] theorem State.returnTrap_lls (s : State) (t : Nat) : (s.returnTrap t).lls = s.lls := rfl
@[simp] theorem State.returnTrap_yrn (s : State) (t : Nat) : (s.returnTrap t).yrn = s.yrn := rfl
@[simp] theorem State.returnTrap_flwA (s : State) (t : Nat) : (s.returnTrap t).flwA = s.flwA := rfl
@[simp] theorem State.returnTrap_flwB (s : State) (t : Nat) : (s.returnTrap t).flwB = s.flwB := rfl
@[simp] theorem State.returnTrap_skn (s : State) (t : Nat) : (s.returnTrap t).skn = s.skn := rfl
@[simp] theorem State.returnTrap_mem (s : State) (t : Nat) : (s.returnTrap t).mem = s.mem := rfl
@[simp] theorem State.returnTrap_flt (s : State) (t : Nat) : (s.returnTrap t).flt = s.flt := rfl
@[simp] theorem State.returnTrap_drm (s : State) (t : Nat) : (s.returnTrap t).drm = s.drm := rfl
@[simp] theorem State.returnTrap_rcd (s : State) (t : Nat) : (s.returnTrap t).rcd = s.rcd := rfl
@[simp] theorem State.returnTrap_chr (s : State) (t : Nat) : (s.returnTrap t).chr = s.chr := rfl
@[simp] theorem State.returnTrap_tbl (s : State) (t : Nat) : (s.returnTrap t).tbl = s.tbl := rfl
@[simp] theorem State.returnTrap_sec (s : State) (t : Nat) : (s.returnTrap t).sec = s.sec := rfl
@[simp] theorem State.returnTrap_sv (s : State) (t : Nat) : (s.returnTrap t).sv = s.sv := rfl
@[simp] theorem State.returnTrap_swa (s : State) (t : Nat) : (s.returnTrap t).swa = s.swa := rfl
@[simp] theorem State.returnTrap_flash (s : State) (t : Nat) : (s.returnTrap t).flash = s.flash := rfl
@[simp] theorem State.returnTrap_swt (s : State) (t : Nat) : (s.returnTrap t).swt = s.swt := rfl
@[simp] theorem State.returnTrap_hst (s : State) (t : Nat) : (s.returnTrap t).hst = s.hst := rfl

-- stepDone

end Sys2Proof.Machine
end

