-- ==== Sys2Proof/Laws/Issue.lean ====
section
/-! SUPPORT. What an issue slot can do: the one lemma for an instruction that takes effect, and how strands read after
one strand has been replaced. -/

namespace Sys2Proof.Machine

/-- A strand reads as it was last written. -/
theorem State.strand_setStrand (s : State) (t k : Nat) (x : Strand) (h : SMap.sorted s.strands = true) :
    (s.setStrand t x).strand k = if t = k then x else s.strand k :=
  SMap.get_set s.strands {} t k x h

/-- Writing a strand keeps the order of the strands. -/
theorem State.sorted_setStrand (s : State) (t : Nat) (x : Strand) (h : SMap.sorted s.strands = true) :
    SMap.sorted (s.setStrand t x).strands = true := by
  simp only [State.setStrand, SMap.set]
  split
  · exact SMap.sorted_del t h
  · exact SMap.sorted_put t x h

@[simp] theorem Strand.cur_setCur (x : Strand) (y : Bank) : (x.setCur y).cur = y := by
  cases x with
  | mk _ _ b => cases b <;> rfl

@[simp] theorem Strand.setCur_setCur (x : Strand) (y z : Bank) : (x.setCur y).setCur z = x.setCur z := by
  cases x with
  | mk _ _ b => cases b <;> rfl

@[simp] theorem Strand.setCur_cur (x : Strand) : x.setCur x.cur = x := by
  cases x with
  | mk _ _ b => cases b <;> rfl

/-- One strand replaced, by two writes or by one. -/
theorem State.strand_setStrand_self (s : State) (t : Nat) (x : Strand) (h : SMap.sorted s.strands = true) :
    (s.setStrand t x).strand t = x := by rw [State.strand_setStrand s t t x h, if_pos rfl]

theorem State.setStrand_setStrand (s : State) (t : Nat) (x y : Strand) (h : SMap.sorted s.strands = true) :
    (s.setStrand t x).setStrand t y = s.setStrand t y := by
  have e := SMap.set_set ({} : Strand) t x y h
  show ({ s with strands := SMap.set (SMap.set s.strands {} t x) {} t y } : State) = _
  rw [e]
  rfl

/-- A chain of writes of one strand. -/
theorem Became.trans {s u v : State} {t : Nat} {x y : Strand} (a : Became s u t x) (b : Became u v t y) : Became s v t y := by
  refine ⟨?_, b.2.1, fun k hk => (b.2.2 k hk).trans (a.2.2 k hk)⟩
  have h1 := a.1
  have h2 := b.1
  rw [h2, h1]

/-- Replacing a strand. -/
theorem became_setStrand (s : State) (t : Nat) (x : Strand) (h : SMap.sorted s.strands = true) : Became s (s.setStrand t x) t x :=
  ⟨rfl, State.strand_setStrand_self s t x h, fun k hk => by rw [State.strand_setStrand s t k x h, if_neg (Ne.symm hk)]⟩

/-- Replacing the running bank. -/
theorem became_setBank (s : State) (t : Nat) (y : Bank) (h : SMap.sorted s.strands = true) :
    Became s (s.setBank t y) t ((s.strand t).setCur y) := became_setStrand s t _ h

/-- The end of an instruction of a strand that no debugger STEP runs changes nothing. -/
theorem State.stepDone_idle (s : State) (t : Nat) (h : (s.strand t).stepOver = false) : s.stepDone t = s := by
  simp [State.stepDone, h]

/-- `u` is `s` but for the pins, their events and the counters. -/
def PinsOnly (s u : State) : Prop := u = { s with evs := u.evs, evDone := u.evDone, ctrs := u.ctrs, tio := u.tio }

theorem PinsOnly.refl (s : State) : PinsOnly s s := rfl

theorem PinsOnly.trans {s u v : State} (a : PinsOnly s u) (b : PinsOnly u v) : PinsOnly s v := by
  unfold PinsOnly at *
  rw [b, a]

/-- A relation that every update of a list keeps, the whole list keeps. -/
theorem PinsOnly.foldl {α : Type} (f : State → α → State) (h : ∀ s x, PinsOnly s (f s x)) (l : List α) (s : State) :
    PinsOnly s (l.foldl f s) := by
  induction l generalizing s with
  | nil => exact PinsOnly.refl s
  | cons x l ih => exact (h s x).trans (ih (f s x))

theorem pinsOnly_complete (s : State) (e : Ev) (status late : Nat) : PinsOnly s (s.complete e status late) := by
  simp only [State.complete]
  split
  · rfl
  · rfl

theorem pinsOnly_cancelEvs (s : State) (p : Ev → Bool) (status : Nat) : PinsOnly s (s.cancelEvs p status) := by
  have a : PinsOnly s { s with evs := s.evs.filter fun e => !(p e) } := rfl
  exact a.trans (PinsOnly.foldl _ (fun s e => pinsOnly_complete s e status 0) _ _)

theorem pinsOnly_drive (s : State) (n lvl : Nat) : PinsOnly s (s.drive n lvl) := rfl

/-- What a strand's loss of a pin can change (R262). -/
theorem pinsOnly_losePin (s : State) (n : Nat) : PinsOnly s (s.losePin n) := by
  have a := pinsOnly_cancelEvs s (fun e => e.onPin n) 0x08
  have b : ∀ u : State, PinsOnly u ((u.noDead n).setPin n { (u.noDead n).pin n with safe := true }) := fun _ => rfl
  have c := a.trans (b _)
  unfold State.losePin
  dsimp only
  split
  · exact c.trans (pinsOnly_drive _ _ _)
  · split
    · split
      · exact (c.trans (pinsOnly_drive _ _ _)).trans (pinsOnly_drive _ _ _)
      · exact c.trans (pinsOnly_drive _ _ _)
    · exact c

/-- What a strand's loss of its pins can change (R261, R262). -/
theorem pinsOnly_loseOwner (s : State) (t : Nat) (dbg : Bool) : PinsOnly s (s.loseOwner t dbg) :=
  PinsOnly.foldl _ (fun s n => pinsOnly_losePin s n) _ _

/-- The end of an instruction (R166, R261): the strand stops where a STEP ran it, and of the rest only pins, their events and
the counters can change. -/
theorem stepDone_frame (s : State) (t : Nat) : ∃ u, PinsOnly u (s.stepDone t) ∧
    (u = s ∨ u = s.setStrand t { s.strand t with stepping := false, halt := .debug } ∨ u = s.setStrand t { s.strand t with stepping := false }) := by
  simp only [State.stepDone]
  split
  · exact ⟨s, PinsOnly.refl s, .inl rfl⟩
  · split
    · exact ⟨_, pinsOnly_loseOwner _ t true, .inr (.inl rfl)⟩
    · exact ⟨_, PinsOnly.refl _, .inr (.inr rfl)⟩

/-- The strand of a state whose running bank has been replaced. -/
theorem State.bank_setBank (s : State) (t : Nat) (y : Bank) (h : SMap.sorted s.strands = true) : (s.setBank t y).bank t = y := by
  rw [State.bank, State.setBank, State.strand_setStrand_self _ _ _ h, Strand.cur_setCur]

theorem State.strand_setBank (s : State) (t : Nat) (y : Bank) (h : SMap.sorted s.strands = true) :
    (s.setBank t y).strand t = (s.strand t).setCur y := State.strand_setStrand_self _ _ _ h

theorem State.sorted_setBank (s : State) (t : Nat) (y : Bank) (h : SMap.sorted s.strands = true) :
    SMap.sorted (s.setBank t y).strands = true := State.sorted_setStrand _ _ _ h

/-- The last of two writes of the running bank stands. -/
theorem State.setBank_setBank (s : State) (t : Nat) (y z : Bank) (h : SMap.sorted s.strands = true) :
    (s.setBank t y).setBank t z = s.setBank t z := by
  rw [State.setBank, State.strand_setBank s t y h, State.setBank, State.setStrand_setStrand s t _ _ h, Strand.setCur_setCur]
  rfl

/-- Two register writes in a row. -/
theorem State.wreg_wreg (s : State) (t r q : Nat) (v w : Word) (h : SMap.sorted s.strands = true) :
    (s.wreg t r v).wreg t q w = s.setBank t (((s.bank t).wg r v).wg q w) := by
  rw [State.wreg, State.wreg, State.bank_setBank s t _ h, State.setBank_setBank s t _ _ h]

theorem State.advance_eq (s : State) (t : Nat) : s.advance t = s.setBank t (s.bank t).next := rfl

theorem bits_eq_zero_bit {v lo w : Nat} (h : bits v lo w = 0) {i : Nat} (hi : i < w) : bit v (lo + i) = false := by
  simp only [bits, bit] at h ⊢
  rw [← Bool.not_eq_true]
  intro hb
  have h2 : (v / 2 ^ lo % 2 ^ w).testBit i = false := by rw [h]; simp
  rw [Nat.testBit_mod_two_pow, Nat.testBit_div_two_pow] at h2
  simp [hi] at h2
  rw [Nat.add_comm] at h2
  rw [hb] at h2
  cases h2

/-- An instruction that takes effect: its body acts on the state whose pc has moved on. -/
theorem State.issue_runs {s : State} {t : Nat} {d : Dec} {body : State → State} (h : Runs s t d.g d.regs d.hregs)
    (he : d.emu = none) (hh : d.hold = false) (hc : d.check = none)
    (hw : bits (s.strand t).wpctl.toNat 0 3 = 0 → d.watch = none) (hb : d.brk = false) :
    s.issue t d body = (body (s.advance t)).stepDone t := by
  obtain ⟨⟨h1, h2, h3⟩, h4, h5, h6, h7⟩ := h
  have h4' : (s.strand t).cur.guardOk d.g = true := h4
  have h5' : (s.strand t).cur.arrived d.regs = true := h5
  simp only [State.issue, h1, h2, h3, he, h4', h5', h6, hh, hc, hb]
  have hx : (if (s.strand t).cur.exl || (s.strand t).cur.watchExempt then (none : Option (Nat × Word)) else (s.strand t).watchFetch.orElse fun _ => d.watch) = none := by
    rcases h7 with h | h | h
    · have h' : (s.strand t).cur.exl = true := h
      simp [h']
    · have h' : (s.strand t).cur.watchExempt = true := h
      simp [h']
    · have hf : (s.strand t).watchFetch = none := by
        have := bits_eq_zero_bit h (i := 2) (by decide)
        simp [Strand.watchFetch, this]
      simp [hf, hw h]
  simp only [Bool.not_true, Bool.or_false, Option.any_none, Bool.false_eq_true, if_false, hx]

/-- No access is watched where no kind is. -/
theorem Strand.watchData_none {x : Strand} (h : bits x.wpctl.toNat 0 3 = 0) (k : AccKind) (a n : Nat) : x.watchData k a n = none := by
  have h0 := bits_eq_zero_bit h (i := 0) (by decide)
  have h1 := bits_eq_zero_bit h (i := 1) (by decide)
  cases k <;> simp [Strand.watchData, h0, h1]

/-- An instruction that writes the running bank once completes. -/
theorem issue_completes {s : State} {t : Nat} {d : Dec} {body : State → State} {y : Bank} (ho : SMap.sorted s.strands = true)
    (h : Runs s t d.g d.regs d.hregs) (he : d.emu = none) (hh : d.hold = false) (hc : d.check = none)
    (hw : bits (s.strand t).wpctl.toNat 0 3 = 0 → d.watch = none) (hb : d.brk = false)
    (hbody : body (s.advance t) = (s.advance t).setBank t y) :
    ∃ v, s.issue t d body = v.stepDone t ∧ Became s v t ((s.strand t).setCur y) := by
  rw [State.issue_runs h he hh hc hw hb, hbody]
  refine ⟨_, rfl, ?_⟩
  have o1 := State.sorted_setBank s t (s.bank t).next ho
  have o2 := State.sorted_setBank (s.advance t) t y o1
  have a := became_setBank s t (s.bank t).next ho
  have b := became_setBank (s.advance t) t y o1
  have e : ((s.advance t).setBank t y).strand t = (s.strand t).setCur y := by
    rw [State.advance_eq, State.strand_setBank _ _ _ o1, State.strand_setBank _ _ _ ho, Strand.setCur_setCur]
  exact ⟨(a.trans b).1, e, (a.trans b).2.2⟩

/-- The running bank as the body sees it. -/
theorem State.bank_advance (s : State) (t : Nat) (ho : SMap.sorted s.strands = true) : (s.advance t).bank t = (s.bank t).next :=
  State.bank_setBank s t _ ho

end Sys2Proof.Machine
end

