-- ==== Sys2Proof/Laws/Access.lean ====
section
/-! SUPPORT. What a strand's accesses depend on: they do not see the running bank's registers or pc; and what writes of
memory keep and leave alone. -/

namespace Sys2Proof.Machine

@[simp] theorem Strand.setCur_shareSize (x : Strand) (y : Bank) : (x.setCur y).shareSize = x.shareSize := by
  cases x with
  | mk _ _ b => cases b <;> rfl
@[simp] theorem Strand.setCur_shareBase (x : Strand) (y : Bank) : (x.setCur y).shareBase = x.shareBase := by
  cases x with
  | mk _ _ b => cases b <;> rfl
@[simp] theorem Strand.setCur_wins (x : Strand) (y : Bank) : (x.setCur y).wins = x.wins := by
  cases x with
  | mk _ _ b => cases b <;> rfl
@[simp] theorem Strand.setCur_inB1 (x : Strand) (y : Bank) : (x.setCur y).inB1 = x.inB1 := by
  cases x with
  | mk _ _ b => cases b <;> rfl
@[simp] theorem Strand.setCur_tvbase (x : Strand) (y : Bank) : (x.setCur y).tvbase = x.tvbase := by
  cases x with
  | mk _ _ b => cases b <;> rfl
@[simp] theorem Strand.setCur_ops (x : Strand) (y : Bank) : (x.setCur y).ops = x.ops := by
  cases x with
  | mk _ _ b => cases b <;> rfl
@[simp] theorem Strand.setCur_block (x : Strand) (y : Bank) : (x.setCur y).block = x.block := by
  cases x with
  | mk _ _ b => cases b <;> rfl
@[simp] theorem Strand.setCur_deferred (x : Strand) (y : Bank) : (x.setCur y).deferred = x.deferred := by
  cases x with
  | mk _ _ b => cases b <;> rfl
@[simp] theorem Strand.setCur_fenceWait (x : Strand) (y : Bank) : (x.setCur y).fenceWait = x.fenceWait := by
  cases x with
  | mk _ _ b => cases b <;> rfl
@[simp] theorem Strand.setCur_xmask (x : Strand) (y : Bank) : (x.setCur y).xmask = x.xmask := by
  cases x with
  | mk _ _ b => cases b <;> rfl

/-- The address map of a strand does not depend on its running bank. -/
theorem State.region_setBank (s : State) (t a : Nat) (y : Bank) (h : SMap.sorted s.strands = true) :
    (s.setBank t y).region t a = s.region t a := by
  simp only [State.region, State.strand_setBank s t y h, Strand.setCur_shareSize, Strand.setCur_shareBase]

theorem State.winAddr_setBank (s : State) (t n o : Nat) (y : Bank) (h : SMap.sorted s.strands = true) :
    (s.setBank t y).winAddr t n o = s.winAddr t n o := by
  simp only [State.winAddr, State.win, State.strand_setBank s t y h, Strand.setCur_wins]

theorem State.viewLl_setBank (s : State) (t : Nat) (y : Bank) (h : SMap.sorted s.strands = true)
    (h1 : y.hasItem = (s.bank t).hasItem) (h2 : y.item = (s.bank t).item) : (s.setBank t y).viewLl t = s.viewLl t := by
  simp only [State.viewLl, State.bank_setBank s t y h, h1, h2]

/-- Register words depend on the words held alone. -/
theorem State.rd_congr {s u : State} (h : u.regs = s.regs) (d : RegDesc) (p i j : Nat) : u.rd d p i j = s.rd d p i j := by
  simp only [State.rd, h]

theorem State.rf_congr {s u : State} (h : u.regs = s.regs) (d : RegDesc) (p i lo w j : Nat) : u.rf d p i lo w j = s.rf d p i lo w j := by
  simp only [State.rf, State.rd_congr h]

theorem State.reach_congr {s u : State} (h : u.md = s.md) (p q : Nat) : u.reach p q = s.reach p q := by
  have e : u.pan q = s.pan q := by simp only [State.pan, h]
  have e2 : u.up q = s.up q := by unfold State.up; rw [e]
  unfold State.reach
  rw [e2, h]

/-- The memory map depends on the registers, and on which panels are up. -/
theorem State.drmP_congr {s u : State} (h2 : u.md = s.md) : u.drmP = s.drmP := by
  unfold State.drmP State.up State.pan
  rw [h2]

theorem State.chanU_congr {s u : State} (h : u.regs = s.regs) (h2 : u.md = s.md) : u.chanU = s.chanU := by
  unfold State.chanU State.chanC
  rw [State.rf_congr h, State.drmP_congr h2]

theorem State.msize_congr {s u : State} (h : u.regs = s.regs) (h2 : u.md = s.md) : u.msize = s.msize := by
  unfold State.msize
  rw [State.rf_congr h, State.drmP_congr h2]

theorem State.xsize_congr {s u : State} (h : u.regs = s.regs) (h2 : u.md = s.md) : u.xsize = s.xsize := by
  unfold State.xsize
  rw [State.rf_congr h, State.drmP_congr h2]

theorem State.grain_congr {s u : State} (h : u.regs = s.regs) (h2 : u.md = s.md) : u.grain = s.grain := by
  unfold State.grain
  rw [State.rf_congr h, State.drmP_congr h2]

theorem State.devLoc_congr {s u : State} (h : u.regs = s.regs) (h2 : u.md = s.md) (a : Nat) : u.devLoc a = s.devLoc a := by
  have e : u.localSize = s.localSize := by
    unfold State.localSize
    rw [State.chanU_congr h h2, State.msize_congr h h2, State.xsize_congr h h2]
  unfold State.devLoc
  rw [e, State.msize_congr h h2, State.xsize_congr h h2, State.grain_congr h h2]

theorem State.chanOf_congr {s u : State} (h : u.regs = s.regs) (h2 : u.md = s.md) (p o : Nat) : u.chanOf p o = s.chanOf p o := by
  unfold State.chanOf
  rw [State.grain_congr h h2]

theorem State.chanAddr_congr {s u : State} (h : u.regs = s.regs) (h2 : u.md = s.md) (o : Nat) : u.chanAddr o = s.chanAddr o := by
  unfold State.chanAddr
  rw [State.grain_congr h h2]

theorem State.dramKey_congr {s u : State} (h : u.regs = s.regs) (h2 : u.md = s.md) (p o : Nat) : u.dramKey p o = s.dramKey p o := by
  unfold State.dramKey
  rw [State.chanOf_congr h h2, State.chanAddr_congr h h2]

theorem State.mirOff_congr {s u : State} (h : u.regs = s.regs) (h2 : u.md = s.md) (m : Nat) : u.mirOff m = s.mirOff m := by
  unfold State.mirOff
  rw [State.chanU_congr h h2, State.msize_congr h h2]

theorem State.mirKey_congr {s u : State} (h : u.regs = s.regs) (h2 : u.md = s.md) (m c : Nat) : u.mirKey m c = s.mirKey m c := by
  unfold State.mirKey
  rw [State.dramKey_congr h h2, State.mirOff_congr h h2]

theorem State.dramOk_congr {s u : State} (h : u.regs = s.regs) (h2 : u.md = s.md) (h3 : u.flt = s.flt) (r p o : Nat) :
    u.dramOk r p o = s.dramOk r p o := by
  unfold State.dramOk State.isFenced
  rw [State.reach_congr h2, State.chanOf_congr h h2, h3]

theorem State.mirOk_congr {s u : State} (h : u.regs = s.regs) (h2 : u.md = s.md) (h3 : u.flt = s.flt) (r m c : Nat) :
    u.mirOk r m c = s.mirOk r m c := by
  unfold State.mirOk
  rw [State.dramOk_congr h h2 h3, State.mirOff_congr h h2]

theorem State.readKey_congr {s u : State} (h : u.regs = s.regs) (h2 : u.md = s.md) (h3 : u.flt = s.flt) (h4 : u.drm = s.drm)
    (r a : Nat) : u.readKey r a = s.readKey r a := by
  unfold State.readKey
  rw [State.devLoc_congr h h2]
  cases s.devLoc a with
  | unmapped => rfl
  | buffer p => simp only [State.reach_congr h2]
  | dram p o => simp only [State.dramOk_congr h h2 h3, State.dramKey_congr h h2]
  | mirror m => simp only [h4, State.mirOk_congr h h2 h3, State.mirKey_congr h h2]

theorem State.writeKeys_congr {s u : State} (h : u.regs = s.regs) (h2 : u.md = s.md) (h3 : u.flt = s.flt)
    (r a : Nat) : u.writeKeys r a = s.writeKeys r a := by
  unfold State.writeKeys
  rw [State.devLoc_congr h h2]
  cases s.devLoc a with
  | unmapped => rfl
  | buffer p => simp only [State.reach_congr h2]
  | dram p o => simp only [State.dramOk_congr h h2 h3, State.dramKey_congr h h2]
  | mirror m => simp only [State.mirOk_congr h h2 h3, State.mirKey_congr h h2]

/-- What a panel reads of device memory depends on the memory, the map, the panels, the fences and the resynchronisation. -/
theorem State.devBytes_congr {s u : State} (h : u.regs = s.regs) (h2 : u.md = s.md) (h3 : u.flt = s.flt) (h4 : u.drm = s.drm)
    (h5 : u.mem = s.mem) (r a n : Nat) : u.devBytes r a n = s.devBytes r a n := by
  simp only [State.devBytes, State.readKey_congr h h2 h3 h4, h5]

theorem State.ll_congr {s u : State} (h : u.lls = s.lls) (k : Nat) : u.ll k = s.ll k := by
  unfold State.ll
  rw [h]

theorem State.winLen_congr {s u : State} (h : u.lls = s.lls) (k : Nat) : u.winLen k = s.winLen k := by
  unfold State.winLen
  rw [State.ll_congr h]

/-- Reads do not depend on the registers or the pc of the running bank. -/
theorem State.memRead_setBank (s : State) (t a n : Nat) (y : Bank) (h : SMap.sorted s.strands = true)
    (h1 : y.hasItem = (s.bank t).hasItem) (h2 : y.item = (s.bank t).item) : (s.setBank t y).memRead t a n = s.memRead t a n := by
  unfold State.memRead
  rw [State.region_setBank s t a y h, State.viewLl_setBank s t y h h1 h2]
  cases s.region t a with
  | none => rfl
  | some r => cases r with
    | scratch b => rfl
    | packet o => simp only [State.winLen_congr (State.setBank_lls s t y), State.ll_congr (State.setBank_lls s t y)]
    | view o => simp only [State.ll_congr (State.setBank_lls s t y)]
    | sram o => rfl
    | window w o =>
      simp only [State.winAddr_setBank s t _ _ y h,
        State.devBytes_congr (State.setBank_regs s t y) (State.setBank_md s t y) (State.setBank_flt s t y) (State.setBank_drm s t y) (State.setBank_mem s t y)]

theorem State.fastLoad_setBank (s : State) (t a : Nat) (y : Bank) (h : SMap.sorted s.strands = true) :
    (s.setBank t y).fastLoad t a = s.fastLoad t a := by
  simp only [State.fastLoad, State.region_setBank s t a y h]

/-- Writes of memory touch no strand. -/
@[simp] theorem State.devSet_strands (s : State) (req a : Nat) (v : Byte) : (s.devSet req a v).strands = s.strands := by
  unfold State.devSet
  dsimp only
  split
  · split <;> rfl
  · rfl

@[simp] theorem State.devWrite_strands (s : State) (req a : Nat) (bs : List Byte) : (s.devWrite req a bs).strands = s.strands := by
  induction bs generalizing s a with
  | nil => rfl
  | cons b bs ih => rw [State.devWrite, ih, State.devSet_strands]

@[simp] theorem State.memWrite_strands (s : State) (t a : Nat) (bs : List Byte) : (s.memWrite t a bs).strands = s.strands := by
  unfold State.memWrite
  split <;> first | rfl | (split <;> rfl) | exact State.devWrite_strands _ _ _ _

/-- An access that is not through a window asks DRAM for nothing (R289). -/
theorem State.askWindow_none {s : State} {t : Nat} {addr : Word} (h : s.winAt t addr.toNat = none) (word : Word) (n : Nat) (kind : AccKind)
    (undo : Option (Nat × Word)) : s.askWindow t word addr n kind undo = s := by
  simp only [State.askWindow, h]

/-- Requests change the controllers' queues and nothing else (R289). -/
theorem State.pushReqs_frame (s : State) (l : List (Nat × DramReq)) : s.pushReqs l = { s with drm := { s.drm with reqs := (s.pushReqs l).drm.reqs } } := rfl

theorem State.askDram_frame (s : State) (req port a n : Nat) (write : Bool) :
    s.askDram req port a n write = { s with drm := { s.drm with reqs := (s.askDram req port a n write).drm.reqs } } := rfl

/-- An access that needs no line of DRAM makes no request. -/
theorem State.askDram_none {s : State} {req port a n : Nat} {write : Bool} (h : s.requests req port a n write none = []) :
    s.askDram req port a n write = s := by
  simp only [State.askDram, h]
  rfl

/-- Bytes written into packet buffer cells change the device memory alone. -/
theorem State.putFrameBytes_frame (s : State) (p : Nat) (bs : List Byte) (cs : List Nat) :
    s.putFrameBytes p bs cs = { s with mem := { s.mem with dev := (s.putFrameBytes p bs cs).mem.dev } } := by
  induction cs generalizing s bs with
  | nil => rfl
  | cons c cs ih =>
    show (s.putCell p c bs).putFrameBytes p (bs.drop 256) cs = _
    rw [ih]
    rfl

/-- A stored frame takes one free value, for its cells, and changes only the device memory (R100). -/
theorem State.storeFrame_frame (s : State) (p : Nat) (bs : List Byte) :
    (s.storeFrame p bs).2 = { s with mem := { s.mem with dev := (s.storeFrame p bs).2.mem.dev }, fresh := s.fresh + 1 } := by
  have h := State.putFrameBytes_frame (s.takeCells p (1 + cellsOf bs.length)).2 p bs (s.takeCells p (1 + cellsOf bs.length)).1.tail
  exact h

end Sys2Proof.Machine
end

