-- ==== Sys2Proof/Tests/Slice0.lean ====
section
/-! SUPPORT. Small checks of single steps, words written out from the spec's encodings, ill-formed commands, and witnesses for the
hypotheses of the statements. -/

namespace Sys2Proof.Tests

open Sys2Proof.Machine

set_option Elab.async false

-- ------------------------------------------------------------------------------------------------- ill-formed commands

theorem test_wf_strand : Instr.wf (.waitd 832 ⟨0#4, 0#5, 0#5⟩) = false := by decide
theorem test_wf_strand_last : Instr.wf (.waitd 831 ⟨0#4, 0#5, 0#5⟩) = true := by decide
theorem test_wf_register : Instr.wf (.registerWrite ⟨.host, 4294967296, 4, 0#32, none⟩) = false ∧ Instr.wf (.registerWrite ⟨.host, 0, 5, 0#32, none⟩) = false
    ∧ Instr.wf (.registerWrite ⟨.host, 0, 0, 0#32, none⟩) = false := by decide
theorem test_wf_domain : Instr.wf (.sourceLost 0 16) = false ∧ Instr.wf (.sourceLost 2 15) = false := by decide
theorem test_wf_port : Instr.wf (.portLinkDown 1024) = false ∧ Instr.wf (.frameReceive ⟨1024, .eth [], 0, true, none⟩) = false := by decide
theorem test_wf_parser : Instr.wf (.parsePass 1 4) = false := by decide
theorem test_wf_lists : Instr.wf (.spillReturn 1024) = false ∧ Instr.wf (.dispatch 8) = false := by decide
theorem test_wf_item : Instr.wf (.releaseTurn 1 4096) = false ∧ Instr.wf (.bindTimeout (.held 2 0)) = false
    ∧ Instr.wf (.bindTimeout (.listed 0 16384 0)) = false ∧ Instr.wf (.bindTimeout (.listed 0 0 65536)) = false := by decide
theorem test_wf_yarn : Instr.wf (.yarnMessageArrive 0 64) = false ∧ Instr.wf (.endpointDelivery 43) = false := by decide
theorem test_wf_debug : Instr.wf (.debugRead ⟨832, false, 0⟩) = false := by decide
theorem test_wf_schedule : Instr.wf (.canScheduleEntry 0 256) = false ∧ Instr.wf (.frerReset 0 256) = false ∧ Instr.wf (.resequenceTimeout 0 2048) = false := by decide
theorem test_wf_pin : Instr.wf (.pinEdgeAccept 256) = false ∧ Instr.wf (.deadTimeExpire 0 64) = false := by decide
theorem test_wf_analog : Instr.wf (.sarConversion 4 []) = false ∧ Instr.wf (.sdmOutput 8 []) = false ∧ Instr.wf (.sourceSample 32 0 0) = false := by decide
theorem test_wf_channel : Instr.wf (.refreshDue 0 4) = false ∧ Instr.wf (.refreshDue 2 0) = false := by decide
theorem test_wf_queues : Instr.wf (.cnpReceive 64) = false ∧ Instr.wf (.ringEnable ⟨.host, none⟩ 256 0#32) = false := by decide
theorem test_wf_command : Instr.wf (.nop ⟨⟨0, false, false, 0#6, 0#10, 0#6, 0#32, 0#64, [], []⟩, 0#8⟩) = false := by decide
theorem test_wf_selvage : Instr.wf (.svNop ⟨⟨2#6, 0#20, [0#32], false⟩, 0#6⟩) = false := by decide
theorem test_wf_slot : Instr.wf (.recoveryClose 0 5 0) = false ∧ Instr.wf (.sliceComplete 3 true 0#32 0#32) = false ∧ Instr.wf (.sliceComplete 2 true 0#32 0#32) = true := by decide

-- --------------------------------------------------------------------------------- words, from the worked example of ch. 6

theorem test_word_ldw : (⟨0#4, 5#5, 4#5, 8#12⟩ : IFmt).word 0x14 = 0x050A4008#32 := by decide
theorem test_word_cmpltui : (⟨0#4, 0#2, 2#3, 5#5, 100#12⟩ : PIFmt).word 0x0B = 0x02C45064#32 := by decide
theorem test_word_ldx : (⟨2#4, 6#5, 7#5, 0#5, 0#2, 4#3, 1#2⟩ : XRFmt).word 0x1A = 0x268C7011#32 := by decide

-- ----------------------------------------------------------------------------------------------------- a running strand

/-- A bank whose pc lies in course shared SRAM. -/
def bankT (g : SMap Word) : Bank := { g := g, pc := 0x00200000#32 }
/-- A strand that runs with that bank. -/
def strandT (g : SMap Word) : Strand := { bank0 := bankT g, idle := false, xmask := 0xFFFF }
/-- The panels in service. -/
def mdT (m : Mode) : ModeState := { mode := m, a := { phase := .up, pg := true, rst := true, refclk := true }, b := { phase := .up, pg := true, rst := true, refclk := true } }
/-- Strand 0 runs in RUN. -/
def stT (x : Strand) : State := { md := mdT .run, strands := [(0, x)] }

theorem test_runs : Runs (stT (strandT [])) 0 0#4 [1, 2, 3] [4] := by unfold Runs Offered Unwatched; decide


/-- The next state of an outcome. -/
def nxt (o : Host.Outcome State Fault Refusal) : State := match o with | .next u => u | _ => {}

theorem test_ldw_worked : ((nxt (exec (.ldw 0 ⟨0#4, 5#5, 4#5, 8#12⟩)
    { stT (strandT [(4, 0x00201000#32)]) with mem := { sram := [(0x1008, 0x40#8)] } })).bank 0).pend = [{ rd := 5, vals := [0x40#32] }] := by decide
theorem test_cmpltui_worked : ((nxt (exec (.cmpltui 0 ⟨0#4, 0#2, 2#3, 5#5, 100#12⟩) (stT (strandT [(5, 64#32)])))).bank 0).rp 2 = true := by decide
theorem test_ldx_worked : let b := (nxt (exec (.ldx 0 ⟨2#4, 6#5, 7#5, 0#5, 0#2, 4#3, 1#2⟩)
    { stT { strandT [] with bank0 := { bankT [(7, 0x100#32)] with pred := 5#8 } } with mem := { scratch := [(0x100, 0x78#8), (0x101, 0x56#8), (0x102, 0x34#8), (0x103, 0x12#8)] } })).bank 0
    b.rg 6 = 0x12345678#32 ∧ b.rg 7 = 0x104#32 := by decide
theorem test_hook7_worked : let b := (nxt (exec (.hook7 0 0xA#4 0#22) (stT { strandT [] with bank0 := { bankT [] with pc := 0x0020004C#32, pred := 5#8 } }))).bank 0
    b.epc = 0x00200050#32 ∧ b.eaddr = 0x0020004C#32 ∧ b.einfo = 0xADC00000#32 ∧ b.ecause = 0x301#32 ∧ b.exl = true ∧ b.pc = 0x00200000#32 := by decide
theorem test_sra_sign : ((nxt (exec (.sra 0 ⟨0#4, 1#5, 2#5, 3#5⟩) (stT (strandT [(2, 0x80000000#32), (3, 36#32)])))).bank 0).rg 1 = 0xF8000000#32 := by decide
theorem test_mulhs_negative : ((nxt (exec (.mulhs 0 ⟨0#4, 1#5, 2#5, 3#5⟩) (stT (strandT [(2, 0xFFFFFFFF#32), (3, 1#32)])))).bank 0).rg 1 = 0xFFFFFFFF#32 := by decide
theorem test_clz_zero : ((nxt (exec (.clz 0 ⟨0#4, 1#5, 2#5, 0#5⟩) (stT (strandT [])))).bank 0).rg 1 = 32#32 := by decide
theorem test_addd_carry : let b := (nxt (exec (.addd 0 ⟨0#4, 2#5, 4#5, 6#5⟩) (stT (strandT [(4, 0xFFFFFFFF#32), (6, 1#32)])))).bank 0
    b.rg 2 = 0#32 ∧ b.rg 3 = 1#32 := by decide
theorem test_ins_keeps : ((nxt (exec (.ins 0 ⟨0#4, 1#5, 2#5, 8#5, 3#5⟩) (stT (strandT [(1, 0xFFFFFFFF#32), (2, 0x5#32)])))).bank 0).rg 1 = 0xFFFFF5FF#32 := by decide
theorem test_bl_link : let b := (nxt (exec (.bl 0 ⟨0#4, 0x3FFFFF#22⟩) (stT { strandT [] with bank0 := { bankT [] with pc := 0x00200010#32 } }))).bank 0
    b.pc = 0x0020000C#32 ∧ b.rg 31 = 0x00200014#32 := by decide
theorem test_g0_discards : ((nxt (exec (.addi 0 ⟨0#4, 0#5, 2#5, 8#12⟩) (stT (strandT [])))).bank 0).rg 0 = 0#32 := by decide
theorem test_cas_fails : (nxt (exec (.amoCas 0 ⟨0#4, 1#5, 2#5, 3#5⟩)
    { stT (strandT [(1, 9#32), (2, 0x100#32), (3, 7#32)]) with mem := { scratch := [(0x100, 5#8)] } })).mem.scratch = [(0x100, 5#8)] := by decide

-- ------------------------------------------------------------------------------------- witnesses: the needle instructions

theorem test_step_witness : let s : State := { stT (strandT []) with pending := [.generationRetire] }
    s.pending = Instr.generationRetire :: [] ∧ (stT (strandT [])).pending = [] := by decide
/-- ALU, immediates, predicates, moves, branches: the strand runs, and its registers have arrived. -/
theorem test_alu_witness : let s := stT (strandT [(2, 1#32)])
    SMap.sorted s.strands = true ∧ Runs s 0 0#4 [2, 3, 4, 5, 6, 7] [1] ∧ Offered s 0 := by unfold Runs Offered Unwatched; decide
theorem test_alu_reserved_witness : bits (0x17#32).toNat 22 6 = 0 ∧ 0x17 ≤ bits (0x17#32).toNat 0 7 := by decide
theorem test_immediate_witness : bits (0x41F#12).toNat 5 5 = 0 ∧ bits (0x420#12).toNat 5 5 ≠ 0 ∧ (31#5).toNat + (0#5).toNat + 1 ≤ 32 ∧ 32 < (31#5).toNat + (1#5).toNat + 1 := by decide
theorem test_predicate_witness : let s := stT { strandT [(2, 255#32)] with deferred := none }
    Runs s 0 0#4 [2] [] ∧ ((s.bank 0).rg 2).toNat < 256 ∧ (s.strand 0).deferred = none := by unfold Runs Offered Unwatched; decide
theorem test_load_witness : let s := stT (strandT [(2, 0x00200FFC#32), (4, 0x00200FF8#32)])
    Runs s 0 0#4 [2, 4, 6, 7] [] ∧ Reachable s 0 .load 0x00200FFC#32 4 ∧ Reachable s 0 .store 0x1FFC#32 4 ∧ Reachable s 0 .load 0x00200FF8#32 8
      ∧ Reachable s 0 .amo 0x1FFC#32 4 ∧ (s.bank 0).pend = [] := by unfold Runs Offered Unwatched Reachable; decide
theorem test_load_forms_witness : XAdmits ⟨0#4, 6#5, 9#5, 0#5, 0#2, 5#3, 2#2⟩ false ∧ XAdmits ⟨0#4, 7#5, 7#5, 0#5, 0#2, 4#3, 1#2⟩ true ∧ PiAdmits ⟨0#4, 6#5, 8#5, 5#3, 0#9⟩ false
    ∧ PiAdmits ⟨0#4, 6#5, 6#5, 4#3, 0#9⟩ true := by simp [XAdmits, PiAdmits]
theorem test_arrival_witness : let s := stT { strandT [] with bank0 := { bankT [] with pend := [{ rd := 3, vals := [7#32] }] } }
    ((s.strand 0).bk false).pend[0]? = some { rd := 3, vals := [7#32] } := by decide
theorem test_access_witness : let s := stT (strandT [(2, 3#32), (3, 0x80000000#32)])
    Runs s 0 0#4 [4, 2] [] ∧ ((s.bank 0).rg 2 + (0#12).signExtend 32).toNat % 2 ≠ 0 ∧ s.accessDetail 0 .load ((s.bank 0).rg 3).toNat 4 ≠ none := by unfold Runs Offered Unwatched; decide
theorem test_trap_witness : ((stT (strandT [])).bank 0).exl = false ∧ ((stT { strandT [] with bank0 := { bankT [] with exl := true } }).bank 0).exl = true := by decide
theorem test_registers_witness : SMap.sorted (bankT [(1, 2#32), (31, 4#32)]).g = true := by decide
theorem test_stores_witness : let s := { stT (strandT []) with mem := { scratch := [(4, 1#8)], sram := [(8, 2#8)] } }
    Memory.wf s.mem = true ∧ s.region 0 0x10 = some (.scratch 0x10) ∧ s.region 0 0x00200008 = some (.sram 8) ∧ (s.region 0 0x40000000).isSome = true := by decide
theorem test_jalr_witness : let s := stT (strandT [(2, 0x00200101#32)])
    ((s.bank 0).rg 2 + (3#12).signExtend 32).toNat % 4 = 0 ∧ ((s.bank 0).rg 2 + (0#12).signExtend 32).toNat % 4 ≠ 0 := by decide
theorem test_fetch_witness : let s := stT { strandT [] with xmask := 0 }
    s.mayIssue 0 = true ∧ (s.strand 0).busy = none ∧ (s.strand 0).canFetch = false := by decide
theorem test_guard_witness : Offered (stT (strandT [])) 0 ∧ ((stT (strandT [])).bank 0).guardOk 8#4 = false ∧ ((stT (strandT [])).bank 0).guardOk 1#4 = false := by unfold Offered; decide
theorem test_majors_witness : bits (0x0E#32 <<< 22).toNat 22 6 = 0x0E ∧ bits (0x0D800C00#32).toNat 10 2 = 3 := by decide
theorem test_system_witness : let s := stT { strandT [] with bank0 := { bankT [] with item := none } }
    (s.bank 0).item = none ∧ (s.bank 0).hasItem = false ∧ (s.strand 0).ops = [] ∧ Runs s 0 0#4 [3] [] := by unfold Runs Offered Unwatched; decide
theorem test_eret_witness : let s := stT { strandT [] with deferred := some { ll := some 5 } }
    (s.strand 0).deferred = some { ll := some 5 } ∧ (s.strand 0).inB1 = false := by decide
theorem test_bindoff_witness : let s := { stT { strandT [] with bank0 := { bankT [] with item := some 5, hasItem := true } } with lls := [(5, { state := .running })] }
    SMap.sorted s.lls = true ∧ SMap.sorted s.odoms = true ∧ SMap.sorted (s.od (s.ll 5).item.panel (s.ll 5).item.odom).slots = true ∧ Runs s 0 0#4 [3] []
      ∧ (s.bank 0).item = some 5 ∧ (s.bank 0).hasItem = true ∧ (s.ll 5).state ≠ .timedOut := by unfold Runs Offered Unwatched; decide
theorem test_special_witness : let s := stT (strandT [(2, 0x00200200#32)])
    (∃ p ∈ srValues s 0, p.1 = 0x017) ∧ (∀ p ∈ srValues s 0, 0x00E ≠ p.1) ∧ (∃ p ∈ srWrites (s.strand 0) (s.bank 0).next ((s.bank 0).rg 2), p.1 = 5) := by decide
theorem test_moves_witness : let s := stT { strandT [] with ops := [{ hook := 2, func := 0, hd := some 3 }] }
    Offered s 0 ∧ (s.bank 0).guardOk 0#4 = true ∧ (s.strand 0).hookArrived [3] = false := by unfold Offered; decide


-- --------------------------------------------------------------------------------------------- witnesses: yarns, debugger

/-- `s` with a register word changed. -/
def withReg (s : State) (d : RegDesc) (p i j v : Nat) : State := s.setRd d p i j (w32 v)

/-- Yarn 3 of course 0 is enabled for any sender and any receiver; its FIFO holds what is given. -/
def yarnT (x : Strand) (y : Yarn) : State := { withReg (stT x) R.yrnCfg 0 0 3 0x28080 with yrn := { yarns := [(3, y)] } }

theorem test_yarn_words_witness : let s := stT (strandT [])
    Runs s 0 0#4 [0, 31] [] ∧ Offered s 0 := by unfold Runs Offered Unwatched; decide
theorem test_ysend_witness : let x := { strandT [(1, 3#32), (2, 5#32), (4, 80#32), (5, 79#32), (6, 0xFFFFFFFF#32)] with bank0 := { bankT [(1, 3#32), (2, 5#32)] with outbox := [some 7#32, none, none, none] } }
    let s := withReg (yarnT x {}) R.yrnSupv 0 0 0 8
    SMap.sorted s.strands = true ∧ SMap.sorted s.yrn.yarns = true ∧ (s.bank 0).pend = [] ∧ Runs s 0 0#4 [3, 1, 2] [] ∧ s.yarnEnd 0 3 false = some 3 ∧ s.yarnEnd 0 4 false = none ∧
      (s.bank 0).outbox.any Option.isSome = true ∧ s.isSupv 0 = false ∧ s.yarnSevered 0 3 = false ∧ s.blockedOn 3 false = [] ∧
      (s.yarn 3).fifo.length + (s.yarn 3).transit.length < 8 := by unfold Runs Offered Unwatched; decide
theorem test_ysend_full_witness : ¬ ((yarnT (strandT []) { fifo := List.replicate 8 [0#32] }).yarn 3).fifo.length + 0 < 8 := by decide
theorem test_yrecv_witness : let s := withReg (yarnT (strandT [(1, 3#32), (2, 5#32)]) { fifo := [[9#32]] }) R.yrnSupv 0 0 0 8
    Runs s 0 0#4 [3, 1, 2] [] ∧ s.yarnEnd 0 3 true = some 3 ∧ s.yarnEnd 0 79 true = none ∧ s.isSupv 0 = false ∧ (s.yarn 3).fifo = [9#32] :: [] ∧ s.blockedOn 3 true = [] := by
  unfold Runs Offered Unwatched; decide
theorem test_yrecv_takes : let s := withReg (yarnT (strandT [(1, 3#32), (2, 5#32)]) { fifo := [[9#32, 8#32]] }) R.yrnSupv 0 0 0 8
    ((nxt (exec (.yrecv 0 ⟨0#4, 3#5, 1#5, 2#5⟩) s)).bank 0).pend = [{ rd := 3, vals := [0x200#32] }] := by decide
theorem test_yarn_arrival_witness : ((yarnT (strandT []) { transit := [[1#32]] }).yarn (0 * 64 + 3)).transit = [1#32] :: [] := by decide
/-- Strand 0 waits to receive on yarn 3. -/
def waiterT : Strand := { strandT [] with block := some { recv := true, yarn := 3, since := 0, timeout := 5, rd := 1 } }
theorem test_yarn_serve_witness : let s := { yarnT waiterT { fifo := [[1#32]] } with yrn := { yarns := [(3, { fifo := [[1#32]] })], order := [0] } }
    (s.strand 0).block = some { recv := true, yarn := 3, since := 0, timeout := 5, rd := 1 } ∧ s.yarnEnd 0 3 true = some 3 ∧ s.yarnSevered 0 3 = false ∧
      (s.blockedOn 3 true).head? = some 0 ∧ (s.yarn 3).fifo = [1#32] :: [] := by decide
theorem test_yarn_timeout_witness : let s := { yarnT waiterT {} with now := 60000 }
    0 + 5 * 12000 ≤ s.now ∧ s.servable 0 { recv := true, yarn := 3, since := 0, timeout := 5, rd := 1 } = none := by decide
theorem test_knot_trap_witness : let s := stT { strandT [] with knotp := true }
    0 = s.supv 0 ∧ (s.strand 0).knotp = true ∧ (s.bank 0).exl = false ∧ (s.strand 0).idle = false ∧ (s.strand 0).halt = .running ∧ s.needleIdle 0 = false ∧ s.up (0 / 416) = true ∧ s.isSupv 0 = true := by decide
/-- Strand 1 of course 0 waits on yarn 3 without limit. -/
def knotT : State := { withReg { stT {} with strands := [(1, { waiterT with block := some { recv := true, yarn := 3, since := 0, timeout := 0, rd := 1 } })] } R.yrnCfg 0 0 3 0x28080 with now := 100000000 }
theorem test_knot_witness : knotT.knotted 0 = true ∧ knotT.knotSince 0 + bits (knotT.rd R.yrnKwin 0 0).toNat 0 16 * 64 * cycleU knotT.part ≤ knotT.now ∧ SMap.get knotT.yrn.knotAt 0 0 ≤ knotT.knotSince 0 := by
  decide +kernel
theorem test_debug_witness : let s := { stT { strandT [] with halt := .debug, bank0 := { bankT [] with outbox := [some 1#32, none, none, none] } } with sec := { dbg := true } }
    s.sec.dbg = true ∧ (s.strand 0).halt ≠ .running ∧ staged ((s.strand 0).bk false).outbox = true ∧ staged ((s.strand 0).bk true).outbox = false ∧ (stT (strandT [])).sec.dbg = false := by decide


-- ------------------------------------------------------------------------------------------------------ witnesses: hooks

/-- A strand with hook registers and a crypto context. -/
def hookT (h : SMap HWord) (c : CryptoCtx) : State := stT { strandT [] with bank0 := { bankT [] with h := h, crypto := c } }
/-- A strand that holds the item of lifeline 5. -/
def itemT (h : SMap HWord) (l : Lifeline) : State :=
  { stT { strandT [] with bank0 := { bankT [] with h := h, item := some 5, hasItem := true } } with lls := [(5, l)] }

theorem test_hook_witness : HookRuns (hookT [] {}) 0 0 0 ⟨0#4, 1#4, 2#4, 3#4, 0#4⟩ [1, 2, 3] ∧ HookRuns (hookT [] {}) 0 1 0 ⟨0#4, 15#4, 2#4, 3#4, 0#4⟩ [15]
    ∧ HookRuns (hookT [] {}) 0 6 1 ⟨0#4, 15#4, 2#4, 3#4, 0#4⟩ [15] := by unfold HookRuns HookOffered Runs Offered Unwatched; decide +kernel
theorem test_crypto_witness : let s := { hookT [(2, 7#128)] { mode := .gcm } with sec := { keys := [(7, List.replicate 16 1#8)] } }
    s.keyOf 0 (s.slotIn 0 2#4) 16 = some (List.replicate 16 1#8) ∧ s.keyOf 0 (s.slotIn 0 3#4) 16 = none ∧ (s.bank 0).crypto.mode = .gcm ∧ (s.bank 0).crypto.started = false := by decide
theorem test_crypto_modes_witness : (((hookT [] { mode := .cmac }).bank 0).crypto.mode = .cmac) ∧ (((hookT [] { mode := .shake128 }).bank 0).crypto.mode = .shake128) := by decide
theorem test_lattice_witness : let s := stT { strandT [] with xmask := 1, bank0 := { bankT [] with h := [(2, 0x00210800002104000021F000#128)] } }
    (hlane (s.hval 0 2) 0).toNat = 0x0021F000 ∧ s.polyOk 0 0x0021F000 = true ∧ s.polyOk 0 0x00210400 = true ∧ s.polyOk 0 0x00210800 = true ∧ s.polyOk 0 0x00210804 = false := by decide
theorem test_lattice_values_witness : ((hookT [] {}).polyRead 0 0x00210400).all (fun v => decide (v < 8380417)) = true := by decide +kernel
theorem test_lookup_witness : let s := { withReg (hookT [(3, 5#128)] {}) R.tblCfg 0 5 0 1 with tbl := { a := { ents := [(mkHandle 5 false 1 9, { key := [0#8, 0#8, 0#8, 0#8], vmask := 15, data := 3 })] } } }
    s.lookupsIn (0 / 416) < 4096 ∧ (hlane (s.hval 0 3) 0).toNat = 5 ∧ isEm (s.tblKind 5) = true ∧ s.tblOk 0 5 = true ∧
      s.tblFind 0 5 0 (sliceZ (s.hbytesOf 0 1 16) 0 (keyWidth (s.tblKind 5))) = some (mkHandle 5 false 1 9, { key := [0#8, 0#8, 0#8, 0#8], vmask := 15, data := 3 })
      ∧ s.tblFind 0 5 0 [1#8] = none := by decide +kernel
theorem test_lookup_kinds_witness : (withReg (hookT [] {}) R.tblCfg 0 63 0 6).tblKind 63 = 6 ∧ (withReg (hookT [] {}) R.tblCfg 0 0 0 4).tblKind 0 = 4
    ∧ (withReg (hookT [] {}) R.tblCfg 0 0 0 4).lpmFind 0 0 7 = none ∧ (hookT [] {}).flwEn 0 = false ∧ (withReg (hookT [] {}) R.flwCfg 0 0 0 1).flwEn 0 = true := by decide +kernel
/-- The check values of CRC-32C and CRC-32 (nine digits), and AES-128 of FIPS 197. -/
def digitsT : List Byte := [0x31#8, 0x32#8, 0x33#8, 0x34#8, 0x35#8, 0x36#8, 0x37#8, 0x38#8, 0x39#8]
theorem test_crc32c_check_value : crc32c digitsT = 0xE3069283 := by decide +kernel
theorem test_expand_witness : (rejSample 1024 (keccakOut { mode := .shake128 } 3072) [] 0).1.length = 256 := by decide +kernel
/-- Context 9 of panel A's workbasket. -/
def ctxT (c : Ctx) (s : State) : State := { withReg s R.flwCfg 0 0 0 1 with flwA := { ctxs := [(9, c)] } }
theorem test_flow_read_witness : let s := ctxT { state := .clean, ridx := 77, ver := 3 } (itemT [(2, 77#128)] { state := .running })
    s.flwEn 0 = true ∧ s.hookItem 0 = some 5 ∧ bits (s.hval 0 2).toNat 0 25 = 77 ∧ s.ctxOf 0 77 = some 9 ∧ (s.ctx 0 9).state ≠ .filling ∧ (s.ctx 0 9).state ≠ .absence ∧
      (s.ll 5).state ≠ .timedOut ∧ repeatOf (s.ll 5).rs 0 9 77 = none ∧ (s.ll 5).rs.length < 12 ∧ (s.ll 5).serial = false := by decide +kernel
theorem test_flow_fill_witness : let s := ctxT { state := .filling, ridx := 77, data := List.replicate 48 0#8 } (itemT [(2, 77#128)] {})
    s.ctxOf 0 77 = some 9 ∧ s.ctxOfKey 0 (List.replicate 48 0#8) = some 9 ∧ (s.ctx 0 9).state = .filling := by decide +kernel
theorem test_flow_get_witness : let s := itemT [] { state := .running, rs := [{ ridx := 3, ver := 1 }] }
    (s.ll 5).rs[0]? = some { ridx := 3, ver := 1 } ∧ (s.ll 5).rs.length ≤ 1 ∧ 68 < bits (0x7F#128).toNat 0 7 := by decide
theorem test_staged_witness : let s := itemT [] { state := .running, rs := [{ ridx := 3, ver := 1 }] }
    stageCheck .delete (some (s.ll 5)) 0 0 = none ∧ stageCheck .delete (some (s.ll 5)) 1 0 ≠ none ∧ stageCheck .add none 15 0 ≠ some 0x11 := by decide
theorem test_positions_witness : let s := { stT (strandT []) with doms := [(domKey 0 3, { epoch := 4 })] }
    (s.dom 0 3).epoch ≠ 0 ∧ (s.dom 0 4).epoch = 0 ∧ bits (0x5#128).toNat 48 80 = 0 ∧ bits ((1#128) <<< 48).toNat 48 80 ≠ 0 := by decide
/-- A WAKE for list 7, 100 counts ahead of domain 0. -/
def wakeDesc : HWord := BitVec.ofNat 128 (100 + 4 * 2 ^ 48 + 3 * 2 ^ 68 + 7 * 2 ^ 80)
theorem test_event_witness : let s := { withReg (withReg (hookT [(2, wakeDesc)] {}) R.domCtl 0 0 0 1) R.carQcfg 0 7 0 1 with doms := [(domKey 0 0, { epoch := 4, state := .locked })] }
    let d := (s.hval 0 2).toNat
    bits d 68 3 = 3 ∧ bits d 71 2 = 0 ∧ bits d 73 2 = 0 ∧ bits d 75 2 = 0 ∧ bits d 78 2 = 0 ∧ bits d 112 16 = 0 ∧ bits d 90 6 = 0 ∧ s.domEn 0 = true ∧ s.listEn (bits d 80 10) = true ∧
      (s.dom 0 0).epoch = bits d 48 16 ∧ bits d 48 16 ≠ 0 ∧ (s.dom 0 0).state = .locked ∧ 2 ^ 47 < (s.est 0 0 + 2 ^ 48 - bits d 0 48) % 2 ^ 48 ∧ s.est 0 0 < 2 ^ 48 ∧
      (bits d 0 48 + 2 ^ 48 - s.est 0 0) % 2 ^ 48 ≤ 2 ^ 46 := by decide +kernel
/-- Pool 0: 16 buffers of 64 bytes at 0x1_0000, in group 0; strand 0 may hold 4. -/
def poolT (s : State) : State := withReg (withReg (withReg s R.sknPcfg 0 0 0 (1 + 16 * 256)) R.sknPgrp 0 0 0 1) R.sknPbase 0 0 0 1
theorem test_pool_witness : let s := poolT (hookT [(2, 64#128)] {})
    s.choosePool 0 64 = some 0 ∧ s.poolReach 0 0 = true ∧ (s.pool 0).next < s.poolCount 0 ∧ s.bufferAt 0x10040 = some (0, 1) ∧ s.bufferAt 0 = none ∧ s.hookItem 0 = none := by decide +kernel
theorem test_charge_witness : (poolT (hookT [(2, 64#128)] {})).canChargeBuf 0 = true := by decide +kernel
theorem test_packet_witness : let s := itemT [(3, 2#128)] { state := .running, frame := [1#8, 2#8, 3#8, 4#8] }
    s.hookItem 0 = some 5 ∧ bits (hlane (s.hval 0 3) 0).toNat 0 14 + 2 ≤ (s.itemFrame 0).length ∧ (s.itemFrame 0).length < 3 + 2 ∧ overlay (s.itemFrame 0) [9#8, 9#8] 2 = [1#8, 2#8, 9#8, 9#8] := by decide
/-- A CAN envelope from CAN port 800 with one data byte. -/
def envT : List Byte := leBytes 4 (1 + 800 * 256) ++ leBytes 4 5 ++ leBytes 4 0 ++ leBytes 4 1 ++ leBytes 16 0 ++ [7#8]
theorem test_envelope_witness : envValid envT = true ∧ envKind envT = 0 ∧ ((itemT [] { frame := envT }).acfPdu false 0#128 ((itemT [] { frame := envT }).acfMessages 0 envT)).1 ≠ [] := by decide +kernel
theorem test_envelope_invalid_witness : envValid [] = false := by decide
theorem test_arrive_witness : let x := { strandT [] with ops := [{ hook := 2, func := 0, hd := some 3 }] }
    x.ops[0]? = some { hook := 2, func := 0, hd := some 3 } ∧ x.opMayArrive 0 = true := by decide
theorem test_busy_witness : let s := { stT { strandT [] with busy := some { hook := 0, word := 5#32, since := 0 } } with now := 100000000 }
    s.mayIssue 0 = true ∧ (s.strand 0).canFetch = true ∧ 0 + bits (s.rd R.hkCfg 0 0).toNat 0 12 * cycleU s.part ≤ s.now := by decide


-- ------------------------------------------------------------------------------------------ witnesses: registers, domains, events

/-- The device in CONFIG. -/
def cfgT : State := { md := mdT .config }
theorem test_register_reached : blockAt (R.recStg.addr 0 1) = some (.rcd, 0, R.recStg.addr 0 1 - Blk.rcd.addr 0 0) ∧ cfgT.canWrite .host (R.recStg.addr 0 1) = true
    ∧ ({ md := mdT .boot } : State).canWrite .host 0 = false := by decide +kernel
theorem test_register_passes_witness : let o := R.recStg.addr 0 1 - Blk.rcd.addr 0 0
    cfgT.judgeWrite .host 4 .rcd 0 o 5#32 = none ∧ cfgT.judgeWrite .selvage 4 .rcd 0 o 6#32 = none ∧ cfgT.owner .rcd 0 = 0 ∧
      (wordAt .rcd 0 o).map (fun r => (r.desc.id, r.i, r.reserved 5, cfgT.modeBars r 5, cfgT.rangeBars r 5)) = some (.plain, 1, false, false, false) := by decide +kernel
theorem test_register_owner_witness : (withReg cfgT (match Blk.rcd.number 0 / 16 with | 0 => R.svOwn0 | 1 => R.svOwn1 | 2 => R.svOwn2 | _ => R.svOwn3) 0 0 0
    (2 * 4 ^ (Blk.rcd.number 0 % 16))).owner .rcd 0 = 2 := by decide +kernel
theorem test_register_bars_witness : let o := R.recStg.addr 0 1 - Blk.rcd.addr 0 0
    let m := R.recCfg.addr 0 0 - Blk.rcd.addr 0 0
    cfgT.judgeWrite .host 2 .rcd 0 o 5#32 = some .access ∧ cfgT.judgeWrite .host 4 .rcd 0 0xFFC 5#32 = some .reserved ∧ m ≠ o := by decide +kernel
theorem test_register_mode_witness : let d := R.svOwn0
    ({ md := mdT .run } : State).judgeWrite .host 4 .dom 0 (R.domCtl.addr 0 3 - Blk.dom.addr 0 0) 1#32 = some .mode ∧
      cfgT.judgeWrite .host 4 .sv 0 (d.addr 0 0 - Blk.sv.addr 0 0) 0#32 = some .owner := by decide +kernel
theorem test_register_range_witness : cfgT.judgeWrite .host 4 .rcd 0 (R.recFsel.addr 0 0 - Blk.rcd.addr 0 0) 262144#32 = some .range := by decide +kernel
theorem test_row_words_witness : rowWord (.domainEnable { who := .host, rival := none } 3 1#32) = some (⟨.host, none⟩, R.domCtl.addr 0 3, 1#32) ∧ rowWord (.flushGo { who := .selvage, rival := none } 1#32) = some (⟨.selvage, none⟩, R.recFlush.addr 0 0, 1#32) := by decide +kernel
/-- Does the row's write of `v` pass in `s`, and which register is it? -/
def passT (s : State) (a v : Nat) : Option (RegId × Nat × Nat) :=
  match blockAt a with
  | some (b, p, o) => if s.canWrite .host a && decide (b.addr p o = a) && (s.judgeWrite .host 4 b p o (w32 v)).isNone then (wordAt b p o).map fun r => (r.desc.id, r.panel, r.i) else none
  | none => none
theorem test_row_domain_witness : passT (withReg cfgT R.domSrc 0 3 0 1) (R.domCtl.addr 0 3) 0x81 = some (.domCtl, 0, 3)
    ∧ (withReg cfgT R.domSrc 0 3 0 1).domEn 3 = false ∧ (withReg (withReg cfgT R.domSrc 0 3 0 1) R.domCtl 0 3 0 1).domEn 3 = true := by decide +kernel
theorem test_row_write_witness : passT cfgT (R.chrVcommit.addr 0 0) 1 = some (.chrVcommit, 0, 0) ∧ passT cfgT (R.ndlRst.addr 1 0) 5 = some (.ndlRst, 1, 0) ∧
    passT cfgT (R.tioPstat.addr 1 5) 8 = some (.tioPstat, 1, 5) ∧ passT cfgT (R.hstQpctl.addr 0 5) 1 = some (.hstQpctl, 0, 5) := by decide +kernel
theorem test_row_write_witness2 : passT cfgT (R.hstRing0.addr 0 5) 0x1003 = some (.hstRing0, 0, 5) ∧ passT cfgT (R.hstHcfg.addr 0 0) 4 = some (.hstHcfg, 0, 0) ∧
    passT cfgT (R.svAttn.addr 0 0) 1 = some (.svAttn, 0, 0) ∧ passT cfgT (R.secTokctl.addr 0 0) 1 = some (.secTokctl, 0, 0) := by decide +kernel
theorem test_row_write_witness3 : passT cfgT (R.recFlush.addr 0 0) 1 = some (.recFlush, 0, 0) ∧ passT cfgT (R.recFsel.addr 0 0) 1 = some (.recFsel, 0, 0) ∧
    passT cfgT (R.sknLowrst.addr 0 0) 1 = some (.sknLowrst, 0, 0) ∧ passT cfgT (R.modCmd.addr 0 0) 3 = some (.modCmd, 0, 0) := by decide +kernel
/-- SERVICE with a token of every grant. -/
def svcT : State := { md := mdT .service, sec := { token := some { grants := 31, newOwner := [], meas := [] } } }
theorem test_row_service_witness : passT svcT (R.secArbadv.addr 0 0) 4 = some (.secArbadv, 0, 0) ∧ passT svcT (R.secArbadv.addr 0 0) 8 = some (.secArbadv, 0, 0) ∧
    passT svcT (R.swtExt.addr 1 0) 1 = some (.swtExt, 1, 0) := by decide +kernel

/-- Domain 3 of Panel A in a state, its sources last seen at time 0, long ago; `k` is the primary's kind. -/
def domT (k : Nat) (d : DomCopy) : State :=
  { withReg (withReg (stT {}) R.domSrc 0 3 0 k) R.domCtl 0 3 0 1 with now := 10000 * msU, doms := [(domKey 0 3, d)] }
/-- A source that has been accepted often, last at time `t`. -/
def srcT (t : Nat) : SrcRec := { run := 9, lastT := some t, lastV := some 0, accepted := 9 }
theorem test_domain_lost_witness : let s := domT 1 { state := .locked, prim := srcT 0 }
    s.domEn 3 = true ∧ s.up 0 = true ∧ (s.dom 0 3).state = .locked ∧ ((s.dom 0 3).src (s.dom 0 3).secondary).lastT = some 0 ∧ s.lossTo 3 < s.now - 0 ∧ isEdge (s.srcKind 3 false) = false ∧
      s.rb R.domCtl 0 3 3 = false := by decide +kernel
theorem test_domain_switch_witness : let s := withReg (domT (1 + 5 * 65536) { state := .locked, prim := srcT 0, sec := srcT 0 }) R.domCtl 0 3 0 9
    s.domEn 3 = true ∧ s.rb R.domCtl 0 3 3 = true ∧ s.srcKind 3 true ≠ 0 ∧ (s.dom 0 3).sec.need ≤ (s.dom 0 3).sec.run ∧ 0 < (s.dom 0 3).sec.run := by decide +kernel
theorem test_domain_overdue_witness : let s := withReg (domT 2 { state := .locked, prim := srcT 0 }) R.domCtl 0 3 0 3
    isEdge (s.srcKind 3 false) = true ∧ s.domCyclic 3 = true ∧ s.reporting 0 3 = false ∧ s.lossTo 3 < s.now - 0 ∧
      0 * secU * secU ≤ s.amax 3 * 16777216 * (s.now - 0) * rateScale.toNat + s.vstopS 3 * secU ∧ (domT 2 {}).domCyclic 3 = false := by decide +kernel
theorem test_domain_running_witness : let s := withReg (domT 2 { state := .locked, prim := { srcT 0 with lastV := some (10 ^ 40) } }) R.domCtl 0 3 0 3
    s.amax 3 * 16777216 * (s.now - 0) * rateScale.toNat + s.vstopS 3 * secU < 10 ^ 40 * secU * secU := by decide +kernel
theorem test_domain_coast_witness : let s := domT 1 { state := .coast }
    uncBound (bits (s.rd R.domLimit 0 3).toNat 0 16) = some ((0x661B % 4096) * 2 ^ 6) ∧ uncBound (s.unc 0 3) = none ∧
      bits (s.rd R.domCoast 0 3).toNat 24 8 * 100 * msU < s.now - (s.dom 0 3).coastAt := by decide +kernel
theorem test_domain_observed_witness : let s := domT 1 { state := .fault, prim := { run := 7, need := 8 } }
    s.srcKind 3 false = 1 ∧ s.up (selPanel 1 (s.srcSel 3 false)) = true ∧ (s.dom 0 3).split = false ∧ (s.dom 1 3).split = false ∧ (s.dom 0 3).state = .fault ∧
      (s.dom 0 3).prim.need ≤ (s.dom 0 3).prim.run + 1 := by decide +kernel

/-- Domain 3 LOCKED at 500, with an event at 500. -/
def evT (k : EvKind) (op : Nat) (f : Option Nat) : Ev :=
  { target := 500, epoch := 4, domain := 3, kind := k, policy := 0, stepRule := 0, dir := 2, noLate := false, operand := op, tag := 7, strand := 0, wheel := 0, copy := 0, before := true, fired := f }
def evsT (e : Ev) : State := { withReg (withReg (domT 1 { state := .locked, epoch := 4, pos := 500 }) R.tioPcfg 0 9 0 2) R.carQcfg 0 7 0 1 with evs := [e], now := 0 }
theorem test_event_pin_witness : let s := evsT (evT .pinEdge (9 + 256) none)
    s.evs[0]? = some (evT .pinEdge (9 + 256) none) ∧ s.up 0 = true ∧ policyAct 0 (s.dom 0 3).state = .armed ∧ s.crossed (evT .pinEdge (9 + 256) none) = true ∧
      s.pinMode 9 = 2 ∧ SMap.sorted s.tio.pins = true ∧ SMap.sorted s.evDone = true ∧ (SMap.get s.evDone [] 0).length < 16 := by decide +kernel
theorem test_event_wake_witness : let e := evT .wake 7 none
    let s := evsT e
    s.crossed e = true ∧ s.listReach 0 (7 % 1024) = true ∧ s.listEn (7 % 1024) = true ∧ (({ s with evs := replaceEv s.evs e none } : State).appendItem (s.wakeItem 7 7)).isSome = true := by decide +kernel
theorem test_event_retry_witness : let e := evT .wake 7 (some 0)
    let s := evsT e
    s.evs[0]? = some e ∧ e.fired ≠ none ∧ (({ s with evs := replaceEv s.evs e none } : State).appendItem (s.wakeItem 7 7)).isSome = true := by decide +kernel


-- ------------------------------------------------------------------------------------------ witnesses: ports, the switch core

/-- Port `p` is enabled with a maximum length of 1024 bytes, and is UP. -/
def portT (p : Nat) (w : SwtState) : State := withReg { stT {} with swt := { w with link := if p < 32 then [(p, true)] else [] } } R.prtCfg 0 p 0 (if p < 800 then 1 + 1024 * 2 else 1)
theorem test_link_up_witness : (portT 4 {}).condUp 4 = true ∧ (portT 4 {}).linkOf 4 = .up ∧ (portT 32 {}).condUp (linkPort 35) = true ∧ (portT 960 {}).condUp 960 = true ∧ (portT 800 {}).condUp 800 = true := by decide +kernel
theorem test_link_down_witness : (stT {}).condUp 4 = false ∧ ({ stT {} with swt := { link := [(960, true)] } } : State).condUp 960 = false ∧
    ({ stT {} with swt := { link := [(801, true)] } } : State).condUp 801 = false ∧ (withReg (stT {}) R.prtCfg 0 4 0 (1 + 1024 * 2 + 2 * 2 ^ 15)).portModeOf 4 = 2 := by decide +kernel
theorem test_tx_abandon_witness : let s := { portT 801 { canTx := [(801, { frame := 3, tc := 5, first := 0 })] } with now := 2 * msU }
    SMap.find s.swt.canTx 801 = some { frame := 3, tc := 5, first := 0 } ∧ 0 + 2 * msU ≤ s.now := by decide +kernel
theorem test_preemption_witness : let s := withReg (portT 4 {}) R.egrPcfg (portPanel 4) (portLocal 4) 0 (2 ^ 20)
    s.rb R.egrPcfg (portPanel 4) (portLocal 4) 20 = true ∧ s.rb R.egrPcfg (portPanel 4) (portLocal 4) 23 = false ∧ s.linkOf 4 = .up ∧ SMap.get s.swt.verified false 4 = false := by decide +kernel
/-- A frame of 64 zero bytes. -/
def ethT : List Byte := List.replicate 64 0#8
theorem test_receive_witness : let s := portT 4 {}
    s.rxOpen 4 = true ∧ s.md.mode ≠ .limp ∧ ethT.length + 4 ≤ s.maxFrm 4 ∧ s.macsecOk 4 ethT none = true ∧ (s.hostPort 4 && s.hostTraffic ethT) = false ∧
      (s.admitIngress 0 (rxCells ethT.length)).isSome = true ∧ s.maxFrm 4 < (List.replicate 2000 0#8).length + 4 := by decide +kernel
theorem test_receive_refused_witness : let s := withReg (portT 4 {}) R.prtCfg 0 4 0 (1 + 1024 * 2 + 2 ^ 20)
    s.macsecOk 4 ethT none = false ∧ s.admitIngress 0 1000000 = none := by decide +kernel
theorem test_receive_t1s_witness : let s := withReg (withReg (withReg (withReg { portT 32 {} with swt := { bound := [(35 * 2, 6)] } } R.prtCfg 0 32 0 (1 + 1024 * 2)) R.prtCfg 0 35 0 (1 + 1024 * 2)) R.npCfg 0 3 0 1) R.t1sPlca 0 0 0 8
    let bs := List.replicate 11 0#8 ++ [5#8] ++ List.replicate 52 0#8
    s.rxOpen 32 = true ∧ 3 < s.rf R.t1sPlca 0 0 0 4 ∧ s.rb R.npCfg 0 3 0 = true ∧ s.portEn 35 = true ∧ bs.length + 4 ≤ s.maxFrm 35 ∧ s.macsecOk 35 bs none = true ∧
      bit (byteAt (sliceZ bs 6 6) 0).toNat 0 = false ∧ SMap.get s.swt.bound 0 (35 * 2) = 6 ∧ s.rxOpen 35 = true ∧ s.tsDom 35 = s.tsDom 32 ∧
      s.rb R.npCfg 0 4 0 = false ∧ bit (byteAt (sliceZ (List.replicate 64 1#8) 6 6) 0).toNat 0 = true := by decide +kernel
theorem test_receive_bound_witness : leVal (sliceZ (List.replicate 11 0#8 ++ [5#8] ++ List.replicate 52 0#8) 6 6) = 5 * 2 ^ 40 ∧
    ({ portT 32 {} with swt := { bound := [(35 * 2, 5 * 2 ^ 40 + 1)] } } : State).boundAt 35 0 = some (5 * 2 ^ 40) := by decide +kernel
theorem test_receive_can_witness : (canEnv 800 0 false false false 5 false false 0 0 0 1 [7#8] 0#128).isSome = true ∧ (portT 800 {}).rxOpen 800 = true ∧
    min 0 2 ≤ (portT 800 {}).portModeOf 800 ∧ (portT 800 {}).portModeOf 800 < min 1 2 := by decide +kernel
theorem test_receive_lin_witness : let s := portT 960 { linResp := [(960 * 64 + 9, List.replicate 34 0#8)] }
    s.rxOpen 960 = true ∧ SMap.find s.swt.linResp (960 * 64 + (9#6).toNat) = some (List.replicate 34 0#8) ∧ SMap.find s.swt.linResp (960 * 64 + (8#6).toNat) = none ∧
      (withReg s R.prtCfg 0 960 0 (1 + 2 ^ 15)).portModeOf 960 ≠ 0 := by decide +kernel

/-- Frame 3 for class 5 of port 4. -/
def fabT : FabFrame := { bytes := ethT, port := 4, tc := 5, dp := 0, ingress := 6, panel := 0 }
theorem test_admission_witness : let s := portT 4 { adm := [(0, [3])], frames := [(3, fabT)] }
    let s0 : State := { s with swt := { s.swt with adm := SMap.set s.swt.adm [] 0 [] } }
    SMap.get s.swt.adm [] 0 = 3 :: [] ∧ s.fabFrame 3 = some fabT ∧ s.egressUp 4 = true ∧ ethT.length + 4 ≤ s.maxFrm 4 ∧ s.frerEntry (portPanel 4) 4 5 15 = none ∧
      (s0.admitCells (portPanel 4) 4 5 0 (cellsOf ethT.length)).isSome = true ∧ s0.admitCells (portPanel 4) 4 5 0 1000000 = none ∧ s.monitored 4 5 = false ∧ (stT {}).egressUp 4 = false := by decide +kernel
theorem test_transmit_witness : let s := portT 4 { qs := [(qKey 0 4 5, [3])], frames := [(3, fabT)] }
    s.up (portPanel 4) = true ∧ s.linkOf 4 = .up ∧ s.txBusy 4 = [] ∧ s.headOf (portPanel 4) 4 5 = some (3, fabT) ∧ s.monitoredPort 4 = false ∧
      (withReg s R.egrPcfg 0 (portLocal 4) 0 255).pickClass 4 false = some (5, none) := by decide +kernel
theorem test_eligible_witness : let s := withReg (portT 4 { qs := [(qKey 0 4 5, [3])], frames := [(3, fabT)] }) R.egrPcfg 0 (portLocal 4) 0 255
    s.rf R.egrPcfg (portPanel 4) (portLocal 4) 0 8 = 255 ∧ s.eligibleTx 4 false 5 = true ∧ s.eligibleTx 4 false 6 = false ∧ s.eligibleTx 4 false 7 = false := by decide +kernel
theorem test_reseq_witness : let c : Cell := { stream := 5, seq := 9, parts := [(3, 64)] }
    let s := { portT 4 { streams := [(5, { expect := 9, gapAt := some 0, lost := [c] })] } with now := 2000 * usU }
    (s.stream 5).gapAt = some 0 ∧ 0 + s.rf R.egrFab (streamIn 5 / 8) 0 0 10 * usU ≤ s.now ∧ SMap.sorted s.swt.streams = true ∧
      (s.stream 5).lost.find? (fun c => decide (c.seq = (s.stream 5).expect)) = some c ∧ (s.stream 5).held = [] := by decide +kernel
theorem test_frer_witness : let s := { portT 4 { frer := [(7, { seq := 1, hist := 0, passed := 0 })] } with now := 100000 * msU }
    SMap.find s.swt.frer (0 * 256 + 7) = some { seq := 1, hist := 0, passed := 0 } ∧ 0 + s.rf R.egrFrer1 0 7 5 11 * msU ≤ s.now := by decide +kernel
theorem test_can_entry_witness : let s := withReg (withReg (portT 805 { qs := [(qKey 0 805 3, [9])] }) R.tioCcyc 0 0 0 (1 + 10000 * 32)) R.tioCsch 0 2 0 (5 + 3 * 2 ^ 7 + 2 ^ 10)
    let r := s.schedNow 0 0 (s.rf R.tioCcyc 0 0 1 4) (s.rf R.tioCcyc 0 0 5 20 * 1000)
    s.rb R.tioCcyc 0 0 0 = true ∧ s.rb R.tioCsch 0 2 10 = true ∧ s.inService = true ∧ r.done = [] ∧ r.start + s.rf R.tioCsch 0 2 11 20 * usU ≤ s.now ∧
      (∀ i < 2, s.rb R.tioCsch 0 i 10 = false) ∧ s.queue 0 (800 + 80 * 0 + s.rf R.tioCsch 0 2 0 7) (s.rf R.tioCsch 0 2 7 3) ≠ [] := by decide +kernel
theorem test_lin_slot_witness : let s := withReg (withReg (portT 960 {}) R.tioLport 0 0 0 (1 + 2 * 2 ^ 14)) R.tioLsch 0 0 0 (9 + 10 * 256)
    let r := s.schedNow 960 0 (s.rf R.tioLport 0 0 1 4) (max 1 (s.linSlotMs 0 0 0 + s.linSlotMs 0 0 1) * 1000000)
    s.rf R.tioLport 0 0 14 7 = 2 ∧ firstIdx 2 (fun k => !r.done.contains k) = some 0 ∧ s.rb R.tioLport 0 0 0 = true ∧ s.portModeOf 960 = 0 ∧ s.linkOf 960 = .up ∧ r.start + 0 * msU ≤ s.now ∧
      SMap.get s.tio.linBusy 0 960 ≤ s.now := by decide +kernel

-- ------------------------------------------------------------------------------------------ witnesses: charts, search tables

/-- A frame from port 4 that waits for Panel A's parser. -/
def itemP : ParseItem := { port := 4, ingress := 4, frame := ethT }
theorem test_parse_witness : let s := portT 4 { parseQ := [(0, [itemP])] }
    let s0 := s.withParse 0 []
    SMap.get s.swt.parseQ [] 0 = itemP :: [] ∧ s.up 0 = true ∧ s.isFenced 0 8 (4 * 0 + 1) = false ∧ itemP.dead = false ∧ itemP.ll = none ∧ itemP.work = none ∧
      (lowBit ((s0.parseFrom (s.chr.curGen % 4) itemP.frame (s0.startState (s.chr.curGen % 4) itemP.port) 0 {} 64).exc &&& 4294967295)).isSome = true := by decide +kernel
theorem test_cast_on_witness : let w : WorkItem := { panel := 0, action := 2 ^ 26 }
    bits w.action 8 2 ≠ 1 ∧ bits w.action 26 14 = 1 ∧ (((stT {}).od 0 1).next + 65536 - ((stT {}).od 0 1).head) % 65536 < 512 ∧
      512 ≤ (({ stT {} with odoms := [(1, { head := 0, next := 512 })] } : State).od 0 1).next := by decide +kernel
theorem test_retire_witness : let s := { stT {} with chr := { curGen := 5, draining := some 4 } }
    s.chr.draining = some 4 ∧ (∀ p < 2, s.reachable p = true → s.genCount p 4 = 0) ∧
      ({ s with odoms := [(1, { next := 1, gens := [(0, 4)] })] } : State).genCount 0 4 ≠ 0 ∧ s.reachable 0 = true := by decide +kernel
theorem test_sweep_witness : let s := { stT {} with chr := { passes := [.retire 1, .copy] } }
    s.chr.passes = .retire 1 :: [.copy] ∧ SMap.sorted s.tbl.a.ents = true ∧ SMap.sorted s.tbl.b.ents = true := by decide
theorem test_endpoint_witness : let s := poolT (withReg (withReg (portT 4 { qs := [(qKey 0 1112 5, [3])], frames := [(3, { fabT with port := 1112 })] }) R.sepCfg 0 3 0 (1 + 6 * 16)) R.yrnCfg 0 0 6 (3 * 2 ^ 16))
    s.epOk 3 = true ∧ s.up (coursePanel (s.sepCourse 3)) = true ∧ (s.yarn (s.sepCourse 3 * 64 + s.rf R.sepCfg 0 3 4 6)).count < 8 ∧ s.innerHead 0 (1109 + 3) = some (5, 3, { fabT with port := 1112 }) := by decide +kernel
theorem test_endpoint_buffer_witness : let s := poolT (stT {})
    (s.allocBuf (.endpoint 3) 0 64 false).1 = 0 ∧ ((stT {}).allocBuf (.endpoint 3) 0 64 false).1 ≠ 0 := by decide +kernel

/-- Table 9 is the L2 table; Panel A's copy is `x`. -/
def l2T (x : TblPanel) : State := { withReg (stT {}) R.tblCfg 0 9 0 6 with tbl := { a := x } }
def macT : List Byte := [2#8, 0#8, 0#8, 0#8, 0#8, 1#8, 0#8, 1#8]
def l2H : Nat := mkHandle 9 false 0 4
theorem test_learn_witness : let s := l2T { learnQ := [.sight { key := macT, port := 4 }] }
    s.up 0 = true ∧ s.l2Table = some 9 ∧ ((s.tp 0).learnQ.find? fun w => !s.bucketHeld 9 (s.tblBucket 9 w.key)) = some (.sight { key := macT, port := 4 }) ∧
      s.homeFind 0 9 macT (fun _ => true) = none ∧ (s.tblPlace 0 9 macT).isSome = true := by decide +kernel
theorem test_l2_commands_witness : let s := l2T { learnQ := [.insert 3 macT 7, .delete 4 macT, .modify 5 macT 8] }
    ((s.tp 0).learnQ.find? fun w => !s.bucketHeld 9 (s.tblBucket 9 w.key)) = some (.insert 3 macT 7) ∧ s.split = false ∧ s.l2Waits 9 (s.tblBucket 9 macT) = true ∧
      ({ l2T { cdels := [{ jrec := 4, handle := l2H, key := macT, hitgen := 0 }] } with md := { mdT .run with bridge := false } } : State).split = true ∧
      (l2T { cdels := [{ jrec := 4, handle := l2H, key := macT, hitgen := 0 }] }).bucketHeld 9 (s.tblBucket 9 macT) = true := by decide +kernel
theorem test_learn_moves_witness : let e : TblEntry := { key := macT, vmask := 15, data := 7 + 2 ^ 13, aux := mkAux 0 false 0 0 0 }
    let s := { l2T { ents := [(l2H, e)], learnQ := [.sight { key := macT, port := 4 }] } with now := 10 * secU }
    s.homeFind 0 9 macT (fun _ => true) = some (l2H, e) ∧ l2Port e.data ≠ 4 ∧ bit e.data 11 = false ∧ bit e.data 12 = false ∧ ¬ (s.t8us + 16777216 - bits e.aux 16 24) % 16777216 < s.l2Guard ∧
      ({ s with now := 0 } : State).t8us < s.l2Guard ∧ l2Port (4 + 2 ^ 13) = 4 ∧ bit (7 + 2 ^ 11) 11 = true := by decide +kernel
theorem test_activity_witness : let e : TblEntry := { key := macT, vmask := 15, data := 7 }
    let s := { l2T { ents := [(l2H, e)] } with tbl := { a := { ents := [(l2H, e)] }, b := { stream := [.hit l2H macT 5 6, .marker 3] } } }
    (s.tp (1 - 0)).stream = .hit l2H macT 5 6 :: [.marker 3] ∧ s.joined = true ∧ SMap.find (s.tp 0).ents l2H = some e ∧ e.key = macT ∧ hTable l2H = 9 ∧ s.tblAge 9 = true ∧ SMap.find (s.tp 0).ents 0 = none := by decide +kernel
theorem test_copy_witness : let s := l2T { copyQ := [{ handle := l2H, entry := none }, { handle := l2H, entry := none, jrec := some 2 }] }
    (s.tp 0).copyQ = { handle := l2H, entry := none } :: [{ handle := l2H, entry := none, jrec := some 2 }] ∧ s.joined = true := by decide
theorem test_scan_witness : let s := { l2T { scanDue := some 0 } with now := secU }
    (s.tp 0).scanDue = some 0 ∧ s.scanPeriod ≠ 0 ∧ s.inService = true ∧ (s.tp 0).scan = none ∧ (s.tp 0).ents = [] := by decide +kernel
theorem test_scan_entries_witness : let s := { withReg (l2T { ents := [(mkHandle 5 false 0 6, { key := [1#8], vmask := 15, data := 1 })], act := [(mkHandle 5 false 0 6, { hit := true })], scanDue := some 0 }) R.tblCfg 0 5 0 65 with now := secU }
    (∀ e ∈ (s.tp 0).ents, s.tblKind (hTable e.1) ≠ 6 ∧ (s.activity 0 e.1).hit = true) ∧ s.tblAge 5 = true := by decide +kernel
theorem test_scan_resume_witness : let s := l2T { scan := some { todo := [], cands := [[1#8]] } }
    (s.tp 0).scan = some { todo := [], cands := [[1#8]] } ∧ s.idleFull = false ∧ s.inService = true := by decide +kernel
theorem test_cdelete_witness : let c : CdelReq := { jrec := 4, handle := l2H, key := macT, hitgen := 0, ready := true }
    let e : TblEntry := { key := macT, vmask := 15, data := 7 }
    let s := l2T { cdels := [c], ents := [(l2H, e)] }
    (s.tp 0).cdels.find? (fun c => c.ready) = some c ∧ SMap.find (s.tp 0).ents c.handle = some e ∧ (s.activity 0 l2H).hitgen = 0 := by decide +kernel


-- ------------------------------------------------------------------------------------------ witnesses: the Carriage, flow state

/-- A HOST item of list 5, born at time 0. -/
def workT : WorkItem := { kind := .host, list := 5 }
/-- Strand 0 subscribes to class 5 and owns a lane-slot; list 5 is enabled. -/
def carT (s : State) : State := withReg (withReg (withReg s R.carSub 0 0 0 32) R.carQcfg 0 5 0 (1 + 1024 * 65536)) R.gtbEnt 0 0 0 8
theorem test_dispatch_witness : let w := { workT with ll := some 9, ord := true, marker := 3 }
    let s := carT { stT {} with car := { lists := [(5, [w])] }, lls := [(9, { state := .queued, item := w })] }
    s.inService = true ∧ s.up (coursePanel 0) = true ∧ (∀ q < 8, 0 < q → s.served 0 q = []) ∧ s.served 0 0 = [5] ∧ s.eligible 5 = some 0 ∧ (s.items 5)[0]? = some w ∧ w.dead = false ∧ s.timedOut w = false ∧
      s.strandFor 0 0 w = some 0 ∧ (s.strand 0).idle = true ∧ SMap.find s.lls 9 = some { state := .queued, item := w } := by decide +kernel
theorem test_dispatch_first_witness : let s := carT { stT {} with car := { lists := [(5, [workT])] } }
    s.served 0 0 = [5] ∧ s.eligible 5 = some 0 ∧ s.strandFor 0 0 workT = some 0 ∧ s.lls = [] ∧ s.llOk 0 0 = true ∧ (s.items 5)[0]? = some workT ∧ workT.ll = none := by decide +kernel
/-- Some lifeline is picked whichever number is free. -/
theorem test_pick_lifeline : (((stT {}).pickLl 0).1).isSome = true := by
  unfold State.pickLl State.freeN
  dsimp only
  split
  · rfl
  · decide +kernel
theorem test_hold_witness : let s := carT { stT {} with car := { holdA := [workT] } }
    s.hst.heldWork = [] ∧ s.holdQ 0 = [workT] ∧ (s.storeItem 5 workT).isSome = true ∧ s.holdQ 1 = [] := by decide +kernel
theorem test_spill_witness : let s := carT { stT {} with car := { spill := [(5, [workT])] } }
    s.spilled 5 = workT :: [] ∧ (s.items 5).length < s.listDepth 5 ∧ s.storeUse (listPanel 5) < s.storeSize (listPanel 5) := by decide +kernel
/-- Lifeline 9 has bound off. -/
def doneT (rs : List RsEntry) (l : Lifeline) : State := { stT {} with lls := [(9, { l with state := .done, item := workT, rs := rs })] }
theorem test_release_witness : (doneT [] {}).isTurn 9 = true ∧ (doneT [] {}).commitFails 9 = none ∧ workT.kind ≠ .frame ∧ (doneT [] {}).isTurn 8 = false := by decide +kernel
theorem test_frog_witness : (doneT [{ ridx := 77, ver := 3 }] {}).isTurn 9 = true ∧ (doneT [{ ridx := 77, ver := 3 }] {}).commitFails 9 = some 0 ∧
    ((doneT [{ ridx := 77, ver := 3 }] { serial := true }).ll 9).serial = true := by decide +kernel
theorem test_timeout_witness : let s : State := { stT {} with lls := [(9, { state := .running, item := workT, strand := some 0 })], now := 2000 * usU }
    s.timedOut (s.ll 9).item = true ∧ (s.ll 9).state = .running ∧ (s.strand 0).ops = [] ∧ ({ s with now := 0 } : State).timedOut workT = false := by decide +kernel
theorem test_timeout_listed_witness : let w := { workT with ord := true, odom := 7, marker := 3 }
    let s : State := { stT {} with car := { lists := [(5, [w])] }, now := 2000 * usU }
    s.items w.list = [w] ∧ s.car.lists = [(w.list, [w])] ∧ w.waitsAs 0 7 3 = true ∧ s.timedOut w = true := by decide +kernel

/-- Strand 0 runs item 5, one read of which waits as `wt` says. -/
def waitT (wt : HookWait) (f : FlwPanel) (rs : List RsEntry) : State :=
  { withReg { stT { strandT [] with bank0 := { bankT [] with item := some 5, hasItem := true }, ops := [{ hook := 4, func := 1, ridx := 77, wait := wt, ll := some 5 }] } with lls := [(5, { state := .running, serial := true, rs := rs })] }
    R.flwCfg 0 0 0 1 with flwA := f }
/-- Context 9 holds record 77. -/
def cleanT : FlwPanel := { ctxs := [(9, { state := .clean, ridx := 77, ver := 3 })], lockWait := [0] }
theorem test_lock_witness : let s := waitT (.lock 0 77) cleanT []
    let o : HookOp := { hook := 4, func := 1, ridx := 77, wait := .lock 0 77, ll := some 5 }
    (s.strand 0).ops = [o] ∧ o.home = 0 ∧ s.overBridge 0 0 = false ∧ s.flwEn 0 = true ∧ o.key = [] ∧ o.ridx ≠ ridxNone ∧ s.ctxOf 0 77 = some 9 ∧ (s.ctx 0 9).state = .clean ∧ s.opLl 0 o = some 5 ∧
      repeatOf (s.ll 5).rs 0 9 77 = none ∧ (s.ll 5).rs.length < 12 ∧ (s.flw 0).locks = [] ∧ s.lockedByOther 0 false 77 5 = false := by decide +kernel
theorem test_lock_first_witness : let s := waitT (.lock 0 77) cleanT []
    ((s.flw 0).lockWait.find? fun u => (s.strand u).ops.any fun q => decide (q.wait = .lock 0 77)) = some 0 ∧ (s.strand 0).ops.find? HookOp.onLock = some { hook := 4, func := 1, ridx := 77, wait := .lock 0 77, ll := some 5 } ∧
      (s.strand 1).ops.find? HookOp.onLock = none := by decide +kernel
theorem test_miss_admit_witness : let s := waitT (.missFull 0) { missWait := [0] } []
    (s.flw 0).missQ.length < 4096 ∧ ((s.flw 0).missWait.find? fun u => (s.strand u).ops.any fun q => decide (q.wait = .missFull 0)) = some 0 := by decide +kernel
theorem test_miss_full_witness : 4096 ≤ (({ flwA := { missQ := List.replicate 4096 9 } } : State).flw 0).missQ.length := by decide +kernel
theorem test_miss_serve_witness : let s := { waitT (.miss 0 9) { missQ := [9], ctxs := [(9, { state := .filling, ridx := 77 })] } [] with now := usU }
    (s.flw 0).missQ = 9 :: [] ∧ s.up 0 = true ∧ 0 < s.missRate 0 ∧ (s.ctx 0 9).ridx ≠ ridxNone ∧ s.hasRecord 0 77 = false ∧ s.missReaders 0 9 = [0] ∧ s.missReaders 0 8 = [] := by decide +kernel

-- ------------------------------------------------------------------------------------------ witnesses: timed inputs, DRAM

/-- Input 9 is an input with a filter of 15 ns. -/
def pinT (x : Pin) : State := { withReg { stT {} with tio := { pins := [(9, x)] } } R.tioPcfg 0 9 0 (1 + 3 * 128) with now := 100 * nsU }
theorem test_pin_witness : (pinT {}).up (9 / 128) = true ∧ ((pinT {}).pin 9).raw ≠ true ∧ (pinT {}).glitchTime 9 ≠ 0 ∧ ((pinT {}).pin 9).rawAt = none ∧ true ≠ ((pinT {}).pin 9).level := by decide +kernel
theorem test_pin_glitch_witness : let s := pinT { raw := true, rawAt := some (95 * nsU) }
    (s.pin 9).raw ≠ false ∧ (s.pin 9).rawAt = some (95 * nsU) ∧ s.now < 95 * nsU + s.glitchTime 9 ∧ false = (s.pin 9).level := by decide +kernel
theorem test_pin_accept_witness : let s := pinT { raw := true, rawAt := some (80 * nsU), lastAcc := some (70 * nsU) }
    80 * nsU + s.glitchTime 9 ≤ s.now ∧ s.pinSources 9 = [] ∧ s.pinDecoders 9 = [] ∧ 80 * nsU < 70 * nsU + 20 * nsU ∧ ¬ 80 * nsU < 60 * nsU + 20 * nsU := by decide +kernel
/-- Stream 2 of Panel A, of 64 KiB at 0x1_0000. -/
def streamT : State := withReg (withReg (stT {}) R.tioScfg0 0 2 0 1) R.tioScfg1 0 2 0 1
theorem test_capture_witness : streamT.rb R.tioScfg0 0 2 0 = true ∧ streamT.devOk 0 (streamT.recordAddr 0 2 1) 32 = true ∧ (streamT.tioStore 0).length < 256 ∧ streamT.rb R.tioScfg0 0 2 5 = false ∧ streamT.rb R.tioScfg0 0 3 0 = false := by decide +kernel
theorem test_dead_time_witness : let d : DeadEdge := { pin := 9, due := 5, byPos := false, domain := 0, copy := 0 }
    let s : State := { pinT {} with tio := { dead := [(4, d)] } }
    SMap.find s.tio.dead (0 * 64 + 4) = some d ∧ s.up 0 = true ∧ d.due ≤ s.now ∧ posRel 7 5 = .after ∧ posRel 5 5 = .equal ∧ posRel 3 5 ≠ .equal ∧ posRel 3 5 ≠ .after := by decide +kernel
theorem test_sent_witness : let s := withReg (withReg (stT {}) R.tioSent 0 3 0 (9 + 128 + 30 * 256 + 6 * 2 ^ 18)) R.tioPcfg 0 9 0 5
    let c := (s.rd R.tioSent 0 3).toNat
    bit c 7 = true ∧ s.pinMode 9 = 5 ∧ (∀ n ∈ [12, 13, 14, 15, 26, 27], 12 ≤ n ∧ n ≤ 27) ∧ 6 = bits c 18 3 ∧ SMap.get s.tio.sentSync 0 3 = 0 ∧ 56 * bits c 8 10 * 1000 = 1680000 := by decide +kernel
theorem test_sar_witness : let s : State := { stT {} with tio := { sar := [(1, [{ input := 3, count := 1, stream := 2, tag := 9, domain := 0, panel := 0 }])] } }
    SMap.get s.tio.sar [] 1 = { input := 3, count := 1, stream := 2, tag := 9, domain := 0, panel := 0 } :: [] ∧ s.up (1 / 2) = true := by decide
theorem test_sdm_witness : bit ((withReg (stT {}) R.tioSdm 0 1 0 1).rd R.tioSdm (1 / 4) (1 % 4)).toNat 0 = true ∧ bit ((withReg (stT {}) R.tioSdm 0 1 0 1).rd R.tioSdm 0 1).toNat 7 = false ∧
    bit ((withReg (stT {}) R.tioSdm 0 1 0 129).rd R.tioSdm 0 1).toNat 7 = true := by decide +kernel
theorem test_mains_witness : let s : State := { withReg (withReg (domT (5 + 2 * 8) {}) R.domCtl 0 3 0 3) R.tioAcfg 0 0 0 1 with tio := { phase := [(2, 8201)] } }
    s.rb R.tioAcfg (2 / 16) (2 / 8 % 2) 0 = true ∧ s.up (2 / 16) = true ∧ s.domEn 3 = true ∧ s.srcKind 3 false = 5 ∧ s.srcSel 3 false = 2 ∧ SMap.get s.tio.phase 0 2 = 8201 ∧
      (∀ k < 16, ∀ x, s.srcKind k x = 4 → s.srcSel k x ≠ 2) := by decide +kernel

/-- Channel 1 of Panel A in a state. -/
def chanT (st : Nat) (d : DrmState) : State := { withReg (stT {}) R.drmCstat 0 1 0 st with drm := d, now := 1000 * msU }
theorem test_channel_witness : (chanT 0 {}).up 0 = true ∧ (chanT 0 {}).chanState 1 = 0 ∧ (chanT (8 * 8) {}).postp 1 = 8 ∧ (chanT 0 {}).postp 1 < 8 ∧ (chanT 0 {}).panicOn 1 = false ∧ 0 < SMap.get (chanT 0 { due := [(1, 2)] }).drm.due 0 1 ∧
    (chanT 1 {}).chanState 1 = 1 ∧ (chanT 2 {}).chanState 1 = 2 ∧ (chanT 3 {}).chanState 1 = 3 ∧ SMap.get (chanT 0 {}).drm.reading [] 1 = [] := by decide +kernel
theorem test_channel_idle_witness : let s := withReg (chanT 0 {}) R.drmRh 0 0 0 0
    s.cands 1 = [] ∧ s.rb R.drmRh 0 0 0 = false ∧ s.postp 1 < 8 ∧ SMap.get s.drm.due 0 1 = 0 ∧ SMap.get s.drm.nrq [] 1 = [] := by decide +kernel
/-- A request of the WINDOW port for a line of channel 1. -/
def reqD : DramReq := { port := 5, at_ := 3, addr := 0x2000001000, ca := 0, panel := 0 }
/-- Channel 1 with that request, and no draw of neighbour refreshes. -/
def chanQ (r : DramReq) : State := withReg (chanT 0 { reqs := [(1, [r])] }) R.drmRh 0 0 0 0
theorem test_channel_request_witness : let s := chanQ reqD
    let x : Cand := { level := 7 - s.urgency 0 5, at_ := 3, port := 5, ca := 0, passed := 0, src := .req 0 }
    s.cands 1 = [x] ∧ (SMap.get s.drm.reqs [] 1)[0]? = some reqD ∧ reqD.write = false ∧ reqD.port < 9 ∧ s.postp 1 < 8 ∧ s.rb R.drmRh 0 0 0 = false ∧ (s.cands 1).filter (fun x => decide (x.level = 2)) = [] ∧
      (s.cands 1).length = 1 ∧ reqD.short = false ∧ ((chanQ { reqD with write := true }).cands 1).length = 1 := by decide +kernel
/-- Nothing of the refreshes is owed on a channel whose counters are all zero. -/
theorem test_channel_no_refresh_witness : (chanQ reqD).issueRefresh 1 = none := by
  have h : (chanQ reqD).rfmDue 1 = none := by decide +kernel
  have h2 : (chanQ reqD).issueNeighbour 1 = none := by decide +kernel
  have h3 : SMap.get (chanQ reqD).drm.due 0 1 = 0 := by decide +kernel
  have h4 : (chanQ reqD).postp 1 = 0 := by decide +kernel
  simp [State.issueRefresh, h, h2, h3, h4]
theorem test_channel_capture_witness : let s := { withReg (withReg (chanT 0 {}) R.drmRh 0 0 0 0) R.drmCstat 0 1 0 0 with tio := { storeA := [{ addr := 0x2000001000, bytes := [] }] } }
    s.chanState 1 = 0 ∧ (s.tioStore 0)[0]? = some { addr := 0x2000001000, bytes := [] } ∧ (s.cands 1).map (fun x => x.src) = [.cap 0] := by decide +kernel
theorem test_channel_panic_witness : let s := { chanT 0 {} with tio := { storeA := List.replicate 256 { addr := 0x2000001000, bytes := [] } } }
    s.panicOn 1 = true ∧ s.postp 1 < 8 ∧ 0 < s.captureLevel 0 ∧ (s.cands 1).filter (fun x => decide (x.level = 2)) ≠ [] := by decide +kernel
theorem test_refresh_due_witness : ({ chanT 0 { refAt := [(1, 5)] } with now := 5 + Config.refreshInterval 0 } : State).refreshOver 1 = true ∧
    ({ chanT 0 { refAt := [(1, 5)] } with now := 4 } : State).refreshOver 1 = false := by
  constructor
  · simp [State.refreshOver, chanT, withReg, State.setRd, SMap.get, SMap.find]
  · simp only [State.refreshOver, chanT, withReg, State.setRd, SMap.get, SMap.find]
    simp
    omega
theorem test_retrain_witness : let s := chanT 0 {}
    SMap.get s.drm.trainedAt 0 1 + s.rf R.drmTrn 0 0 0 8 * msU ≤ s.now ∧ s.captureLevel 0 = 0 ∧ s.schedLevel 0 = 0 ∧ s.rf R.drmTrn 0 0 8 4 ≤ ((40 : Int) - SMap.get s.drm.temp 0 1).natAbs ∧
      SMap.get (chanT 0 { deferAt := [(1, 1)] }).drm.deferAt 0 1 ≠ 0 ∧ 0 + 10 * msU ≤ s.now ∧ SMap.get s.drm.mr4At 0 1 + 16 * msU ≤ s.now := by decide +kernel
theorem test_read_witness : let s := chanT 0 { errTrain := [(1, true)], reading := [(1, [reqD])] }
    SMap.get s.drm.errTrain false 1 = true ∧ SMap.get (chanT 0 {}).drm.errTrain false 1 = false ∧ SMap.get s.drm.reading [] 1 = reqD :: [] ∧ reqD.who = none ∧ reqD.frame = none ∧
    (chanT 0 { resync := true, marked := [(4, 1)] }).drm.resync = true ∧ (chanT 0 {}).joined = true ∧ (chanT 0 {}).drm.resync = false := by decide +kernel


-- ------------------------------------------------------------------------------------------ witnesses: the host engine

/-- QP 3 is open; ring 9 is its COMMAND ring of 16 entries; window 1 lets the host reach 64 KiB at 0x1_0000 with key 77. -/
def hstT (q : Qp) (g : Ring) : State :=
  { withReg (withReg (withReg (withReg (withReg (withReg (stT {}) R.hstRing0 0 10 0 (1 + 2 + 3 * 16 + 4 * 1024)) R.hstRing0 0 9 0 (1 + 3 * 16 + 4 * 1024 + 10 * 2 ^ 15)) R.hstMwin0 0 1 0 (3 + 16 * 4)) R.hstMwin1 0 1 0 1) R.hstMwin2 0 1 0 77) R.hstDbkey 0 0 0 55
    with hst := { qps := [(3, { q with state := 1 })], rings := [(9, g)] }, now := secU }
theorem test_rdma_witness : let s := hstT {} {}
    s.qpOpen 3 = true ∧ s.window 77#32 = some 1 ∧ 77#32 ≠ s.rd R.hstDbkey 0 0 ∧ s.rb R.hstMwin0 0 1 1 = true ∧ s.mwinAddr 1 64 4 = some 0x10040 ∧ s.devOk s.hostPanel 0x10040 4 = true ∧
      s.window 78#32 = none ∧ (stT {}).qpOpen 3 = false := by decide +kernel
theorem test_rdma_order_witness : psnBehind 4 5 = true ∧ psnBehind 6 5 = false ∧ ((hstT { epsn := 5 } {}).qp 3).epsn = 5 ∧ ((hstT {} {}).hostRead 77#32 64 4).isSome = true ∧ (hstT {} {}).hostRead 78#32 64 4 = none ∧
    (hstT {} {}).hostWrite 3 78#32 64 [1#8] = none := by decide +kernel
theorem test_doorbell_witness : let s := hstT {} {}
    let bs := leBytes 4 9 ++ leBytes 4 2
    0 + 8 ≤ 4096 ∧ bs.length = 8 ∧ leVal (sliceZ bs 0 4) = 9 ∧ s.ringEn 9 = true ∧ s.ringQp 9 = 3 ∧ s.ringKind 9 = 0 ∧ idxBehind 2 0 = false ∧ idxDiff 2 0 ≤ s.ringSize 9 ∧ s.ringEn 8 = false := by decide +kernel
/-- A SEND that waits for its acknowledgement. -/
def wqeT : Wqe := { kind := .send, psn := 5, npkts := 1 }
theorem test_ack_witness : let s := hstT { sq := [wqeT] } {}
    (s.qp 3).sq = [wqeT] ∧ wqeT.jrec = none ∧ psnBehind 5 ((5 + 1 - 1) % 16777216) = false ∧ bits (0x00#8).toNat 5 2 = 0 ∧ bits (0x20#8).toNat 5 2 = 1 ∧ bits (0x61#8).toNat 5 2 = 3 ∧ bits (0x61#8).toNat 0 5 ≠ 0 ∧
      bits (0x40#8).toNat 5 2 = 2 ∧ psnBehind ((5 + 16777215) % 16777216) 5 = true := by decide +kernel
theorem test_ack_timeout_witness : let s := hstT { sq := [wqeT] } {}
    (s.qp 3).rnr = false ∧ (s.qp 3).sentAt + 4915200 * 2 ^ s.rf R.hstQp0 0 3 6 5 ≤ s.now ∧ (s.qp 3).tries < s.rf R.hstQp0 0 3 3 3 ∧ s.rf R.hstQp0 0 3 3 3 ≤ 7 := by decide +kernel
theorem test_rnr_witness : let s := hstT { sq := [wqeT], rnr := true } {}
    (s.qp 3).rnr = true ∧ (s.qp 3).rnrAt + 10 * usU ≤ s.now ∧ (s.qp 3).rnrTries < s.rf R.hstQp0 0 3 3 3 ∧ (s.qp 3).tickAt + 55 * usU ≤ s.now ∧ (s.qp 3).cutAt = none := by decide +kernel
theorem test_command_fetch_witness : let s := hstT {} { prod := 2 }
    s.ringQp 9 = 3 ∧ s.ringEn 9 = true ∧ s.ringKind 9 = 0 ∧ 0 < s.fetchable 9 ∧ SMap.get s.hst.pausedWork false 9 = false ∧ s.fetchOut 9 = none ∧ (s.qp 3).sq = [] := by decide +kernel
theorem test_failover_witness : let s := withReg (withReg (hstT {} {}) R.prtCfg 0 0 0 1) R.hstHcfg 0 0 0 1
    s.failoverEn = true ∧ s.hst.port2 = false ∧ s.up 1 = true ∧ s.linkOf 0 = .down := by decide +kernel

/-- A command of ring 9 with a payload; ring 9 has fetched an entry. -/
def cmdT (p : List Byte) : CmdIn := { ring := 9, fence := false, long := false, rsv := 0#6, list := 0#10, rsv2 := 0#6, seq := 5#32, tag := 0#64, payload := p, ext := [] }
def readyT : State := hstT {} { prod := 1, cons := 1, ready := 1, inflight := 1 }
theorem test_command_witness : readyT.mayStart (9 % 256) (cmdT []) = true ∧ (cmdT []).rsv = 0#6 ∧ (readyT.ring 9).expSeq.getD 5 = 5 ∧ readyT.md.mode ≠ .limp ∧ ((cmdT []).listBad || !(cmdT []).pz 16 48 || !(cmdT []).xz 0) = false ∧
    hostRow readyT (.nop ⟨cmdT [], 0#8⟩) = some (cmdT [], 0, false) ∧ hostRow readyT (.nop ⟨cmdT [], 1#8⟩) = none ∧ hostRow readyT (.nop ⟨cmdT [], 0x7F#8⟩) = some (cmdT [], 0x7F, true) := by decide +kernel
theorem test_command_checks_witness : (hstT {} {}).mayStart 9 (cmdT []) = false ∧ ((cmdT [1#8]).listBad || !(cmdT [1#8]).pz 16 48) = true ∧ idxBehind 5 7 = true ∧ idxBehind 5 3 = false ∧
    limpCmd 0x10 = false := by decide +kernel
theorem test_journal_witness : SMap.find (readyT.inCommand 0 (cmdT [])).2.hst.jrnl (readyT.inCommand 0 (cmdT [])).1 ≠ none ∧
    SMap.sorted (readyT.inCommand 0 (cmdT [])).2.hst.jrnl = true ∧ SMap.sorted readyT.hst.rings = true := by decide +kernel
/-- Table 5 is an exact-match table of kind 1; STAGING is open; an entry of its own, if any. -/
def tblT (e : List (Nat × TblEntry)) : State := { withReg readyT R.tblCfg 0 5 0 1 with chr := { opened := true }, tbl := { a := { ents := e }, b := { ents := e } } }
theorem test_table_witness : let c := cmdT (leBytes 4 5)
    let s := tblT []
    tblRow (.stagedInsert c) = some (c, 1, .insert, true) ∧ s.tblRsv .insert c = false ∧ s.tblKind 5 = 1 ∧ s.engFenced 5 = false ∧ s.split = false ∧ s.stageReady = true ∧
      s.homeFind 0 5 (c.key.take (keyWidth 1)) (fun _ => true) = none ∧ (s.tblPlace (s.tblHome 0 (s.tblBucket 5 (c.key.take (keyWidth 1)))) 5 (c.key.take (keyWidth 1))).isSome = true := by decide +kernel
theorem test_table_there_witness : let c := cmdT (leBytes 4 5)
    let e : TblEntry := { key := List.replicate (keyWidth 1) 0#8, vmask := 15, data := 0 }
    let s := tblT [(mkHandle 5 false 0 6, e)]
    s.homeFind 0 5 (c.key.take (keyWidth 1)) (fun e => decide (e.vmask = 15)) = some (mkHandle 5 false 0 6, e) ∧ (tblT []).tblRsv .delete c = false ∧
      (tblT [(mkHandle 5 false 0 6, { e with vmask := 4 })]).stagingSlot = 2 ∧ bit 4 2 = true := by decide +kernel
theorem test_table_lpm_witness : let s := { withReg (tblT []) R.tblCfg 0 5 0 4 with tbl := { lpm := [(5 * 4 + 2, [{ len := 8, addr := 0x0A000000, data := 3 }])] } }
    s.tblKind 5 = 4 ∧ s.prefixes 5 s.stagingSlot = [{ len := 8, addr := 0x0A000000, data := 3 }] ∧ ¬ 4096 < (s.lpmTouch 5 8 0x0A000000).length ∧ s.familyUse 4 < 262144 ∧ ¬ (if (4 : Nat) = 4 then 262144 else 65536) < s.familyUse 4 ∧ (withReg readyT R.tblCfg 0 5 0 4).stageReady = false := by decide +kernel
theorem test_cdelete_command_witness : let c := cmdT (leBytes 4 5 ++ leBytes 4 (mkHandle 5 false 0 6))
    let s := withReg readyT R.tblCfg 0 5 0 65
    s.cdelRsv c = false ∧ s.tblAge 5 = true ∧ s.tblKind 5 = 1 ∧ hTable (c.p 20 4) = 5 ∧ s.joined = true := by decide +kernel
theorem test_flow_command_witness : let c := cmdT (leBytes 4 2 ++ leBytes 4 7)
    let s := { withReg (withReg readyT R.flwCfg 0 0 0 1) R.flwRec 0 0 0 16 with flwA := { used := [(7, true)] } }
    flowRsv .delete c = false ∧ s.up 0 = true ∧ (s.flowNamed 0 c).1 = some 7 ∧ (readyT.flowNamed 0 c).1 = none ∧ (s.reserve 1 []).1 = none := by decide +kernel
theorem test_bind_witness : let c := cmdT (leBytes 4 (35 + 2048) ++ leBytes 4 0 ++ leBytes 6 2)
    c.listBad = false ∧ bits (c.p 16 4) 13 19 = 0 ∧ bits (c.p 16 4) 0 11 = 35 ∧ c.p 24 6 = 2 ∧ bit (c.p 24 6) 0 = false ∧ readyT.boundElse 35 2 = none ∧
      ({ readyT with swt := { bound := [(36 * 2, 3)] } } : State).boundElse 35 2 ≠ none := by decide +kernel
theorem test_stats_witness : let c := cmdT (leBytes 2 3 ++ leBytes 2 1 ++ leBytes 4 (2 * 256))
    (ctrSet (c.p 16 2)).1 = 2 ∧ c.p 18 2 = 1 ∧ bits (c.p 20 4) 8 4 = 2 ∧ readyT.ctrPanel 3 1 = some 1 ∧ readyT.up 1 = true ∧ bit (c.p 20 4) 12 = false := by decide +kernel
theorem test_register_commands_witness : let c := cmdT (leBytes 4 (R.domCoast.addr 0 3) ++ leBytes 4 1)
    c.p 20 4 = 1 ∧ readyT.spanCut (c.p 16 4) 1 = false ∧ regTail c = false ∧ !c.pz 24 40 = false := by decide +kernel
theorem test_key_witness : let c := cmdT (leBytes 4 (256 + 7 * 1024))
    let s := withReg readyT R.prtCfg 0 0 0 (2 ^ 20)
    keyRsv false c = false ∧ keyRsv true c = false ∧ s.rb R.prtCfg 0 (2 * s.hostPanel) 20 = true ∧ idxs 2 (fun p => bit (c.p 16 4) (8 + p)) = [0] ∧ bits (c.p 16 4) 10 10 = 7 ∧ SMap.find s.sec.keys 7 = none := by decide +kernel
theorem test_work_witness : let s := withReg readyT R.carQcfg 0 0 0 (1 + 1024 * 65536)
    s.listEn 0 = true ∧ s.up (listPanel 0) = true ∧ s.hst.heldWork = [] ∧ readyT.listEn 0 = false := by decide +kernel
theorem test_tx_frame_witness : let c := cmdT (List.replicate 12 0#8 ++ leBytes 4 64)
    bits (c.p 28 4) 0 14 = 64 ∧ (c.listBad || decide (bits (c.p 28 4) 14 18 ≠ 0) || !c.pz 32 32 || !c.xz 0) = false ∧ (readyT.inject 0 1031 ethT none).isSome = true ∧
      bits ((cmdT []).p 28 4) 0 14 < 60 := by decide +kernel

-- ------------------------------------------------------------------------------------------ witnesses: Selvage, frames, modes, recovery

def reqT (len : BitVec 6) (a : BitVec 20) : SvReq := { len := len, addr := a, payload := [], early := false }
theorem test_selvage_witness : svRow (.svNop ⟨reqT 0 0, 0#6⟩) = some (reqT 0 0, 0, false, false) ∧ svRow (.svNop ⟨reqT 0 1, 0#6⟩) = some (reqT 0 1, 0, true, false) ∧
    svRow (.rdS (reqT 0 0)) = some (reqT 0 0, 2, false, true) := by decide +kernel
theorem test_selvage_ops_witness : svRow (.svNop ⟨reqT 0 0, 0x3F#6⟩) = some (reqT 0 0, 0x3F, true, false) ∧ svOps.contains (0x01#6).toNat = true ∧
    svRow (.wrS ⟨reqT 1 0, [none]⟩) = some (reqT 1 0, 3, false, false) := by decide +kernel
theorem test_selvage_rows_witness : svRow (.rdS (reqT 1 0)) = some (reqT 1 0, 2, false, false) ∧ (stT {}).spanCut 0 1 = false ∧ svRow (.mbxSend (reqT 15 60)) = some (reqT 15 60, 4, false, false) ∧
    svRow (.flashWr (reqT 2 0)) = some (reqT 2 0, 9, false, false) := by decide +kernel
theorem test_selvage_state_witness : (stT {}).svPanel = some 0 ∧ (stT {}).mboxWait < 4 ∧ (stT {}).svPanel ≠ none ∧ svcT.flashOk = true ∧ (stT {}).flashOk = false ∧ ({ md := mdT .sleep } : State).judged = .sleep ∧ inRecPart 0 = false := by decide +kernel
/-- Port 0 is up; frames of EtherType 0x88B5 from the associated host are Register Access Frames. -/
def rafT : State := { cfgT with regs := (withReg cfgT R.prtCfg 0 0 0 (1 + 1024 * 2)).regs, swt := { link := [(0, true)] }, sec := { rafOn := true, rxSa := [(1, { key := [], sci := [], pn := 0 })] } }
def rafF (d : List Byte) : RxFrame := { port := 0, data := .eth d, opp := 0, oppOk := true, sec := some 1 }
def rafB : List Byte := List.replicate 12 0#8 ++ [0x88#8, 0xB5#8] ++ leBytes 4 (1 + 256) ++ leBytes 4 9 ++ leBytes 4 0 ++ leBytes 4 0 ++ List.replicate 32 0#8
theorem test_raf_witness : rafT.hostOpen 0 = true ∧ rafB.length + 4 ≤ rafT.maxFrm 0 ∧ rafT.macsecOk 0 rafB (some 1) = true ∧ rafT.hostTraffic rafB = false ∧ etherAt rafB (rtagPos rafB) = 0x88B5 ∧
    rafT.rafOk (rafF rafB) = true ∧ rafBad (leVal (sliceZ (rafB.drop (rtagPos rafB + 2)) 0 4)) 0 = false ∧ rafT.spanCut 0 1 = false ∧ cfgT.rafOk (rafF rafB) = false := by decide +kernel
/-- A UDP frame to the device's own address and the transport's port, for QP 3, without an invariant CRC. -/
def roceB : List Byte := List.replicate 12 0#8 ++ [0x08#8, 0#8, 0x45#8, 0#8] ++ [0#8, 56#8] ++ List.replicate 5 0#8 ++ [17#8] ++ List.replicate 10 0#8 ++ [0#8, 0#8, 0x12#8, 0xB7#8, 0#8, 36#8, 0#8, 0#8] ++
  [4#8, 0#8, 0#8, 0#8, 0#8, 0#8, 1#8, 3#8] ++ List.replicate 20 0#8
theorem test_host_frame_witness : rafT.hostTraffic roceB = true ∧ icrcOk roceB (rtagPos roceB) = false ∧ beVal (sliceZ roceB (udpAt roceB (rtagPos roceB) + 8 + 5) 3) = 259 := by decide +kernel

/-- Panel A waits for its inputs. -/
def bootT : State := { md := { mode := .boot, aonDone := some 0, a := { pg := true, rst := true, refclk := true } }, now := 2 * secU }
theorem test_boot_witness : (bootT.pan 0).phase = .off ∧ (bootT.pan 0).refSince + 100 * usU ≤ bootT.now ∧ bootT.md.aonDone = some 0 ∧ 0 + secU ≤ bootT.now ∧ bootT.md.held = false ∧ ({ md := { a := { phase := .booting } } } : State).md.a.phase = .booting := by decide +kernel
theorem test_vid_witness : (stT {}).up 0 = true ∧ ((({ stT {} with now := secU } : State).pan 0).vidAt + 20 * usU ≤ secU) ∧ ((stT {}).pan 0).vid = 20 := by decide +kernel
theorem test_sleep_witness : let s : State := { stT {} with md := { mdT .run with sleeping := true }, now := 10 * secU }
    s.drained = true ∧ s.md.sleepAt + s.sleepLimit ≤ s.now ∧ ({ s with lls := [(0, { state := .running })], now := 0 } : State).drained = false ∧ 0 < s.sleepLimit := by decide +kernel
theorem test_wake_witness : let s : State := { md := { mdT .sleep with wakeMask := 0x5001#32, wakePorts := [805] } }
    s.wakeOf s.md.wakeMask.toNat s.md.wakePorts (.can 805 9) = some (1, 805) ∧ s.wakeOf s.md.wakeMask.toNat s.md.wakePorts (.lin 960 200) = none := by decide +kernel
theorem test_mode_witness : cfgT.md.selCycle ≠ some (cfgT.now / 48000) ∧ cfgT.md.sleeping = false ∧ (cfgT.modeCommand 3 false).1 = true ∧ svcT.sec.token ≠ none ∧ ({ md := { mdT .run with selCycle := some 0 } } : State).md.selCycle = some 0 := by decide +kernel
theorem test_panel_reset_witness : (cfgT.pan 0).rst = true ∧ cfgT.md.sleeping = false ∧ cfgT.md.mode = .config ∧ bootT.md.mode = .boot ∧ (bootT.pan 0).rst = true := by decide
theorem test_security_witness : ({ sec := { verifying := true } } : State).sec.verifying = true ∧ ({ stT {} with sv := { nonce := some [1#8] } } : State).sv.nonce = some [1#8] ∧ (stT {}).up 0 = true := by decide

/-- An error of needle 5 of Panel A. -/
def errT (sev : Nat) : ErrIn := { panel := 0, unit := 1, index := 5, sev := sev, detect := 0, item := none, frameData := false, addr := 0, col := false }
theorem test_error_witness : let s := stT {}
    s.up 0 = true ∧ s.md.mode = .run ∧ s.sliceTests 0 1 5 = false ∧ s.underRecovery 0 1 5 = none ∧ s.slot 0 0 = none ∧ SMap.sorted s.flt.slots = true ∧ SMap.sorted s.flt.fenced = true ∧ ({} : State).up 0 = false ∧ (errT 1).sev = 1 ∧ (errT 4).unit ≤ 12 := by decide +kernel
/-- Slot 1 of Panel A holds a recovery. -/
def recT (r : Recov) : State := { stT {} with flt := { slots := [(1, r)] } }
theorem test_recovery_witness : let r : Recov := { sev := 2, unit := 1, index := 5, detect := 0 }
    (recT r).slot 0 1 = some r ∧ (recT { r with fenced := true }).slot 0 1 = some { r with fenced := true } ∧ (recT { r with susp := true }).slot 0 1 = some { r with susp := true } ∧
      (recT { r with fenced := true, waits := true }).slot 0 1 = some { r with fenced := true, waits := true } ∧ (recT r).slot 0 0 = none ∧ (recT { r with sev := 1 }).slot 0 1 = some { r with sev := 1 } := by decide
theorem test_recovery_queue_witness : let r : Recov := { sev := 2, unit := 1, index := 5, detect := 0 }
    ({ stT {} with flt := { queue := [(0, [r])] } } : State).errQueue 0 = r :: [] ∧ (stT {}).slot 0 0 = none := by decide
theorem test_bridge_witness : (stT {}).joined = true ∧ ({ stT {} with md := { mdT .degraded with bridge := false }, now := secU } : State).md.bridge = false ∧ 0 + 100 * msU ≤ secU ∧ (stT {}).md.crystalOk = true ∧
    ({ md := { crystalOk := false } } : State).md.crystalOk = false ∧ ({ md := mdT .config } : State).up 1 = true := by decide +kernel

/-- The swatch of Panel A runs and has come to a slice. -/
def swaT (n : Nat) (r : SMap SliceRun) : State := { stT {} with swa := { on := [(0, true)], next := [(0, n)], run := r }, now := 100000 * secU }
theorem test_swatch_witness : (swaT 440 []).swatchOn 0 = true ∧ SMap.find (swaT 440 []).swa.run 0 = none ∧ SMap.get (swaT 440 []).swa.next 0 0 = 440 ∧ (swaT 440 []).cycleStart 0 + (swaT 440 []).cycleLen 0 ≤ (swaT 440 []).now := by decide +kernel
theorem test_slice_witness : let s := swaT 7 []
    s.cycleStart 0 + 7 * s.cycleLen 0 / 440 ≤ s.now ∧ s.isFenced 0 ((kindUnit (sliceKind 7)).getD 0) (sliceIndex 0 7) = false ∧ s.underRecovery 0 ((kindUnit (sliceKind 7)).getD 0) (sliceIndex 0 7) = none ∧
      (∀ i < 5, s.slot 0 i = none) ∧ s.noSpare 0 7 = false := by decide +kernel
theorem test_slice_run_witness : SMap.find (swaT 7 [(0, { slice := 7, start := 0 })]).swa.run 0 = some { slice := 7, start := 0 } ∧ (swaT 7 []).swa.aon = none := by decide
theorem test_recorder_witness : let s := swaT 0 []
    s.rcd.intervalAt + s.rf R.recCfg 0 0 8 8 * minU ≤ s.now ∧ s.rcd.flushedAt + s.rf R.recCfg 0 0 0 8 * minU ≤ s.now ∧ SMap.sorted s.rcd.hist = true ∧ s.sampled (sensorPanel 0) = true ∧ (stT {}).now < (stT {}).rf R.recCfg 0 0 8 8 * minU := by decide +kernel

-- ------------------------------------------------------------------------------------------ witnesses: clauses at their bounds

theorem test_collision_witness : let o := R.recStg.addr 0 1 - Blk.rcd.addr 0 0
    let f := R.recFsel.addr 0 0 - Blk.rcd.addr 0 0
    rowWord (.flushGo { who := .host, rival := some 2#32 } 1#32) = some (⟨.host, some 2#32⟩, R.recFlush.addr 0 0, 1#32) ∧ cfgT.canWrite .selvage (R.recStg.addr 0 1) = true ∧
      cfgT.judgeWrite .selvage 4 .rcd 0 o 6#32 = none ∧ cfgT.judgeWrite .host 4 .rcd 0 f 262144#32 = some .range ∧ cfgT.judgeWrite .selvage 4 .rcd 0 f 1#32 = none := by decide +kernel
theorem test_collision_command_witness : let o := R.modCmd.addr 0 0 - Blk.mod.addr 0 0
    (wordAt .mod 0 o).map (fun r => r.desc.id) = some .modCmd ∧ cfgT.judgeWrite .host 4 .mod 0 o 3#32 = none ∧ cfgT.judgeWrite .selvage 4 .mod 0 o 3#32 = none := by decide +kernel
/-- Strand 0 with window 0 on single DRAM, a result outstanding. -/
def winT (d : Option DramAcc) : State := stT { strandT [] with wins := [0x2000#32], dram := d, bank0 := { bankT [] with pend := [{ rd := 3, vals := [7#32] }] } }
theorem test_window_witness : let s := winT none
    s.winAt 0 0x40001000 = some 0x2000001000 ∧ (s.requests (panelOf 0) 5 0x2000001000 4 false (some (0, s.drm.nextId))).length = 1 ∧ (s.requests (panelOf 0) 5 0x2000001000 64 true none).map (fun e => e.2.short) = [false] ∧
      (s.requests (panelOf 0) 5 0x200000103C 8 false none).length = 2 ∧ s.winAt 0 0x00200000 = none := by decide +kernel
theorem test_window_done_witness : let d : DramAcc := { id := 4, word := 0#32, pc := 0#32, addr := 0#32, bank := 0, left := 2 }
    ((winT (some d)).strand 0).dram = some d ∧ 1 < d.left ∧ ¬ 1 < { d with left := 1 }.left ∧ 5 ≠ d.id := by decide
theorem test_busy_kept_witness : let b : BusyWait := { hook := 2, word := 5#32, since := 0, deps := [3] }
    let s := { stT { strandT [] with busy := some b, ops := [{ hook := 2, func := 0, hd := some 3 }] } with now := 100000000 }
    s.keptBusy 0 2 [3] false = true ∧ s.keptBusy 0 2 [4] false = false ∧ s.isFenced 0 3 2 = false ∧ ({ s with flt := { fenced := [(unitKey 0 3 2, true)] } } : State).isFenced 0 3 2 = true := by decide +kernel
theorem test_held_witness : let x := { strandT [] with ops := [{ hook := 1, func := 0, hd := some 3 }, { hook := 2, func := 0, hd := some 5, srcs := [5, 3], wait := .held }] }
    let s := stT x
    x.hookArrived [3] = false ∧ x.hookArrived [6] = true ∧ s.hookLoad 0 2 < 16 ∧ (∃ o ∈ x.ops, o.hook = 2 ∧ o.isReady = false) ∧ s.isFenced 0 3 2 = false ∧ x.running = none := by decide +kernel
theorem test_yarn_late_witness : let w : YBlock := { recv := true, yarn := 3, since := 0, timeout := 5, rd := 1 }
    let s := { withReg (stT waiterT) R.yrnCfg 0 0 3 0x28080 with yrn := { yarns := [(3, { fifo := [[1#32]], dataAt := 72000 })], order := [0] }, now := 84000 }
    s.servable 0 w = some 3 ∧ s.inTime 3 w = false ∧ (w.since + w.timeout * 12000) / 12000 < s.now / 12000 ∧ ({ s with yrn := { yarns := [(3, { fifo := [[1#32]], dataAt := 60000 })], order := [0] } } : State).inTime 3 w = true := by decide +kernel
theorem test_event_next_witness : let e := evT .pinEdge (9 + 256) none
    let s := evsT e
    s.firesNext 0 e = true ∧ (∀ x ∈ s.evs, s.dueAt e / 375 ≤ s.dueAt x / 375) ∧ ({ s with evs := [e, e] } : State).firesNext 1 e = false ∧ s.due e = true := by decide +kernel
theorem test_log_witness : let s := { stT {} with flash := [(logCopy 0, 0#8), (logCopy 1, 0#8)] }
    s.logUsed = [0] ∧ s.logBroken = true ∧ (stT {}).logBroken = false ∧ ((stT {}).logRepair 0 1 5 4 0 0).logUsed = [0] ∧ ((stT {}).logRepair 0 1 5 4 0 0).logBroken = false := by decide +kernel
theorem test_mode_waits_witness : ({ cfgT with pending := [.svLimp (reqT 0 0)] } : State).selWaits = true ∧ cfgT.selWaits = false ∧ ({ bootT with md := { bootT.md with a := { phase := .off } } } : State).md.a.begun = false := by decide +kernel
theorem test_severe_witness : let r : Recov := { sev := 3, unit := 1, index := 5, detect := 0 }
    (recT r).slot 0 1 = some r ∧ (recT { r with sev := 1 }).rb R.fltCfg 0 0 4 = false ∧ (withReg (stT {}) R.fltCfg 0 0 0 16).rb R.fltCfg 0 0 4 = true := by decide +kernel
theorem test_crystal_witness : ({ stT {} with md := { mdT .run with crystalOk := false } } : State).md.crystalOk = false ∧ (stT {}).md.crystalOk = true ∧ (stT {}).up 0 = true := by decide
theorem test_poison_witness : let s := { withReg (carT { stT {} with car := { spill := [(5, [{ workT with ring := some 0 }])] } }) R.carSpcfg 0 0 0 (4 + 0x200000 * 256) with flt := { fenced := [(unitKey 0 5 0, true)] } }
    s.spilled 5 = { workT with ring := some 0 } :: [] ∧ s.spillPoison 5 0 = true ∧ s.dramHolds (listPanel 5) 2 (s.spillAddr 5 0) 32 false = false ∧ (carT (stT {})).spillPoison 5 0 = false := by decide +kernel
theorem test_spill_held_witness : (withReg (withReg (carT (stT {})) R.drmCstat 0 0 0 1) R.carSpcfg 0 0 0 (4 + 0x200000 * 256)).dramHolds (listPanel 5) 2 0x2000000000 32 false = true := by decide +kernel
theorem test_ack_part_witness : let w : Wqe := { kind := .write, psn := 5, npkts := 2 }
    w.kind ≠ .read ∧ psnBehind 5 w.psn = false ∧ psnBehind 5 ((w.psn + w.npkts - 1) % 16777216) = true ∧ w.acks < (5 + 16777217 - w.psn) % 16777216 := by decide
theorem test_l2_waits_witness : (l2T { learnQ := [.delete 4 macT] }).l2Waits 9 ((l2T {}).tblBucket 9 macT) = true ∧ (l2T {}).l2Waits 9 ((l2T {}).tblBucket 9 macT) = false := by decide +kernel
theorem test_sent_pulses_witness : let l := List.replicate 8 (360000)
    (l.map (sentTicks 1680000)) = List.replicate 8 12 ∧ sentTicks 1680000 (27 * 30000) = 27 ∧ sentTicks 1680000 (28 * 30000) = 28 := by decide +kernel
theorem test_sdm_time_witness : let s := { withReg (stT {}) R.tioSdm 0 1 0 (1 + 15 * 256) with now := secU }
    (List.replicate 16 true).length = bits (s.rd R.tioSdm 0 1).toNat 8 8 + 1 ∧ 0 + sdmTime (s.rd R.tioSdm 0 1).toNat ≤ s.now := by decide +kernel
theorem test_miss_held_witness : let s := { withReg (withReg (stT {}) R.drmCstat 0 0 0 1) R.flwCfg 0 0 0 1 with drm := {} }
    s.dramHolds 0 0 0x2000000000 64 false = true := by decide +kernel
theorem test_raf_plain_witness : rocePlain 4 = false ∧ rocePlain 6 = true ∧ rocePlain 0x81 = true ∧ rocePlain 5 = false := by decide +kernel
theorem test_cdelete_split_witness : ({ l2T {} with md := { mdT .run with bridge := false } } : State).split = true ∧ (l2T {}).split = false := by decide +kernel
/-- The same frame with its invariant CRC. -/
def roceG : List Byte := roceB.take 66 ++ [0xBE#8, 0xC5#8, 0xC5#8, 0x49#8]
theorem test_host_frame_good_witness : let s := { rafT with hst := { qps := [(3, { state := 1 })] } }
    s.hostTraffic roceG = true ∧ icrcOk roceG (rtagPos roceG) = true ∧ s.qpOpen 3 = true ∧ rocePlain (byteAt roceG (udpAt roceG (rtagPos roceG) + 8)).toNat = false ∧ rafT.qpOpen 3 = false := by decide +kernel

-- ------------------------------------------------------------------------------------------ witnesses: the invariants

/-- The invariants hold at reset, where a step answers a next state. -/
theorem test_invariants_witness : State.reset.memoryOk = true ∧ State.reset.mapsOk = true ∧ step State.reset = .next { State.reset with now := State.reset.now + cycleU State.reset.part } := by
  refine ⟨by decide, by decide, rfl⟩

end Sys2Proof.Tests
end

section
/-! PROOFS. Registers, predicates and bytes of memory: what reads give after writes (R3, R121, R139). -/

namespace Sys2Proof.Machine

/-- The bits of a word with one bit set. -/
theorem testBit_setBit (v i j : Nat) (b : Bool) : (setBit v i b).testBit j = if i = j then b else v.testBit j := by
  have key : setBit v i b = v % 2 ^ i + 2 ^ i * (b.toNat + 2 * (v / 2 ^ i / 2)) := by
    have h1 := Nat.div_add_mod v (2 ^ i)
    have h2 := Nat.div_add_mod (v / 2 ^ i) 2
    have h3 : v = 2 ^ i * (2 * (v / 2 ^ i / 2)) + 2 ^ i * (v / 2 ^ i % 2) + v % 2 ^ i := by
      rw [← Nat.mul_add, h2, h1]
    have h4 : (if b = true then 1 else 0) % 2 ^ 1 = b.toNat := by cases b <;> rfl
    rw [setBit, setBits, bits, h4, Nat.mul_add]
    have h5 := Nat.mul_comm (v / 2 ^ i % 2 ^ 1) (2 ^ i)
    have h6 := Nat.mul_comm b.toNat (2 ^ i)
    simp only [Nat.pow_one] at *
    omega
  have hlt : v % 2 ^ i < 2 ^ i := Nat.mod_lt _ (Nat.two_pow_pos i)
  rw [key, Nat.add_comm, Nat.testBit_two_pow_mul_add _ hlt]
  rcases Nat.lt_trichotomy j i with h | h | h
  · rw [if_pos h, if_neg (by omega), Nat.testBit_mod_two_pow, decide_eq_true h, Bool.true_and]
  · subst h
    cases b <;> simp [Nat.testBit_zero]
  · obtain ⟨k, rfl⟩ := Nat.exists_eq_add_of_lt h
    have e : i + k + 1 - i = k + 1 := by omega
    rw [if_neg (by omega), if_neg (by omega), e, Nat.testBit_succ]
    have h7 : (b.toNat + 2 * (v / 2 ^ i / 2)) / 2 = v / 2 ^ i / 2 := by cases b with
      | false => simp
      | true => simp; omega
    rw [h7, ← Nat.testBit_succ, Nat.testBit_div_two_pow]
    congr 1
    omega

/-- A general register reads as last written; g0 takes no write (R121). -/
theorem Bank.rg_wg (b : Bank) (m n : Nat) (v : Word) (h : SMap.sorted b.g = true) :
    (b.wg m v).rg n = if m = n ∧ m ≠ 0 then v else b.rg n := by
  by_cases hm : m = 0
  · simp [Bank.wg, hm]
  · by_cases hn : n = 0
    · simp [Bank.rg, hn, hm]
    · simp only [Bank.wg, Bank.rg, hm, if_false, if_neg hn, SMap.get_set b.g 0#32 m n v h, ne_eq, not_false_eq_true, and_true]

/-- A predicate reads as last written; p0 takes no write (R121). -/
theorem Bank.rp_wp (b : Bank) {p q : Nat} (x : Bool) (hq : q < 8) :
    (b.wp p x).rp q = if p = q ∧ p ≠ 0 then x else b.rp q := by
  by_cases hp : p = 0
  · simp [Bank.wp, hp]
  · by_cases hz : q = 0
    · simp [Bank.rp, hz, hp]
    · simp only [Bank.wp, Bank.rp, hp, if_false, if_neg hz, BitVec.getLsbD_ofNat, hq, decide_true, Bool.true_and, testBit_setBit,
        ne_eq, not_false_eq_true, and_true, BitVec.testBit_toNat]

theorem Bank.wp_g (b : Bank) (p : Nat) (x : Bool) : (b.wp p x).g = b.g := by
  unfold Bank.wp
  split <;> rfl

theorem Bank.wg_pred (b : Bank) (r : Nat) (v : Word) : (b.wg r v).pred = b.pred := by
  unfold Bank.wg
  split <;> rfl

/-- Settles O9: reads after writes of the bank, register by register. -/
theorem registerFile : Obligations.RegisterFile := by
  intro b r q v x hs _ hq
  exact ⟨fun m n => Bank.rg_wg b m n v hs, rfl, rfl, rfl, rfl, Bank.rp_wp b x hq, Bank.wp_g b r x, Bank.wg_pred b r v⟩

/-- Bytes: a write is read back. -/
theorem cellRead_cellWrite (m : List Host.Cell) (a : Nat) (bs : List Byte) (h : cellsWf m = true) :
    cellRead (cellWrite m a bs) a bs.length = bs := by
  induction bs generalizing m a with
  | nil => rfl
  | cons b bs ih =>
    have hw := cellsWf_cellSet a b h
    have head : cellGet (cellWrite (cellSet m a b) (a + 1) bs) a = b := by
      rw [cellGet_cellWrite_out _ _ _ _ hw (.inl (by omega)), cellGet_cellSet m a a b h, if_pos rfl]
    have tail : cellRead (cellWrite (cellSet m a b) (a + 1) bs) (a + 1) bs.length = bs := ih (cellSet m a b) (a + 1) hw
    simp only [cellRead] at tail
    simp only [cellRead, cellWrite, List.length_cons, List.range_succ_eq_map, List.map_cons, List.map_map, Nat.add_zero, head]
    congr 1
    refine Eq.trans (List.map_congr_left fun i _ => ?_) tail
    show cellGet _ (a + (i + 1)) = cellGet _ (a + 1 + i)
    rw [show a + (i + 1) = a + 1 + i by omega]

/-- A byte outside the keys written keeps its value. -/
theorem cellGet_foldl_cellSet (m : List Host.Cell) (l : List Nat) (k : Nat) (v : Byte) (h : cellsWf m = true) (hk : k ∉ l) :
    cellGet (l.foldl (fun m j => cellSet m j v) m) k = cellGet m k := by
  induction l generalizing m with
  | nil => rfl
  | cons j l ih =>
    simp only [List.mem_cons, not_or] at hk
    rw [List.foldl_cons, ih (cellSet m j v) (cellsWf_cellSet j v h) hk.2, cellGet_cellSet m j k v h, if_neg (Ne.symm hk.1)]

/-- A write of one byte of device memory changes the copies that it reaches, and the marks of R287. -/
theorem State.devSet_frame (s : State) (req a : Nat) (v : Byte) :
    (s.devSet req a v).mem = { s.mem with dev := (s.writeKeys req a).foldl (fun m k => cellSet m k v) s.mem.dev } ∧
    (s.devSet req a v).regs = s.regs ∧ (s.devSet req a v).md = s.md ∧ (s.devSet req a v).flt = s.flt := by
  unfold State.devSet
  dsimp only
  split
  · split <;> exact ⟨rfl, rfl, rfl, rfl⟩
  · exact ⟨rfl, rfl, rfl, rfl⟩

/-- Device memory after a write of several bytes: the other memories keep theirs, and so does every byte that none of them reaches. -/
theorem State.devWrite_frame (s : State) (req a : Nat) (bs : List Byte) (h : cellsWf s.mem.dev = true) :
    (s.devWrite req a bs).mem = { s.mem with dev := (s.devWrite req a bs).mem.dev } ∧ cellsWf (s.devWrite req a bs).mem.dev = true ∧
    ∀ k, (∀ i, i < bs.length → k ∉ s.writeKeys req (a + i)) → cellGet (s.devWrite req a bs).mem.dev k = cellGet s.mem.dev k := by
  induction bs generalizing s a with
  | nil => exact ⟨rfl, h, fun _ _ => rfl⟩
  | cons b bs ih =>
    obtain ⟨hm, hr, hd, hf⟩ := State.devSet_frame s req a b
    have hw : cellsWf (s.devSet req a b).mem.dev = true := by rw [hm]; exact cellsWf_foldl_cellSet _ _ h
    obtain ⟨e, w, keep⟩ := ih (s.devSet req a b) (a + 1) hw
    refine ⟨?_, w, fun k hk => ?_⟩
    · rw [State.devWrite, e, hm]
    · have step : ∀ i, i < bs.length → k ∉ (s.devSet req a b).writeKeys req (a + 1 + i) := fun i hi => by
        rw [State.writeKeys_congr hr hd hf, show a + 1 + i = a + (i + 1) by omega]
        exact hk (i + 1) (by simpa using hi)
      rw [State.devWrite, keep k step, hm]
      exact cellGet_foldl_cellSet _ _ k b h (hk 0 (by simp))

/-- The address map does not see the memories. -/
theorem State.region_memWrite (s : State) (t a : Nat) (bs : List Byte) (k b : Nat) : (s.memWrite t a bs).region k b = s.region k b := by
  have e : (s.memWrite t a bs).strand k = s.strand k := by rw [State.strand, State.memWrite_strands]; rfl
  unfold State.region
  rw [e]

theorem Memory.wf_iff (m : MemState) : Memory.wf m = true ↔ cellsWf m.scratch = true ∧ cellsWf m.sram = true ∧ cellsWf m.dev = true := by
  simp only [Memory.wf, Bool.and_eq_true, and_assoc]

/-- A store keeps the memories in canonical form. -/
theorem Memory.wf_memWrite (s : State) (t a : Nat) (bs : List Byte) (h : Memory.wf s.mem = true) : Memory.wf (s.memWrite t a bs).mem = true := by
  have hs := (Memory.wf_iff _).1 h
  obtain ⟨h1, h2, h3⟩ := hs
  unfold State.memWrite
  split
  · exact h
  · exact (Memory.wf_iff _).2 ⟨cellsWf_cellWrite _ _ h1, h2, h3⟩
  · split
    · exact h
    · exact h
  · split
    · exact h
    · exact h
  · exact (Memory.wf_iff _).2 ⟨h1, cellsWf_cellWrite _ _ h2, h3⟩
  · obtain ⟨e, w, -⟩ := State.devWrite_frame s _ (s.winAddr t _ _) bs h3
    exact (Memory.wf_iff _).2 (by rw [e]; exact ⟨h1, h2, w⟩)

/-- Settles O10: by the region that the address lies in. -/
theorem storedBytes : Obligations.StoredBytes := by
  intro s t a o bs hw
  have hs := (Memory.wf_iff _).1 hw
  obtain ⟨h1, h2, h3⟩ := hs
  refine ⟨fun hr => ?_, fun hr => ?_, fun n hr => ?_, Memory.wf_memWrite s t a bs hw⟩
  · have e : s.memWrite t a bs = { s with mem := { s.mem with scratch := cellWrite s.mem.scratch (needleOf t * 65536 + o) bs } } := by
      simp only [State.memWrite, hr]
    refine ⟨?_, by rw [e], by rw [e], fun k hk => ?_⟩
    · simp only [State.memRead, State.region_memWrite, hr]
      rw [e]
      exact cellRead_cellWrite _ _ bs h1
    · rw [e]
      exact cellGet_cellWrite_out _ _ _ bs h1 hk
  · have e : s.memWrite t a bs = { s with mem := { s.mem with sram := cellWrite s.mem.sram (courseOf t * 1048576 + o) bs } } := by
      simp only [State.memWrite, hr]
    refine ⟨?_, by rw [e], by rw [e], fun k hk => ?_⟩
    · simp only [State.memRead, State.region_memWrite, hr]
      rw [e]
      exact cellRead_cellWrite _ _ bs h2
    · rw [e]
      exact cellGet_cellWrite_out _ _ _ bs h2 hk
  · have e : s.memWrite t a bs = s.devWrite (panelOf t) (s.winAddr t n o) bs := by simp only [State.memWrite, hr]
    obtain ⟨f, -, keep⟩ := State.devWrite_frame s (panelOf t) (s.winAddr t n o) bs h3
    rw [e]
    exact ⟨by rw [f], by rw [f], keep⟩

end Sys2Proof.Machine
end

section
/-! PROOFS. Register writes: the order of the checks, the record of a discarded word, and collisions (R7, R405, R407). -/

namespace Sys2Proof.Machine

/-- A register word reads as last written. -/
theorem State.rd_setRd_self (s : State) (d : RegDesc) (p i j : Nat) (v : Word) (h : SMap.sorted s.regs = true) :
    (s.setRd d p i j v).rd d p i j = v := by
  have e := SMap.get_set s.regs (d.rst p i j) (d.addr p i j) (d.addr p i j) v h
  rw [if_pos rfl] at e
  exact e

/-- A write of a register word leaves every other word alone. -/
theorem State.rd_setRd_other (s : State) (d e : RegDesc) (p i j q k l : Nat) (v : Word) (h : SMap.sorted s.regs = true)
    (hne : e.addr q k l ≠ d.addr p i j) : (s.setRd d p i j v).rd e q k l = s.rd e q k l := by
  simp only [State.rd, State.setRd, SMap.set]
  split
  · rw [SMap.find_del _ _ _ h, if_neg (Ne.symm hne)]
  · rw [SMap.find_put _ _ _ _ h, if_neg (Ne.symm hne)]

/-- A discarded write is recorded with its bit and offset, and nothing else changes (R407). -/
theorem recorded_serr (s : State) (b : Blk) (p o n : Nat) (h : SMap.sorted s.regs = true) : Recorded s (s.serr b p o n) b p o n :=
  ⟨rfl, State.rd_setRd_self _ _ _ _ _ _ h, fun _ _ _ _ hne => State.rd_setRd_other _ _ _ _ _ _ _ _ _ _ h hne⟩

/-- A write that cannot reach its block changes nothing (R405, R406). -/
theorem State.writeWord_cut {s : State} {who : Writer} {a : Nat} (h : s.canWrite who a = false) (size : Nat) (v : Word) (rival : Option Word)
    (found : List (Nat × Nat)) : s.writeWord who size a v rival found = (true, s) := by
  simp only [State.writeWord, h, Bool.not_false, if_true]

/-- What becomes of a write that is judged as `j`: it takes effect, or it is recorded. -/
def State.takenOrRecorded (s : State) (who : Writer) (b : Blk) (p o : Nat) (v : Word) (found : List (Nat × Nat)) (j : Option Bar) : Bool × State :=
  match j with
  | none => s.applyWord who b p o v found
  | some x => (true, s.serr b p o (x.bitOf b))

/-- A write that no other collides with is judged and takes effect or is recorded. -/
theorem State.writeWord_alone {s : State} {who : Writer} {a : Nat} {b : Blk} {p o : Nat} (h : Reaches s who a b p o) (size : Nat) (v : Word)
    (found : List (Nat × Nat)) : s.writeWord who size a v none found = s.takenOrRecorded who b p o v found (s.judgeWrite who size b p o v) := by
  obtain ⟨hw, hb, -⟩ := h
  simp only [State.writeWord, hw, hb, Bool.not_true, Bool.false_eq_true, if_false, ite_self]
  rfl

/-- The state after a collision of a host write `h` and a Selvage write `v` (R7, R407). -/
def State.collided (s : State) (b : Blk) (p o : Nat) (h v : Word) (found : List (Nat × Nat)) : State :=
  match s.judgeWrite .host 4 b p o h, s.judgeWrite .selvage 4 b p o v with
  | none, none => (s.resolve b p o h v found).2.2
  | x, y => ((s.takenOrRecorded .host b p o h found x).2.takenOrRecorded .selvage b p o v found y).2

/-- Both orders in which a collision can be named give the one collision. -/
theorem State.writeWord_host_rival {s : State} {a : Nat} {b : Blk} {p o : Nat} (hr : Reaches s .host a b p o) (hs : s.canWrite .selvage a = true)
    (h v : Word) (found : List (Nat × Nat)) : (s.writeWord .host 4 a h (some v) found).2 = s.collided b p o h v found := by
  obtain ⟨hw, hb, -⟩ := hr
  simp only [State.writeWord, State.collided, hw, hs, hb, Bool.not_true, Bool.false_eq_true, if_false, if_true]
  cases s.judgeWrite .host 4 b p o h <;> cases s.judgeWrite .selvage 4 b p o v <;> rfl

theorem State.writeWord_selvage_rival {s : State} {a : Nat} {b : Blk} {p o : Nat} (hr : Reaches s .host a b p o) (hs : s.canWrite .selvage a = true)
    (h v : Word) (found : List (Nat × Nat)) : (s.writeWord .selvage 4 a v (some h) found).2 = s.collided b p o h v found := by
  obtain ⟨hw, hb, -⟩ := hr
  simp only [State.writeWord, State.collided, hw, hs, hb, Bool.not_true, Bool.false_eq_true, if_false, if_true, reduceCtorEq]
  cases s.judgeWrite .host 4 b p o h <;> cases s.judgeWrite .selvage 4 b p o v <;> rfl

/-- A command that writes the word its row names is that register write. -/
theorem exec_rowWord {c : Instr} {w : WrIn} {a : Nat} {v : Word} (h : rowWord c = some (w, a, v)) (s : State) :
    exec c s = .next (s.writeWord w.who 4 a v w.rival).2 := by
  unfold rowWord at h
  split at h <;> cases h <;> rfl

/-- The checks of R407 on a whole register word, in their order. -/
theorem State.judgeWrite_word {s : State} {b : Blk} {p o : Nat} {r : RegRef} (ho : o % 4 = 0) (h : wordAt b p o = some r) (who : Writer) (v : Word) :
    s.judgeWrite who 4 b p o v = if r.reserved v.toNat then some .reserved else if s.ownerBars who r then some .owner
      else if s.modeBars r v.toNat then some .mode else if s.rangeBars r v.toNat then some .range else none := by
  simp only [State.judgeWrite, ho, h, ne_eq, not_true, decide_false, Bool.or_self, Bool.false_eq_true, if_false]

/-- The digest of the configuration is all that a write outside its register changes (R355). -/
theorem State.extendDigest_frame (s : State) (a : Nat) (v : Word) : s.extendDigest a v = { s with sec := (s.extendDigest a v).sec } := by
  unfold State.extendDigest
  split <;> rfl

/-- A plain register takes the word by the access types of its fields (R6). -/
theorem State.applyWord_plain {s : State} {b : Blk} {p o : Nat} {r : RegRef} (h : wordAt b p o = some r) (hid : r.desc.id = .plain)
    (who : Writer) (v : Word) (found : List (Nat × Nat)) : (s.applyWord who b p o v found).2 =
      (s.extendDigest (b.addr p o) v).setRd r.desc r.panel r.i r.j (w32 (r.desc.newWord (s.rd r.desc r.panel r.i r.j).toNat v.toNat)) := by
  have hrd : (s.extendDigest (b.addr p o) v).rd r.desc r.panel r.i r.j = s.rd r.desc r.panel r.i r.j :=
    State.rd_congr (by rw [State.extendDigest_frame]) _ _ _ _
  simp only [State.applyWord, h, hid, State.takeWord, State.putWord, hrd, reduceCtorEq, if_false]

/-- A command that is a register write is recorded where a check fails (R407). -/
theorem exec_write_recorded {s : State} {c : Instr} {who : Writer} {a size : Nat} {v : Word} (h : SMap.sorted s.regs = true)
    (hc : exec c s = .next (s.writeWord who size a v none).2) {b : Blk} {p o : Nat} (hr : Reaches s who a b p o) {x : Bar}
    (hj : s.judgeWrite who size b p o v = some x) : ∃ u, exec c s = .next u ∧ Recorded s u b p o (x.bitOf b) := by
  refine ⟨_, hc, ?_⟩
  rw [State.writeWord_alone hr, hj]
  exact recorded_serr s b p o _ h

/-- Settles O33: the order of the checks is that of `judgeWrite`, and a recorded write sets one status register. -/
theorem registerChecks : Obligations.RegisterChecks := by
  refine ⟨fun s who a size v h => ?_, fun s c who a v h hc => ?_⟩
  · have hc : exec (.registerWrite { who := who, addr := a, size := size, val := v, rival := none }) s = .next (s.writeWord who size a v none).2 := rfl
    refine ⟨fun hw => by rw [hc, State.writeWord_cut hw], fun b p o hr => ?_⟩
    have bar : ∀ x, s.judgeWrite who size b p o v = some x → ∃ u, _ ∧ Recorded s u b p o (x.bitOf b) := fun x hx => exec_write_recorded h hc hr hx
    refine ⟨fun hbad => bar .access ?_, fun hz ho hn => bar .reserved ?_, fun r hz ho hn => ?_⟩
    · rcases hbad with hbad | hbad <;> simp only [State.judgeWrite, hbad, ne_eq, not_false_eq_true, decide_true, Bool.true_or, Bool.or_true, if_true]
    · simp only [State.judgeWrite, hz, ho, hn, ne_eq, not_true, decide_false, Bool.or_self, Bool.false_eq_true, if_false]
    · subst hz
      have hj := State.judgeWrite_word (s := s) ho hn who v
      have own : s.ownerBars who r = true ↔ who = .host ∧ (r.desc.id = .svOwn ∨ s.owner r.desc.blk r.panel = 2) := by
        simp only [State.ownerBars, Bool.and_eq_true, Bool.or_eq_true, decide_eq_true_eq]
      refine ⟨fun h1 => bar .reserved ?_, fun h1 h2 => bar .owner ?_, fun h1 h2 h3 => bar .mode ?_, fun h1 h2 h3 h4 => bar .range ?_,
        fun h1 h2 h3 h4 hid => ⟨_, hc, ?_⟩⟩
      · rw [hj, if_pos h1]
      · rw [hj, h1, if_neg Bool.false_ne_true, if_pos (own.2 h2)]
      · rw [hj, h1, if_neg Bool.false_ne_true, if_neg (mt own.1 h2), if_pos h3]
      · rw [hj, h1, h3, if_neg Bool.false_ne_true, if_neg (mt own.1 h2), if_neg Bool.false_ne_true, if_pos h4]
      · rw [h1, h3, h4, if_neg Bool.false_ne_true, if_neg (mt own.1 h2), if_neg Bool.false_ne_true, if_neg Bool.false_ne_true] at hj
        have hd : (s.extendDigest a v).regs = s.regs := by rw [State.extendDigest_frame]
        have hd' : SMap.sorted (s.extendDigest a v).regs = true := by rw [hd]; exact h
        rw [State.writeWord_alone hr, hj, State.takenOrRecorded, State.applyWord_plain hn hid, hr.2.2]
        refine ⟨?_, State.rd_setRd_self _ _ _ _ _ _ hd', fun d q i j hne => ?_⟩
        · rw [State.extendDigest_frame]
          rfl
        · rw [State.rd_setRd_other _ _ _ _ _ _ _ _ _ _ hd' hne, State.rd_congr hd]
  · have hc' := exec_rowWord hc s
    refine ⟨fun hw => by rw [hc', State.writeWord_cut hw], fun b p o x hr hj => ?_⟩
    obtain ⟨u, hu, hrec⟩ := exec_write_recorded h hc' hr hj
    refine ⟨u, hu, ?_⟩
    cases x <;> exact hrec

/-- Where both writes of a collision pass, the register decides which acts first (R7, R329, R334). -/
theorem State.collided_both {s : State} {b : Blk} {p o : Nat} {r : RegRef} {h v : Word} (hr : wordAt b p o = some r)
    (h1 : s.judgeWrite .host 4 b p o h = none) (h2 : s.judgeWrite .selvage 4 b p o v = none) :
    s.collided b p o h v [] = if r.desc.id = .modCmd then (s.applyWord .selvage b p o v []).2.serr b p o 1
      else if s.owner b p = 0 then (s.applyWord .host b p o h []).2.serr b p o 2 else (s.applyWord .selvage b p o v []).2.serr b p o 2 := by
  simp only [State.collided, h1, h2, State.resolve, hr, decide_eq_true_eq]
  split
  · rfl
  · split <;> rfl

/-- Settles O34: both ways to name the collision run the same two writes. -/
theorem registerCollision : Obligations.RegisterCollision := by
  intro s a h v b p o r c hs hr hv hw hc
  have key : exec c s = .next (s.collided b p o h v []) := by
    rcases hc with rfl | rfl | hc | hc
    · exact congrArg _ (State.writeWord_host_rival hr hv h v [])
    · exact congrArg _ (State.writeWord_selvage_rival hr hv h v [])
    · exact (exec_rowWord hc s).trans (congrArg _ (State.writeWord_host_rival hr hv h v []))
    · exact (exec_rowWord hc s).trans (congrArg _ (State.writeWord_selvage_rival hr hv h v []))
  rw [key]
  refine ⟨fun h1 h2 => ?_, fun x h1 h2 => ?_, fun x h1 h2 => ?_⟩
  · rw [State.collided_both hw h1 h2]
    exact ⟨fun hm => by rw [if_pos hm], fun hm ho => by rw [if_neg hm, if_pos ho], fun hm ho => by rw [if_neg hm, if_neg ho]⟩
  · simp only [State.collided, h1, h2, State.takenOrRecorded]
  · simp only [State.collided, h1, h2, State.takenOrRecorded]

end Sys2Proof.Machine
end

section
/-! PROOFS. The debugger's operations on a strand (R166, R328). -/

namespace Sys2Proof.Machine

/-- Without the grant a debug operation answers LOCKED and does nothing else (R166). -/
theorem State.dbgOp_locked {s : State} (h : s.sec.dbg = false) (t : Nat) (body : State → State) : s.dbgOp t body = s.emit (.debug 3 0#32) := by
  simp only [State.dbgOp, State.dbgOpen, h, Bool.false_eq_true, if_false, Bool.not_false, if_true, State.dbg]

theorem State.dbgOp_down {s : State} {t : Nat} (h : s.sec.dbg = true) (hp : s.reachable (t / 416) = false) (body : State → State) :
    s.dbgOp t body = s.emit .panelDown := by
  simp only [State.dbgOp, State.dbgOpen, h, panelOf, hp, Bool.false_eq_true, if_false, Bool.not_false, Bool.not_true, if_true]

theorem State.dbgOp_running {s : State} {t : Nat} (h : s.sec.dbg = true) (hp : s.reachable (t / 416) = true) (hr : (s.strand t).halt = .running)
    (body : State → State) : s.dbgOp t body = s.emit (.debug 1 0#32) := by
  simp only [State.dbgOp, State.dbgOpen, h, panelOf, hp, hr, Bool.false_eq_true, if_false, Bool.not_true, if_true, State.dbg]

theorem State.dbgOp_halted {s : State} {t : Nat} (h : s.sec.dbg = true) (hp : s.reachable (t / 416) = true) (hr : (s.strand t).halt ≠ .running)
    (body : State → State) : s.dbgOp t body = body s := by
  simp only [State.dbgOp, State.dbgOpen, h, panelOf, hp, hr, Bool.false_eq_true, if_false, Bool.not_true]

/-- A reserved selector, or a value with a reserved bit, is refused first (R10). -/
theorem exec_debugRead_none {s : State} {t sel : Nat} {b : Bool} (h : s.dbgRead t b sel = none) :
    exec (.debugRead ⟨t, b, sel⟩) s = .next (s.emit (.debug 4 0#32)) := by
  show Host.Outcome.next (s.dbgOp t _ (s.dbgRead t b sel).isNone) = _
  rw [h]
  rfl

theorem exec_debugWrite_none {s : State} {t sel : Nat} {b : Bool} {v : Word} (h : s.dbgWrite t b sel v = none) :
    exec (.debugWrite ⟨t, b, sel⟩ v) s = .next (s.emit (.debug 4 0#32)) := by
  show Host.Outcome.next (s.dbgOp t _ (s.dbgWrite t b sel v).isNone) = _
  rw [h]
  rfl

/-- A halted strand's READ answers the value that its selector names. -/
theorem exec_debugRead_some {s : State} {t sel : Nat} {b : Bool} {v : Word} (h : s.sec.dbg = true) (hp : s.reachable (t / 416) = true)
    (hr : (s.strand t).halt ≠ .running) (hv : s.dbgRead t b sel = some v) : exec (.debugRead ⟨t, b, sel⟩) s = .next (s.emit (.debug 0 v)) := by
  show Host.Outcome.next (s.dbgOp t _ (s.dbgRead t b sel).isNone) = _
  rw [hv, Option.isNone_some, State.dbgOp_halted h hp hr]
  dsimp only
  rw [hv]
  rfl

/-- A halted strand's WRITE has its effect. -/
theorem exec_debugWrite_some {s u : State} {t sel : Nat} {b : Bool} {v : Word} (h : s.sec.dbg = true) (hp : s.reachable (t / 416) = true)
    (hr : (s.strand t).halt ≠ .running) (hv : s.dbgWrite t b sel v = some u) : exec (.debugWrite ⟨t, b, sel⟩ v) s = .next (u.emit (.debug 0 0#32)) := by
  show Host.Outcome.next (s.dbgOp t _ (s.dbgWrite t b sel v).isNone) = _
  rw [hv, Option.isNone_some, State.dbgOp_halted h hp hr]
  dsimp only
  rw [hv]
  rfl

/-- The selectors of R328: a general register, the pc, a lane of a hook register, and one that is reserved. -/
theorem State.dbgRead_reg (s : State) (t : Nat) (b : Bool) {r : Nat} (h : r < 32) : s.dbgRead t b r = some (((s.strand t).bk b).rg r) := by
  simp only [State.dbgRead, h, if_true]

theorem State.dbgRead_pc (s : State) (t : Nat) (b : Bool) : s.dbgRead t b 0x0FF = some ((s.strand t).bk b).pc := rfl

theorem State.dbgRead_lane (s : State) (t : Nat) (b : Bool) {i l : Nat} (hi : i < 16) (hl : l < 4) :
    s.dbgRead t b (0x200 + 4 * i + l) = some (hlane (SMap.get ((s.strand t).bk b).hc 0#128 i) l) := by
  have e1 : (0x200 + 4 * i + l - 0x200) / 4 = i := by omega
  have e2 : (0x200 + 4 * i + l) % 4 = l := by omega
  have h1 : ¬ 0x200 + 4 * i + l < 0x020 := by omega
  have h2 : ¬ 0x200 + 4 * i + l = 0x0FF := by omega
  have h3 : ¬ 0x200 + 4 * i + l < 0x200 := by omega
  have h4 : 0x200 ≤ 0x200 + 4 * i + l := by omega
  have h5 : 0x200 + 4 * i + l < 0x240 := by omega
  simp only [State.dbgRead, h1, h2, h3, h4, h5, e1, e2, decide_false, decide_true, Bool.and_false, Bool.and_true, Bool.false_eq_true, if_true, if_false]

theorem State.dbgWrite_reg (s : State) (t : Nat) (b : Bool) {r : Nat} (v : Word) (h : r < 32) :
    s.dbgWrite t b r v = some (s.setStrand t ((s.strand t).setBk b (((s.strand t).bk b).wg r v))) := by
  simp only [State.dbgWrite, h, if_true]

theorem State.dbgWrite_pc (s : State) (t : Nat) (b : Bool) (v : Word) : s.dbgWrite t b 0x0FF v =
    if v.toNat % 4 = 0 then some (s.setStrand t ((s.strand t).setBk b { (s.strand t).bk b with pc := v })) else none := rfl

/-- The four operations that need a halted strand, each as its body under `dbgOp`. -/
theorem exec_debug_gated (t : Nat) {c : Instr} (h : c ∈ [Instr.debugResume t, .debugStep t, .debugTink t false, .debugTink t true]) (s : State) :
    ∃ body, exec c s = .next (s.dbgOp t body) := by
  simp only [List.mem_cons, List.not_mem_nil, or_false] at h
  rcases h with rfl | rfl | rfl | rfl <;> exact ⟨_, rfl⟩

/-- Settles O22: one case per check of `dbgOp`, then the operations on a halted strand. -/
theorem debugOperations : Obligations.DebugOperations := by
  intro s t _
  dsimp only
  refine ⟨fun hd c hc => ?_, fun hd hp c hc => ?_, fun hd hp hr c hc => ?_, fun hd hp hr => ?_, fun hd hp hr => ?_,
    fun b v => ⟨exec_debugRead_none rfl, exec_debugWrite_none rfl, fun hv => exec_debugWrite_none ?_⟩, fun hd hp hr => ⟨?_, ?_, fun b => ⟨fun ho => ?_, fun ho => ?_,
      fun r i l v hr32 hi hl => ⟨?_, ?_, ?_, ?_, fun hv => ?_⟩⟩⟩, fun hs => ?_, fun hs hb hw => ⟨fun hr => ?_, fun hr => ?_⟩⟩
  · rcases List.mem_cons.1 hc with rfl | hc
    · simp only [exec, execDebugHalt, State.dbgOpen, hd, Bool.not_false, if_true]
      rfl
    · obtain ⟨body, e⟩ := exec_debug_gated t hc s
      rw [e, State.dbgOp_locked hd]
      rfl
  · rcases List.mem_cons.1 hc with rfl | hc
    · simp only [exec, execDebugHalt, State.dbgOpen, hd, panelOf, hp, Bool.not_true, Bool.not_false, Bool.false_eq_true, if_false, if_true]
      rfl
    · obtain ⟨body, e⟩ := exec_debug_gated t hc s
      rw [e, State.dbgOp_down hd hp]
      rfl
  · obtain ⟨body, e⟩ := exec_debug_gated t hc s
    rw [e, State.dbgOp_running hd hp hr]
    rfl
  · simp only [exec, execDebugHalt, State.dbgOpen, hd, panelOf, hp, hr, Bool.not_true, Bool.false_eq_true, if_false, ne_eq, not_true]
    rfl
  · simp only [exec, execDebugHalt, State.dbgOpen, hd, panelOf, hp, hr, Bool.not_true, Bool.false_eq_true, if_false, ne_eq, not_false_eq_true, if_true]
    rfl
  · rw [State.dbgWrite_pc, if_neg hv]
  · show Host.Outcome.next (s.dbgOp t _) = _
    rw [State.dbgOp_halted hd hp hr]
    rfl
  · show Host.Outcome.next (s.dbgOp t _) = _
    rw [State.dbgOp_halted hd hp hr]
    rfl
  · show Host.Outcome.next (s.dbgOp t _) = _
    rw [State.dbgOp_halted hd hp hr]
    simp only [ho, if_true]
    rfl
  · show Host.Outcome.next (s.dbgOp t _) = _
    rw [State.dbgOp_halted hd hp hr]
    simp only [ho, Bool.false_eq_true, if_false]
    rfl
  · exact exec_debugRead_some hd hp hr (State.dbgRead_reg s t b hr32)
  · exact exec_debugRead_some hd hp hr (State.dbgRead_pc s t b)
  · exact exec_debugRead_some hd hp hr (State.dbgRead_lane s t b hi hl)
  · exact exec_debugWrite_some hd hp hr (State.dbgWrite_reg s t b v hr32)
  · exact exec_debugWrite_some hd hp hr ((State.dbgWrite_pc s t b v).trans (if_pos hv))
  · exact State.stepDone_idle s t (by rw [Strand.stepOver, hs]; rfl)
  · simp only [State.stepDone, Strand.stepOver, hs, hb, hw, hr, Option.isNone_none, Bool.and_self, Bool.not_true, Bool.false_eq_true, if_false, if_true]
  · simp only [State.stepDone, Strand.stepOver, hs, hb, hw, hr, Option.isNone_none, Bool.and_self, Bool.not_true, Bool.false_eq_true, if_false]

end Sys2Proof.Machine
end

section
/-! PROOFS. The commands of a ring: what every one has in common, then what each does and answers (R306, R312, R314). -/

namespace Sys2Proof.Machine

theorem idxBehind_self (a : Nat) : idxBehind a a = false := by
  have h : idxDiff a a = 0 := by
    unfold idxDiff
    omega
  simp only [idxBehind, h, decide_eq_false_iff_not]
  omega

/-- A queue pair reads as last written. -/
theorem State.qp_setQp_self (s : State) (n : Nat) (q : Qp) (h : SMap.sorted s.hst.qps = true) : (s.setQp n q).qp n = q :=
  (SMap.get_set s.hst.qps {} n n q h).trans (if_pos rfl)

/-- The last of two writes of a queue pair stands. -/
theorem State.setQp_setQp (s : State) (n : Nat) (q r : Qp) (h : SMap.sorted s.hst.qps = true) : (s.setQp n q).setQp n r = s.setQp n r := by
  have e : SMap.set (SMap.set s.hst.qps {} n q) {} n r = SMap.set s.hst.qps {} n r := SMap.set_set {} n q r h
  show ({ s with hst := { s.hst with qps := SMap.set (SMap.set s.hst.qps {} n q) {} n r } } : State) = _
  rw [e]
  rfl

/-- A command that starts sets the expected SEQ of a ring that has none (R312). -/
theorem State.startCmd_expSeq (s : State) (r op : Nat) (c : CmdIn) (h : SMap.sorted s.hst.rings = true) :
    ((s.startCmd r op c).2.ring r).expSeq = some ((s.ring r).expSeq.getD c.seq.toNat) := by
  show (SMap.get (SMap.set s.hst.rings {} r _) {} r).expSeq = _
  rw [SMap.get_set _ _ _ _ _ h, if_pos rfl]

/-- A command that passes every check of R312 executes, with its journal record. -/
theorem State.command_admitted {s : State} {op : Nat} {c : CmdIn} {rsv : Bool} (hs : SMap.sorted s.hst.rings = true) (h : Admitted s op c rsv)
    (run : Nat → State → State) : s.command op c rsv run = .next (run (s.inCommand op c).1 (s.inCommand op c).2) := by
  obtain ⟨hstart, hrsv, hr1, hr2, hseq, hlimp⟩ := h
  have hexp : ((s.startCmd (c.ring % 256) op c).2.ring (c.ring % 256)).expSeq.getD 0 = c.seq.toNat := by
    rw [State.startCmd_expSeq s _ op c hs, Option.getD_some, hseq]
  have hmode : (decide (s.md.mode = .limp) && !limpCmd op) = false := by
    by_cases hm : s.md.mode = .limp
    · rw [hlimp hm, Bool.not_true, Bool.and_false]
    · rw [decide_eq_false hm, Bool.false_and]
  have hmode' : ¬ (decide ((s.startCmd (c.ring % 256) op c).2.md.mode = .limp) && !limpCmd op) = true := ne_true_of_eq_false hmode
  simp only [State.command, hstart, hrsv, hr1, hr2, hexp, idxBehind_self, State.setRing_md, Bool.not_true, Bool.or_self, Bool.false_eq_true,
    ne_eq, not_true, decide_false, if_false]
  exact if_neg hmode'

/-- `u` is `s` but for the host engine and what has been put out. -/
def HostOnly (s u : State) : Prop := u = { s with hst := u.hst, out := u.out }

theorem HostOnly.trans {s u v : State} (a : HostOnly s u) (b : HostOnly u v) : HostOnly s v := by
  unfold HostOnly at *
  rw [b, a]

theorem HostOnly.swt_eq {s u : State} (h : HostOnly s u) : u.swt = s.swt := by rw [h]

theorem HostOnly.ctrs_eq {s u : State} (h : HostOnly s u) : u.ctrs = s.ctrs := by rw [h]

theorem HostOnly.sec_eq {s u : State} (h : HostOnly s u) : u.sec = s.sec := by rw [h]

theorem hostOnly_setRing (s : State) (r : Nat) (g : Ring) : HostOnly s (s.setRing r g) := rfl

/-- A work request changes the queue pairs and what has been put out (R302). -/
theorem State.qpPost_frame (s : State) (n : Nat) (w : Wqe) :
    s.qpPost n w = { s with hst := { s.hst with qps := (s.qpPost n w).hst.qps }, out := (s.qpPost n w).out } := by
  simp only [State.qpPost, State.sendWqe]
  split
  · rfl
  · cases w.kind <;> rfl

theorem hostOnly_qpPost (s : State) (n : Nat) (w : Wqe) : HostOnly s (s.qpPost n w) := by
  unfold HostOnly
  rw [State.qpPost_frame]

theorem hostOnly_produce (s : State) (r : Nat) (entry : List Byte) (j : Option Nat) : HostOnly s (s.produce r entry j) := by
  unfold State.produce
  extract_lets g i phase e p' u v
  split
  · rfl
  · have a : HostOnly s v := (hostOnly_setRing s r _).trans (hostOnly_qpPost _ _ _)
    split
    · exact a.trans (hostOnly_qpPost _ _ _)
    · exact a

theorem hostOnly_jrnlWritten (s : State) (rec : Nat) : HostOnly s (s.jrnlWritten rec) := by
  unfold State.jrnlWritten
  split <;> rfl

/-- A completion changes the host engine's state and puts out its entry; nothing else (R311, R315). -/
theorem hostOnly_finish (s : State) (rec status : Nat) (res : List Byte) : HostOnly s (s.finish rec status res) := by
  unfold State.finish
  split
  · rfl
  · extract_lets e pr slot h v g u
    have a : HostOnly s u := rfl
    split
    · exact a.trans (hostOnly_produce _ _ _ _)
    · exact a.trans (hostOnly_jrnlWritten _ _)

-- What a command in its course sees of the state is what it was before (R312): of the host engine, only the ring and the journal have changed.
theorem State.inCommand_md (s : State) (op : Nat) (c : CmdIn) : (s.inCommand op c).2.md = s.md := rfl
theorem State.inCommand_regs (s : State) (op : Nat) (c : CmdIn) : (s.inCommand op c).2.regs = s.regs := rfl
theorem State.inCommand_swt (s : State) (op : Nat) (c : CmdIn) : (s.inCommand op c).2.swt = s.swt := rfl
theorem State.inCommand_ctrs (s : State) (op : Nat) (c : CmdIn) : (s.inCommand op c).2.ctrs = s.ctrs := rfl
theorem State.inCommand_sec (s : State) (op : Nat) (c : CmdIn) : (s.inCommand op c).2.sec = s.sec := rfl
theorem State.inCommand_port2 (s : State) (op : Nat) (c : CmdIn) : (s.inCommand op c).2.hst.port2 = s.hst.port2 := rfl
theorem State.inCommand_qps (s : State) (op : Nat) (c : CmdIn) : (s.inCommand op c).2.hst.qps = s.hst.qps := rfl
theorem State.inCommand_heldWork (s : State) (op : Nat) (c : CmdIn) : (s.inCommand op c).2.hst.heldWork = s.hst.heldWork := rfl
theorem hostOnly_inCommand (s : State) (op : Nat) (c : CmdIn) : HostOnly s (s.inCommand op c).2 := rfl

theorem State.cutOff_congr {s u : State} (h : u.md = s.md) (a : Nat) : u.cutOff a = s.cutOff a := by
  have hr : ∀ p, u.reachable p = s.reachable p := fun p => by rw [State.reachable, State.pan, h, State.reachable, State.pan]
  simp only [State.cutOff, hr]

theorem State.hostPanel_congr {s u : State} (h : u.hst.port2 = s.hst.port2) : u.hostPanel = s.hostPanel := by
  rw [State.hostPanel, h, State.hostPanel]

theorem State.inCommand_hostPanel (s : State) (op : Nat) (c : CmdIn) : (s.inCommand op c).2.hostPanel = s.hostPanel :=
  State.hostPanel_congr (State.inCommand_port2 s op c)

theorem State.inCommand_reach (s : State) (op : Nat) (c : CmdIn) (p q : Nat) : (s.inCommand op c).2.reach p q = s.reach p q :=
  State.reach_congr (State.inCommand_md s op c) p q

theorem State.inCommand_reachHost (s : State) (op : Nat) (c : CmdIn) (p : Nat) :
    (s.inCommand op c).2.reach (s.inCommand op c).2.hostPanel p = s.reach s.hostPanel p := by
  rw [State.inCommand_hostPanel, State.inCommand_reach]

theorem State.inCommand_rb (s : State) (op : Nat) (c : CmdIn) (d : RegDesc) (p i lo j : Nat) : (s.inCommand op c).2.rb d p i lo j = s.rb d p i lo j := by
  rw [State.rb, State.rd_congr (State.inCommand_regs s op c), State.rb]

theorem State.inCommand_rf (s : State) (op : Nat) (c : CmdIn) (d : RegDesc) (p i lo w j : Nat) : (s.inCommand op c).2.rf d p i lo w j = s.rf d p i lo w j :=
  State.rf_congr (State.inCommand_regs s op c) _ _ _ _ _ _

theorem State.inCommand_qp (s : State) (op : Nat) (c : CmdIn) (n : Nat) : (s.inCommand op c).2.qp n = s.qp n := by
  rw [State.qp, State.inCommand_qps, State.qp]

theorem State.inCommand_ringQp (s : State) (op : Nat) (c : CmdIn) (r : Nat) : (s.inCommand op c).2.ringQp r = s.ringQp r := State.inCommand_rf s op c _ _ _ _ _ _

theorem State.inCommand_listEn (s : State) (op : Nat) (c : CmdIn) (l : Nat) : (s.inCommand op c).2.listEn l = s.listEn l := State.inCommand_rb s op c _ _ _ _ _

theorem State.inCommand_ctr (s : State) (op : Nat) (c : CmdIn) (set inst n : Nat) : (s.inCommand op c).2.ctr set inst n = s.ctr set inst n := by
  rw [State.ctr, State.inCommand_ctrs, State.ctr]

theorem State.inCommand_boundElse (s : State) (op : Nat) (c : CmdIn) (p a : Nat) : (s.inCommand op c).2.boundElse p a = s.boundElse p a := by
  rw [State.boundElse, State.inCommand_swt, State.boundElse]

theorem State.inCommand_ctrPanel (s : State) (op : Nat) (c : CmdIn) (set inst : Nat) : (s.inCommand op c).2.ctrPanel set inst = s.ctrPanel set inst := by
  simp only [State.ctrPanel, State.sepCourse, State.poolHome, State.domHome, State.inCommand_rf]

theorem State.inCommand_spanCut (s : State) (op : Nat) (c : CmdIn) (a n : Nat) : (s.inCommand op c).2.spanCut a n = s.spanCut a n := by
  simp only [State.spanCut, State.cutOff_congr (State.inCommand_md s op c)]

section
variable {s : State} {x : Instr} {op : Nat} {c : CmdIn} {rsv : Bool} {run : Nat → State → State}

/-- A command that is admitted leaves the state that its operation gives. -/
theorem exec_admitted (hs : SMap.sorted s.hst.rings = true) (hx : exec x s = s.command op c rsv run) (h : Admitted s op c rsv) {u : State}
    (hu : run (s.inCommand op c).1 (s.inCommand op c).2 = u) : exec x s = .next u := by
  rw [hx, State.command_admitted hs h, hu]

/-- What the commands of a ring that only answer give. -/
theorem answers_of_run (hs : SMap.sorted s.hst.rings = true) (hx : exec x s = s.command op c rsv run) (h : Admitted s op c rsv) {st : Nat} {res : List Byte}
    (hu : run (s.inCommand op c).1 (s.inCommand op c).2 = (s.inCommand op c).2.finish (s.inCommand op c).1 st res) : Answers x s op c st res :=
  exec_admitted hs hx h hu

end

-- ------------------------------------------------------------------------------------------------------ flow commands

/-- The bytes that a FLOW_WRITE or FLOW_READ names do not lie in the state area, or are too many (R224). -/
def FlowRange (o : FlowCmd) (c : CmdIn) : Prop :=
  (o = .write ∨ o = .read) ∧ (c.p 25 1 = 0 ∨ 32 < c.p 25 1 ∨ 80 < bits (c.p 24 4) 0 7 + c.p 25 1)

/-- The state with a mirror for record `i` of panel `p`, if it has one or gets one (R226). -/
def State.withMirror (m : State) (p i : Nat) : Option State :=
  match m.entryOf p i with
  | some e => if e.2.ms then some m else m.allocMirror p i
  | none => m.allocMirror p i

/-- What a flow command does to the record that it names (R224, R226). -/
def State.flowAct (m : State) (o : FlowCmd) (c : CmdIn) (rec p i : Nat) : State :=
  match o with
  | .insert => m.finish rec 0x01 []
  | .delete => (m.deleteRecord p i).finish rec 0 []
  | .write => (m.hostTouch p i fun st => putState st (sliceZ c.payload 16 (c.p 25 1)) (bits (c.p 24 4) 0 7)).finish rec 0 []
  | .read => m.finish rec 0 (leBytes 4 i ++ leBytes 4 (m.recVer p i % 2 ^ 24) ++ sliceZ (m.recState p i) (bits (c.p 24 4) 0 7) (c.p 25 1))
  | .setms => m.flowSetMs p i rec (bit (c.p 16 4) 2)

section
variable {m m1 : State} {o : FlowCmd} {c : CmdIn} {rec p i : Nat}

theorem State.flowRun_fenced (hp : b2n (bit (c.p 16 4) 0) = p) (h : m.reach m.hostPanel p = false) : m.flowRun o c rec = m.finish rec 0x13 [] := by
  simp only [State.flowRun, hp, h, Bool.not_false, if_true]

theorem flowRange_iff (o : FlowCmd) (c : CmdIn) : ((decide (o = .write) || decide (o = .read)) &&
    (decide (c.p 25 1 = 0) || decide (32 < c.p 25 1) || decide (80 < bits (c.p 24 4) 0 7 + c.p 25 1))) = true ↔ FlowRange o c := by
  simp only [FlowRange, Bool.and_eq_true, Bool.or_eq_true, decide_eq_true_eq, or_assoc]

theorem State.flowRun_range (hp : b2n (bit (c.p 16 4) 0) = p) (h : m.reach m.hostPanel p = true) (hr : FlowRange o c) :
    m.flowRun o c rec = m.finish rec 0x09 [] := by
  simp only [State.flowRun, hp, h, Bool.not_true, Bool.false_eq_true, if_false, (flowRange_iff o c).2 hr, if_true]

variable (hp : b2n (bit (c.p 16 4) 0) = p) (h : m.reach m.hostPanel p = true) (hr : ¬ FlowRange o c)
include hp h hr

theorem State.flowRun_insert (ho : o = .insert) : m.flowRun o c rec = m.flowInsert p c rec := by
  simp only [State.flowRun, hp, h, Bool.not_true, Bool.false_eq_true, if_false, mt (flowRange_iff o c).1 hr]
  rw [if_pos ho]

theorem State.flowRun_absent (ho : o ≠ .insert) (hn : (m.flowNamed p c).1 = none) : m.flowRun o c rec = (m.flowNamed p c).2.finish rec 0x02 [] := by
  simp only [State.flowRun, hp, h, Bool.not_true, Bool.false_eq_true, if_false, mt (flowRange_iff o c).1 hr, ho, hn]

/-- A flow command acts on the record that it names. -/
theorem State.flowRun_named (hn : m.flowNamed p c = (some i, m1)) : m.flowRun o c rec = m1.flowAct o c rec p i := by
  simp only [State.flowRun, hp, h, Bool.not_true, Bool.false_eq_true, if_false, mt (flowRange_iff o c).1 hr, hn]
  cases o with
  | insert => simp only [State.flowInsert, hn, Option.isSome_some, if_true, State.flowAct]
  | delete | write | read | setms => rfl

end

section
variable {m m1 m2 : State} {c : CmdIn} {rec p i : Nat}

/-- FLOW_SETMS with MS = 1 (R226): the record has a mirror, gets one, or there is none free. -/
theorem State.flowSetMs_true (m : State) (p i rec : Nat) : m.flowSetMs p i rec true =
    (m.withMirror p i).elim (m.finish rec 0x08 []) fun m2 => ((m2.setMs p i true).hostTouch p i (withMs true)).finish rec 0 [] := by
  unfold State.flowSetMs State.withMirror
  cases m.entryOf p i with
  | none => cases m.allocMirror p i <;> rfl
  | some e =>
    obtain ⟨l, x⟩ := e
    dsimp only
    cases x.ms with
    | true => rfl
    | false => cases m.allocMirror p i <;> rfl

/-- FLOW_INSERT of a key without a record (R224): no room, or a record of the key. -/
theorem State.flowInsert_full (hn : m.flowNamed p c = (none, m1)) (hr : m1.reserve p (c.x 0 48) = (none, m2)) :
    m.flowInsert p c rec = m2.finish rec 0x07 [] := by
  simp only [State.flowInsert, hn, hr, Option.isSome_none, Bool.false_eq_true, if_false]

theorem State.flowInsert_new {l : Nat} (hn : m.flowNamed p c = (none, m1)) (hr : m1.reserve p (c.x 0 48) = (some (l, i), m2))
    (hc : (m2.makeRecord p l i (c.x 0 48)).ctxOfKey p (c.x 0 48) = none) :
    m.flowInsert p c rec = ((m2.makeRecord p l i (c.x 0 48)).hostTouch p i id).finish rec 0 (leBytes 4 i) := by
  simp only [State.flowInsert, hn, hr, hc, Option.isSome_none, Bool.false_eq_true, if_false]

end

/-- The flow commands of a ring, with their opcodes. -/
theorem exec_flowRow {c : CmdIn} {row : Instr × Nat × FlowCmd} (h : row ∈ [(Instr.hostFlowInsert c, 0x10, FlowCmd.insert), (.hostFlowDelete c, 0x11, .delete),
    (.flowWrite c, 0x12, .write), (.hostFlowRead c, 0x13, .read), (.flowSetms c, 0x14, .setms)]) (s : State) :
    exec row.1 s = s.command row.2.1 c (flowRsv row.2.2 c) fun rec s => s.flowRun row.2.2 c rec := by
  simp only [List.mem_cons, List.not_mem_nil, or_false] at h
  rcases h with rfl | rfl | rfl | rfl | rfl <;> rfl

-- -------------------------------------------------------------------------------------------------- source binding

theorem SMap.sorted_set {β : Type} [DecidableEq β] {m : SMap β} (d : β) (k : Nat) (v : β) (h : SMap.sorted m = true) : SMap.sorted (SMap.set m d k v) = true := by
  unfold SMap.set
  split
  · exact SMap.sorted_del k h
  · exact SMap.sorted_put k v h

/-- A source slot reads as last written (R57). -/
theorem State.boundAt_setBound (s : State) (p i q j : Nat) (a : Option Nat) (h : SMap.sorted s.swt.bound = true) :
    (s.setBound p i a).boundAt q j = if p * 2 + i = q * 2 + j then a else s.boundAt q j := by
  simp only [State.boundAt, State.setBound, SMap.get_set _ _ _ _ _ h]
  by_cases hk : p * 2 + i = q * 2 + j
  · simp only [if_pos hk]
    cases a <;> rfl
  · simp only [if_neg hk]

theorem State.boundAt_congr {s u : State} (h : u.swt = s.swt) (q i : Nat) : u.boundAt q i = s.boundAt q i := by
  rw [State.boundAt, h, State.boundAt]

/-- The source that a BIND_SET has in slot `i` (R57, R314). -/
def bindAddr (c : CmdIn) (i : Nat) : Option Nat := if bit (c.p 16 4) (11 + i) then some (c.p (24 + 8 * i) 6) else none

/-- BIND_SET names no node-port, or a source that is a group address. -/
def BindBad (c : CmdIn) : Prop :=
  let n := bits (c.p 16 4) 0 11
  n < 32 ∨ 800 ≤ n ∨ (n - 32) % 8 = 0 ∨ ∃ i y, i < 2 ∧ bindAddr c i = some y ∧ bit y 0 = true

/-- Another node-port of the panel holds a source of a BIND_SET. -/
def BindTaken (s : State) (c : CmdIn) : Prop := ∃ i y, i < 2 ∧ bindAddr c i = some y ∧ s.boundElse (bits (c.p 16 4) 0 11) y ≠ none

/-- A check of the sources of a BIND_SET is one of its slots. -/
theorem any_bindAddr (c : CmdIn) (q : Nat → Bool) : ((bindAddr c 0).toList ++ (bindAddr c 1).toList).any q = true ↔ ∃ i y, i < 2 ∧ bindAddr c i = some y ∧ q y = true := by
  simp only [List.any_eq_true, List.mem_append, Option.mem_toList]
  constructor
  · rintro ⟨y, h | h, hq⟩
    · exact ⟨0, y, by decide, h, hq⟩
    · exact ⟨1, y, by decide, h, hq⟩
  · rintro ⟨i, y, hi, h, hq⟩
    obtain rfl | rfl : i = 0 ∨ i = 1 := by omega
    · exact ⟨y, .inl h, hq⟩
    · exact ⟨y, .inr h, hq⟩

/-- The slots of a node-port written together, and every other port's (R57). -/
theorem State.boundAt_setBound_both (s : State) (n : Nat) (a b : Option Nat) (h : SMap.sorted s.swt.bound = true) :
    let u := (s.setBound n 0 a).setBound n 1 b
    u.boundAt n 0 = a ∧ u.boundAt n 1 = b ∧ ∀ q i, i < 2 → q ≠ n → u.boundAt q i = s.boundAt q i := by
  have h1 : SMap.sorted (s.setBound n 0 a).swt.bound = true := SMap.sorted_set 0 _ _ h
  refine ⟨?_, ?_, fun q i hi hq => ?_⟩
  · rw [State.boundAt_setBound _ _ _ _ _ _ h1, if_neg (by omega), State.boundAt_setBound _ _ _ _ _ _ h, if_pos rfl]
  · rw [State.boundAt_setBound _ _ _ _ _ _ h1, if_pos rfl]
  · rw [State.boundAt_setBound _ _ _ _ _ _ h1, if_neg (by omega), State.boundAt_setBound _ _ _ _ _ _ h, if_neg (by omega)]

section
variable {m : State} {c : CmdIn} {rec : Nat}

theorem bindBad_iff (c : CmdIn) : (bits (c.p 16 4) 0 11 < 32 || 800 ≤ bits (c.p 16 4) 0 11 || (bits (c.p 16 4) 0 11 - 32) % 8 = 0 ||
    ((bindAddr c 0).toList ++ (bindAddr c 1).toList).any fun x => bit x 0) = true ↔ BindBad c := by
  simp only [Bool.or_eq_true, decide_eq_true_eq, any_bindAddr, BindBad, or_assoc]

theorem bindTaken_iff (m : State) (c : CmdIn) : (((bindAddr c 0).toList ++ (bindAddr c 1).toList).any fun x => (m.boundElse (bits (c.p 16 4) 0 11) x).isSome) = true ↔ BindTaken m c := by
  simp only [any_bindAddr, BindTaken, Option.isSome_iff_ne_none]

theorem State.bindRun_bad (h : BindBad c) : m.bindRun c rec = m.finish rec 0x09 [] := if_pos ((bindBad_iff c).2 h)

theorem State.bindRun_taken (h : ¬ BindBad c) (ht : BindTaken m c) : m.bindRun c rec = m.finish rec 0x01 [] :=
  (if_neg (mt (bindBad_iff c).1 h)).trans (if_pos ((bindTaken_iff m c).2 ht))

theorem State.bindRun_free (h : ¬ BindBad c) (ht : ¬ BindTaken m c) : m.bindRun c rec =
    ((m.setBound (bits (c.p 16 4) 0 11) 0 (bindAddr c 0)).setBound (bits (c.p 16 4) 0 11) 1 (bindAddr c 1)).finish rec 0 [] :=
  (if_neg (mt (bindBad_iff c).1 h)).trans (if_neg (mt (bindTaken_iff m c).1 ht))

/-- BIND_SET writes both slots of its node-port, and no other port's (R57). -/
theorem State.bindRun_binds (h : ¬ BindBad c) (ht : ¬ BindTaken m c) (hs : SMap.sorted m.swt.bound = true) : ∃ u, m.bindRun c rec = u ∧
    u = { m with swt := { m.swt with bound := u.swt.bound }, hst := u.hst, out := u.out } ∧ u.boundAt (bits (c.p 16 4) 0 11) 0 = bindAddr c 0 ∧
    u.boundAt (bits (c.p 16 4) 0 11) 1 = bindAddr c 1 ∧ ∀ q i, i < 2 → q ≠ bits (c.p 16 4) 0 11 → u.boundAt q i = m.boundAt q i := by
  refine ⟨_, State.bindRun_free h ht, ?_⟩
  obtain ⟨h0, h1, h2⟩ := State.boundAt_setBound_both m (bits (c.p 16 4) 0 11) (bindAddr c 0) (bindAddr c 1) hs
  have hu := hostOnly_finish ((m.setBound (bits (c.p 16 4) 0 11) 0 (bindAddr c 0)).setBound (bits (c.p 16 4) 0 11) 1 (bindAddr c 1)) rec 0 []
  generalize State.finish _ rec 0 [] = u at hu ⊢
  have he := State.boundAt_congr hu.swt_eq
  refine ⟨?_, (he _ _).trans h0, (he _ _).trans h1, fun q i hi hq => (he _ _).trans (h2 q i hi hq)⟩
  rw [hu.swt_eq]
  exact hu

end

-- ------------------------------------------------------------------------------------------------------- statistics

/-- Every key that a list of writes of one value names reads as that value. -/
theorem SMap.get_foldl_set {β : Type} [DecidableEq β] {m : SMap β} (d v : β) (f : Nat → Nat) (l : List Nat) (k : Nat) (h : SMap.sorted m = true)
    (hk : k ∈ l.map f ∨ SMap.get m d k = v) : SMap.get (l.foldl (fun m i => SMap.set m d (f i) v) m) d k = v := by
  induction l generalizing m with
  | nil => exact hk.resolve_left List.not_mem_nil
  | cons i l ih =>
    refine ih (SMap.sorted_set d _ _ h) ?_
    rw [SMap.get_set m d (f i) k v h]
    rcases hk with hk | hk
    · rcases List.mem_cons.1 hk with rfl | hk
      · exact .inr (if_pos rfl)
      · exact .inl hk
    · exact .inr (by rw [hk, ite_self])

theorem State.ctr_clearCtrs (s : State) (set inst first n k : Nat) (h : SMap.sorted s.ctrs = true) (hk : k < n) :
    (s.clearCtrs set inst first n).ctr set inst (first + k) = 0#32 :=
  SMap.get_foldl_set 0#32 0#32 (fun i => ctrKey set inst (first + i)) _ _ h (.inl (List.mem_map.2 ⟨k, List.mem_range.2 hk, rfl⟩))

/-- STATS names counters that its set does not have (R411). -/
def StatsBad (c : CmdIn) : Prop :=
  (ctrSet (c.p 16 2)).1 ≤ c.p 18 2 ∨ bits (c.p 20 4) 8 4 = 0 ∨ 8 < bits (c.p 20 4) 8 4 ∨ (ctrSet (c.p 16 2)).2 < c.p 20 1 + bits (c.p 20 4) 8 4

/-- The counters that a STATS names can be read: their panel can be reached (R12). -/
def State.statsLive (s : State) (c : CmdIn) : Bool :=
  match s.ctrPanel (c.p 16 2) (c.p 18 2) with | some p => s.reach s.hostPanel p | none => true

theorem State.statsLive_eq_true_iff (s : State) (c : CmdIn) : s.statsLive c = true ↔ ∀ p, s.ctrPanel (c.p 16 2) (c.p 18 2) = some p → s.reach s.hostPanel p = true := by
  unfold State.statsLive
  cases s.ctrPanel (c.p 16 2) (c.p 18 2) <;> simp

section
variable {m : State} {c : CmdIn} {rec : Nat}

theorem statsBad_iff (c : CmdIn) : ((ctrSet (c.p 16 2)).1 ≤ c.p 18 2 || bits (c.p 20 4) 8 4 = 0 || 8 < bits (c.p 20 4) 8 4 ||
    (ctrSet (c.p 16 2)).2 < c.p 20 1 + bits (c.p 20 4) 8 4) = true ↔ StatsBad c := by
  simp only [Bool.or_eq_true, decide_eq_true_eq, StatsBad, or_assoc]

theorem State.statsRun_bad (h : StatsBad c) : m.statsRun c rec = m.finish rec 0x09 [] := if_pos ((statsBad_iff c).2 h)

/-- STATS of counters that can be read, and with CLEAR their reset (R411). -/
theorem State.statsRun_live (h : ¬ StatsBad c) (hl : m.statsLive c = true) : m.statsRun c rec =
    (if bit (c.p 20 4) 12 then m.clearCtrs (c.p 16 2) (c.p 18 2) (c.p 20 1) (bits (c.p 20 4) 8 4) else m).finish rec 0
      ((List.range (bits (c.p 20 4) 8 4)).flatMap fun k => leBytes 4 (m.ctr (c.p 16 2) (c.p 18 2) (c.p 20 1 + k)).toNat) := by
  refine (if_neg (mt (statsBad_iff c).1 h)).trans ?_
  change (if (m.statsLive c && _) = true then _ else _ : State).finish rec 0 ((List.range _).flatMap fun i => leBytes 4 (if m.statsLive c = true then _ else 0)) = _
  simp only [hl, Bool.true_and, if_true]

/-- STATS with CLEAR of counters that can be read zeroes them, and changes nothing else (R411). -/
theorem State.statsRun_clears (h : ¬ StatsBad c) (hl : m.statsLive c = true) (hc : bit (c.p 20 4) 12 = true) (hs : SMap.sorted m.ctrs = true) :
    ∃ u, m.statsRun c rec = u ∧ u = { m with ctrs := u.ctrs, hst := u.hst, out := u.out } ∧
      ∀ k < bits (c.p 20 4) 8 4, u.ctr (c.p 16 2) (c.p 18 2) (c.p 20 1 + k) = 0#32 := by
  refine ⟨_, (State.statsRun_live h hl).trans (by rw [if_pos hc]), ?_⟩
  have hz := fun k => State.ctr_clearCtrs m (c.p 16 2) (c.p 18 2) (c.p 20 1) (bits (c.p 20 4) 8 4) k hs
  have hu := hostOnly_finish (m.clearCtrs (c.p 16 2) (c.p 18 2) (c.p 20 1) (bits (c.p 20 4) 8 4)) rec 0
    ((List.range (bits (c.p 20 4) 8 4)).flatMap fun k => leBytes 4 (m.ctr (c.p 16 2) (c.p 18 2) (c.p 20 1 + k)).toNat)
  generalize State.finish _ rec 0 _ = u at hu ⊢
  refine ⟨?_, fun k hk => ?_⟩
  · rw [hu.ctrs_eq]
    exact hu
  · rw [State.ctr, hu.ctrs_eq]
    exact hz k hk

/-- STATS of counters that cannot be read answers zeros, and they stand (R12, R411). -/
theorem State.statsRun_dead (h : ¬ StatsBad c) (hl : m.statsLive c = false) : m.statsRun c rec =
    m.finish rec 0 ((List.range (bits (c.p 20 4) 8 4)).flatMap fun _ => leBytes 4 0) := by
  refine (if_neg (mt (statsBad_iff c).1 h)).trans ?_
  change (if (m.statsLive c && _) = true then _ else _ : State).finish rec 0 ((List.range _).flatMap fun i => leBytes 4 (if m.statsLive c = true then _ else 0)) = _
  simp only [hl, Bool.false_and, Bool.false_eq_true, if_false]

end

-- -------------------------------------------------------------------------------------------------- register access

section
variable {m : State} {c : CmdIn} {rec : Nat}

theorem State.regReadRun_count (h : c.p 20 4 = 0 ∨ 8 < c.p 20 4) : m.regReadRun c rec = m.finish rec 0x09 [] :=
  if_pos (by simpa only [Bool.or_eq_true, decide_eq_true_eq] using h)

theorem State.regReadRun_cut (h : 0 < c.p 20 4) (h8 : c.p 20 4 ≤ 8) (hc : m.spanCut (c.p 16 4) (c.p 20 4) = true) :
    m.regReadRun c rec = m.finish rec 0x13 [] :=
  (if_neg (by simp only [Bool.or_eq_true, decide_eq_true_eq]; omega)).trans (if_pos hc)

theorem State.regReadRun_reads (h : 0 < c.p 20 4) (h8 : c.p 20 4 ≤ 8) (hc : m.spanCut (c.p 16 4) (c.p 20 4) = false) {l : List Word} {u : State}
    (hl : m.readMany m.hostPanel (c.p 16 4) (c.p 20 4) = (l, u)) : m.regReadRun c rec = u.finish rec 0 (wordBytes l) := by
  refine ((if_neg (by simp only [Bool.or_eq_true, decide_eq_true_eq]; omega)).trans (if_neg (ne_true_of_eq_false hc))).trans ?_
  simp only [hl]

variable {rivals : List (Option Word)}

theorem State.regWriteRun_count (h : c.p 20 4 = 0 ∨ 8 < c.p 20 4) : m.regWriteRun c rivals rec = m.finish rec 0x09 [] :=
  if_pos (by simpa only [Bool.or_eq_true, decide_eq_true_eq] using h)

theorem State.regWriteRun_cut (h : 0 < c.p 20 4) (h8 : c.p 20 4 ≤ 8) (hc : m.spanCut (c.p 16 4) (c.p 20 4) = true) :
    m.regWriteRun c rivals rec = m.finish rec 0x13 [] :=
  (if_neg (by simp only [Bool.or_eq_true, decide_eq_true_eq]; omega)).trans (if_pos hc)

theorem State.regWriteRun_writes (h : 0 < c.p 20 4) (h8 : c.p 20 4 ≤ 8) (hc : m.spanCut (c.p 16 4) (c.p 20 4) = false) {k : Nat} {u : State}
    (hl : m.writeWords .host (c.p 16 4) rivals 0 (c.words (c.p 20 4)) = (k, u)) :
    m.regWriteRun c rivals rec = u.finish rec (if k = 0 then 0 else 0x0A) (leBytes 4 k) := by
  refine ((if_neg (by simp only [Bool.or_eq_true, decide_eq_true_eq]; omega)).trans (if_neg (ne_true_of_eq_false hc))).trans ?_
  simp only [hl]

end

-- ------------------------------------------------------------------------------------------------------------- keys

/-- The panels that a KEY_INSTALL names. -/
def keyPanels (c : CmdIn) : List Nat := idxs 2 fun p => bit (c.p 16 4) (8 + p)

/-- A KEY_INSTALL names no panel, or its association a port of none of them (R354). -/
def KeyBad (c : CmdIn) : Prop :=
  keyPanels c = [] ∨ (2 ≤ bits (c.p 16 4) 4 4 ∧ (800 ≤ bits (c.p 20 4) 0 11 ∨ portPanel (bits (c.p 20 4) 0 11) ∉ keyPanels c))

section
variable {m : State} {c : CmdIn} {rec : Nat} {erase : Bool}

theorem keyBad_iff (c : CmdIn) : ((keyPanels c).isEmpty || (decide (2 ≤ bits (c.p 16 4) 4 4) && (decide (800 ≤ bits (c.p 20 4) 0 11) ||
    !(keyPanels c).contains (portPanel (bits (c.p 20 4) 0 11))))) = true ↔ KeyBad c := by
  simp only [KeyBad, Bool.or_eq_true, Bool.and_eq_true, List.isEmpty_iff, decide_eq_true_eq, Bool.not_eq_true', List.contains_eq_mem, decide_eq_false_iff_not]

/-- A KEY_INSTALL's panels can all be reached (R12). -/
theorem keyCut_iff (m : State) (c : CmdIn) : ((keyPanels c).any fun p => !m.reach m.hostPanel p) = true ↔ ∃ p ∈ keyPanels c, m.reach m.hostPanel p = false := by
  simp only [List.any_eq_true, Bool.not_eq_true']

theorem State.keyRun_link (h : m.rb R.prtCfg 0 (2 * m.hostPanel) 20 = false) : m.keyRun erase c rec = m.finish rec 0x20 [] :=
  if_pos (by rw [h]; rfl)

variable (hl : m.rb R.prtCfg 0 (2 * m.hostPanel) 20 = true)
include hl

theorem State.keyRun_bad (h : KeyBad c) : m.keyRun erase c rec = m.finish rec 0x22 [] :=
  (if_neg (by rw [hl]; exact Bool.false_ne_true)).trans (if_pos ((keyBad_iff c).2 h))

theorem State.keyRun_cut (h : ¬ KeyBad c) (hc : ∃ p ∈ keyPanels c, m.reach m.hostPanel p = false) : m.keyRun erase c rec = m.finish rec 0x13 [] :=
  (if_neg (by rw [hl]; exact Bool.false_ne_true)).trans ((if_neg (mt (keyBad_iff c).1 h)).trans (if_pos ((keyCut_iff m c).2 hc)))

theorem State.keyRun_open (h : ¬ KeyBad c) (hc : ∀ p ∈ keyPanels c, m.reach m.hostPanel p = true) :
    m.keyRun erase c rec = if 2 ≤ bits (c.p 16 4) 4 4 then m.keySa erase c rec else m.keySlot erase c (keyPanels c) rec := by
  have hc' : ¬ ∃ p ∈ keyPanels c, m.reach m.hostPanel p = false := fun ⟨p, hp, he⟩ => absurd (hc p hp) (ne_true_of_eq_false he)
  refine (if_neg (by rw [hl]; exact Bool.false_ne_true)).trans ((if_neg (mt (keyBad_iff c).1 h)).trans ((if_neg (mt (keyCut_iff m c).1 hc')).trans ?_))
  simp only [decide_eq_true_eq]
  rfl

end

/-- The key that a KEY_INSTALL loads into a slot (R354). -/
def installedKey (c : CmdIn) : List Byte := sliceZ c.payload 16 (if bits (c.p 16 4) 4 4 = 0 then 16 else 32)

/-- The key stores once a key is loaded into, or erased from, one slot of each panel of a list. -/
def keysAfter (erase : Bool) (slot : Nat) (key : List Byte) (ps : List Nat) (m : SMap (List Byte)) : SMap (List Byte) :=
  ps.foldl (fun m p => if erase then SMap.del m (p * 1024 + slot) else SMap.put m (p * 1024 + slot) key) m

theorem find_keysAfter (erase : Bool) (slot : Nat) (key : List Byte) (ps : List Nat) (m : SMap (List Byte)) (h : SMap.sorted m = true) (k : Nat) :
    SMap.find (keysAfter erase slot key ps m) k = if ∃ p ∈ ps, p * 1024 + slot = k then (if erase then none else some key) else SMap.find m k := by
  induction ps generalizing m with
  | nil => simp [keysAfter]
  | cons p ps ih =>
    have step : SMap.sorted (if erase then SMap.del m (p * 1024 + slot) else SMap.put m (p * 1024 + slot) key) = true ∧
        SMap.find (if erase then SMap.del m (p * 1024 + slot) else SMap.put m (p * 1024 + slot) key) k =
          if p * 1024 + slot = k then (if erase then none else some key) else SMap.find m k := by
      cases erase with
      | true => exact ⟨SMap.sorted_del _ h, SMap.find_del _ _ _ h⟩
      | false => exact ⟨SMap.sorted_put _ _ h, SMap.find_put _ _ _ _ h⟩
    rw [keysAfter, List.foldl_cons]
    rw [show List.foldl _ _ ps = keysAfter erase slot key ps _ from rfl, ih _ step.1, step.2]
    by_cases hp : p * 1024 + slot = k
    · simp [hp]
    · simp [hp]

section
variable {m : State} {c : CmdIn} {rec : Nat} {erase : Bool} {ps : List Nat}

/-- A key that is erased where there is none (R354). -/
theorem State.keySlot_missing (he : erase = true) (h : ∃ p ∈ ps, SMap.find m.sec.keys (p * 1024 + bits (c.p 16 4) 10 10) = none) :
    m.keySlot erase c ps rec = m.finish rec 0x23 [] := by
  obtain ⟨p, hp, hn⟩ := h
  exact if_pos (by rw [he, Bool.true_and]; exact List.any_eq_true.2 ⟨p, hp, by rw [hn]; rfl⟩)

/-- A key that is loaded, or erased where there is one (R354): the slots of the panels named, and no other. -/
theorem State.keySlot_done (h : erase = true → ∀ p ∈ ps, SMap.find m.sec.keys (p * 1024 + bits (c.p 16 4) 10 10) ≠ none) (hs : SMap.sorted m.sec.keys = true) :
    ∃ u, m.keySlot erase c ps rec = u ∧ u = { m with sec := { m.sec with keys := u.sec.keys }, hst := u.hst, out := u.out } ∧
      ∀ p i, p < 2 → i < 1024 → SMap.find u.sec.keys (p * 1024 + i) = if p ∈ ps ∧ i = bits (c.p 16 4) 10 10 then (if erase then none else some (installedKey c))
        else SMap.find m.sec.keys (p * 1024 + i) := by
  have run : m.keySlot erase c ps rec =
      ({ m with sec := { m.sec with keys := keysAfter erase (bits (c.p 16 4) 10 10) (installedKey c) ps m.sec.keys } } : State).finish rec 0 [] := by
    refine if_neg ?_
    rw [Bool.and_eq_true, List.any_eq_true]
    rintro ⟨he, p, hp, hn⟩
    exact h he p hp (Option.isNone_iff_eq_none.1 hn)
  refine ⟨_, run, ?_⟩
  have hu := hostOnly_finish ({ m with sec := { m.sec with keys := keysAfter erase (bits (c.p 16 4) 10 10) (installedKey c) ps m.sec.keys } } : State) rec 0 []
  generalize State.finish _ rec 0 [] = u at hu ⊢
  refine ⟨?_, fun p i _ hi => ?_⟩
  · rw [hu.sec_eq]
    exact hu
  · have hslot : bits (c.p 16 4) 10 10 < 1024 := Nat.mod_lt _ (by decide)
    have hiff : (∃ q ∈ ps, q * 1024 + bits (c.p 16 4) 10 10 = p * 1024 + i) ↔ p ∈ ps ∧ i = bits (c.p 16 4) 10 10 := by
      constructor
      · rintro ⟨q, hq, e⟩
        obtain rfl : q = p := by omega
        exact ⟨hq, by omega⟩
      · rintro ⟨hp, rfl⟩
        exact ⟨p, hp, rfl⟩
    rw [hu.sec_eq, find_keysAfter _ _ _ _ _ hs]
    simp only [hiff]

end

-- --------------------------------------------------------------------------------------------------- work and frames

/-- The journal record of a command that has started (R315). -/
def State.startedRec (s : State) (op : Nat) (c : CmdIn) : JRec :=
  { ring := c.ring % 256, index := (s.ring (c.ring % 256)).started, seq := c.seq.toNat, tag := c.tag.toNat, opcode := op, list := c.list.toNat, payload := c.payload }

theorem State.inCommand_find (s : State) (op : Nat) (c : CmdIn) (h : SMap.sorted s.hst.jrnl = true) :
    SMap.find (s.inCommand op c).2.hst.jrnl (s.inCommand op c).1 = some (s.startedRec op c) :=
  (SMap.find_put _ _ _ _ h).trans (if_pos rfl)

section
variable {m : State} {rec ring : Nat} {w : WorkItem}

/-- An item for a list that is not enabled, or cannot be reached, completes its command with NO_LIST (R12, R103). -/
theorem State.offerWork_refused (hw : w.work = some rec) (h : m.listEn w.list = false ∨ m.reach m.hostPanel (listPanel w.list) = false) :
    m.offerWork ring w = m.finish rec 0x0C [] := by
  have hc : (!m.listEn w.list || !m.reach m.hostPanel (listPanel w.list)) = true := by
    rcases h with h | h <;> simp only [h, Bool.not_false, Bool.true_or, Bool.or_true]
  exact (if_pos hc).trans (by rw [hw])

variable (h1 : m.listEn w.list = true) (h2 : m.reach m.hostPanel (listPanel w.list) = true) (h3 : m.hst.heldWork = [])
include h1 h2 h3

theorem State.offerWork_open : m.offerWork ring w = (m.appendItem w).getD (m.setHeldWork [(ring, w)]) := by
  have h2' : m.reach (b2n m.hst.port2) (listPanel w.list) = true := h2
  simp only [State.offerWork, h1, h2', h3, Bool.not_true, Bool.or_self, Bool.false_eq_true, if_false, List.any_nil, List.nil_append]
  cases m.appendItem w <;> rfl

end

/-- A packet that is not marked asks for no congestion notification (R304). -/
theorem State.noteCe_false (s : State) (n : Nat) : s.noteCe n false = s := by
  simp only [State.noteCe, Bool.false_and, Bool.false_eq_true, if_false]

/-- The queue pair once the answer to its one READ has come (R302). -/
def Qp.answered (q : Qp) (now : Nat) : Qp := { q with sq := [], tries := 0, rnrTries := 0, rnr := false, sentAt := now }

/-- The answer to the one READ of a queue pair is taken (R302). -/
theorem State.readDone_only {u : State} {n : Nat} {w : Wqe} (hs : SMap.sorted u.hst.qps = true) (hq : (u.qp n).sq = [w]) (hk : w.kind = .read) :
    u.readDone n w.psn = some (u.setQp n ((u.qp n).answered u.now)) := by
  have split : ackSplit ((w.psn + 16777215) % 16777216) [w] = ([], [w]) := by
    simp only [ackSplit, hk, decide_true, Bool.true_or, if_true]
  have ack : u.acked n ((w.psn + 16777215) % 16777216) = u.setQp n (u.qp n) := by
    simp only [State.acked, hq, split, ne_eq, not_true, decide_false, Bool.false_eq_true, if_false, List.foldl_nil, Bool.not_false, Bool.and_true]
    rw [← hq]
  have hq' : (u.setQp n (u.qp n)).qp n = u.qp n := State.qp_setQp_self u n _ hs
  simp only [State.readDone, ack, hq', hq, hk, decide_true, Bool.and_self, if_true]
  rw [State.setQp_setQp u n _ _ hs]
  rfl

/-- A READ that is posted on an open queue pair with nothing outstanding is all that is outstanding (R302). -/
theorem State.qpPost_read {m : State} {n : Nat} {w : Wqe} (hs : SMap.sorted m.hst.qps = true) (ho : (m.qp n).state = 1) (hq : (m.qp n).sq = []) (hk : w.kind = .read) :
    SMap.sorted (m.qpPost n w).hst.qps = true ∧ ((m.qpPost n w).qp n).sq = [{ w with psn := (m.qp n).spsn, npkts := m.npkts n w.len }] := by
  have e : ∃ q o, m.qpPost n w = { m.setQp n q with out := o } ∧ q.sq = [{ w with psn := (m.qp n).spsn, npkts := m.npkts n w.len }] := by
    simp only [State.qpPost, State.sendWqe, ho, ne_eq, not_true, if_false, hk, hq, List.nil_append]
    exact ⟨_, _, rfl, rfl⟩
  obtain ⟨q, o, e, h⟩ := e
  rw [e]
  exact ⟨SMap.sorted_set _ _ _ hs, (congrArg Qp.sq (State.qp_setQp_self m n q hs)).trans h⟩

section
variable {u : State} {rec n : Nat} {w : Wqe} {ans : FrameAns}

/-- No answer comes: the READ stays outstanding (R306). -/
theorem State.txArrive_lost (h : ans.rsp = .lost) : u.txArrive rec w ans = u := by
  unfold State.txArrive
  split
  · rfl
  · simp only [h]

variable {j : JRec} (hj : SMap.find u.hst.jrnl rec = some j) (hn : u.ringQp j.ring = n) (hce : ans.ce = false)
  (hs : SMap.sorted u.hst.qps = true) (hq : (u.qp n).sq = [w]) (hk : w.kind = .read)
include hj hn hce hs hq hk

theorem State.txArrive_nak (h : ans.rsp = .nak) : u.txArrive rec w ans = (u.setQp n ((u.qp n).answered u.now)).finish rec 0x10 [] := by
  simp only [State.txArrive, hj, h, hn, hce, State.noteCe_false, State.readDone_only hs hq hk, Option.getD_some]

theorem State.txArrive_data (h : ans.rsp = .data) : u.txArrive rec w ans =
    ((u.setQp n ((u.qp n).answered u.now)).inject u.hostPanel (1028 + n) (sliceZ ans.frame 0 w.len) (some rec)).getD
      ((u.setQp n ((u.qp n).answered u.now)).finish rec 0x11 []) := by
  simp only [State.txArrive, hj, h, hn, hce, State.noteCe_false, State.readDone_only hs hq hk]
  show (match State.inject _ u.hostPanel _ _ _ with | none => _ | some s => s : State) = _
  cases (u.setQp n ((u.qp n).answered u.now)).inject u.hostPanel (1028 + n) (sliceZ ans.frame 0 w.len) (some rec) <;> rfl

end

/-- The READ that a TX_FRAME posts (R306). -/
def txRead (c : CmdIn) (rec : Nat) : Wqe :=
  { kind := .read, psn := 0, npkts := 0, rkey := w32 (c.p 24 4), va := c.p 16 8, len := bits (c.p 28 4) 0 14, tx := some rec }

/-- The state once a TX_FRAME has posted its READ on queue pair `n`. -/
def State.txPosted (m : State) (n : Nat) (c : CmdIn) (rec : Nat) : State := m.qpPost n (txRead c rec)

theorem State.txPosted_frame (m : State) (n : Nat) (c : CmdIn) (rec : Nat) : m.txPosted n c rec =
    { m with hst := { m.hst with qps := (m.txPosted n c rec).hst.qps }, out := (m.txPosted n c rec).out } := State.qpPost_frame m _ _

section
variable {m : State} {c : CmdIn} {ans : FrameAns} {rec n : Nat}

theorem State.txRun_length (h : bits (c.p 28 4) 0 14 < 60 ∨ 9216 < bits (c.p 28 4) 0 14) : m.txRun c ans rec = m.finish rec 0x09 [] :=
  if_pos (by simpa only [Bool.or_eq_true, decide_eq_true_eq] using h)

variable (h1 : 60 ≤ bits (c.p 28 4) 0 14) (h2 : bits (c.p 28 4) 0 14 ≤ 9216) (hn : m.ringQp (c.ring % 256) = n)
include h1 h2 hn

/-- A TX_FRAME posts its READ, and takes the answer that comes now (R306). -/
theorem State.txRun_posts : m.txRun c ans rec =
    ((m.txPosted n c rec).txOut n rec).elim (m.txPosted n c rec) fun w => (m.txPosted n c rec).txArrive rec w ans := by
  subst hn
  refine (if_neg (by simp only [Bool.or_eq_true, decide_eq_true_eq]; omega)).trans ?_
  show (match (m.txPosted _ c rec).txOut _ rec with | none => m.txPosted _ c rec | some w => (m.txPosted _ c rec).txArrive rec w ans) = _
  cases State.txOut (m.txPosted (m.ringQp (c.ring % 256)) c rec) (m.ringQp (c.ring % 256)) rec <;> rfl

theorem State.txRun_lost (h : ans.rsp = .lost) : m.txRun c ans rec = m.txPosted n c rec := by
  rw [State.txRun_posts h1 h2 hn]
  cases State.txOut (m.txPosted n c rec) n rec with
  | none => rfl
  | some w => exact State.txArrive_lost h

/-- On an open queue pair with nothing outstanding, that answer is the answer to its READ. -/
theorem State.txRun_only (hs : SMap.sorted m.hst.qps = true) (ho : (m.qp n).state = 1) (hq : (m.qp n).sq = []) :
    SMap.sorted (m.txPosted n c rec).hst.qps = true ∧ ∃ w, ((m.txPosted n c rec).qp n).sq = [w] ∧ w.kind = .read ∧ w.len = bits (c.p 28 4) 0 14 ∧
      m.txRun c ans rec = (m.txPosted n c rec).txArrive rec w ans := by
  obtain ⟨hs', hw⟩ := State.qpPost_read (w := txRead c rec) hs ho hq rfl
  have hw' : ((m.txPosted n c rec).qp n).sq = _ := hw
  refine ⟨hs', _, hw, rfl, rfl, ?_⟩
  rw [State.txRun_posts h1 h2 hn, State.txOut, hw', List.find?_cons_of_pos (by simp [txRead])]
  rfl

end

-- ------------------------------------------------------------------------------------------------- each command's row

/-- The outcomes of a flow command that has found its record, by command. -/
theorem flowAct_clauses {s m1 : State} {x : Instr} {o : FlowCmd} {c : CmdIn} {rec p i : Nat} (h : exec x s = .next (m1.flowAct o c rec p i)) :
    (o = .insert → exec x s = .next (m1.finish rec 0x01 [])) ∧
    (o = .delete → exec x s = .next ((m1.deleteRecord p i).finish rec 0 [])) ∧
    (o = .write → exec x s = .next ((m1.hostTouch p i fun st => putState st (sliceZ c.payload 16 (c.p 25 1)) (bits (c.p 24 4) 0 7)).finish rec 0 [])) ∧
    (o = .read → exec x s = .next (m1.finish rec 0 (leBytes 4 i ++ leBytes 4 (m1.recVer p i % 2 ^ 24) ++ sliceZ (m1.recState p i) (bits (c.p 24 4) 0 7) (c.p 25 1)))) ∧
    (∀ m2, o = .setms → bit (c.p 16 4) 2 = true → m1.withMirror p i = some m2 → exec x s = .next (((m2.setMs p i true).hostTouch p i (withMs true)).finish rec 0 [])) ∧
    (o = .setms → bit (c.p 16 4) 2 = true → m1.withMirror p i = none → exec x s = .next (m1.finish rec 0x08 [])) ∧
    (o = .setms → bit (c.p 16 4) 2 = false → exec x s = .next ((((m1.freeMirror p i).setMs p i false).hostTouch p i (withMs false)).finish rec 0 [])) := by
  have setms : ∀ b, o = .setms → bit (c.p 16 4) 2 = b → exec x s = .next (m1.flowSetMs p i rec b) := fun b ho hb => by rw [h, ho, ← hb]; rfl
  refine ⟨fun ho => by rw [h, ho]; rfl, fun ho => by rw [h, ho]; rfl, fun ho => by rw [h, ho]; rfl, fun ho => by rw [h, ho]; rfl,
    fun m2 ho hb hm => ?_, fun ho hb hm => ?_, fun ho hb => setms false ho hb⟩
  · rw [setms true ho hb, State.flowSetMs_true, hm]
    rfl
  · rw [setms true ho hb, State.flowSetMs_true, hm]
    rfl

section
variable {s : State} {x : Instr} {op : Nat} {o : FlowCmd} {c : CmdIn} {p : Nat} (hs : SMap.sorted s.hst.rings = true)
  (hx : exec x s = s.command op c (flowRsv o c) fun rec s => s.flowRun o c rec) (h : Admitted s op c (flowRsv o c)) (hp : b2n (bit (c.p 16 4) 0) = p)
include hs hx h hp

theorem exec_flow_fenced (hr : s.reach s.hostPanel p = false) : Answers x s op c 0x13 [] :=
  answers_of_run hs hx h (State.flowRun_fenced hp ((State.inCommand_reachHost s op c p).trans hr))

theorem exec_flow_range (hr : s.reach s.hostPanel p = true) (hn : FlowRange o c) : Answers x s op c 0x09 [] :=
  answers_of_run hs hx h (State.flowRun_range hp ((State.inCommand_reachHost s op c p).trans hr) hn)

variable (hr : s.reach s.hostPanel p = true) (hn : ¬ FlowRange o c) {i l : Nat} {m1 m2 : State}
include hr hn

theorem exec_flow_absent (ho : o ≠ .insert) (hm : ((s.inCommand op c).2.flowNamed p c).1 = none) :
    exec x s = .next (((s.inCommand op c).2.flowNamed p c).2.finish (s.inCommand op c).1 0x02 []) :=
  exec_admitted hs hx h (State.flowRun_absent hp ((State.inCommand_reachHost s op c p).trans hr) hn ho hm)

theorem exec_flow_acts (hm : (s.inCommand op c).2.flowNamed p c = (some i, m1)) : exec x s = .next (m1.flowAct o c (s.inCommand op c).1 p i) :=
  exec_admitted hs hx h (State.flowRun_named hp ((State.inCommand_reachHost s op c p).trans hr) hn hm)

theorem exec_flow_full (ho : o = .insert) (hm : (s.inCommand op c).2.flowNamed p c = (none, m1)) (hv : m1.reserve p (c.x 0 48) = (none, m2)) :
    exec x s = .next (m2.finish (s.inCommand op c).1 0x07 []) :=
  exec_admitted hs hx h ((State.flowRun_insert hp ((State.inCommand_reachHost s op c p).trans hr) hn ho).trans (State.flowInsert_full hm hv))

theorem exec_flow_new (ho : o = .insert) (hm : (s.inCommand op c).2.flowNamed p c = (none, m1)) (hv : m1.reserve p (c.x 0 48) = (some (l, i), m2))
    (hc : (m2.makeRecord p l i (c.x 0 48)).ctxOfKey p (c.x 0 48) = none) :
    exec x s = .next (((m2.makeRecord p l i (c.x 0 48)).hostTouch p i id).finish (s.inCommand op c).1 0 (leBytes 4 i)) :=
  exec_admitted hs hx h ((State.flowRun_insert hp ((State.inCommand_reachHost s op c p).trans hr) hn ho).trans (State.flowInsert_new hm hv hc))

end

/-- The reserved fields of a BIND_SET, a STATS and a REG_READ or REG_WRITE (R314). -/
def bindRsv (c : CmdIn) : Bool :=
  c.listBad || decide (bits (c.p 16 4) 13 19 ≠ 0) || decide (1152 ≤ bits (c.p 16 4) 0 11) || !c.pz 20 4 || !c.pz 30 2 || !c.pz 38 26 || !c.xz 0
def statsRsv (c : CmdIn) : Bool := c.listBad || decide (bits (c.p 20 4) 13 19 ≠ 0) || !c.pz 24 40 || !c.xz 0
def regRsv (write : Bool) (c : CmdIn) : Bool :=
  c.listBad || decide (bits (c.p 20 4) 4 28 ≠ 0) || (if write then regTail c else !c.pz 24 40) || !c.xz 0

theorem exec_bindSet (s : State) (c : CmdIn) : exec (.bindSet c) s = s.command 0x20 c (bindRsv c) fun rec s => s.bindRun c rec := rfl

theorem exec_stats (s : State) (c : CmdIn) : exec (.stats c) s = s.command 0x21 c (statsRsv c) fun rec s => s.statsRun c rec := rfl

theorem exec_regRead (s : State) (c : CmdIn) : exec (.regRead c) s = s.command 0x22 c (regRsv false c) fun rec s => s.regReadRun c rec := rfl

theorem exec_regWrite (s : State) (c : CmdIn) (rivals : List (Option Word)) :
    exec (.regWrite ⟨c, rivals⟩) s = s.command 0x23 c (regRsv true c) fun rec s => s.regWriteRun c rivals rec := rfl

theorem bindTaken_inCommand (s : State) (op : Nat) (c : CmdIn) : BindTaken (s.inCommand op c).2 c ↔ BindTaken s c := by
  simp only [BindTaken, State.inCommand_boundElse]

theorem State.inCommand_statsLive (s : State) (op : Nat) (c d : CmdIn) : (s.inCommand op c).2.statsLive d = s.statsLive d := by
  simp only [State.statsLive, State.inCommand_ctrPanel, State.inCommand_reachHost]

section
variable {s : State} {c : CmdIn} (hs : SMap.sorted s.hst.rings = true)
include hs

theorem exec_bindSet_bad (h : Admitted s 0x20 c (bindRsv c)) (hb : BindBad c) : Answers (.bindSet c) s 0x20 c 0x09 [] :=
  answers_of_run hs (exec_bindSet s c) h (State.bindRun_bad hb)

theorem exec_bindSet_taken (h : Admitted s 0x20 c (bindRsv c)) (hb : ¬ BindBad c) (ht : BindTaken s c) : Answers (.bindSet c) s 0x20 c 0x01 [] :=
  answers_of_run hs (exec_bindSet s c) h (State.bindRun_taken hb ((bindTaken_inCommand s _ c).2 ht))

theorem exec_bindSet_binds (h : Admitted s 0x20 c (bindRsv c)) (hb : ¬ BindBad c) (ht : ¬ BindTaken s c) (hsb : SMap.sorted s.swt.bound = true) :
    Ends (.bindSet c) s fun u => u = { s with swt := { s.swt with bound := u.swt.bound }, hst := u.hst, out := u.out } ∧
      u.boundAt (bits (c.p 16 4) 0 11) 0 = bindAddr c 0 ∧ u.boundAt (bits (c.p 16 4) 0 11) 1 = bindAddr c 1 ∧
      ∀ q i, i < 2 → q ≠ bits (c.p 16 4) 0 11 → u.boundAt q i = s.boundAt q i := by
  obtain ⟨u, run, hu, h0, h1, h2⟩ := State.bindRun_binds (m := (s.inCommand 0x20 c).2) (rec := (s.inCommand 0x20 c).1) hb (mt (bindTaken_inCommand s _ c).1 ht) hsb
  refine ⟨u, exec_admitted hs (exec_bindSet s c) h run, ?_, h0, h1, fun q i hi hq => (h2 q i hi hq).trans (State.boundAt_congr (State.inCommand_swt s _ c) q i)⟩
  rw [hostOnly_inCommand s 0x20 c] at hu
  exact hu

theorem exec_stats_bad (h : Admitted s 0x21 c (statsRsv c)) (hb : StatsBad c) : Answers (.stats c) s 0x21 c 0x09 [] :=
  answers_of_run hs (exec_stats s c) h (State.statsRun_bad hb)

theorem exec_stats_reads (h : Admitted s 0x21 c (statsRsv c)) (hb : ¬ StatsBad c) (hl : s.statsLive c = true) (hc : bit (c.p 20 4) 12 = false) :
    Answers (.stats c) s 0x21 c 0 ((List.range (bits (c.p 20 4) 8 4)).flatMap fun k => leBytes 4 (s.ctr (c.p 16 2) (c.p 18 2) (c.p 20 1 + k)).toNat) := by
  refine answers_of_run hs (exec_stats s c) h ((State.statsRun_live hb ((State.inCommand_statsLive s _ c c).trans hl)).trans ?_)
  simp only [hc, Bool.false_eq_true, if_false, State.inCommand_ctr]

theorem exec_stats_clears (h : Admitted s 0x21 c (statsRsv c)) (hb : ¬ StatsBad c) (hl : s.statsLive c = true) (hc : bit (c.p 20 4) 12 = true)
    (hsc : SMap.sorted s.ctrs = true) : Ends (.stats c) s fun u => u = { s with ctrs := u.ctrs, hst := u.hst, out := u.out } ∧
      ∀ k < bits (c.p 20 4) 8 4, u.ctr (c.p 16 2) (c.p 18 2) (c.p 20 1 + k) = 0#32 := by
  obtain ⟨u, run, hu, hz⟩ := State.statsRun_clears (m := (s.inCommand 0x21 c).2) (rec := (s.inCommand 0x21 c).1) hb ((State.inCommand_statsLive s _ c c).trans hl) hc hsc
  refine ⟨u, exec_admitted hs (exec_stats s c) h run, ?_, hz⟩
  rw [hostOnly_inCommand s 0x21 c] at hu
  exact hu

theorem exec_stats_zeros (h : Admitted s 0x21 c (statsRsv c)) (hb : ¬ StatsBad c) (hl : s.statsLive c = false) :
    Answers (.stats c) s 0x21 c 0 ((List.range (bits (c.p 20 4) 8 4)).flatMap fun _ => leBytes 4 0) :=
  answers_of_run hs (exec_stats s c) h (State.statsRun_dead hb ((State.inCommand_statsLive s _ c c).trans hl))

theorem exec_regRead_count (h : Admitted s 0x22 c (regRsv false c)) (hn : c.p 20 4 = 0 ∨ 8 < c.p 20 4) : Answers (.regRead c) s 0x22 c 0x09 [] :=
  answers_of_run hs (exec_regRead s c) h (State.regReadRun_count hn)

theorem exec_regRead_cut (h : Admitted s 0x22 c (regRsv false c)) (h0 : 0 < c.p 20 4) (h8 : c.p 20 4 ≤ 8) (hc : s.spanCut (c.p 16 4) (c.p 20 4) = true) :
    Answers (.regRead c) s 0x22 c 0x13 [] :=
  answers_of_run hs (exec_regRead s c) h (State.regReadRun_cut h0 h8 ((State.inCommand_spanCut s _ c _ _).trans hc))

theorem exec_regRead_reads (h : Admitted s 0x22 c (regRsv false c)) (h0 : 0 < c.p 20 4) (h8 : c.p 20 4 ≤ 8) (hc : s.spanCut (c.p 16 4) (c.p 20 4) = false)
    {l : List Word} {u : State} (hl : (s.inCommand 0x22 c).2.readMany s.hostPanel (c.p 16 4) (c.p 20 4) = (l, u)) :
    exec (.regRead c) s = .next (u.finish (s.inCommand 0x22 c).1 0 (wordBytes l)) :=
  exec_admitted hs (exec_regRead s c) h (State.regReadRun_reads h0 h8 ((State.inCommand_spanCut s _ c _ _).trans hc) (by rw [State.inCommand_hostPanel, hl]))

variable {rivals : List (Option Word)}

theorem exec_regWrite_count (h : Admitted s 0x23 c (regRsv true c)) (hn : c.p 20 4 = 0 ∨ 8 < c.p 20 4) : Answers (.regWrite ⟨c, rivals⟩) s 0x23 c 0x09 [] :=
  answers_of_run hs (exec_regWrite s c rivals) h (State.regWriteRun_count hn)

theorem exec_regWrite_cut (h : Admitted s 0x23 c (regRsv true c)) (h0 : 0 < c.p 20 4) (h8 : c.p 20 4 ≤ 8) (hc : s.spanCut (c.p 16 4) (c.p 20 4) = true) :
    Answers (.regWrite ⟨c, rivals⟩) s 0x23 c 0x13 [] :=
  answers_of_run hs (exec_regWrite s c rivals) h (State.regWriteRun_cut h0 h8 ((State.inCommand_spanCut s _ c _ _).trans hc))

theorem exec_regWrite_writes (h : Admitted s 0x23 c (regRsv true c)) (h0 : 0 < c.p 20 4) (h8 : c.p 20 4 ≤ 8) (hc : s.spanCut (c.p 16 4) (c.p 20 4) = false)
    {k : Nat} {u : State} (hl : (s.inCommand 0x23 c).2.writeWords .host (c.p 16 4) rivals 0 (c.words (c.p 20 4)) = (k, u)) :
    exec (.regWrite ⟨c, rivals⟩) s = .next (u.finish (s.inCommand 0x23 c).1 (if k = 0 then 0 else 0x0A) (leBytes 4 k)) :=
  exec_admitted hs (exec_regWrite s c rivals) h (State.regWriteRun_writes h0 h8 ((State.inCommand_spanCut s _ c _ _).trans hc) hl)

/-- A MODE command is accepted or denied (R333, R334). -/
theorem exec_modeCmd (h : Admitted s 0x24 c (c.listBad || decide (8 ≤ c.p 16 4) || !c.pz 20 44 || !c.xz 0)) {ok : Bool} {u : State}
    (hu : (s.inCommand 0x24 c).2.modeCommand (c.p 16 4) false = (ok, u)) : exec (.modeCmd c) s = .next (u.finish (s.inCommand 0x24 c).1 (if ok then 0 else 0x0B) []) := by
  simp only [exec, execModeCmd, State.command_admitted hs h, hu]

/-- A WORK that starts offers its item (R100, R103). -/
theorem exec_work (h : Admitted s 0x40 c (!c.xz 0)) (hj : SMap.sorted s.hst.jrnl = true) : exec (.work c) s =
    .next ((s.inCommand 0x40 c).2.offerWork (c.ring % 256) ((s.inCommand 0x40 c).2.workItem (s.inCommand 0x40 c).1 (s.startedRec 0x40 c))) := by
  simp only [exec, execWork, State.command_admitted hs h, State.inCommand_find s 0x40 c hj]

theorem exec_work_refused (h : Admitted s 0x40 c (!c.xz 0)) (hj : SMap.sorted s.hst.jrnl = true)
    (hno : s.listEn c.list.toNat = false ∨ s.reach s.hostPanel (listPanel c.list.toNat) = false) : Answers (.work c) s 0x40 c 0x0C [] := by
  refine (exec_work hs h hj).trans (congrArg _ (State.offerWork_refused rfl ?_))
  rw [State.inCommand_listEn, State.inCommand_reachHost]
  exact hno

theorem exec_work_offers (h : Admitted s 0x40 c (!c.xz 0)) (hj : SMap.sorted s.hst.jrnl = true) (he : s.listEn c.list.toNat = true)
    (hr : s.reach s.hostPanel (listPanel c.list.toNat) = true) (hw : s.hst.heldWork = []) {m : State} (hm : (s.inCommand 0x40 c).2 = m) {it : WorkItem}
    (hit : m.workItem (s.inCommand 0x40 c).1 (s.startedRec 0x40 c) = it) : exec (.work c) s = .next ((m.appendItem it).getD (m.setHeldWork [(c.ring % 256, it)])) := by
  subst hit hm
  refine (exec_work hs h hj).trans (congrArg _ (State.offerWork_open ?_ ?_ ?_))
  · rw [State.inCommand_listEn]
    exact he
  · rw [State.inCommand_reachHost]
    exact hr
  · rw [State.inCommand_heldWork, hw]

end

/-- KEY_INSTALL, LOAD and ERASE. -/
theorem exec_keyRow {c : CmdIn} {row : Instr × Bool} (h : row ∈ [(Instr.keyLoad c, false), (.keyErase c, true)]) (s : State) :
    exec row.1 s = s.command 0x30 c (keyRsv row.2 c) fun rec s => s.keyRun row.2 c rec := by
  simp only [List.mem_cons, List.not_mem_nil, or_false] at h
  rcases h with rfl | rfl <;> rfl

section
variable {s : State} {c : CmdIn} {x : Instr} {erase : Bool} (hs : SMap.sorted s.hst.rings = true)
  (hx : exec x s = s.command 0x30 c (keyRsv erase c) fun rec s => s.keyRun erase c rec) (h : Admitted s 0x30 c (keyRsv erase c))

/-- MACSEC_REQ of the carrying link (R354), as a command in its course sees it. -/
theorem State.inCommand_keyLink (s : State) (op : Nat) (c : CmdIn) :
    (s.inCommand op c).2.rb R.prtCfg 0 (2 * (s.inCommand op c).2.hostPanel) 20 = s.rb R.prtCfg 0 (2 * s.hostPanel) 20 := by
  rw [State.inCommand_hostPanel, State.inCommand_rb]

theorem keyRun_slot (hl : s.rb R.prtCfg 0 (2 * s.hostPanel) 20 = true) (hb : ¬ KeyBad c) (hr : ∀ p ∈ keyPanels c, s.reach s.hostPanel p = true)
    (hm : ¬ 2 ≤ bits (c.p 16 4) 4 4) :
    (s.inCommand 0x30 c).2.keyRun erase c (s.inCommand 0x30 c).1 = (s.inCommand 0x30 c).2.keySlot erase c (keyPanels c) (s.inCommand 0x30 c).1 :=
  (State.keyRun_open ((State.inCommand_keyLink s _ c).trans hl) hb (by simpa only [State.inCommand_reachHost] using hr)).trans (if_neg hm)

include hs hx h

theorem exec_key_link (hl : s.rb R.prtCfg 0 (2 * s.hostPanel) 20 = false) : Answers x s 0x30 c 0x20 [] :=
  answers_of_run hs hx h (State.keyRun_link ((State.inCommand_keyLink s _ c).trans hl))

variable (hl : s.rb R.prtCfg 0 (2 * s.hostPanel) 20 = true)
include hl

theorem exec_key_bad (hb : KeyBad c) : Answers x s 0x30 c 0x22 [] :=
  answers_of_run hs hx h (State.keyRun_bad ((State.inCommand_keyLink s _ c).trans hl) hb)

variable (hb : ¬ KeyBad c)
include hb

theorem exec_key_cut (hc : ∃ p ∈ keyPanels c, s.reach s.hostPanel p = false) : Answers x s 0x30 c 0x13 [] :=
  answers_of_run hs hx h (State.keyRun_cut ((State.inCommand_keyLink s _ c).trans hl) hb (by simpa only [State.inCommand_reachHost] using hc))

variable (hr : ∀ p ∈ keyPanels c, s.reach s.hostPanel p = true)
include hr

theorem exec_key_mac (hm : 2 ≤ bits (c.p 16 4) 4 4) : exec x s = .next ((s.inCommand 0x30 c).2.keySa erase c (s.inCommand 0x30 c).1) :=
  exec_admitted hs hx h ((State.keyRun_open ((State.inCommand_keyLink s _ c).trans hl) hb (by simpa only [State.inCommand_reachHost] using hr)).trans (if_pos hm))

variable (hm : ¬ 2 ≤ bits (c.p 16 4) 4 4)
include hm

theorem exec_key_missing (he : erase = true) (hn : ∃ p ∈ keyPanels c, SMap.find s.sec.keys (p * 1024 + bits (c.p 16 4) 10 10) = none) : Answers x s 0x30 c 0x23 [] :=
  answers_of_run hs hx h ((keyRun_slot hl hb hr hm).trans (State.keySlot_missing he (by rw [State.inCommand_sec]; exact hn)))

theorem exec_key_slot (hk : SMap.sorted s.sec.keys = true) (hn : erase = true → ∀ p ∈ keyPanels c, SMap.find s.sec.keys (p * 1024 + bits (c.p 16 4) 10 10) ≠ none) :
    Ends x s fun u => u = { s with sec := { s.sec with keys := u.sec.keys }, hst := u.hst, out := u.out } ∧
      ∀ p i, p < 2 → i < 1024 → SMap.find u.sec.keys (p * 1024 + i) = if p ∈ keyPanels c ∧ i = bits (c.p 16 4) 10 10 then
        (if erase then none else some (installedKey c)) else SMap.find s.sec.keys (p * 1024 + i) := by
  obtain ⟨u, run, hu, hf⟩ := State.keySlot_done (m := (s.inCommand 0x30 c).2) (rec := (s.inCommand 0x30 c).1) hn hk
  refine ⟨u, exec_admitted hs hx h ((keyRun_slot hl hb hr hm).trans run), ?_, hf⟩
  rw [hostOnly_inCommand s 0x30 c] at hu
  exact hu

end

/-- The reserved fields of a TX_FRAME (R314). -/
def txRsv (c : CmdIn) : Bool := c.listBad || decide (bits (c.p 28 4) 14 18 ≠ 0) || !c.pz 32 32 || !c.xz 0

theorem exec_txFrame {c : CmdIn} {s : State} (h : s.txWaits c = none) (ans : FrameAns) : exec (.txFrame c ans) s =
    s.command 0x41 c (txRsv c) fun rec s => s.txRun c ans rec := by
  simp only [exec, execTxFrame, h, ite_self, txRsv]

/-- A TX_FRAME whose READ is outstanding takes the answer that comes (R306). -/
theorem exec_txFrame_waits {c : CmdIn} {s : State} (ho : s.qpOpen (s.ringQp (c.ring % 256)) = true) {y : Nat × Wqe} (h : s.txWaits c = some y) (ans : FrameAns) :
    exec (.txFrame c ans) s = .next (s.txArrive y.1 y.2 ans) := by
  simp only [exec, execTxFrame, ho, h, if_true]

/-- A command that may start is on a queue pair in RTS (R309). -/
theorem Admitted.qp_state {s : State} {op : Nat} {c : CmdIn} {rsv : Bool} (h : Admitted s op c rsv) : (s.qp (s.ringQp (c.ring % 256))).state = 1 := by
  obtain ⟨hstart, -⟩ := h
  simp only [State.mayStart, State.qpOpen, Bool.and_eq_true, decide_eq_true_eq] at hstart
  obtain ⟨⟨⟨_, hq, _⟩, _⟩, _⟩ := hstart
  exact hq

section
variable {s : State} {c : CmdIn} {f : List Byte} (hs : SMap.sorted s.hst.rings = true) (h : Admitted s 0x41 c (txRsv c)) (hw : s.txWaits c = none)
include hs h hw

theorem exec_txFrame_length {rsp : ReadRsp} (hl : bits (c.p 28 4) 0 14 < 60 ∨ 9216 < bits (c.p 28 4) 0 14) : Answers (.txFrame c ⟨rsp, f, false⟩) s 0x41 c 0x09 [] :=
  answers_of_run hs (exec_txFrame hw _) h (State.txRun_length hl)

variable (h1 : 60 ≤ bits (c.p 28 4) 0 14) (h2 : bits (c.p 28 4) 0 14 ≤ 9216) {u : State} {n rec : Nat} (hn : s.ringQp (c.ring % 256) = n)
  (hrec : (s.inCommand 0x41 c).1 = rec) (hu : (s.inCommand 0x41 c).2.txPosted n c rec = u)
include h1 h2 hn hrec hu

theorem exec_txFrame_lost : exec (.txFrame c ⟨.lost, f, false⟩) s = .next u := by
  subst hrec
  exact exec_admitted hs (exec_txFrame hw _) h ((State.txRun_lost h1 h2 ((State.inCommand_ringQp s _ c _).trans hn) rfl).trans hu)

variable (hj : SMap.sorted s.hst.jrnl = true) (hqs : SMap.sorted s.hst.qps = true) (hq : (s.qp n).sq = [])
include hj hqs hq

/-- The answer that comes at once to a TX_FRAME on a queue pair with nothing outstanding (R306). -/
theorem exec_txFrame_answer {rsp : ReadRsp} : SMap.find u.hst.jrnl rec = some (s.startedRec 0x41 c) ∧ u.ringQp (c.ring % 256) = n ∧ u.now = s.now ∧
    u.hostPanel = s.hostPanel ∧ SMap.sorted u.hst.qps = true ∧ ∃ w, (u.qp n).sq = [w] ∧ w.kind = .read ∧ w.len = bits (c.p 28 4) 0 14 ∧
      exec (.txFrame c ⟨rsp, f, false⟩) s = .next (u.txArrive rec w ⟨rsp, f, false⟩) := by
  subst hrec
  have hqp : ((s.inCommand 0x41 c).2.qp n).state = 1 := by rw [State.inCommand_qp, ← hn, h.qp_state]
  have hsq : ((s.inCommand 0x41 c).2.qp n).sq = [] := by rw [State.inCommand_qp, hq]
  obtain ⟨hs', w, hw1, hk, hlen, run⟩ := State.txRun_only (ans := ⟨rsp, f, false⟩) (rec := (s.inCommand 0x41 c).1) h1 h2 ((State.inCommand_ringQp s _ c _).trans hn) hqs hqp hsq
  have frame := State.txPosted_frame (s.inCommand 0x41 c).2 n c (s.inCommand 0x41 c).1
  rw [hu] at hs' hw1 run frame
  have hregs : u.regs = s.regs := by rw [frame, State.inCommand_regs]
  refine ⟨?_, (State.rf_congr hregs _ _ _ _ _ _).trans hn, ?_, State.hostPanel_congr ?_, hs', w, hw1, hk, hlen, exec_admitted hs (exec_txFrame hw _) h run⟩
  · rw [frame]
    exact State.inCommand_find s 0x41 c hj
  · rw [frame]
    rfl
  · rw [frame]
    rfl

theorem exec_txFrame_nak : exec (.txFrame c ⟨.nak, f, false⟩) s = .next ((u.setQp n ((u.qp n).answered s.now)).finish rec 0x10 []) := by
  obtain ⟨find, hqp, hnow, -, hs', w, hw1, hk, -, run⟩ := exec_txFrame_answer hs h hw h1 h2 hn hrec hu hj hqs hq (rsp := .nak) (f := f)
  rw [run, State.txArrive_nak find hqp rfl hs' hw1 hk rfl, hnow]

theorem exec_txFrame_data : exec (.txFrame c ⟨.data, f, false⟩) s = .next
    (((u.setQp n ((u.qp n).answered s.now)).inject s.hostPanel (1028 + n) (sliceZ f 0 (bits (c.p 28 4) 0 14)) (some rec)).getD
      ((u.setQp n ((u.qp n).answered s.now)).finish rec 0x11 [])) := by
  obtain ⟨find, hqp, hnow, hhost, hs', w, hw1, hk, hlen, run⟩ := exec_txFrame_answer hs h hw h1 h2 hn hrec hu hj hqs hq (rsp := .data) (f := f)
  rw [run, State.txArrive_data find hqp rfl hs' hw1 hk rfl, hnow, hhost, hlen]

end

-- ------------------------------------------------------------------------------------------------- the obligation

/-- NOP (R314): an entry with opcode 0 is a command, which only answers. -/
theorem exec_nop {s : State} (c : CmdIn) : exec (.nop ⟨c, 0#8⟩) s =
    s.command 0 c (c.listBad || !c.pz 16 48 || !c.xz 0) fun rec s => s.finish rec 0 [] := by
  simp only [exec, execNop, BitVec.toNat_ofNat, Nat.zero_mod, ne_eq, not_true, decide_false, Bool.false_and, Bool.false_or, Bool.false_eq_true, if_false]

/-- Settles O50: every clause is what the lemmas about its command say of an admitted entry (`State.command_admitted`). -/
theorem hostCommands : Obligations.HostCommands := by
  intro s c hs w no
  refine ⟨fun h => answers_of_run hs (exec_nop c) h rfl, fun row hrow h => ?flow, fun h hb => ?bind, fun h hc => ?stats,
    fun rivals row hrow h => ?regs, fun h ok u hu => exec_modeCmd hs h hu, fun row hrow h => ?keys, fun h j hj => ?work, fun rsp f h hw hj hq => ?tx,
    fun ans y hq hy => exec_txFrame_waits hq hy ans⟩
  case flow =>
    have hx := exec_flowRow hrow s
    obtain ⟨x, op, o⟩ := row
    intro x' op' o' p off len rec m range
    refine ⟨fun hr => exec_flow_fenced hs hx h rfl hr, fun hr => exec_flow_range hs hx h rfl hr.1 hr.2, fun hr hn => ⟨fun ho hm => exec_flow_absent hs hx h rfl hr hn ho hm,
      fun i m1 hm => ?_, fun m1 m2 ho hm hv => exec_flow_full hs hx h rfl hr hn ho hm hv, fun m1 m2 l i ho hm hv hk => exec_flow_new hs hx h rfl hr hn ho hm hv hk⟩⟩
    exact flowAct_clauses (exec_flow_acts hs hx h rfl hr hn hm)
  case bind =>
    exact ⟨fun hb' => exec_bindSet_bad hs h hb', fun ht => exec_bindSet_taken hs h ht.1 ht.2, fun hb' ht => exec_bindSet_binds hs h hb' ht hb⟩
  case stats =>
    refine ⟨fun hb => exec_stats_bad hs h hb, fun hb hl => ?_, fun hb hl => ?_⟩
    · have live := (s.statsLive_eq_true_iff c).2 hl
      exact ⟨fun hk => exec_stats_reads hs h hb live hk, fun hk => exec_stats_clears hs h hb live hk hc⟩
    · obtain ⟨p, hp, hr⟩ := hl
      exact exec_stats_zeros hs h hb (Bool.eq_false_iff.2 fun live => ne_true_of_eq_false hr ((s.statsLive_eq_true_iff c).1 live p hp))
  case regs =>
    simp only [List.mem_cons, List.not_mem_nil, or_false] at hrow
    rcases hrow with rfl | rfl
    · exact ⟨fun hn => exec_regRead_count hs h hn, fun hn => exec_regRead_cut hs h hn.1 hn.2.1 hn.2.2,
        fun h0 h8 hk => ⟨fun _ _ _ hl => exec_regRead_reads hs h h0 h8 hk hl, fun hf => absurd hf Bool.false_ne_true⟩⟩
    · exact ⟨fun hn => exec_regWrite_count hs h hn, fun hn => exec_regWrite_cut hs h hn.1 hn.2.1 hn.2.2,
        fun h0 h8 hk => ⟨fun hf => absurd hf.symm Bool.false_ne_true, fun _ _ _ hl => exec_regWrite_writes hs h h0 h8 hk hl⟩⟩
  case keys =>
    have hx := exec_keyRow hrow s
    obtain ⟨x, erase⟩ := row
    exact ⟨fun hl => exec_key_link hs hx h (Bool.eq_false_iff.2 hl), fun hl => exec_key_bad hs hx h hl.1 hl.2, fun hl => exec_key_cut hs hx h hl.1 hl.2.1 hl.2.2,
      fun hl hb hr hm hk => ⟨fun he hn => exec_key_missing hs hx h hl hb hr hm he hn, fun hn => exec_key_slot hs hx h hl hb hr hm hk hn⟩,
      fun hl hb hr hm => exec_key_mac hs hx h hl hb hr hm⟩
  case work =>
    subst hj
    refine ⟨fun hno hj => exec_work_refused hs h hj hno, fun he hr hw hj => ?_⟩
    intro m it
    have offers : exec (.work c) s = .next ((m.appendItem it).getD (m.setHeldWork [(c.ring % 256, it)])) := exec_work_offers hs h hj he hr hw rfl rfl
    exact ⟨fun u hu => by rw [offers, hu]; rfl, fun hu => by rw [offers, hu]; rfl⟩
  case tx =>
    intro len n m rec x m1 m2
    refine ⟨fun hl => exec_txFrame_length hs h hw hl, fun h1 h2 => ?_⟩
    have data (hsq : (s.qp n).sq = []) (hr : rsp = .data) :
        exec x s = .next ((m2.inject s.hostPanel (1028 + n) (sliceZ f 0 len) (some rec)).getD (m2.finish rec 0x11 [])) := by
      subst hr
      exact exec_txFrame_data hs h hw h1 h2 rfl rfl rfl hj hq hsq
    refine ⟨fun hr => ?_, fun hsq hr => ?_, fun hsq hr hi => ?_, fun u hsq hr hi => ?_⟩
    · subst hr
      exact exec_txFrame_lost hs h hw h1 h2 rfl rfl rfl
    · subst hr
      exact exec_txFrame_nak hs h hw h1 h2 rfl rfl rfl hj hq hsq
    · rw [data hsq hr, hi, Option.getD_none]
    · rw [data hsq hr, hi, Option.getD_some]

end Sys2Proof.Machine
end

section
/-! PROOFS. The path of a hook operation that its unit takes and executes at once (R123, R173). -/

namespace Sys2Proof.Machine

/-- The strand waits at no hook's decode. -/
def Strand.unbusy (x : Strand) : Strand := { x with busy := none }

theorem Strand.unbusy_of_none {x : Strand} (h : x.busy = none) : x.unbusy = x := by
  unfold Strand.unbusy
  rw [← h]

/-- The state on which the body of a hook operation acts once its unit has taken it: nothing waits at decode, and the pc has moved on. -/
def State.hookReady (s : State) (t : Nat) : State := (s.setStrand t (s.strand t).unbusy).advance t

theorem State.hookReady_eq (s : State) (t : Nat) : s.hookReady t = { s with strands := (s.hookReady t).strands } := rfl
theorem State.hookReady_doms (s : State) (t : Nat) : (s.hookReady t).doms = s.doms := rfl
theorem State.hookReady_regs (s : State) (t : Nat) : (s.hookReady t).regs = s.regs := rfl
theorem State.hookReady_now (s : State) (t : Nat) : (s.hookReady t).now = s.now := rfl
theorem State.hookReady_md (s : State) (t : Nat) : (s.hookReady t).md = s.md := rfl
theorem State.hookReady_evs (s : State) (t : Nat) : (s.hookReady t).evs = s.evs := rfl
theorem State.hookReady_evDone (s : State) (t : Nat) : (s.hookReady t).evDone = s.evDone := rfl

theorem Strand.running_setCur (x : Strand) (y : Bank) : (x.setCur y).running = x.running := by
  unfold Strand.setCur Strand.setBk
  split <;> rfl

/-- A strand with one more outstanding operation of its running bank, for the item given (R173, R215). -/
def Strand.pushed (x : Strand) (t : Nat) (it : Option Nat) (o : HookOp) : Strand :=
  { x with ops := x.ops ++ [{ o with bank := b2n x.inB1, ll := it, home := match it with | some k => k / 4096 | none => panelOf t }] }

theorem Strand.pushed_setCur {x : Strand} (h : x.busy = none) (t : Nat) (y : Bank) (o : HookOp) :
    (x.setCur y).pushed t (if x.cur.hasItem then x.cur.item else none) o = x.withOp t y o := by
  obtain ⟨b0, b1, inB1⟩ := x
  dsimp only at h
  subst h
  cases inB1 <;> rfl

section
variable {s : State} {t : Nat} (ho : SMap.sorted s.strands = true) (hb : (s.strand t).busy = none)
include ho hb

/-- A strand that waits at no hook is ready for a hook operation by the move of its pc alone. -/
theorem became_hookReady : Became s (s.hookReady t) t ((s.strand t).setCur (s.bank t).next) := by
  have a := became_setStrand s t (s.strand t) ho
  have o1 := State.sorted_setStrand s t (s.strand t) ho
  have b := became_setBank (s.setStrand t (s.strand t)) t ((s.setStrand t (s.strand t)).bank t).next o1
  have hs := State.strand_setStrand_self s t (s.strand t) ho
  have hk : (s.setStrand t (s.strand t)).bank t = s.bank t := by rw [State.bank, hs, State.bank]
  rw [hs, hk] at b
  rw [State.hookReady, Strand.unbusy_of_none hb, State.advance_eq, hk]
  exact a.trans b

/-- A strand that waits at no hook may issue as before once it is said to wait at none. -/
theorem Runs.setStrand_unbusy {g : BitVec 4} {regs hregs : List Nat} (h : Runs s t g regs hregs) :
    Runs (s.setStrand t (s.strand t).unbusy) t g regs hregs := by
  have hs := State.strand_setStrand_self s t (s.strand t) ho
  rw [Strand.unbusy_of_none hb]
  simp only [Runs, Offered, Unwatched, State.bank, State.mayIssue, hs] at h ⊢
  exact h

variable (hr : (s.strand t).running = none)
include hr

/-- The move of the pc changes no source of a hook operation. -/
theorem State.hval_hookReady (r : Nat) : (s.hookReady t).hval t r = s.hval t r := by
  obtain ⟨-, e, -⟩ := became_hookReady ho hb
  simp only [State.hval, e, hr, Strand.running_setCur, Strand.cur_setCur]
  rfl

/-- Nor the item that it acts for. -/
theorem State.hookItem_hookReady : (s.hookReady t).hookItem t = if (s.strand t).cur.hasItem then (s.strand t).cur.item else none := by
  obtain ⟨-, e, -⟩ := became_hookReady ho hb
  have e2 : (s.hookReady t).bank t = (s.bank t).next := by rw [State.bank, e, Strand.cur_setCur]
  simp only [State.hookItem, e, e2, Strand.running_setCur, hr]
  rfl

/-- A hook operation that changes all but the strands to `m` and executes. -/
theorem opChanges_of_body {m : State} {c : Instr} {body : State → State} {hook func : Nat} {hd : BitVec 4} {srcs : List Nat} {v : HWord}
    (hx : exec c s = .next ((body (s.hookReady t)).stepDone t))
    (hbody : body (s.hookReady t) = ({ m with strands := (s.hookReady t).strands } : State).hookDone t hook func hd srcs v) :
    OpChanges c s m t { hook := hook, func := func, hd := some hd.toNat, srcs := srcs, val := v } := by
  obtain ⟨h1, h2, h3⟩ := became_hookReady ho hb
  have hi := State.hookItem_hookReady ho hb hr
  have o1 : SMap.sorted (s.hookReady t).strands = true := State.sorted_setBank _ _ _ (State.sorted_setStrand _ _ _ ho)
  refine ⟨_, hx, ?_, ?_, fun j hj => ?_⟩ <;> rw [hbody]
  · rfl
  · refine (State.strand_setStrand_self _ t _ o1).trans ?_
    show Strand.pushed ((s.hookReady t).strand t) t ((s.hookReady t).hookItem t) _ = _
    rw [h2, hi, Strand.pushed_setCur hb]
  · refine (State.strand_setStrand _ t j _ o1).trans ?_
    rw [if_neg (Ne.symm hj)]
    exact h3 j hj

end

/-- Decode finds nothing wrong with a hook opcode whose unused fields are zero, at a unit that is not fenced (R123). -/
theorem State.hookEmu_none {s : State} {t : Nat} {f : HFmt} {d : HookDec} (hn : s.isFenced (panelOf t) 3 (courseOf t * 8 + d.hook) = false)
    (hm : d.mdBad = false) (hd : d.useHd = true) (ha : d.useHa = true ∨ f.ha = 0#4) (hb : d.useHb = true ∨ f.hb = 0#4)
    (hmd : d.useMd = true ∨ f.md = 0#4) (hs : ∀ r ∈ d.srcs, r < 16) : s.hookEmu t f d = none := by
  have wide : (d.srcs.any fun r => decide (15 < r)) = false := by
    simp only [List.any_eq_false, decide_eq_true_eq]
    exact fun r hr => Nat.not_lt.2 (Nat.le_of_lt_succ (hs r hr))
  have unused {u : Bool} {x : BitVec 4} (h : u = true ∨ x = 0#4) : (!u && decide (x ≠ 0#4)) = false := by
    rcases h with h | h <;> simp [h]
  simp only [State.hookEmu, hn, hm, hd, unused ha, unused hb, unused hmd, wide, Bool.not_true, Bool.false_and, Bool.or_self, fieldErr, Bool.false_eq_true, if_false]

/-- A unit takes an operation at once, and executes it (R123, R173). -/
theorem State.hookIssue_runs {s : State} {t : Nat} {f : HFmt} {d : HookDec} {hregs : List Nat} {func : Nat} (ho : SMap.sorted s.strands = true)
    (h : HookRuns s t d.hook func f hregs) (hcut : s.hookCut t d.hook d.func (s.hookItem t) = false) (hf : s.hookEmu t f d = none)
    (hr : d.refuse = none) (hp : d.refDeps = []) (hh : (s.strand t).hookArrived [f.hd.toNat] = true) (hs : (s.strand t).hookArrived d.srcs = true)
    (body : State → State) : s.hookIssue t f d body = (body (s.hookReady t)).stepDone t := by
  obtain ⟨⟨⟨hm, hb, hc⟩, hrun, -, h8, hall, -, hq, -⟩, hi⟩ := h
  have wait : s.hookWaits t f d = false := by
    simp only [State.hookWaits, hh, Bool.not_true, Bool.and_false, Bool.or_false, decide_eq_false_iff_not]
    omega
  have kept : s.keptBusy t d.hook d.refDeps false = false := by
    simp only [State.keptBusy, hp, Bool.false_and, Bool.or_false, Bool.or_eq_false_iff, decide_eq_false_iff_not]
    exact ⟨Nat.not_le.2 hq, rfl⟩
  have hold : (s.hookReady t).mustHold t d = false := by
    obtain ⟨-, e1, -⟩ := became_hookReady ho hb
    have ha : ((s.strand t).setCur (s.bank t).next).hookArrived d.srcs = true := by
      simpa only [Strand.hookArrived, Strand.setCur_ops, Strand.setCur_inB1] using hs
    have older : ((s.strand t).ops.any fun o => !o.isReady && decide (o.hook = d.hook)) = false := by
      simpa [List.any_eq_false, List.all_eq_true, or_iff_not_imp_left] using hall
    have cut : (s.hookReady t).hookCut t d.hook d.func ((s.hookReady t).hookItem t) = false := by
      rw [State.hookItem_hookReady ho hb hrun, ← hcut, State.hookItem, hrun]
      rfl
    simp only [State.mustHold, cut, e1, ha, Strand.setCur_ops, older, Bool.not_true, Bool.or_self]
  have run := State.issue_runs (d := { word := f.word d.hook d.func, g := f.g }) (body := fun s => if s.mustHold t d then s.holdOp t f d else body s)
    (Runs.setStrand_unbusy ho hb hi) rfl rfl rfl (fun _ => rfl) rfl
  have hold' : ((s.setStrand t (s.strand t).unbusy).advance t).mustHold t d = false := hold
  rw [hold', if_neg Bool.false_ne_true] at run
  have idle : (s.strand t).running.isSome = false := by rw [hrun, Option.isSome_none]
  simp only [State.hookIssue, idle, hf, hm, hb, hc, wait, kept, hr, Option.isSome_none, Option.any_none, Bool.not_true,
    Bool.or_self, Bool.false_eq_true, if_false]
  exact run

/-- An operation of hook 4 that is taken, and whose body changes all but the strands to `m` and executes. -/
theorem opChanges_hook4 {s m : State} {t : Nat} {f : HFmt} {c : Instr} {d : HookDec} {body : State → State} {hregs : List Nat} {func : Nat} {v : HWord}
    (ho : SMap.sorted s.strands = true) (h : HookRuns s t 4 func f hregs) (hx : exec c s = .next (s.hookIssue t f d body)) (h4 : d.hook = 4)
    (hd : d.useHd = true ∧ d.mdBad = false ∧ d.refuse = none ∧ d.refDeps = [])
    (hu : (d.useHa = true ∨ f.ha = 0#4) ∧ (d.useHb = true ∨ f.hb = 0#4) ∧ (d.useMd = true ∨ f.md = 0#4)) (hn : ∀ r ∈ d.srcs, r < 16)
    (hh : (s.strand t).hookArrived [f.hd.toNat] = true) (hs : (s.strand t).hookArrived d.srcs = true)
    (hbody : body (s.hookReady t) = ({ m with strands := (s.hookReady t).strands } : State).hookDone t 4 d.func f.hd d.srcs v) :
    OpChanges c s m t { hook := 4, func := d.func, hd := some f.hd.toNat, srcs := d.srcs, val := v } := by
  obtain ⟨ud, um, ur, up⟩ := hd
  obtain ⟨ua, ub, umd⟩ := hu
  have he : s.hookEmu t f d = none := State.hookEmu_none (by rw [h4]; exact h.1.2.2.1) um ud ua ub umd hn
  have hcut : s.hookCut t d.hook d.func (s.hookItem t) = false := by rw [h4]; rfl
  have run := State.hookIssue_runs ho (by rw [h4]; exact h) hcut he ur up hh hs body
  exact opChanges_of_body ho h.1.1.2.1 h.1.2.1 (hx.trans (congrArg _ run)) hbody

/-- An operation that changes nothing but its strand. -/
theorem OpChanges.becomes {c : Instr} {s : State} {t : Nat} {o : HookOp} (h : OpChanges c s s t o) : OpBecomes c s t (s.bank t).next o := by
  obtain ⟨u, hx, hu⟩ := h
  exact ⟨u, hx, hu⟩

end Sys2Proof.Machine
end

section
/-! PROOFS. Hook 4: positions and events (R25, R26, R39, R40, R45, R184, R185). -/

namespace Sys2Proof.Machine

theorem m48_eq : m48 = 2 ^ 48 := rfl

theorem bits_zero_lo (v w : Nat) : bits v 0 w = v % 2 ^ w := by rw [bits, Nat.pow_zero, Nat.div_one]

/-- The low `w` bits replaced. -/
theorem setBits_zero_lo (v w x : Nat) : setBits v 0 w x = v / 2 ^ w * 2 ^ w + x % 2 ^ w := by
  have h := Nat.div_add_mod' v (2 ^ w)
  rw [setBits, bits_zero_lo, Nat.pow_zero, Nat.mul_one, Nat.mul_one]
  omega

/-- How R25 names the relation of two positions by their difference. -/
theorem posRel_eq (a b : Nat) {d : Nat} (hd : (a + m48 - b % m48) % m48 = d) :
    posRel a b = if d = 0 then .equal else if d < 2 ^ 47 then .after else if 2 ^ 47 < d then .before else .unordered := by
  rw [← hd]
  rfl

/-- The code that POS_CMP gives a relation of R25 (R184). -/
def Rel.code : Rel → Nat
  | .equal => 0x20 | .after => 0x21 | .before => 0x22 | .unordered => 0x23

theorem posCmp_same {a b : Nat} (h1 : bits a 64 4 = bits b 64 4) (h2 : bits a 48 16 = bits b 48 16) (h3 : bits a 70 1 = bits b 70 1) {d : Nat}
    (hd : (a % 2 ^ 48 + 2 ^ 48 - b % 2 ^ 48) % 2 ^ 48 = d) :
    posCmp a b = mkLanes (if d = 0 then 0x20 else if d < 2 ^ 47 then 0x21 else if 2 ^ 47 < d then 0x22 else 0x23) (d % 2 ^ 32) (d / 2 ^ 32) 0 := by
  have low : bits b 0 48 % m48 = bits b 0 48 := Nat.mod_eq_of_lt (by rw [bits_zero_lo, m48_eq]; exact Nat.mod_lt _ (Nat.two_pow_pos 48))
  have e : (bits a 0 48 + m48 - bits b 0 48) % m48 = d := by rw [bits_zero_lo, bits_zero_lo, m48_eq, hd]
  have named : posCmp a b = mkLanes (posRel (bits a 0 48) (bits b 0 48)).code (d % 2 ^ 32) (d / 2 ^ 32) 0 := by
    rw [← e, posCmp, if_neg (not_not.2 h1), h2, h3, if_neg (by simp)]
    cases posRel (bits a 0 48) (bits b 0 48) <;> rfl
  rw [named, posRel_eq _ _ (by rw [low, e])]
  simp only [apply_ite Rel.code]
  rfl

theorem posCmp_otherDomain {a b : Nat} (h : bits a 64 4 ≠ bits b 64 4) : posCmp a b = hres 0x24 := if_pos h

theorem posCmp_otherEpoch {a b : Nat} (h1 : bits a 64 4 = bits b 64 4) (h2 : bits a 48 16 ≠ bits b 48 16 ∨ bits a 70 1 ≠ bits b 70 1) :
    posCmp a b = hres 0x25 := by
  simp only [posCmp, h1, ne_eq, not_true, if_false, Bool.or_eq_true, decide_eq_true_eq]
  exact if_pos h2

theorem hookArrived_hd {s : State} {t hook func : Nat} {f : HFmt} {r : Nat} {l : List Nat} (h : HookRuns s t hook func f (r :: l)) :
    (s.strand t).hookArrived [r] = true ∧ (s.strand t).hookArrived l = true := by
  obtain ⟨⟨-, -, -, -, -, ha, -, -⟩, -⟩ := h
  simpa [Strand.hookArrived] using ha

-- What the state of a domain and of an event depends on.

theorem State.dom_congr {s u : State} (hd : u.doms = s.doms) (p n : Nat) : u.dom p n = s.dom p n := by
  rw [State.dom, hd, State.dom]

theorem State.rb_congr {s u : State} (hr : u.regs = s.regs) (d : RegDesc) (p i lo j : Nat) : u.rb d p i lo j = s.rb d p i lo j := by
  rw [State.rb, State.rd_congr hr, State.rb]

theorem State.up_congr {s u : State} (hm : u.md = s.md) (p : Nat) : u.up p = s.up p := by
  rw [State.up, State.pan, hm, State.up, State.pan]

section
variable {s u : State} (hd : u.doms = s.doms) (hr : u.regs = s.regs) (hn : u.now = s.now)
include hd hr hn

theorem State.est_congr (p n : Nat) : u.est p n = s.est p n := by
  rw [State.est, State.dom_congr hd, State.rf_congr hr, hn, State.est]

theorem State.evRel_congr (e : Ev) : u.evRel e = s.evRel e := by
  rw [State.evRel, State.est_congr hd hr hn, State.evRel]

theorem State.evRelUp_congr (e : Ev) : u.evRelUp e = s.evRelUp e := by
  rw [State.evRelUp, State.dom_congr hd, State.rf_congr hr, hn, State.evRelUp]

theorem State.crossed_congr (e : Ev) : u.crossed e = s.crossed e := by
  rw [State.crossed, State.evRel_congr hd hr hn, State.evRelUp_congr hd hr hn, State.crossed]

theorem State.due_congr (hm : u.md = s.md) (e : Ev) : u.due e = s.due e := by
  simp only [State.due, State.up_congr hm, State.dom_congr hd, State.crossed_congr hd hr hn]

theorem State.cancels_congr (hm : u.md = s.md) (t tag : Nat) (e : Ev) : u.cancels t tag e = s.cancels t tag e := by
  simp only [State.cancels, State.due_congr hd hr hn hm]

/-- A stamp depends on the copies of its domain, the registers and the time (R27). -/
theorem State.stamp_congr (p n : Nat) : u.stamp p n = s.stamp p n := by
  simp only [State.stamp, State.stampAt, State.dom, State.uncAt, State.rf, State.rd, State.domCyclic, State.rb, hd, hr, hn]

end

/-- What the position operations of hook 4 give: POS_READ's stamp, and POS_ADD's sum (R184). -/
def State.posReadVal (s : State) (p n : Nat) : HWord :=
  if (s.dom p n).epoch = 0 then mkStamp 0 0 n 3 (s.dom p n).origin 0xFFFF else s.stamp p n

theorem State.posReadVal_congr {s u : State} (hd : u.doms = s.doms) (hr : u.regs = s.regs) (hn : u.now = s.now) (p n : Nat) :
    u.posReadVal p n = s.posReadVal p n := by
  rw [State.posReadVal, State.stamp_congr hd hr hn, State.dom_congr hd, State.posReadVal]

def posAddVal (a b : Nat) : HWord :=
  BitVec.ofNat 128 (if bits b 48 80 ≠ 0 then a else setBits a 0 48 ((bits a 0 48 + bits b 0 48) % m48))

theorem exec_posRead (s : State) (t : Nat) (f : HFmt) : exec (.posRead t f) s = .next (s.hookIssue t f { hook := 4, func := 0, useHa := false, useMd := true }
    fun s => s.hookDone t 4 0 f.hd [] (s.posReadVal (t / 416) f.md.toNat)) := rfl

theorem exec_posAdd (s : State) (t : Nat) (f : HFmt) : exec (.posAdd t f) s = .next (s.hookIssue t f { hook := 4, func := 1, useHb := true, srcs := [f.ha.toNat, f.hb.toNat] }
    fun s => s.hookDone t 4 1 f.hd [f.ha.toNat, f.hb.toNat] (posAddVal (s.hval t f.ha.toNat).toNat (s.hval t f.hb.toNat).toNat)) := rfl

theorem exec_posCmp (s : State) (t : Nat) (f : HFmt) : exec (.posCmp t f) s = .next (s.hookIssue t f { hook := 4, func := 2, useHb := true, srcs := [f.ha.toNat, f.hb.toNat] }
    fun s => s.hookDone t 4 2 f.hd [f.ha.toNat, f.hb.toNat] (posCmp (s.hval t f.ha.toNat).toNat (s.hval t f.hb.toNat).toNat)) := rfl

theorem posAddVal_offset {a b : Nat} (h : bits b 48 80 = 0) : posAddVal a b = BitVec.ofNat 128 (a / 2 ^ 48 * 2 ^ 48 + (a % 2 ^ 48 + b % 2 ^ 48) % 2 ^ 48) := by
  rw [posAddVal, if_neg (not_not.2 h), setBits_zero_lo, bits_zero_lo, bits_zero_lo, m48_eq, Nat.mod_mod]

theorem posAddVal_noOffset {a : HWord} {b : Nat} (h : bits b 48 80 ≠ 0) : posAddVal a.toNat b = a := by
  rw [posAddVal, if_pos h, BitVec.ofNat_toNat, BitVec.setWidth_eq]

/-- Two source registers exist. -/
theorem two_lt_sixteen (a b : BitVec 4) : ∀ r ∈ [a.toNat, b.toNat], r < 16 := by
  intro r hr
  simp only [List.mem_cons, List.not_mem_nil, or_false] at hr
  rcases hr with rfl | rfl <;> exact BitVec.isLt _

/-- Settles O29: each operation executes at once, and its result is computed case by case. -/
theorem hookPositions : Obligations.HookPositions := by
  intro s t f ho h
  have hh := (hookArrived_hd h).1
  have hv := State.hval_hookReady ho h.1.1.2.1 h.1.2.1
  refine ⟨fun ha hb => ?_, fun hm h2 => ?_⟩
  · have read {v : HWord} (e : s.posReadVal (t / 416) f.md.toNat = v) :
        OpBecomes (.posRead t f) s t (s.bank t).next { hook := 4, func := 0, hd := some f.hd.toNat, srcs := [], val := v } :=
      (opChanges_hook4 (m := s) ho h (exec_posRead s t f) rfl ⟨rfl, rfl, rfl, rfl⟩ ⟨.inr ha, .inr hb, .inl rfl⟩ (by simp) hh rfl
        (by rw [State.posReadVal_congr (State.hookReady_doms s t) (State.hookReady_regs s t) (State.hookReady_now s t), e]; rfl)).becomes
    exact ⟨fun he => read (if_neg he), fun he => read (if_pos he)⟩
  · have hn := two_lt_sixteen f.ha f.hb
    have add {v : HWord} (e : posAddVal (s.hval t f.ha.toNat).toNat (s.hval t f.hb.toNat).toNat = v) :
        OpBecomes (.posAdd t f) s t (s.bank t).next { hook := 4, func := 1, hd := some f.hd.toNat, srcs := [f.ha.toNat, f.hb.toNat], val := v } :=
      (opChanges_hook4 (m := s) ho h (exec_posAdd s t f) rfl ⟨rfl, rfl, rfl, rfl⟩ ⟨.inl rfl, .inl rfl, .inr hm⟩ hn hh h2 (by rw [hv, hv, e]; rfl)).becomes
    have cmp {v : HWord} (e : posCmp (s.hval t f.ha.toNat).toNat (s.hval t f.hb.toNat).toNat = v) :
        OpBecomes (.posCmp t f) s t (s.bank t).next { hook := 4, func := 2, hd := some f.hd.toNat, srcs := [f.ha.toNat, f.hb.toNat], val := v } :=
      (opChanges_hook4 (m := s) ho h (exec_posCmp s t f) rfl ⟨rfl, rfl, rfl, rfl⟩ ⟨.inl rfl, .inl rfl, .inr hm⟩ hn hh h2 (by rw [hv, hv, e]; rfl)).becomes
    exact ⟨fun h1 => add (posAddVal_offset h1), fun h1 => add (posAddVal_noOffset h1), fun h1 => cmp (posCmp_otherDomain h1),
      fun h1 h2 => cmp (posCmp_otherEpoch h1 h2), fun h1 h2 h3 => cmp (posCmp_same h1 h2 h3 rfl)⟩


-- ------------------------------------------------------------------------------------------------------------- events

/-- A field of a field. -/
theorem bits_bits {v lo w lo' w' : Nat} (h : lo' + w' ≤ w) : bits (bits v lo w) lo' w' = bits v (lo + lo') w' := by
  apply Nat.eq_of_testBit_eq
  intro i
  simp only [bits, Nat.testBit_mod_two_pow, Nat.testBit_div_two_pow, Nat.add_assoc]
  by_cases hi : i < w'
  · have e : i + lo' < w := by omega
    have e2 : i + (lo' + lo) = i + (lo + lo') := by omega
    simp only [hi, e, e2, decide_true, Bool.true_and]
  · simp only [hi, decide_false, Bool.false_and]

/-- The estimate of an event's copy stands before TARGET where their difference is past the middle (R25). -/
theorem posRel_before {a b : Nat} (hb : b < 2 ^ 48) (h : 2 ^ 47 < (a + 2 ^ 48 - b) % 2 ^ 48) : posRel a b = .before := by
  rw [posRel_eq a b rfl, m48_eq, Nat.mod_eq_of_lt hb, if_neg (by omega), if_neg (by omega), if_pos h]

/-- A descriptor of a WAKE that no check of R40 refuses, of a list on a domain with a target ahead: the event that EVT_SCHED accepts. -/
theorem State.schedule_wake {s : State} {t d : Nat} (hk : bits d 68 3 = 3) (hpol : bits d 71 2 = 0) (hstep : bits d 73 2 = 0) (hdir : bits d 75 2 = 0)
    (h78 : bits d 78 2 = 0) (h112 : bits d 112 16 = 0) (h90 : bits d 90 6 = 0) (hen : s.domEn (bits d 64 4) = true) (hl : s.listEn (bits d 80 10) = true)
    (hep : (s.dom (t / 416) (bits d 64 4)).epoch = bits d 48 16) (hep0 : bits d 48 16 ≠ 0) (hst : (s.dom (t / 416) (bits d 64 4)).state = .locked)
    (hahead : 2 ^ 47 < (s.est (t / 416) (bits d 64 4) + 2 ^ 48 - bits d 0 48) % 2 ^ 48)
    (hfar : (bits d 0 48 + 2 ^ 48 - s.est (t / 416) (bits d 64 4)) % 2 ^ 48 ≤ 2 ^ 46)
    (hroom : (s.evs.filter fun x => decide (x.wheel = t / 416) && decide (x.kind ≠ .pinEdge)).length < 4096) :
    s.schedule t d = (0x100, { s with evs := s.evs ++ [{ target := bits d 0 48, epoch := bits d 48 16, domain := bits d 64 4, kind := .wake, policy := 0, stepRule := 0, dir := 0, noLate := bit d 77, operand := bits d 80 16, tag := bits d 96 16, strand := t, wheel := t / 416, copy := t / 416, before := true, since := s.now }] }) := by
  have hop : operandRsv .wake (bits d 80 16) = false := by
    simp only [operandRsv, decide_eq_false_iff_not, not_not]
    rw [bits_bits (by decide), h90]
  have hlist : s.operandBad t .wake (bits d 80 16) = false := by
    have e : bits d 80 16 % 1024 = bits d 80 10 := by
      have := bits_bits (v := d) (lo := 80) (w := 16) (lo' := 0) (w' := 10) (by decide)
      rwa [bits_zero_lo] at this
    simp only [State.operandBad, e, hl, Bool.not_true]
  have hrel : posRel (s.est (t / 416) (bits d 64 4)) (bits d 0 48) = .before := posRel_before (Nat.mod_lt _ (Nat.two_pow_pos 48)) hahead
  have hfar' : ¬ 2 ^ 46 < (bits d 0 48 + m48 - s.est (t / 416) (bits d 64 4)) % m48 := by
    rw [m48_eq]
    exact Nat.not_lt.2 hfar
  simp only [State.schedule, hk, hpol, hstep, hdir, h78, h112, hop, hen, hlist, hep, hep0, hst, evKindOf, wheelOf, panelOf, hfar', policyAct, Ev.behind, State.evRel, hrel,
    ne_eq, not_true, not_false_eq_true, decide_true, decide_false, reduceCtorEq, OfNat.zero_ne_ofNat, Bool.not_true, Bool.false_and,
    Bool.true_and, Bool.or_self, Bool.false_eq_true, if_false]
  exact if_neg fun full => absurd hroom (Nat.not_lt.2 (of_decide_eq_true full))

/-- The kinds from 4 on are reserved (R39). -/
theorem evKindOf_reserved {k : Nat} (h : 4 ≤ k) : evKindOf k = none := by
  obtain ⟨j, rfl⟩ : ∃ j, k = j + 4 := ⟨k - 4, by omega⟩
  rfl

theorem State.schedule_reserved {s : State} {t d : Nat} (h : 4 ≤ bits d 68 3) : s.schedule t d = (0x16, s) := by
  simp only [State.schedule, evKindOf_reserved h]

theorem exec_evtSched (s : State) (t : Nat) (f : HFmt) : exec (.evtSched t f) s = .next (s.hookIssue t f { hook := 4, func := 3, srcs := [f.ha.toNat] }
    fun s => (s.schedule t (s.hval t f.ha.toNat).toNat).2.hookDone t 4 3 f.hd [f.ha.toNat] (hres (s.schedule t (s.hval t f.ha.toNat).toNat).1)) := rfl

/-- What EVT_CANCEL answers (R184): how many events it removed. -/
def cancelVal (n : Nat) : HWord := hres (if n = 0 then 0x17 else 0x07 + min n 255 * 256)

theorem exec_evtCancel (s : State) (t : Nat) (f : HFmt) : exec (.evtCancel t f) s = .next (s.hookIssue t f { hook := 4, func := 4, srcs := [f.ha.toNat] }
    fun s => ({ s with evs := s.evs.filter fun e => !s.cancels t (bits (s.hval t f.ha.toNat).toNat 0 16) e } : State).hookDone t 4 4 f.hd [f.ha.toNat]
      (cancelVal (s.evs.filter fun e => s.cancels t (bits (s.hval t f.ha.toNat).toNat 0 16) e).length)) := rfl

/-- EVT_POLL's body: the oldest completion of the strand, or the answer that there is none. -/
def State.pollBody (s : State) (t : Nat) (hd : BitVec 4) : State :=
  match SMap.get s.evDone [] t with
  | [] => s.hookDone t 4 5 hd [] (hres 0x17)
  | e :: rest => ({ s with evDone := SMap.set s.evDone [] t rest } : State).hookDone t 4 5 hd [] e.word

theorem exec_evtPoll (s : State) (t : Nat) (f : HFmt) :
    exec (.evtPoll t f) s = .next (s.hookIssue t f { hook := 4, func := 5, useHa := false } fun s => s.pollBody t f.hd) := rfl

/-- Settles O30: the checks of R40 pass one after the other, and the other two operations act on the lists they name. -/
theorem hookEvents : Obligations.HookEvents := by
  intro s t f ho hb hm h
  have hh := (hookArrived_hd h).1
  have h2 := (hookArrived_hd h).2
  have hv := State.hval_hookReady ho h.1.1.2.1 h.1.2.1
  have hn : ∀ r ∈ [f.ha.toNat], r < 16 := fun r hr => two_lt_sixteen f.ha f.ha r (List.mem_cons_of_mem _ hr)
  intro p d n o
  have hdm := State.hookReady_doms s t
  have hrg := State.hookReady_regs s t
  have hnw := State.hookReady_now s t
  have est := State.est_congr hdm hrg hnw
  refine ⟨fun hk hpol hstep hdir h78 h112 h90 hen hl hep hep0 hst h0 hahead _ hfar hroom => ?_, fun hk => ?_, ?_, fun ha => ⟨fun hq => ?_, fun e rest hq => ?_⟩⟩
  · have e := State.schedule_wake (s := s.hookReady t) hk hpol hstep hdir h78 h112 h90 ((State.rb_congr hrg _ _ _ _ _).trans hen)
      ((State.rb_congr hrg _ _ _ _ _).trans hl) (by rw [State.dom_congr hdm, hep]) hep0 (by rw [State.dom_congr hdm, hst]) (by rwa [est]) (by rwa [est])
      (by rwa [State.hookReady_evs])
    rw [State.hookReady_evs, State.hookReady_now] at e
    exact opChanges_hook4 ho h (exec_evtSched s t f) rfl ⟨rfl, rfl, rfl, rfl⟩ ⟨.inl rfl, .inr hb, .inr hm⟩ hn hh h2 (by rw [hv, e]; rfl)
  · exact (opChanges_hook4 (m := s) ho h (exec_evtSched s t f) rfl ⟨rfl, rfl, rfl, rfl⟩ ⟨.inl rfl, .inr hb, .inr hm⟩ hn hh h2
      (by rw [hv, State.schedule_reserved hk]; rfl)).becomes
  · have e := State.cancels_congr hdm hrg hnw (State.hookReady_md s t)
    have hv' : cancelVal (s.evs.filter fun e => s.cancels t (bits d 0 16) e).length = hres (if (s.evs.filter fun e => s.cancels t (bits d 0 16) e) = [] then 0x17
        else 0x07 + min (s.evs.filter fun e => s.cancels t (bits d 0 16) e).length 255 * 256) := by
      simp only [cancelVal, List.length_eq_zero_iff]
    rw [← hv']
    exact opChanges_hook4 (m := { s with evs := s.evs.filter fun e => !s.cancels t (bits d 0 16) e }) ho h (exec_evtCancel s t f) rfl ⟨rfl, rfl, rfl, rfl⟩
      ⟨.inl rfl, .inr hb, .inr hm⟩ hn hh h2 (by simp only [hv, e, State.hookReady_evs]; rfl)
  · exact (opChanges_hook4 (m := s) ho h (exec_evtPoll s t f) rfl ⟨rfl, rfl, rfl, rfl⟩ ⟨.inr ha, .inr hb, .inr hm⟩ (by simp) hh rfl
      (by rw [State.pollBody, State.hookReady_evDone, hq]; rfl)).becomes
  · exact opChanges_hook4 ho h (exec_evtPoll s t f) rfl ⟨rfl, rfl, rfl, rfl⟩ ⟨.inr ha, .inr hb, .inr hm⟩ (by simp) hh rfl
      (by rw [State.pollBody, State.hookReady_evDone, hq]; rfl)

end Sys2Proof.Machine
end

section
/-! PROOFS. Events that fire: the order in which they do, the edge of a pin and the item of a WAKE (R41, R42, R45, R185, R270). -/

namespace Sys2Proof.Machine

/-- An event that another of its panel comes before is not the next to fire (R45). -/
theorem State.firesNext_false {s : State} {i j : Nat} {e x : Ev} (hx : s.evs[j]? = some x) (hj : j ≠ i) (hw : x.wheel = e.wheel) (hd : s.due x = true)
    (h : s.dueTick x < s.dueTick e ∨ (s.dueTick x = s.dueTick e ∧ j < i)) : s.firesNext i e = false := by
  rw [State.firesNext, ← Bool.not_eq_true, List.all_eq_true]
  intro all
  have hm : (x, j) ∈ s.evs.zipIdx := List.mk_mem_zipIdx_iff_getElem?.2 hx
  have later := all (x, j) hm
  simp only [hj, hw, hd, ne_eq, not_true, decide_false, Bool.not_true, Bool.or_false, Bool.false_or, Bool.or_eq_true, Bool.and_eq_true, decide_eq_true_eq] at later
  omega

theorem execEventFire_fires {s : State} {i : Nat} {e : Ev} (h : s.evs[i]? = some e) (hd : s.due e = true) (hn : s.firesNext i e = true) :
    exec (.eventFire i) s = .next (s.fireNow e) := by
  show execEventFire i s = _
  simp only [execEventFire, h, hd, hn, Bool.and_self, if_true]

theorem execEventFire_waits {s : State} {i : Nat} {e : Ev} (h : s.evs[i]? = some e) (hn : s.firesNext i e = false) :
    exec (.eventFire i) s = .next s := by
  show execEventFire i s = _
  simp only [execEventFire, h, hn, Bool.and_false, Bool.false_eq_true, if_false]

theorem State.due_of {s : State} {e : Ev} (hf : e.fired = none) (hh : e.held = false) (hu : s.up e.wheel = true)
    (hp : policyAct e.policy (s.dom e.copy e.domain).state = .armed) (hc : s.crossed e = true) : s.due e = true := by
  simp only [State.due, hf, hh, hu, hp, hc, Option.isNone_none, Bool.not_false, decide_true, Bool.and_self]

/-- A WAKE whose list can take its item joins it (R104, R185). -/
theorem State.offerWake_taken {s t : State} {e : Ev} (hr : s.listReach e.wheel (e.operand % 1024) = true) (hl : s.listEn (e.operand % 1024) = true)
    (ha : s.appendItem (s.wakeItem (e.operand % 1024) e.tag) = some t) : s.offerWake e = (t, false) := by
  simp only [State.offerWake, hr, hl, ha, Bool.not_true, Bool.or_self, Bool.false_eq_true, if_false]

/-- The list and the item of a WAKE are as they were once the event has left the wheel. -/
theorem State.offerWake_setEv {s t : State} {e : Ev} (hr : s.listReach e.wheel (e.operand % 1024) = true) (hl : s.listEn (e.operand % 1024) = true)
    (ha : ({ s with evs := replaceEv s.evs e none } : State).appendItem (s.wakeItem (e.operand % 1024) e.tag) = some t) :
    (s.setEv e none).offerWake e = (t, false) :=
  State.offerWake_taken ((State.reach_congr (u := s.setEv e none) (s := s) rfl _ _).trans hr)
    ((State.rb_congr (u := s.setEv e none) (s := s) rfl _ _ _ _ _).trans hl) ha

theorem State.fireNow_wake {s t : State} {e : Ev} (hk : e.kind = .wake) (h : (s.setEv e none).offerWake e = (t, false)) : s.fireNow e = t := by
  simp only [State.fireNow, State.fire, hk, h, Bool.false_eq_true, if_false]

theorem execWakeRetry_taken {s t : State} {i : Nat} {e : Ev} (hi : s.evs[i]? = some e) (hf : e.fired ≠ none) (hu : s.up e.wheel = true)
    (h : (s.setEv e none).offerWake e = (t, false)) : exec (.wakeRetry i) s = .next t := by
  have hf' : e.fired.isNone = false := Option.isNone_eq_false_iff.2 (Option.isSome_iff_ne_none.2 hf)
  show execWakeRetry i s = _
  simp only [execWakeRetry, hi, hf', hu, h, Bool.not_true, Bool.or_self, Bool.false_eq_true, if_false]

/-- No edge of the pin that is due at an earlier instant waits for its placement (R270). -/
theorem State.placeBefore_none {s : State} {pin at_ : Nat} (h : ∀ x ∈ s.evs, x.kind = .pinEdge → x.operand % 256 = pin → s.due x = true → x.placed = false → at_ ≤ s.dueAt x / 375) :
    s.placeBefore pin at_ = s := by
  have none_before : (s.evs.filter fun x => x.onPin pin && s.due x && !x.placed && decide (s.dueAt x / 375 < at_)) = [] := by
    rw [List.filter_eq_nil_iff]
    intro x hx hb
    simp only [Ev.onPin, Bool.and_eq_true, decide_eq_true_eq, Bool.not_eq_true'] at hb
    obtain ⟨⟨⟨⟨hk, hp⟩, hd⟩, hpl⟩, hlt⟩ := hb
    exact absurd (h x hx hk hp hd hpl) (Nat.not_le.2 hlt)
  simp only [State.placeBefore, none_before]
  rfl

/-- The level that ACTION gives an OUTPUT pin that stands at `out` (R270). -/
def edgeLevel (a out : Nat) : Nat := if a = 0 then 0 else if a = 1 then 1 else if a = 2 then (if out = 1 then 0 else 1) else 2

theorem State.placeEdge_output {s : State} {pin : Nat} (h : s.pinMode pin = 2) {a : Nat} (ha : a < 4) (dom copy target : Nat) :
    s.placeEdge pin a dom copy target = s.drive pin (edgeLevel a (s.pin pin).out) := by
  have ne : ¬ s.pinMode pin = 3 := by omega
  simp only [State.placeEdge, ne, if_false, edgeLevel]
  interval_cases a
  · rfl
  · rfl
  · by_cases ho : (s.pin pin).out = 1 <;> simp [ho, b2n]
  · rfl

/-- A pin reads as last driven, and every other as before. -/
theorem State.pin_drive (s : State) (n lvl q : Nat) (h : SMap.sorted s.tio.pins = true) :
    (s.drive n lvl).pin q = if n = q then { s.pin n with out := lvl } else s.pin q :=
  SMap.get_set s.tio.pins {} n q _ h

/-- A completion joins its strand's queue where there is room (R185). -/
theorem State.complete_room {s : State} {e : Ev} (h : (SMap.get s.evDone [] e.strand).length < 16) (status late : Nat) :
    s.complete e status late = { s with evDone := SMap.set s.evDone [] e.strand (SMap.get s.evDone [] e.strand ++ [{ status := status, domain := e.domain, kind := e.kind.code, tag := e.tag, pos := s.est e.copy e.domain, epoch := (s.dom e.copy e.domain).epoch, late := late }]) } :=
  if_pos h

/-- The completion of an event that fires now (R185). -/
def State.firedDone (s : State) (e : Ev) : EvDone :=
  { status := if (s.dom e.copy e.domain).state = .locked then 0 else 2, domain := e.domain, kind := e.kind.code, tag := e.tag, pos := s.est e.copy e.domain, epoch := (s.dom e.copy e.domain).epoch, late := 0 }

/-- An event of an OUTPUT pin off the wheel, its edge placed. -/
def State.edgeFired (s : State) (e : Ev) : State :=
  (s.setEv e none).drive (e.operand % 256) (edgeLevel (bits e.operand 8 2) (s.pin (e.operand % 256)).out)

/-- An edge that fires on an OUTPUT pin, no earlier one being due, and the completion that follows it. -/
theorem State.fireNow_pin {s : State} {e : Ev} (hk : e.kind = .pinEdge) (hp : e.placed = false) (hm : s.pinMode (e.operand % 256) = 2)
    (hq : (SMap.get s.evDone [] e.strand).length < 16) (hb : s.placeBefore (e.operand % 256) (s.dueAt e / 375) = s) :
    s.fireNow e = { s.edgeFired e with evDone := SMap.set s.evDone [] e.strand (SMap.get s.evDone [] e.strand ++ [s.firedDone e]) } := by
  have hst : ¬ (if (s.dom e.copy e.domain).state = .locked then 0 else 2) = 1 := by split <;> decide
  have ha : bits e.operand 8 2 < 4 := Nat.mod_lt _ (by decide)
  have edge := State.placeEdge_output (s := s.setEv e none) (pin := e.operand % 256) hm ha e.domain e.copy e.target
  have done := State.complete_room (s := s.edgeFired e) hq (if (s.dom e.copy e.domain).state = .locked then 0 else 2) 0
  rw [State.est_congr (u := s.edgeFired e) (s := s) rfl rfl rfl, State.dom_congr (u := s.edgeFired e) (s := s) rfl] at done
  simp only [State.fireNow, State.fire, hk, hp, hst, hb, edge, decide_false, Bool.false_or, Bool.false_eq_true, if_false]
  exact done

/-- Settles O37: by the order of the events found due, then by the kind of the one that fires. -/
theorem eventsFire : Obligations.EventsFire := by
  intro s i e hi hu
  refine ⟨fun st hf hh hst hp hc => ?_, fun t hf hr hl ha => execWakeRetry_taken hi hf hu (State.offerWake_setEv hr hl ha)⟩
  subst hst
  have hd := State.due_of hf hh hu hp hc
  refine ⟨fun ⟨j, x, hx, hj, hw, hdx, hlt⟩ => execEventFire_waits hi (State.firesNext_false hx hj hw hdx hlt), fun hn =>
    ⟨fun pin hpin hk hpl hm hsp hsd room hb => ?_, fun t hk hr hl ha => ?_⟩⟩
  · subst hpin
    have fired := State.fireNow_pin hk hpl hm room (State.placeBefore_none hb)
    refine ⟨_, (execEventFire_fires hi hd hn).trans (congrArg _ fired), rfl, ?_, fun q ne => ?_, ?_⟩
    · exact congrArg Pin.out ((State.pin_drive (s.setEv e none) _ _ _ hsp).trans (if_pos rfl))
    · exact (State.pin_drive (s.setEv e none) _ _ _ hsp).trans (if_neg (Ne.symm ne))
    · refine (SMap.get_set s.evDone [] _ _ _ hsd).trans ?_
      rw [if_pos rfl, State.firedDone, hk, EvKind.code]
  · exact (execEventFire_fires hi hd hn).trans (congrArg _ (State.fireNow_wake hk (State.offerWake_setEv hr hl ha)))

end Sys2Proof.Machine
end

section
/-! PROOFS. What events that fire, records and completions leave alone: the copies of the position domains, the time and the
registers of the domain block (R45, R387). -/

namespace Sys2Proof.Machine

theorem SMap.find_put_ne {β : Type} (m : SMap β) {k j : Nat} (v : β) (h : j ≠ k) : SMap.find (SMap.put m k v) j = SMap.find m j := by
  induction m with
  | nil => simp [SMap.put, SMap.find, Ne.symm h]
  | cons e m ih =>
    obtain ⟨a, w⟩ := e
    simp only [SMap.put]
    split
    · simp [SMap.find, Ne.symm h]
    · split
      · rename_i ha
        subst ha
        simp [SMap.find, Ne.symm h]
      · simp only [SMap.find, ih]

theorem SMap.find_del_ne {β : Type} (m : SMap β) {k j : Nat} (h : j ≠ k) : SMap.find (SMap.del m k) j = SMap.find m j := by
  induction m with
  | nil => rfl
  | cons e m ih =>
    obtain ⟨a, w⟩ := e
    simp only [SMap.del]
    split
    · rename_i ha
      subst ha
      simp [SMap.find, Ne.symm h]
    · simp only [SMap.find, ih]

/-- A write of one key of a map, in whatever order, leaves every other alone. -/
theorem SMap.find_set_ne {β : Type} [DecidableEq β] (m : SMap β) (d : β) {k j : Nat} (v : β) (h : j ≠ k) :
    SMap.find (SMap.set m d k v) j = SMap.find m j := by
  unfold SMap.set
  split
  · exact SMap.find_del_ne m h
  · exact SMap.find_put_ne m v h

/-- An address of the domain block (R403). -/
def InDom (a : Nat) : Prop := 0x00850000 ≤ a ∧ a < 0x00851000

/-- The domains' copies, the time and the registers of the domain block are as they were. -/
structure DomKept (s u : State) : Prop where
  doms : u.doms = s.doms
  now : u.now = s.now
  regs : ∀ a, InDom a → SMap.find u.regs a = SMap.find s.regs a

theorem DomKept.refl (s : State) : DomKept s s := ⟨rfl, rfl, fun _ _ => rfl⟩

theorem DomKept.trans {s u v : State} (a : DomKept s u) (b : DomKept u v) : DomKept s v :=
  ⟨b.doms.trans a.doms, b.now.trans a.now, fun x hx => (b.regs x hx).trans (a.regs x hx)⟩

theorem DomKept.foldl {α : Type} {f : State → α → State} (h : ∀ s x, DomKept s (f s x)) (l : List α) (s : State) : DomKept s (l.foldl f s) := by
  induction l generalizing s with
  | nil => exact DomKept.refl s
  | cons x l ih => exact (h s x).trans (ih (f s x))

theorem DomKept.ite {s u v : State} {c : Prop} [Decidable c] (a : DomKept s u) (b : DomKept s v) : DomKept s (if c then u else v) := by
  split
  · exact a
  · exact b

/-- An update of other parts of the state. -/
theorem domKept_of_eq {s u : State} (hd : u.doms = s.doms) (hn : u.now = s.now) (hr : u.regs = s.regs) : DomKept s u :=
  ⟨hd, hn, fun _ _ => by rw [hr]⟩

/-- The block itself sets a register of another block. -/
theorem domKept_setRd (s : State) (d : RegDesc) (p i j : Nat) (v : Word) (h : ¬ InDom (d.addr p i j)) : DomKept s (s.setRd d p i j v) :=
  ⟨rfl, rfl, fun _ ha => SMap.find_set_ne _ _ _ fun e => h (e ▸ ha)⟩

theorem domKept_countP (s : State) (p n : Nat) : DomKept s (s.countP p n) := domKept_of_eq rfl rfl rfl
theorem domKept_count (s : State) (set inst n : Nat) : DomKept s (s.count set inst n) := domKept_of_eq rfl rfl rfl
theorem domKept_setEv (s : State) (e : Ev) (r : Option Ev) : DomKept s (s.setEv e r) := domKept_of_eq rfl rfl rfl

theorem PinsOnly.domKept {s u : State} (h : PinsOnly s u) : DomKept s u := by
  rw [h]
  exact domKept_of_eq rfl rfl rfl

theorem HostOnly.domKept {s u : State} (h : HostOnly s u) : DomKept s u := by
  rw [h]
  exact domKept_of_eq rfl rfl rfl

theorem domKept_complete (s : State) (e : Ev) (status late : Nat) : DomKept s (s.complete e status late) := (pinsOnly_complete s e status late).domKept

theorem domKept_devSet (s : State) (req a : Nat) (v : Byte) : DomKept s (s.devSet req a v) := by
  unfold State.devSet
  dsimp only
  split
  · split <;> exact domKept_of_eq rfl rfl rfl
  · exact domKept_of_eq rfl rfl rfl

theorem domKept_devWrite (s : State) (req a : Nat) (bs : List Byte) : DomKept s (s.devWrite req a bs) := by
  induction bs generalizing s a with
  | nil => exact DomKept.refl s
  | cons b bs ih => exact (domKept_devSet s req a b).trans (ih _ _)

theorem domKept_askDram (s : State) (req port a n : Nat) (write : Bool) : DomKept s (s.askDram req port a n write) := domKept_of_eq rfl rfl rfl

theorem domKept_spillTo {s u : State} {l : Nat} {w : WorkItem} (h : s.spillTo l w = some u) : DomKept s u := by
  obtain ⟨i, -, rfl⟩ := Option.map_eq_some_iff.1 h
  dsimp only
  refine DomKept.trans (DomKept.trans ?_ (domKept_devWrite _ _ _ _)) (domKept_askDram _ _ _ _ _ _)
  exact domKept_of_eq rfl rfl rfl

theorem domKept_storeItem {s u : State} {l : Nat} {w : WorkItem} (h : s.storeItem l w = some u) : DomKept s u := by
  unfold State.storeItem at h
  dsimp only at h
  split at h
  · exact domKept_spillTo h
  · split at h
    · cases h
      exact domKept_of_eq rfl rfl rfl
    · split at h
      · exact domKept_spillTo h
      · cases h

theorem domKept_setHoldQ (s : State) (p : Nat) (x : List WorkItem) : DomKept s (s.setHoldQ p x) := by
  unfold State.setHoldQ
  split <;> exact domKept_of_eq rfl rfl rfl

/-- A list that takes an item (R104). -/
theorem domKept_appendItem {s u : State} {w : WorkItem} (h : s.appendItem w = some u) : DomKept s u := by
  have hold {o : Option State} (ho : o = if (s.holdQ (listPanel w.list)).length < 256 then some (s.setHoldQ (listPanel w.list) (s.holdQ (listPanel w.list) ++ [w])) else none)
      (hu : o = some u) : DomKept s u := by
    rw [ho] at hu
    split at hu <;> cases hu
    exact domKept_setHoldQ _ _ _
  unfold State.appendItem at h
  dsimp only at h
  split at h
  · exact hold rfl h
  · split at h
    · rename_i v hv
      cases h
      exact domKept_storeItem hv
    · exact hold rfl h

theorem domKept_offerWake (s : State) (e : Ev) : DomKept s (s.offerWake e).1 := by
  unfold State.offerWake
  dsimp only
  split
  · exact domKept_countP _ _ _
  · split
    · rename_i u hu
      exact domKept_appendItem hu
    · exact DomKept.refl s

theorem domKept_setTioStore (s : State) (p : Nat) (x : List CapRec) : DomKept s (s.setTioStore p x) := by
  unfold State.setTioStore
  split <;> exact domKept_of_eq rfl rfl rfl

theorem domKept_capture (s : State) (p st kind level src data : Nat) (stamp : HWord) : DomKept s (s.capture p st kind level src data stamp) := by
  unfold State.capture
  extract_lets key q next tio s1 a bs en s2 l
  have h2 : DomKept s s2 := (domKept_of_eq rfl rfl rfl : DomKept s s1).trans (by
    show DomKept s1 (if _ then _ else _)
    split
    · exact domKept_setTioStore _ _ _
    · exact domKept_count _ _ _ _)
  split
  · split
    · rename_i u hu
      split at hu
      · exact h2.trans (domKept_appendItem hu)
      · cases hu
    · exact h2.trans (domKept_count _ _ _ _)
  · exact h2

theorem domKept_trigger (s : State) (p dom op tag : Nat) : DomKept s (s.trigger p dom op tag) := by
  unfold State.trigger
  dsimp only
  split
  · split
    · exact domKept_of_eq rfl rfl rfl
    · exact domKept_count _ _ _ _
  · exact domKept_capture _ _ _ _ _ _ _ _

theorem domKept_startCbs (s : State) (p port tc start stop : Nat) : DomKept s (s.startCbs p port tc start stop) := by
  unfold State.startCbs
  split
  · exact domKept_of_eq rfl rfl rfl
  · exact DomKept.refl s

theorem domKept_gateTx (s : State) (port mask : Nat) : DomKept s (s.gateTx port mask) := by
  unfold State.gateTx
  split
  · exact DomKept.refl s
  · dsimp only
    refine DomKept.trans ?_ (DomKept.foldl (fun _ _ => domKept_startCbs _ _ _ _ _ _) _ _)
    exact domKept_of_eq rfl rfl rfl

theorem not_inDom_egrSgate (p i : Nat) : ¬ InDom (R.egrSgate.addr p i) := by
  simp only [InDom, RegDesc.addr, Blk.addr, R.egrSgate, Blk.base, Blk.space]
  omega

theorem domKept_setGate (s : State) (p op : Nat) : DomKept s (s.setGate p op) := by
  unfold State.setGate
  split
  · exact domKept_setRd _ _ _ _ _ _ (not_inDom_egrSgate _ _)
  · dsimp only
    refine DomKept.trans ?_ (domKept_gateTx _ _ _)
    exact domKept_of_eq rfl rfl rfl

theorem domKept_setDead (s : State) (hi pin dom copy target : Nat) : DomKept s (s.setDead hi pin dom copy target) := domKept_of_eq rfl rfl rfl

theorem domKept_drive (s : State) (n lvl : Nat) : DomKept s (s.drive n lvl) := domKept_of_eq rfl rfl rfl
theorem domKept_noDead (s : State) (n : Nat) : DomKept s (s.noDead n) := domKept_of_eq rfl rfl rfl

theorem domKept_placeEdge (s : State) (pin a dom copy target : Nat) : DomKept s (s.placeEdge pin a dom copy target) := by
  have pwm (n lvl m k : Nat) : DomKept s (((s.noDead pin).drive n lvl).setDead m k dom copy target) :=
    ((domKept_noDead s pin).trans (domKept_drive _ _ _)).trans (domKept_setDead _ _ _ _ _ _)
  exact DomKept.ite (DomKept.ite (pwm _ _ _ _) (pwm _ _ _ _)) (DomKept.ite (domKept_drive _ _ _) (domKept_drive _ _ _))

theorem domKept_placeBefore (s : State) (pin at_ : Nat) : DomKept s (s.placeBefore pin at_) :=
  DomKept.foldl (fun s x => (domKept_setEv s x _).trans (domKept_placeEdge _ _ _ _ _ _)) _ _

/-- A completion where the event is not quiet. -/
theorem domKept_unless (s : State) (e : Ev) (status late : Nat) (quiet : Bool) : DomKept s (if quiet then s else s.complete e status late) := by
  split
  · exact DomKept.refl s
  · exact domKept_complete _ _ _ _

/-- An event that fires. -/
theorem domKept_fire (s : State) (e : Ev) (status late : Nat) (quiet : Bool) : DomKept s (s.fire e status late quiet) := by
  cases hk : e.kind with
  | wake =>
    have h := (domKept_setEv s e none).trans (domKept_offerWake (s.setEv e none) e)
    simp only [State.fire, hk]
    split
    · split
      · exact domKept_of_eq rfl rfl rfl
      · exact domKept_setEv _ _ _
    · exact h
  | pinEdge =>
    simp only [State.fire, hk]
    refine DomKept.trans ?_ (domKept_unless _ _ _ _ _)
    have off (at_ : Nat) : DomKept s ((s.placeBefore (e.operand % 256) at_).setEv e none) := (domKept_placeBefore s _ _).trans (domKept_setEv _ e none)
    exact DomKept.ite (off _) ((off _).trans (domKept_placeEdge _ _ _ _ _ _))
  | trigger =>
    simp only [State.fire, hk]
    exact ((domKept_setEv s e none).trans (domKept_trigger _ _ _ _ _)).trans (domKept_unless _ _ _ _ _)
  | gate =>
    simp only [State.fire, hk]
    exact ((domKept_setEv s e none).trans (domKept_setGate _ _ _)).trans (domKept_unless _ _ _ _ _)

theorem domKept_endEv (s : State) (e : Ev) (status : Nat) : DomKept s (s.endEv e status) :=
  (domKept_setEv s e none).trans (domKept_complete _ _ _ _)

theorem domKept_judge (s : State) (e : Ev) (fresh : Bool) : DomKept s (s.judge e fresh) := by
  unfold State.judge
  split
  · exact DomKept.refl s
  · split
    · exact domKept_endEv _ _ _
    · exact domKept_setEv _ _ _
    · split
      · split
        · exact domKept_endEv _ _ _
        · exact domKept_fire _ _ _ _ _
      · exact domKept_setEv _ _ _

theorem domKept_judgeAll (s : State) (p n : Nat) : DomKept s (s.judgeAll p n) := DomKept.foldl (fun s e => domKept_judge s e false) _ _

/-- An event under its step rule (R43). -/
theorem domKept_stepEvents (s : State) (p n : Nat) (step : Int) : DomKept s (s.stepEvents p n step) := by
  unfold State.stepEvents
  dsimp only
  refine (DomKept.foldl (fun s e => ?_) _ s).trans (DomKept.foldl (fun s e => domKept_judge s e _) _ _)
  split
  · exact DomKept.refl s
  · split
    · exact domKept_setEv _ _ _
    · exact domKept_setEv _ _ _
    · exact domKept_endEv _ _ _

theorem domKept_fireNow (s : State) (e : Ev) : DomKept s (s.fireNow e) := domKept_fire _ _ _ _ _

theorem domKept_fireDue (s : State) (p : Nat) : DomKept s (s.fireDue p) := DomKept.foldl (fun s _ => domKept_fireNow s _) _ _

-- ------------------------------------------------------------------------------------------------------------ records

theorem domKept_produce (s : State) (r : Nat) (entry : List Byte) (j : Option Nat) : DomKept s (s.produce r entry j) := (hostOnly_produce s r entry j).domKept

theorem domKept_postEvent (s : State) (kind count panel : Nat) (body : List Byte) : DomKept s (s.postEvent kind count panel body) := by
  unfold State.postEvent
  split
  · exact domKept_count _ _ _ _
  · dsimp only
    split
    · split <;> exact domKept_of_eq rfl rfl rfl
    · exact (hostOnly_setRing _ _ _).domKept.trans (domKept_produce _ _ _ _)

theorem not_inDom_svAttn : ¬ InDom (R.svAttn.addr 0 0) := by
  simp [InDom, RegDesc.addr, Blk.addr, R.svAttn, Blk.base, Blk.space]

theorem domKept_recAlert (s : State) (cause seq : Nat) : DomKept s (s.recAlert cause seq) :=
  (domKept_setRd _ _ _ _ _ _ not_inDom_svAttn).trans (domKept_postEvent _ _ _ _ _)

theorem domKept_place (s : State) (r : RecSlot) : DomKept s (s.place r) := by
  unfold State.place
  dsimp only
  split
  · split <;> exact domKept_of_eq rfl rfl rfl
  · split
    · exact domKept_of_eq rfl rfl rfl
    · split <;> exact domKept_of_eq rfl rfl rfl

/-- A record of the Row Counter (R387). -/
theorem domKept_record (s : State) (kind sev part origin src : Nat) (body : List Byte) : DomKept s (s.record kind sev part origin src body) := by
  unfold State.record
  extract_lets c bs s1 f u s2 s3
  have h1 : DomKept s s1 := domKept_of_eq rfl rfl rfl
  have h2 : DomKept s s2 := h1.trans (domKept_place s1 _)
  have h3 : DomKept s s3 := DomKept.ite (h2.trans (domKept_recAlert _ _ _)) (DomKept.ite (h2.trans (domKept_recAlert _ _ _)) h2)
  exact DomKept.ite (DomKept.refl s) (DomKept.ite (h3.trans (domKept_recAlert _ _ _)) h3)

theorem domKept_histAdd (s : State) (p kind src bin k : Nat) : DomKept s (s.histAdd p kind src bin k) := domKept_of_eq rfl rfl rfl

theorem domKept_extreme (s : State) (p qty inst : Nat) (isMax : Bool) (v : Int) (stamp : HWord) : DomKept s (s.extreme p qty inst isMax v stamp) :=
  DomKept.ite (domKept_of_eq rfl rfl rfl) (DomKept.refl s)

theorem domKept_noteCorrection (s : State) (p n : Nat) (c : Int) : DomKept s (s.noteCorrection p n c) :=
  (domKept_histAdd s _ _ _ _ _).trans (domKept_extreme _ _ _ _ _ _ _)

end Sys2Proof.Machine
end

section
/-! PROOFS. The copies of a position domain: what one of them takes in a move, and that the others keep what they have (R24, R31, R32). -/

namespace Sys2Proof.Machine

/-- The keys of two domains' copies differ. -/
theorem domKey_inj {p n q k : Nat} (hn : n < 16) (hk : k < 16) : domKey p n = domKey q k ↔ p = q ∧ n = k := by
  unfold domKey
  constructor
  · intro h
    constructor <;> omega
  · rintro ⟨rfl, rfl⟩
    rfl

/-- A copy reads as last replaced, with the estimate it had noted, and every other as before. -/
theorem State.dom_setDom {s : State} (h : SMap.sorted s.doms = true) {n k : Nat} (hn : n < 16) (hk : k < 16) (p q : Nat) (c : DomCopy) :
    (s.setDom p n c).dom q k = if p = q ∧ n = k then c.noting (s.dom p n) s.now else s.dom q k := by
  have e := SMap.get_set s.doms {} (domKey p n) (domKey q k) (c.noting (s.dom p n) s.now) h
  simp only [domKey_inj hn hk] at e
  exact e

theorem State.dom_setDom_self {s : State} (h : SMap.sorted s.doms = true) {n : Nat} (hn : n < 16) (p : Nat) (c : DomCopy) :
    (s.setDom p n c).dom p n = c.noting (s.dom p n) s.now := by
  rw [State.dom_setDom h hn hn, if_pos ⟨rfl, rfl⟩]

theorem State.sorted_setDom {s : State} (h : SMap.sorted s.doms = true) (p n : Nat) (c : DomCopy) : SMap.sorted (s.setDom p n c).doms = true :=
  SMap.sorted_set _ _ _ h

-- A copy that notes its earlier estimate is otherwise as it is.
@[simp] theorem DomCopy.noting_toDomEst (c o : DomCopy) (t : Nat) : (c.noting o t).toDomEst = c.toDomEst := rfl
@[simp] theorem DomCopy.noting_cause (c o : DomCopy) (t : Nat) : (c.noting o t).cause = c.cause := rfl
@[simp] theorem DomCopy.noting_secondary (c o : DomCopy) (t : Nat) : (c.noting o t).secondary = c.secondary := rfl
@[simp] theorem DomCopy.noting_auto (c o : DomCopy) (t : Nat) : (c.noting o t).auto = c.auto := rfl
@[simp] theorem DomCopy.noting_lost (c o : DomCopy) (t : Nat) : (c.noting o t).lost = c.lost := rfl
@[simp] theorem DomCopy.noting_prim (c o : DomCopy) (t : Nat) : (c.noting o t).prim = c.prim := rfl
@[simp] theorem DomCopy.noting_sec (c o : DomCopy) (t : Nat) : (c.noting o t).sec = c.sec := rfl
@[simp] theorem DomCopy.noting_coastAt (c o : DomCopy) (t : Nat) : (c.noting o t).coastAt = c.coastAt := rfl
@[simp] theorem DomCopy.noting_full (c o : DomCopy) (t : Nat) : (c.noting o t).full = c.full := rfl
@[simp] theorem DomCopy.noting_est (c o : DomCopy) (t ppm now : Nat) : (c.noting o t).est ppm now = c.est ppm now := rfl

/-- Registers of the domain block that hold a domain's configuration (R47). -/
def domCfgRegs : List RegDesc := [R.domCtl, R.domSrc, R.domInc, R.domSinc, R.domStepth, R.domMotion, R.domCoast, R.domLimit]

theorem inDom_domCfg {d : RegDesc} (h : d ∈ domCfgRegs) {n : Nat} (hn : n < 16) : InDom (d.addr 0 n) := by
  have e : (Space.device = Space.panel) = False := by simp
  simp only [domCfgRegs, List.mem_cons, List.not_mem_nil, or_false] at h
  rcases h with rfl | rfl | rfl | rfl | rfl | rfl | rfl | rfl <;>
    simp only [InDom, RegDesc.addr, Blk.addr, Blk.base, Blk.space, e, if_false, R.domCtl, R.domSrc, R.domInc, R.domSinc, R.domStepth, R.domMotion, R.domCoast, R.domLimit] <;> omega

/-- The copy of panel `p` of domain `n`, the time and the registers of the domain block are in `u` what they are in `s`. -/
structure SameCopy (p n : Nat) (s u : State) : Prop where
  sorted : SMap.sorted u.doms = true
  now : u.now = s.now
  regs : ∀ a, InDom a → SMap.find u.regs a = SMap.find s.regs a
  dom : u.dom p n = s.dom p n

theorem rd_domCfg {s u : State} (h : ∀ a, InDom a → SMap.find u.regs a = SMap.find s.regs a) {d : RegDesc} (hd : d ∈ domCfgRegs) {n : Nat} (hn : n < 16) :
    u.rd d 0 n = s.rd d 0 n := by
  rw [State.rd, h _ (inDom_domCfg hd hn), State.rd]

section
variable {p n : Nat} {s u : State} (hn : n < 16) (h : SameCopy p n s u)
include hn h

theorem SameCopy.rb {d : RegDesc} (hd : d ∈ domCfgRegs) (lo : Nat) : u.rb d 0 n lo = s.rb d 0 n lo := by
  rw [State.rb, rd_domCfg h.regs hd hn, State.rb]

theorem SameCopy.rf {d : RegDesc} (hd : d ∈ domCfgRegs) (lo w : Nat) : u.rf d 0 n lo w = s.rf d 0 n lo w := by
  rw [State.rf, rd_domCfg h.regs hd hn, State.rf]

theorem SameCopy.slewPpm : u.slewPpm n = s.slewPpm n := h.rf hn (by simp [domCfgRegs]) 16 8

theorem SameCopy.est : u.est p n = s.est p n := by
  rw [State.est, h.dom, h.rf hn (by simp [domCfgRegs]), h.now, State.est]

theorem SameCopy.srcKind (sec : Bool) : u.srcKind n sec = s.srcKind n sec := h.rf hn (by simp [domCfgRegs]) _ _

end

/-- The position of a source depends on its record, its kind, the time and the estimate. -/
theorem State.srcNow_congr {s u : State} {p n : Nat} {sec : Bool} (hr : (u.dom p n).src sec = (s.dom p n).src sec) (hk : u.srcKind n sec = s.srcKind n sec)
    (hnow : u.now = s.now) (he : u.est p n = s.est p n) : u.srcNow p n sec = s.srcNow p n sec := by
  unfold State.srcNow
  rw [hr, hk, hnow, he]

/-- Of the domains, only the copy of panel `p` of domain `n` has changed; the time and the registers of the domain block have not. -/
def CopyOnly (p n : Nat) (s u : State) : Prop :=
  SMap.sorted s.doms = true → SMap.sorted u.doms = true ∧ u.now = s.now ∧ (∀ a, InDom a → SMap.find u.regs a = SMap.find s.regs a) ∧
    ∀ q k, k < 16 → q ≠ p ∨ k ≠ n → u.dom q k = s.dom q k

theorem CopyOnly.refl (p n : Nat) (s : State) : CopyOnly p n s s := fun h => ⟨h, rfl, fun _ _ => rfl, fun _ _ _ _ => rfl⟩

theorem CopyOnly.trans {p n : Nat} {s u v : State} (a : CopyOnly p n s u) (b : CopyOnly p n u v) : CopyOnly p n s v := by
  intro h
  obtain ⟨hu, an, ar, ao⟩ := a h
  obtain ⟨hv, bn, br, bo⟩ := b hu
  exact ⟨hv, bn.trans an, fun x hx => (br x hx).trans (ar x hx), fun q k hk hq => (bo q k hk hq).trans (ao q k hk hq)⟩

theorem CopyOnly.ite {p n : Nat} {s u v : State} {c : Prop} [Decidable c] (a : CopyOnly p n s u) (b : CopyOnly p n s v) : CopyOnly p n s (if c then u else v) := by
  split
  · exact a
  · exact b

theorem DomKept.copyOnly {s u : State} (h : DomKept s u) (p n : Nat) : CopyOnly p n s u :=
  fun hs => ⟨by rw [h.doms]; exact hs, h.now, h.regs, fun _ _ _ _ => State.dom_congr h.doms _ _⟩

theorem DomKept.dom_eq {s u : State} (h : DomKept s u) (p n : Nat) : u.dom p n = s.dom p n := State.dom_congr h.doms p n

/-- The replacement of a copy after what leaves the domains alone. -/
theorem DomKept.setDom {s u : State} (h : DomKept s u) (p n : Nat) (c : DomCopy) : DomKept (s.setDom p n c) (u.setDom p n c) := by
  refine ⟨?_, h.now, h.regs⟩
  show SMap.set u.doms {} (domKey p n) (c.noting (u.dom p n) u.now) = SMap.set s.doms {} (domKey p n) (c.noting (s.dom p n) s.now)
  rw [h.doms, h.dom_eq, h.now]

/-- A copy replaced as it moves from state to state (R32). -/
theorem domKept_moveCopy (s : State) (p n : Nat) (c : DomCopy) : DomKept (s.setDom p n c) (s.moveCopy p n c) :=
  ((domKept_fireDue s p).setDom p n c).trans (domKept_judgeAll _ p n)

/-- The copy that an epoch increment leaves (R36). -/
def DomCopy.steppedTo (c : DomCopy) (pos t : Nat) (step : Int) : DomCopy :=
  { c with epoch := nextEpoch c.epoch, pos := pos, at_ := t, slew := 0, step := pos48 step, stepEpoch := nextEpoch c.epoch, stepped := true }

theorem domKept_stepCopy (s : State) (p n : Nat) (c : DomCopy) (pos t : Nat) (step : Int) (cause : Nat) :
    DomKept (s.setDom p n (c.steppedTo pos t step)) (s.stepCopy p n c pos t step cause) := by
  have moved := (domKept_fireDue s p).setDom p n (c.steppedTo pos t step)
  have noted := DomKept.ite (c := (p = ((s.fireDue p).setDom p n (c.steppedTo pos t step)).domHome n || c.split) = true)
    (moved.trans (domKept_record _ 10 1 0 p (n + 16 * b2n c.origin) (leBytes 8 ((step % 18446744073709551616).toNat) ++ leBytes 2 (s.dom p n).epoch ++ leBytes 2 (nextEpoch c.epoch) ++ leBytes 1 cause))) moved
  exact noted.trans (domKept_stepEvents _ p n step)

section
variable {n : Nat} (hn : n < 16)
include hn

theorem copyOnly_setDom (s : State) (p : Nat) (c : DomCopy) : CopyOnly p n s (s.setDom p n c) := fun h =>
  ⟨State.sorted_setDom h p n c, rfl, fun _ _ => rfl, fun q k hk hq => by
    rw [State.dom_setDom h hn hk, if_neg]
    rintro ⟨rfl, rfl⟩
    exact hq.elim (· rfl) (· rfl)⟩

theorem copyOnly_moveCopy (s : State) (p : Nat) (c : DomCopy) : CopyOnly p n s (s.moveCopy p n c) :=
  (copyOnly_setDom hn s p c).trans ((domKept_moveCopy s p n c).copyOnly p n)

theorem dom_moveCopy {s : State} (h : SMap.sorted s.doms = true) (p : Nat) (c : DomCopy) : (s.moveCopy p n c).dom p n = c.noting (s.dom p n) s.now :=
  ((domKept_moveCopy s p n c).dom_eq p n).trans (State.dom_setDom_self h hn p c)

theorem copyOnly_stepCopy (s : State) (p : Nat) (c : DomCopy) (pos t : Nat) (step : Int) (cause : Nat) : CopyOnly p n s (s.stepCopy p n c pos t step cause) :=
  (copyOnly_setDom hn s p _).trans ((domKept_stepCopy s p n c pos t step cause).copyOnly p n)

theorem dom_stepCopy {s : State} (h : SMap.sorted s.doms = true) (p : Nat) (c : DomCopy) (pos t : Nat) (step : Int) (cause : Nat) :
    (s.stepCopy p n c pos t step cause).dom p n = (c.steppedTo pos t step).noting (s.dom p n) s.now :=
  ((domKept_stepCopy s p n c pos t step cause).dom_eq p n).trans (State.dom_setDom_self h hn p _)

end

end Sys2Proof.Machine
end

section
/-! PROOFS. The state machine of a position domain's copies (R23, R24, R31, R32, R33, R35). -/

namespace Sys2Proof.Machine

-- ---------------------------------------------------------------------------------------------- the estimate in COAST

/-- A correction that has been applied in full is part of the estimate (R29). -/
theorem DomCopy.moved_whole {c : DomCopy} {ppm dt : Nat} (h : slewed c.slew c.rate ppm dt = c.slew) :
    c.moved ppm dt = c.rate * Int.ofNat dt * 1000000 + c.slew * estScale := by
  have fits : c.slew.natAbs ≤ c.rate.natAbs * dt * ppm / (1000000 * 1200 * 4294967296) := by
    unfold slewed at h
    dsimp only at h
    generalize c.rate.natAbs * dt * ppm / (1000000 * 1200 * 4294967296) = lim at h
    split at h
    · assumption
    · split at h <;> simp only [Int.ofNat_eq_natCast] at h <;> omega
  have cleared := (Nat.le_div_iff_mul_le (by decide)).1 fits
  have le : (c.slew.natAbs : Int) * estScale ≤ Int.ofNat (c.rate.natAbs * dt * ppm) := by
    have e : estScale = ((1000000 * 1200 * 4294967296 : Nat) : Int) := rfl
    rw [e, ← Nat.cast_mul]
    exact Int.ofNat_le.2 cleared
  exact if_pos le

theorem DomCopy.moved_noSlew {c : DomCopy} (h : c.slew = 0) (ppm dt : Nat) : c.moved ppm dt = c.rate * Int.ofNat dt * 1000000 := by
  have le : (c.slew.natAbs : Int) * estScale ≤ Int.ofNat (c.rate.natAbs * dt * ppm) := by
    rw [h, Int.natAbs_zero, Nat.cast_zero, Int.zero_mul]
    exact Int.natCast_nonneg _
  refine (if_pos le).trans ?_
  rw [h, Int.zero_mul, Int.add_zero]

theorem estScale_ne_zero : estScale ≠ 0 := by decide

/-- The estimate of a copy that moves, in terms of what it has moved by. -/
theorem DomCopy.est_moving {c : DomCopy} (h : c.state = .locked ∨ c.state = .coast) (ppm t : Nat) :
    c.est ppm t = pos48 (Int.ofNat c.pos + c.moved ppm (t - c.at_) / estScale) := by
  rcases h with h | h <;> rw [DomCopy.est, h] <;> rfl

theorem pos48_lt (x : Int) : pos48 x < 281474976710656 := by
  have h := Int.emod_lt_of_pos x (show (0 : Int) < 281474976710656 by decide)
  have h0 := Int.emod_nonneg x (show (281474976710656 : Int) ≠ 0 by decide)
  unfold pos48
  omega

theorem pos48_of_lt {x : Nat} (h : x < 281474976710656) : pos48 (Int.ofNat x) = x := by
  unfold pos48
  simp only [Int.ofNat_eq_natCast]
  omega

/-- A position taken modulo 2^48 before something is added to it. -/
theorem pos48_add (x y : Int) : pos48 (Int.ofNat (pos48 x) + y) = pos48 (x + y) := by
  unfold pos48
  rw [Int.ofNat_eq_natCast, Int.toNat_of_nonneg (Int.emod_nonneg x (by decide)), Int.emod_add_emod]

/-- The copy that a LOCKED or STOPPED one becomes as it enters COAST (R30, R32). -/
def State.coasting (s : State) (p n : Nat) (cause : DomCause) : DomCopy :=
  let c := s.dom p n
  let r := { c.src c.secondary with run := 0, runV := none }
  let lost := decide (cause = .sourceLost) || decide (cause = .edgeOverdue) || decide (cause = .secondaryMoving)
  let rate := if c.state = .stopped then 0 else c.rate
  let whole := decide (c.state = .locked) && decide (slewed c.slew c.rate (s.slewPpm n) (s.now - c.at_) = c.slew)
  let pos := if whole then pos48 (Int.ofNat c.pos + c.slew) else s.est p n
  let at_ := if whole then c.at_ else s.now
  { c.setSrc c.secondary r with state := .coast, auto := s.rb R.domCtl 0 n 3, cause := cause, pos := pos, at_ := at_, rate := rate, slew := 0, uncAt := s.now, coastAt := s.now, lost := c.lost || lost }

theorem DomCopy.setSrc_toDomEst (c : DomCopy) (sec : Bool) (r : SrcRec) : (c.setSrc sec r).toDomEst = c.toDomEst := by cases sec <;> rfl
theorem DomCopy.setSrc_secondary (c : DomCopy) (sec : Bool) (r : SrcRec) : (c.setSrc sec r).secondary = c.secondary := by cases sec <;> rfl

-- What the copy keeps and takes as it enters COAST.
theorem State.coasting_secondary (s : State) (p n : Nat) (cause : DomCause) : (s.coasting p n cause).secondary = (s.dom p n).secondary :=
  DomCopy.setSrc_secondary _ _ _
theorem State.coasting_epoch (s : State) (p n : Nat) (cause : DomCause) : (s.coasting p n cause).epoch = (s.dom p n).epoch :=
  (congrArg DomEst.epoch (DomCopy.setSrc_toDomEst (s.dom p n) _ { (s.dom p n).src (s.dom p n).secondary with run := 0, runV := none }) :)
theorem State.coasting_sec {s : State} {p n : Nat} (h : (s.dom p n).secondary = false) (cause : DomCause) : (s.coasting p n cause).sec = (s.dom p n).sec := by
  simp only [State.coasting, h, DomCopy.setSrc, Bool.false_eq_true, if_false]

/-- A LOCKED copy goes on from its estimate as it enters COAST (R31). -/
theorem State.est_coasting {s : State} {p n : Nat} (h : (s.dom p n).state = .locked) (cause : DomCause) :
    (s.coasting p n cause).est (s.slewPpm n) s.now = s.est p n := by
  have ex : s.est p n = pos48 (Int.ofNat (s.dom p n).pos + (s.dom p n).moved (s.slewPpm n) (s.now - (s.dom p n).at_) / estScale) := DomCopy.est_moving (.inl h) _ _
  have rate : (s.coasting p n cause).rate = (s.dom p n).rate := by simp only [State.coasting, h, reduceCtorEq, if_false]
  rw [DomCopy.est_moving (.inr rfl), DomCopy.moved_noSlew rfl, rate]
  by_cases hw : slewed (s.dom p n).slew (s.dom p n).rate (s.slewPpm n) (s.now - (s.dom p n).at_) = (s.dom p n).slew
  · have pos : (s.coasting p n cause).pos = pos48 (Int.ofNat (s.dom p n).pos + (s.dom p n).slew) := by
      simp only [State.coasting, h, hw, decide_true, Bool.and_self, if_true]
    have at_ : (s.coasting p n cause).at_ = (s.dom p n).at_ := by simp only [State.coasting, h, hw, decide_true, Bool.and_self, if_true]
    rw [pos, at_, pos48_add, ex, DomCopy.moved_whole hw, Int.add_mul_ediv_right _ _ estScale_ne_zero]
    congr 1
    ring
  · have pos : (s.coasting p n cause).pos = s.est p n := by simp only [State.coasting, hw, decide_false, Bool.and_false, Bool.false_eq_true, if_false]
    have at_ : (s.coasting p n cause).at_ = s.now := by simp only [State.coasting, hw, decide_false, Bool.and_false, Bool.false_eq_true, if_false]
    rw [pos, at_, Nat.sub_self]
    simp only [Int.ofNat_eq_natCast, Nat.cast_zero, Int.mul_zero, Int.zero_mul, Int.zero_ediv, Int.add_zero]
    refine pos48_of_lt ?_
    rw [ex]
    exact pos48_lt _

-- ------------------------------------------------------------------------------------------------- one copy's moves

/-- A copy that may not switch stays as it is (R32). -/
theorem State.autoSwitch_stays {s : State} {p n : Nat} (h : (s.dom p n).auto = false ∨ (s.dom p n).secondary = true) (unc : Nat) : s.autoSwitch p n unc = s := by
  rcases h with h | h <;> simp only [State.autoSwitch, h, Bool.not_true, Bool.and_false, Bool.false_and, Bool.false_eq_true, if_false]

/-- A COAST copy whose secondary has delivered its run locks on it (R32). -/
theorem State.autoSwitch_locks {s : State} {p n : Nat} (hc : (s.dom p n).state = .coast) (ha : (s.dom p n).auto = true) (h2 : (s.dom p n).secondary = false)
    (hk : s.srcKind n true ≠ 0) (hneed : (s.dom p n).sec.need ≤ (s.dom p n).sec.run) (hrun : 0 < (s.dom p n).sec.run) (unc : Nat) :
    s.autoSwitch p n unc = s.stepCopy p n { s.dom p n with state := .locked, cause := .none, secondary := true, rate := (s.dom p n).sec.lastV.getD 0, unc := unc, uncAt := s.now }
      (s.srcNow p n true) s.now (sdiff (s.srcNow p n true) (s.est p n) 48) 4 := by
  simp only [State.autoSwitch, hc, ha, h2, hk, hneed, hrun, ne_eq, not_false_eq_true, decide_true, Bool.not_false, Bool.and_self, if_true]

/-- `x` is panel `p`'s copy as it coasts from its estimate at its rate, with its cause and LOST recorded (R31, R32). -/
def CoastsAs (s : State) (p n : Nat) (cause : DomCause) (x : DomCopy) : Prop :=
  x.state = .coast ∧ x.cause = cause ∧ x.lost = true ∧ x.est (s.slewPpm n) s.now = s.est p n ∧ x.rate = (s.dom p n).rate ∧ x.slew = 0 ∧ x.coastAt = s.now ∧
    x.epoch = (s.dom p n).epoch

/-- `x` is panel `p`'s copy as it locks on its secondary, where that stands (R32, R36). -/
def LocksAs (s : State) (p n : Nat) (x : DomCopy) : Prop :=
  x.state = .locked ∧ x.secondary = true ∧ x.pos = s.srcNow p n true ∧ x.at_ = s.now ∧ x.epoch = nextEpoch (s.dom p n).epoch

/-- A LOCKED or STOPPED copy enters COAST, from which it may lock again at once. -/
theorem State.coastCopy_eq {s : State} {p n : Nat} (h : (s.dom p n).state = .locked ∨ (s.dom p n).state = .stopped) (cause : DomCause) (unc : Nat) :
    s.coastCopy p n cause unc = (s.moveCopy p n (s.coasting p n cause)).autoSwitch p n unc :=
  if_pos (by rcases h with h | h <;> rw [h] <;> rfl)

section
variable {n : Nat} (hn : n < 16)
include hn

theorem copyOnly_autoSwitch (s : State) (p unc : Nat) : CopyOnly p n s (s.autoSwitch p n unc) :=
  CopyOnly.ite (copyOnly_stepCopy hn _ _ _ _ _ _ _) (CopyOnly.refl _ _ _)

theorem copyOnly_coastCopy (s : State) (p : Nat) (cause : DomCause) (unc : Nat) : CopyOnly p n s (s.coastCopy p n cause unc) :=
  CopyOnly.ite ((copyOnly_moveCopy hn s p _).trans (copyOnly_autoSwitch hn _ p unc)) (CopyOnly.refl _ _ _)

theorem copyOnly_faultCopy (s : State) (p : Nat) (cause : DomCause) : CopyOnly p n s (s.faultCopy p n cause) := copyOnly_moveCopy hn s p _

theorem copyOnly_stopCopy (s : State) (p : Nat) : CopyOnly p n s (s.stopCopy p n) := copyOnly_moveCopy hn s p _

/-- A LOCKED copy that may not switch coasts (R31, R32). -/
theorem State.coastCopy_coasts {s : State} (hs : SMap.sorted s.doms = true) {p : Nat} (hl : (s.dom p n).state = .locked) {cause : DomCause}
    (hc : cause = .sourceLost ∨ cause = .edgeOverdue) (ha : s.rb R.domCtl 0 n 3 = false ∨ (s.dom p n).secondary = true) (unc : Nat) :
    CoastsAs s p n cause ((s.coastCopy p n cause unc).dom p n) := by
  have e := dom_moveCopy hn hs p (s.coasting p n cause)
  have stays := State.autoSwitch_stays (s := s.moveCopy p n (s.coasting p n cause)) (p := p) (n := n)
    (by rw [e]; exact ha.imp id (s.coasting_secondary p n cause).trans) unc
  have lost : (s.coasting p n cause).lost = true := by rcases hc with rfl | rfl <;> exact Bool.or_true _
  have rate : (s.coasting p n cause).rate = (s.dom p n).rate := by simp only [State.coasting, hl, reduceCtorEq, if_false]
  rw [State.coastCopy_eq (.inl hl), stays, e]
  exact ⟨rfl, rfl, lost, State.est_coasting hl cause, rate, rfl, rfl, s.coasting_epoch p n cause⟩

/-- A LOCKED copy that may switch locks on its secondary (R32). -/
theorem State.coastCopy_locks {s : State} (hs : SMap.sorted s.doms = true) {p : Nat} (hl : (s.dom p n).state = .locked) (cause : DomCause)
    (ha : s.rb R.domCtl 0 n 3 = true) (h2 : (s.dom p n).secondary = false) (hk : s.srcKind n true ≠ 0) (hneed : (s.dom p n).sec.need ≤ (s.dom p n).sec.run)
    (hrun : 0 < (s.dom p n).sec.run) (unc : Nat) :
    LocksAs s p n ((s.coastCopy p n cause unc).dom p n) := by
  have e := dom_moveCopy hn hs p (s.coasting p n cause)
  obtain ⟨hs', hnow, hregs, -⟩ := copyOnly_moveCopy hn s p (s.coasting p n cause) hs
  generalize hm : s.moveCopy p n (s.coasting p n cause) = m at e hs' hnow hregs
  have sec : (m.dom p n).sec = (s.dom p n).sec := by rw [e]; exact State.coasting_sec h2 cause
  have rf {d : RegDesc} (hd : d ∈ domCfgRegs) (lo w : Nat) : m.rf d 0 n lo w = s.rf d 0 n lo w := by rw [State.rf, rd_domCfg hregs hd hn, State.rf]
  have kind : m.srcKind n true = s.srcKind n true := rf (by simp [domCfgRegs]) _ _
  have est : m.est p n = s.est p n := by
    rw [← State.est_coasting hl cause, State.est, e, hnow, rf (by simp [domCfgRegs])]
    rfl
  have now_ : m.srcNow p n true = s.srcNow p n true := State.srcNow_congr (show (m.dom p n).sec = _ from sec) kind hnow est
  have epoch : (m.dom p n).epoch = (s.dom p n).epoch := by rw [e]; exact s.coasting_epoch p n cause
  have locks := State.autoSwitch_locks (s := m) (p := p) (n := n) (by rw [e]; rfl) (by rw [e]; exact ha)
    (by rw [e]; exact (s.coasting_secondary p n cause).trans h2) (by rw [kind]; exact hk) (by rw [sec]; exact hneed) (by rw [sec]; exact hrun) unc
  rw [State.coastCopy_eq (.inl hl), hm, locks, dom_stepCopy hn hs', now_, hnow]
  exact ⟨rfl, rfl, rfl, rfl, congrArg nextEpoch epoch⟩

end

-- ------------------------------------------------------------------------------------------------------ joined copies

/-- The copy of panel `q` moves with that of panel `p`: it is that copy, or the copies are joined (R24). -/
def MovesWith (s : State) (p n q : Nat) : Prop := q = p ∨ (((s.dom 0 n).split = false ∧ (s.dom 1 n).split = false) ∧ q < 2)

theorem State.domCopies_cases (s : State) (p n : Nat) :
    (((s.dom 0 n).split = false ∧ (s.dom 1 n).split = false) ∧ s.domCopies p n = [0, 1]) ∨
    (¬ ((s.dom 0 n).split = false ∧ (s.dom 1 n).split = false) ∧ s.domCopies p n = [p]) := by
  unfold State.domCopies
  cases (s.dom 0 n).split <;> cases (s.dom 1 n).split <;> simp

/-- `u` is `s` but for the domains' copies. -/
def DomsOnly (s u : State) : Prop := u = { s with doms := u.doms }

theorem DomsOnly.trans {s u v : State} (a : DomsOnly s u) (b : DomsOnly u v) : DomsOnly s v := by
  unfold DomsOnly at *
  rw [b, a]

theorem DomsOnly.evs_eq {s u : State} (h : DomsOnly s u) : u.evs = s.evs := by rw [h]

theorem SameCopy.refl {s : State} (hs : SMap.sorted s.doms = true) (p n : Nat) : SameCopy p n s s := ⟨hs, rfl, fun _ _ => rfl, rfl⟩

/-- A move of the other panel's copy leaves a copy as it is. -/
theorem CopyOnly.sameCopy {p q n : Nat} (hn : n < 16) {s u : State} (h : CopyOnly q n s u) (hs : SMap.sorted s.doms = true) (hq : p ≠ q) : SameCopy p n s u := by
  obtain ⟨h1, h2, h3, h4⟩ := h hs
  exact ⟨h1, h2, h3, h4 p n hn (.inl hq)⟩

section
variable {n p : Nat} (hn : n < 16) {s : State} (hs : SMap.sorted s.doms = true) {F : State → Nat → State} (hF : ∀ v q, CopyOnly q n v (F v q))
include hn hs hF

omit hn in
/-- What moves copies one by one leaves every other copy alone. -/
theorem domCopies_foldl_others {q k : Nat} (hq : q < 2) (hk : k < 16) (h : k ≠ n ∨ ¬ MovesWith s p n q) : ((s.domCopies p n).foldl F s).dom q k = s.dom q k := by
  rcases s.domCopies_cases p n with ⟨hj, e⟩ | ⟨hj, e⟩ <;> rw [e]
  · have ne : k ≠ n := h.elim id fun m => absurd (.inr ⟨hj, hq⟩) m
    obtain ⟨h0, -, -, o0⟩ := hF s 0 hs
    obtain ⟨-, -, -, o1⟩ := hF (F s 0) 1 h0
    exact (o1 q k hk (.inr ne)).trans (o0 q k hk (.inr ne))
  · obtain ⟨-, -, -, o⟩ := hF s p hs
    exact o q k hk (h.symm.imp (fun m e => m (.inl e)) id)

/-- Each copy that moves does so from what it was. -/
theorem domCopies_foldl_moved (hp : p < 2) {q : Nat} (h : MovesWith s p n q) : ∃ v, SameCopy q n s v ∧ ((s.domCopies p n).foldl F s).dom q n = (F v q).dom q n := by
  rcases s.domCopies_cases p n with ⟨-, e⟩ | ⟨hj, e⟩ <;> rw [e]
  · have hq : q < 2 := h.elim (fun e => e ▸ hp) And.right
    have first := (hF s 0).sameCopy hn hs (p := 1) (by decide)
    interval_cases q
    · obtain ⟨-, -, -, o⟩ := hF (F s 0) 1 first.sorted
      exact ⟨s, SameCopy.refl hs _ _, o 0 n hn (.inl (by decide))⟩
    · exact ⟨F s 0, first, rfl⟩
  · have hq : q = p := h.elim id fun m => absurd m.1 hj
    subst hq
    exact ⟨s, SameCopy.refl hs _ _, rfl⟩

/-- Where no event is pending, moves that then change only the domains' copies change nothing else. -/
theorem domCopies_foldl_quiet (he : s.evs = []) (hQ : ∀ v q, SameCopy q n s v → MovesWith s p n q → v.evs = [] → DomsOnly v (F v q)) :
    DomsOnly s ((s.domCopies p n).foldl F s) := by
  rcases s.domCopies_cases p n with ⟨hj, e⟩ | ⟨-, e⟩ <;> rw [e]
  · have q0 := hQ s 0 (SameCopy.refl hs _ _) (.inr ⟨hj, by decide⟩) he
    exact q0.trans (hQ (F s 0) 1 ((hF s 0).sameCopy hn hs (by decide)) (.inr ⟨hj, by decide⟩) (q0.evs_eq.trans he))
  · exact hQ s p (SameCopy.refl hs _ _) (.inl rfl) he

end

end Sys2Proof.Machine
end

section
/-! PROOFS. The commands that move a position domain's copies (R32, R33, R35). -/

namespace Sys2Proof.Machine

section
variable {p n : Nat} {s v : State} (hn : n < 16) (h : SameCopy p n s v)
include hn h

theorem CoastsAs.of_same {cause : DomCause} {x : DomCopy} (c : CoastsAs v p n cause x) : CoastsAs s p n cause x := by
  unfold CoastsAs at *
  rwa [h.slewPpm hn, h.now, h.est hn, h.dom] at c

theorem LocksAs.of_same {x : DomCopy} (c : LocksAs v p n x) : LocksAs s p n x := by
  have e : v.srcNow p n true = s.srcNow p n true := State.srcNow_congr (by rw [h.dom]) (h.srcKind hn true) h.now (h.est hn)
  unfold LocksAs at *
  rwa [e, h.now, h.dom] at c

end

-- -------------------------------------------------------------------------------------- where no event is pending

theorem State.fireDue_nil {s : State} (h : s.evs = []) (p : Nat) : s.fireDue p = s := by
  rw [State.fireDue, h]
  rfl

theorem State.judgeAll_nil {s : State} (h : s.evs = []) (p n : Nat) : s.judgeAll p n = s := by
  rw [State.judgeAll, State.evsOf, h]
  rfl

theorem State.moveCopy_nil {s : State} (h : s.evs = []) (p n : Nat) (c : DomCopy) : s.moveCopy p n c = s.setDom p n c := by
  rw [State.moveCopy, State.fireDue_nil h, State.judgeAll_nil (s := s.setDom p n c) h]

theorem domsOnly_moveCopy {s : State} (h : s.evs = []) (p n : Nat) (c : DomCopy) : DomsOnly s (s.moveCopy p n c) := by
  rw [State.moveCopy_nil h]
  rfl

theorem domsOnly_coastCopy {n : Nat} (hn : n < 16) {s : State} (hs : SMap.sorted s.doms = true) {p : Nat} (h : s.evs = [])
    (ha : s.rb R.domCtl 0 n 3 = false ∨ (s.dom p n).secondary = true) (cause : DomCause) (unc : Nat) : DomsOnly s (s.coastCopy p n cause unc) := by
  by_cases hl : (s.dom p n).state = .locked ∨ (s.dom p n).state = .stopped
  · rw [State.coastCopy_eq hl, State.autoSwitch_stays (by rw [dom_moveCopy hn hs]; exact ha.imp id (s.coasting_secondary p n cause).trans)]
    exact domsOnly_moveCopy h _ _ _
  · have stays : ¬ (decide ((s.dom p n).state = .locked) || decide ((s.dom p n).state = .stopped)) = true := by simpa using hl
    have e : s.coastCopy p n cause unc = s := if_neg stays
    rw [e]
    rfl

-- ---------------------------------------------------------------------------------------------- the copies that move

section
variable {p n : Nat} (hn : n < 16) {s : State} (hs : SMap.sorted s.doms = true)
include hn hs

theorem coastAll_others (cause : DomCause) {q k : Nat} (hq : q < 2) (hk : k < 16) (h : k ≠ n ∨ ¬ MovesWith s p n q) :
    (s.coastAll p n cause).dom q k = s.dom q k :=
  domCopies_foldl_others (s := s.freeN.2) hs (fun v r => copyOnly_coastCopy hn v r cause (s.freeN.1 % 65536)) hq hk h

theorem coastAll_moved (hp : p < 2) (cause : DomCause) {q : Nat} (h : MovesWith s p n q) :
    ∃ v, SameCopy q n s v ∧ (s.coastAll p n cause).dom q n = (v.coastCopy q n cause (s.freeN.1 % 65536)).dom q n := by
  obtain ⟨v, hv, e⟩ := domCopies_foldl_moved (s := s.freeN.2) hn hs (fun v r => copyOnly_coastCopy hn v r cause (s.freeN.1 % 65536)) hp h
  exact ⟨v, ⟨hv.sorted, hv.now, hv.regs, hv.dom⟩, e⟩

theorem coastAll_quiet (cause : DomCause) (he : s.evs = []) (ha : ∀ q, MovesWith s p n q → s.rb R.domCtl 0 n 3 = false ∨ (s.dom q n).secondary = true) :
    s.coastAll p n cause = { s with doms := (s.coastAll p n cause).doms, fresh := (s.coastAll p n cause).fresh } := by
  have d : DomsOnly s.freeN.2 (s.coastAll p n cause) :=
    domCopies_foldl_quiet (s := s.freeN.2) hn hs (fun v r => copyOnly_coastCopy hn v r cause (s.freeN.1 % 65536)) he fun v q hv hm hev =>
      domsOnly_coastCopy hn hv.sorted hev (by rw [hv.rb hn (by simp [domCfgRegs]), hv.dom]; exact ha q hm) cause _
  rw [d]
  rfl

theorem coastAll_coasts (hp : p < 2) {cause : DomCause} (hc : cause = .sourceLost ∨ cause = .edgeOverdue) {q : Nat} (h : MovesWith s p n q)
    (hl : (s.dom q n).state = .locked) (ha : s.rb R.domCtl 0 n 3 = false ∨ (s.dom q n).secondary = true) :
    CoastsAs s q n cause ((s.coastAll p n cause).dom q n) := by
  obtain ⟨v, hv, e⟩ := coastAll_moved hn hs hp cause h
  rw [e]
  exact (State.coastCopy_coasts hn hv.sorted (by rw [hv.dom]; exact hl) hc (by rw [hv.rb hn (by simp [domCfgRegs]), hv.dom]; exact ha) _).of_same hn hv

theorem coastAll_locks (hp : p < 2) (cause : DomCause) {q : Nat} (h : MovesWith s p n q) (hl : (s.dom q n).state = .locked)
    (ha : s.rb R.domCtl 0 n 3 = true) (h2 : (s.dom q n).secondary = false) (hk : s.srcKind n true ≠ 0) (hneed : (s.dom q n).sec.need ≤ (s.dom q n).sec.run)
    (hrun : 0 < (s.dom q n).sec.run) : LocksAs s q n ((s.coastAll p n cause).dom q n) := by
  obtain ⟨v, hv, e⟩ := coastAll_moved hn hs hp cause h
  have hd := hv.dom
  rw [e]
  exact (State.coastCopy_locks hn hv.sorted (by rw [hd]; exact hl) cause (by rw [hv.rb hn (by simp [domCfgRegs])]; exact ha) (by rw [hd]; exact h2)
    (by rw [hv.srcKind hn]; exact hk) (by rw [hd]; exact hneed) (by rw [hd]; exact hrun) _).of_same hn hv

/-- Copies that fall into FAULT stand where they were (R31, R32). -/
theorem faultAll_moved (hp : p < 2) (cause : DomCause) {q : Nat} (h : MovesWith s p n q) :
    ((s.faultAll p n cause).dom q n).state = .fault ∧ ((s.faultAll p n cause).dom q n).cause = cause ∧ ((s.faultAll p n cause).dom q n).pos = s.est q n ∧
      ((s.faultAll p n cause).dom q n).rate = 0 ∧ ((s.faultAll p n cause).dom q n).epoch = (s.dom q n).epoch := by
  obtain ⟨v, hv, e⟩ := domCopies_foldl_moved hn hs (fun v r => copyOnly_faultCopy hn v r cause) hp h
  have e' : (s.faultAll p n cause).dom q n = _ := e.trans (dom_moveCopy hn hv.sorted q _)
  have epoch : (v.dom q n).epoch = (s.dom q n).epoch := by rw [hv.dom]
  rw [e']
  exact ⟨rfl, rfl, hv.est hn, rfl, epoch⟩

/-- Copies that stop hold their position (R31, R33). -/
theorem stopAll_moved (hp : p < 2) {q : Nat} (h : MovesWith s p n q) :
    ((s.stopAll p n).dom q n).state = .stopped ∧ ((s.stopAll p n).dom q n).pos = s.est q n ∧ ((s.stopAll p n).dom q n).epoch = (s.dom q n).epoch := by
  obtain ⟨v, hv, e⟩ := domCopies_foldl_moved hn hs (fun v r => copyOnly_stopCopy hn v r) hp h
  have e' : (s.stopAll p n).dom q n = _ := e.trans (dom_moveCopy hn hv.sorted q _)
  have epoch : (v.dom q n).epoch = (s.dom q n).epoch := by rw [hv.dom]
  rw [e']
  exact ⟨rfl, hv.est hn, epoch⟩

end

-- ------------------------------------------------------------------------------------------------------ the commands

section
variable {p n t : Nat} {s : State} (hp : p < 2) (hn : n < 16) (hen : s.domEn n = true) (hup : s.up p = true)
include hp hn hen hup

/-- A COAST copy past its uncertainty limit (R32). -/
theorem exec_uncLimit (hc : (s.dom p n).state = .coast) {lim : Nat} (hl : uncBound (s.rf R.domLimit 0 n 0 16) = some lim)
    (h : uncBound (s.unc p n) = none ∨ ∃ b, uncBound (s.unc p n) = some b ∧ lim < b) : exec (.uncLimit p n) s = .next (s.faultAll p n .uncLimit) := by
  show execUncLimit p n s = _
  rcases h with h | ⟨b, h, hb⟩
  · simp only [execUncLimit, Nat.mod_eq_of_lt hp, Nat.mod_eq_of_lt hn, hl, h, hen, hup, hc, decide_true, Bool.and_self, if_true]
  · simp only [execUncLimit, Nat.mod_eq_of_lt hp, Nat.mod_eq_of_lt hn, hl, h, hb, hen, hup, hc, decide_true, Bool.and_self, if_true]

/-- A COAST copy past its time limit (R32). -/
theorem exec_coastLimit (hc : (s.dom p n).state = .coast) (h : s.rf R.domCoast 0 n 24 8 * 100 * msU < s.now - (s.dom p n).coastAt) :
    exec (.coastLimit p n) s = .next (s.faultAll p n .coastLimit) := by
  show execCoastLimit p n s = _
  simp only [execCoastLimit, Nat.mod_eq_of_lt hp, Nat.mod_eq_of_lt hn, hen, hup, hc, h, decide_true, Bool.and_self, if_true]

variable (hl : (s.dom p n).state = .locked) (ht : ((s.dom p n).src (s.dom p n).secondary).lastT = some t) (hgap : s.lossTo n < s.now - t)
include hl ht hgap

theorem exec_sourceLost (hk : isEdge (s.srcKind n (s.dom p n).secondary) = false) : exec (.sourceLost p n) s = .next (s.coastAll p n .sourceLost) := by
  show execSourceLost p n s = _
  simp only [execSourceLost, Nat.mod_eq_of_lt hp, Nat.mod_eq_of_lt hn, State.activeGap, ht, Option.map_some, hen, hup, hl, hk, hgap, decide_true, Bool.not_false,
    Bool.and_self, if_true]

variable (hk : isEdge (s.srcKind n (s.dom p n).secondary) = true)
include hk

theorem exec_edgeOverdue_time (hcyc : s.domCyclic n = false) : exec (.edgeOverdue p n) s = .next (s.coastAll p n .edgeOverdue) := by
  show execEdgeOverdue p n s = _
  simp only [execEdgeOverdue, Nat.mod_eq_of_lt hp, Nat.mod_eq_of_lt hn, State.activeGap, ht, Option.map_some, hen, hup, hl, hk, hgap, hcyc, decide_true,
    Bool.or_true, Bool.not_true, Bool.not_false, Bool.and_self, Bool.false_eq_true, if_false, if_true]

/-- A cyclic domain whose overdue edge its secondary says nothing about (R33). -/
theorem exec_edgeOverdue_cyclic (hcyc : s.domCyclic n = true) (h2 : (s.dom p n).secondary = true ∨ s.reporting p n = false) :
    exec (.edgeOverdue p n) s = .next
      (if (((s.dom p n).src (s.dom p n).secondary).lastV.getD 0).natAbs * secU * secU ≤ s.amax n * 16777216 * (s.now - t) * rateScale.toNat + s.vstopS n * secU then s.stopAll p n
        else s.coastAll p n .edgeOverdue) := by
  have silent : (!(s.dom p n).secondary && s.reporting p n) = false := by rcases h2 with h2 | h2 <;> simp [h2]
  show execEdgeOverdue p n s = _
  simp only [execEdgeOverdue, Nat.mod_eq_of_lt hp, Nat.mod_eq_of_lt hn, State.activeGap, ht, Option.map_some, hen, hup, hl, hk, hgap, hcyc, silent, decide_true,
    Bool.or_true, Bool.not_true, Bool.and_self, Bool.false_eq_true, if_false]
  split <;> rfl

end

-- ------------------------------------------------------------------------------------------------------ observations

section
variable {n : Nat} (hn : n < 16)
include hn

theorem copyOnly_dropObs (s : State) (p : Nat) (sec : Bool) (cause : DomCause) (unc : Nat) : CopyOnly p n s (s.dropObs p n sec cause unc) := by
  have counted := copyOnly_setDom hn s p { (s.dom p n).setSrc sec { (s.dom p n).src sec with run := 0, runV := none } with
    ovr := min ((s.dom p n).ovr + 1) 0xFFFFFFFF, overrate := (s.dom p n).overrate || decide (cause = .overrate) }
  exact CopyOnly.ite (counted.trans (copyOnly_coastCopy hn _ p cause unc)) counted

/-- What an observation counted in its source's record does to its copy: it moves no other. -/
theorem copyOnly_applyObs (s : State) (p : Nat) (sec : Bool) (t unc : Nat) : CopyOnly p n s (s.applyObs p n sec t unc) := by
  have step (x : Int) (c : DomCopy) (pos : Nat) (d : Int) (k : Nat) : CopyOnly p n s ((s.noteCorrection p n x).stepCopy p n c pos t d k) :=
    ((domKept_noteCorrection s p n x).copyOnly p n).trans (copyOnly_stepCopy hn _ _ _ _ _ _ _)
  have move (x : Int) (c : DomCopy) : CopyOnly p n s ((s.noteCorrection p n x).moveCopy p n c) :=
    ((domKept_noteCorrection s p n x).copyOnly p n).trans (copyOnly_moveCopy hn _ _ _)
  have follow (x y : Int) (b c : Prop) [Decidable b] [Decidable c] (d e f : DomCopy) (pos k : Nat) :
      CopyOnly p n s (if b then (s.noteCorrection p n x).moveCopy p n d else if c then (s.noteCorrection p n y).stepCopy p n e pos t y k else (s.noteCorrection p n y).moveCopy p n f) :=
    CopyOnly.ite (move _ _) (CopyOnly.ite (step _ _ _ _ _) (move _ _))
  unfold State.applyObs
  extract_lets c r val est rate corr
  refine CopyOnly.ite (CopyOnly.ite (copyOnly_coastCopy hn _ _ _ _) (copyOnly_autoSwitch hn _ _ _)) ?_
  cases hc : c.state with
  | locked => exact follow _ _ _ _ _ _ _ _ _
  | stopped => exact follow _ _ _ _ _ _ _ _ _
  | fault => exact CopyOnly.ite (CopyOnly.refl _ _ _) (copyOnly_stepCopy hn _ _ _ _ _ _ _)
  | coast => exact CopyOnly.ite (CopyOnly.refl _ _ _) (CopyOnly.ite (step _ _ _ _ _) (CopyOnly.ite (move _ _) (move _ _)))

theorem copyOnly_takeObs (s : State) (p : Nat) (sec : Bool) (t unc : Nat) (d : Int) (val : Option Nat) (v : Option Int) (ok : Bool) :
    CopyOnly p n s (s.takeObs p n sec t unc d val v ok) := by
  unfold State.takeObs
  extract_lets
  refine CopyOnly.ite (copyOnly_dropObs hn _ _ _ _ _) (CopyOnly.ite ?_ ?_)
  · exact (copyOnly_setDom hn _ _ _).trans (copyOnly_dropObs hn _ _ _ _ _)
  · exact ((copyOnly_setDom hn _ _ _).trans (copyOnly_setDom hn _ _ _)).trans (copyOnly_applyObs hn _ _ _ _ _)

theorem copyOnly_observeCopy_gptp (s : State) (p : Nat) (sec : Bool) (ns : Nat) (ppb : Int) (slave cap : Bool) (t unc : Nat) (first : Bool) :
    CopyOnly p n s (s.observeCopy p n sec (.gptp ns ppb slave cap) t unc first) := by
  have seen : CopyOnly p n s (if (slave && cap) = true then s.setDom p n { s.dom p n with full := ns, fullAt := t } else s) :=
    CopyOnly.ite (copyOnly_setDom hn _ _ _) (CopyOnly.refl _ _ _)
  exact seen.trans (copyOnly_takeObs hn _ _ _ _ _ _ _ _ _)

end

end Sys2Proof.Machine
end

section
/-! PROOFS. An observation that counts towards an acquisition, and how a domain's copies move as a whole (R23, R31, R32, R35). -/

namespace Sys2Proof.Machine

/-- A source's record with one more plausible observation, at time `t`, of a position in 1/256 counts and a velocity; RELOCK is taken as a run
begins (R35, R47). -/
def SrcRec.counted (r : SrcRec) (relock t pos : Nat) (v : Int) : SrcRec :=
  { r with run := r.run + 1, need := if r.run = 0 then relock else r.need, lastT := some t, lastV := some v, runV := if r.run = 0 then none else some v, pos := pos, accepted := r.accepted + 1, pulseT := some t }

/-- The rate that a gPTP observation gives (R23). -/
def gptpRate (ppb : Int) : Int := 4294967296 + 4294967296 * ppb / 1000000000

/-- A copy whose primary has delivered one more gPTP observation (R23, R35). -/
def State.gptpCopy (s : State) (p n ns : Nat) (ppb : Int) (t : Nat) : DomCopy :=
  let c := s.dom p n
  { c with full := ns, fullAt := t, prim := c.prim.counted (s.rf R.domCtl 0 n 4 4) t (ns % m48 * 256) (gptpRate ppb) }

section
variable {p n : Nat} (hn : n < 16) {s : State} (hs : SMap.sorted s.doms = true) (hk : s.srcKind n false = 1)
include hn hs hk

/-- A gPTP observation within 200 ppm is counted in its source's record, and then acts on its copy (R35). -/
theorem State.observeCopy_gptp (ns : Nat) {ppb : Int} (hppb : ppb.natAbs ≤ 200000) (t unc : Nat) (first : Bool) :
    ∃ m : State, s.observeCopy p n false (.gptp ns ppb true true) t unc first = m.applyObs p n false t unc ∧ SMap.sorted m.doms = true ∧ m.srcKind n false = 1 ∧
      ∃ o, m.dom p n = (s.gptpCopy p n ns ppb t).noting o s.now := by
  let u := s.setDom p n { s.dom p n with full := ns, fullAt := t }
  let w := u.setDom p n { u.dom p n with prim := { (u.dom p n).prim with pulseT := some t } }
  let m := w.setDom p n { u.dom p n with prim := (u.dom p n).prim.counted (s.rf R.domCtl 0 n 4 4) t (ns % m48 * 256) (gptpRate ppb) }
  have su : SMap.sorted u.doms = true := State.sorted_setDom hs _ _ _
  have sw : SMap.sorted w.doms = true := State.sorted_setDom su _ _ _
  have taken : s.observeCopy p n false (.gptp ns ppb true true) t unc first = m.applyObs p n false t unc := by
    have hu : u.srcKind n false = 1 := hk
    show u.takeObs p n false t unc 0 (some (ns % m48)) (some (gptpRate ppb)) (true && true && decide (ppb.natAbs ≤ 200000)) = _
    simp only [State.takeObs, hu, hppb, isEdge, decide_true, Bool.and_self, Bool.false_and, OfNat.one_ne_ofNat, decide_false, Bool.or_self,
      Bool.false_eq_true, if_false, Bool.true_or, if_true, Bool.not_true]
    rfl
  have held : m.dom p n = _ := State.dom_setDom_self sw hn p _
  refine ⟨m, taken, State.sorted_setDom sw _ _ _, hk, w.dom p n, ?_⟩
  rw [held, show u.dom p n = _ from State.dom_setDom_self hs hn p _]
  rfl

end

/-- An observation of a gPTP source that is active, on a copy in FAULT: the copy locks once the run is complete (R32, R36). -/
theorem State.applyObs_fault {p n : Nat} {m : State} (hk : m.srcKind n false = 1) (hf : (m.dom p n).state = .fault) (h2 : (m.dom p n).secondary = false) (t unc : Nat) :
    ((m.dom p n).prim.run < (m.dom p n).prim.need → m.applyObs p n false t unc = m) ∧
    ((m.dom p n).prim.need ≤ (m.dom p n).prim.run → ∃ rate step, m.applyObs p n false t unc =
      m.stepCopy p n { m.dom p n with state := .locked, cause := .none, rate := rate, unc := unc, uncAt := m.now, prim := { (m.dom p n).prim with pos := (m.dom p n).prim.pos / 256 * 256 } }
        ((m.dom p n).prim.pos / 256) t step 0) := by
  have active : ¬ false ≠ (m.dom p n).secondary := by rw [h2]; exact fun h => h rfl
  have src : (m.dom p n).src false = (m.dom p n).prim := rfl
  refine ⟨fun hr => ?_, fun hr => ⟨(m.dom p n).prim.lastV.getD (if m.domCyclic n then 0 else 4294967296),
    if (m.dom p n).epoch = 0 then 0 else sdiff ((m.dom p n).prim.pos / 256) ((m.dom p n).est (m.slewPpm n) t) 48, ?_⟩⟩
  · simp only [State.applyObs, active, if_false, hf, src, hr, if_true]
  · simp only [State.applyObs, active, if_false, hf, src, Nat.not_lt.2 hr, hk, OfNat.one_ne_ofNat, decide_false, Bool.false_and, Bool.and_false, Bool.or_self,
      Bool.false_eq_true, decide_eq_true_eq, DomCopy.setSrc]

/-- What an observation of the active gPTP source makes of a copy in FAULT (R32, R35, R36): it is counted, and locks the copy where it completes the run. -/
def Observed (s : State) (p n ns : Nat) (x : DomCopy) : Prop :=
  let c := s.dom p n
  let need := if c.prim.run = 0 then s.rf R.domCtl 0 n 4 4 else c.prim.need
  x.prim.run = c.prim.run + 1 ∧ x.prim.accepted = c.prim.accepted + 1 ∧ x.prim.lastT = some s.now ∧ x.prim.pos = ns % 2 ^ 48 * 256 ∧ x.full = ns ∧
    (c.prim.run + 1 < need → x.state = .fault ∧ x.epoch = c.epoch) ∧
    (need ≤ c.prim.run + 1 → x.state = .locked ∧ x.cause = .none ∧ x.epoch = nextEpoch c.epoch ∧ x.pos = ns % 2 ^ 48 ∧ x.at_ = s.now)

theorem State.observed_gptp {p n : Nat} (hn : n < 16) {s : State} (hs : SMap.sorted s.doms = true) (hk : s.srcKind n false = 1) (hf : (s.dom p n).state = .fault)
    (h2 : (s.dom p n).secondary = false) (ns : Nat) {ppb : Int} (hppb : ppb.natAbs ≤ 200000) (unc : Nat) (first : Bool) :
    Observed s p n ns ((s.observeCopy p n false (.gptp ns ppb true true) s.now unc first).dom p n) := by
  obtain ⟨m, hm, hms, hmk, o, hd⟩ := State.observeCopy_gptp (p := p) hn hs hk ns hppb s.now unc first
  obtain ⟨waits, locks⟩ := State.applyObs_fault (p := p) (m := m) hmk (by rw [hd]; exact hf) (by rw [hd]; exact h2) s.now unc
  have pos : (m.dom p n).prim.pos = ns % 2 ^ 48 * 256 := by rw [hd, ← m48_eq]; rfl
  have whole : ns % 2 ^ 48 * 256 / 256 = ns % 2 ^ 48 := Nat.mul_div_cancel _ (by decide)
  rw [pos, whole] at locks
  rw [hm]
  by_cases hr : (m.dom p n).prim.run < (m.dom p n).prim.need
  · rw [waits hr]
    have few := hr
    rw [hd] at few
    rw [hd] at pos
    rw [hd]
    exact ⟨rfl, rfl, rfl, pos, rfl, fun _ => ⟨hf, rfl⟩, fun h => absurd few (Nat.not_lt.2 h)⟩
  · obtain ⟨rate, step, e⟩ := locks (Nat.not_lt.1 hr)
    have enough := hr
    rw [hd] at enough
    rw [e, dom_stepCopy hn hms, hd]
    exact ⟨rfl, rfl, rfl, rfl, rfl, fun h => absurd h enough, fun _ => ⟨rfl, rfl, rfl, rfl, rfl⟩⟩

theorem Observed.of_same {p n ns : Nat} (hn : n < 16) {s v : State} (h : SameCopy p n s v) {x : DomCopy} (o : Observed v p n ns x) : Observed s p n ns x := by
  unfold Observed at *
  rwa [h.dom, h.now, h.rf hn (by simp [domCfgRegs])] at o

/-- An observation of a source of joined copies, taken by both (R24, R35). -/
theorem exec_gptp {n : Nat} (hn : n < 16) {s : State} (hen : s.domEn n = true) (hk : s.srcKind n false = 1) (hup : s.up (selPanel 1 (s.srcSel n false)) = true)
    (hj : (s.dom 0 n).split = false ∧ (s.dom 1 n).split = false) (ns : Nat) (ppb : Int) :
    exec (.sourceObservation n false (.gptp ns ppb true true)) s = .next
      (([0, 1].foldl (fun v q => v.observeCopy q n false (.gptp ns ppb true true) s.now (s.freeN.1 % 65536) (decide (q = 0)))) s.freeN.2) := by
  obtain ⟨h0, h1⟩ := hj
  have copies : s.freeN.2.obsCopies n false = [0, 1] := by
    have e0 : (s.freeN.2.dom 0 n).split = false := h0
    have e1 : (s.freeN.2.dom 1 n).split = false := h1
    simp only [State.obsCopies, e0, e1, Bool.or_self, Bool.false_eq_true, if_false]
  show execSourceObservation n false (.gptp ns ppb true true) s = _
  simp only [execSourceObservation, State.observe, Nat.mod_eq_of_lt hn, hen, hk, hup, obsKind, copies, Bool.not_true, ne_eq, not_true, decide_false, Bool.or_self,
    Bool.false_eq_true, if_false]
  rfl

/-- Settles O36: each transition moves the copies one by one, each from what it was, and each move changes its own copy only. -/
theorem domainStates : Obligations.DomainStates := by
  intro s p n hp hn hs hen hup c src kind joined moved others coasts faults
  have coast (x : Instr) (cause : DomCause) (hc : cause = .sourceLost ∨ cause = .edgeOverdue) (hx : exec x s = .next (s.coastAll p n cause)) : coasts x cause :=
    ⟨_, hx, fun q k hq hk h => coastAll_others hn hs cause hq hk h, fun he ha => coastAll_quiet hn hs cause he ha, fun q hq hl =>
      ⟨fun ha => coastAll_coasts hn hs hp hc hq hl ha, fun ha h2 hk hneed hrun => coastAll_locks hn hs hp cause hq hl ha h2 hk hneed hrun⟩⟩
  have fault (x : Instr) (cause : DomCause) (hx : exec x s = .next (s.faultAll p n cause)) : faults x cause :=
    ⟨_, hx, fun q k hq hk h => domCopies_foldl_others hs (fun v r => copyOnly_faultCopy hn v r cause) hq hk h,
      fun he => domCopies_foldl_quiet hn hs (fun v r => copyOnly_faultCopy hn v r cause) he fun v q _ _ hv => domsOnly_moveCopy hv q n _,
      fun q hq => faultAll_moved hn hs hp cause hq⟩
  refine ⟨fun t hl hk ht hgap => coast _ _ (.inl rfl) (exec_sourceLost hp hn hen hup hl ht hgap hk), fun t hl hk ht hgap => ⟨fun hcyc => ?_, fun hcyc h2 => ?_⟩,
    fun lim hc hlim h => fault _ _ (exec_uncLimit hp hn hen hup hc hlim h), fun hc h => fault _ _ (exec_coastLimit hp hn hen hup hc h),
    fun ns ppb hk1 hup1 hj hppb hf h2 => ?_⟩
  · exact coast _ _ (.inr rfl) (exec_edgeOverdue_time hp hn hen hup hl ht hgap hk hcyc)
  · have run := exec_edgeOverdue_cyclic hp hn hen hup hl ht hgap hk hcyc h2
    refine ⟨fun slow => ⟨_, run.trans (congrArg _ (if_pos slow)), fun q k hq hk' h => domCopies_foldl_others hs (fun v r => copyOnly_stopCopy hn v r) hq hk' h,
      fun q hq => stopAll_moved hn hs hp hq⟩, fun fast => coast _ _ (.inr rfl) (run.trans (congrArg _ (if_neg (Nat.not_le.2 fast))))⟩
  · have copies : s.freeN.2.domCopies p n = [0, 1] := (s.freeN.2.domCopies_cases p n).elim And.right fun h => absurd hj h.1
    have hF (v : State) (q : Nat) := copyOnly_observeCopy_gptp hn v q false ns ppb true true s.now (s.freeN.1 % 65536) (decide (q = 0))
    refine ⟨_, exec_gptp hn hen hk1 hup1 hj ns ppb, fun q k hk hkn => ?_, ?_⟩
    · obtain ⟨h0, -, -, o0⟩ := hF s.freeN.2 0 hs
      obtain ⟨-, -, -, o1⟩ := hF _ 1 h0
      exact (o1 q k hk (.inr hkn)).trans (o0 q k hk (.inr hkn))
    · obtain ⟨v, hv, e⟩ := domCopies_foldl_moved (s := s.freeN.2) hn hs hF hp (.inl rfl)
      rw [copies] at e
      have same : SameCopy p n s v := ⟨hv.sorted, hv.now, hv.regs, hv.dom⟩
      have seen := State.observed_gptp (p := p) hn hv.sorted ((hv.srcKind hn false).trans hk1) (by rw [hv.dom]; exact hf) (by rw [hv.dom]; exact h2) ns hppb (s.freeN.1 % 65536) (decide (p = 0))
      rw [hv.now] at seen
      rw [e]
      exact seen.of_same hn same

end Sys2Proof.Machine
end

section
/-! PROOFS. What a register write of its own row does once its word passes every check (R32, R45, R47, R239, R262, R302, R307, R353, R407). -/

namespace Sys2Proof.Machine

/-- A bit of a field. -/
theorem bit_of_bits (x lo : Nat) {w i : Nat} (h : i < w) : bit x (lo + i) = (bits x lo w).testBit i := by
  simp only [bit, bits, Nat.testBit_mod_two_pow, Nat.testBit_div_two_pow, decide_eq_true h, Bool.true_and]
  rw [Nat.add_comm]

theorem bit_zero (x : Nat) : bit x 0 = decide (x % 2 = 1) := Nat.testBit_zero x

-- ------------------------------------------------------------------------------------ the word that an address names

/-- Every row of a block's register table is of that block. -/
theorem blk_of_rows (b : Blk) : ∀ d ∈ R.rows b, d.blk = b := by
  cases b <;> decide

/-- The word that a row gives an offset stands at that offset. -/
theorem RegDesc.offset_of_locate {d : RegDesc} {o i j : Nat} (h : d.locate o = some (i, j)) : d.off + d.s1 * i + d.s2 * j = o := by
  simp only [RegDesc.locate] at h
  split at h
  · cases h
  next ho =>
    split at h
    next hc =>
      obtain ⟨-, hq⟩ : _ ∧ (o - d.off) % d.s1 % d.s2 = 0 := by simpa using hc
      cases h
      have h1 := Nat.div_add_mod (o - d.off) d.s1
      have h2 := Nat.div_add_mod ((o - d.off) % d.s1) d.s2
      omega
    · cases h

/-- The word found at an offset of a block has that offset's address. -/
theorem addr_of_wordAt {b : Blk} {p o : Nat} {r : RegRef} (h : wordAt b p o = some r) : r.desc.addr r.panel r.i r.j = b.addr p o := by
  obtain ⟨d, hd, he⟩ := List.exists_of_findSome?_eq_some h
  obtain ⟨⟨i, j⟩, hl, rfl⟩ := Option.map_eq_some_iff.1 he
  rw [RegDesc.addr, RegDesc.offset_of_locate hl, blk_of_rows b d hd]

theorem Passes.addr {s : State} {who : Writer} {a : Nat} {v : Word} {r : RegRef} (h : Passes s who a v r) : r.desc.addr r.panel r.i r.j = a := by
  obtain ⟨b, p, o, ⟨-, -, ha⟩, hr, -⟩ := h
  exact (addr_of_wordAt hr).trans ha

-- ------------------------------------------------------------------------------------------- a word that takes effect

/-- A word that passes every check takes effect, with CFG_DIGEST extended (R355, R407). -/
theorem State.writeWord_passes {s : State} {who : Writer} {a : Nat} {v : Word} {r : RegRef} (h : Passes s who a v r) (hid : r.desc.id ≠ .modCmd)
    (found : List (Nat × Nat)) : (s.writeWord who 4 a v none found).2 = (s.extendDigest a v).takeWord r v.toNat found := by
  obtain ⟨b, p, o, hr, hw, hj⟩ := h
  rw [State.writeWord_alone hr, hj, State.takenOrRecorded, State.applyWord, hw]
  dsimp only
  rw [if_neg hid, hr.2.2]

/-- MOD_CMD goes to the mode controller, which may take it (R333). -/
theorem State.writeWord_modCmd {s t : State} {who : Writer} {a : Nat} {v : Word} {r : RegRef} (h : Passes s who a v r) (hid : r.desc.id = .modCmd)
    (ht : (s.extendDigest a v).modeCommand (v.toNat % 16) (decide (who = .selvage)) = (true, t)) : (s.writeWord who 4 a v none).2 = t := by
  obtain ⟨b, p, o, hr, hw, hj⟩ := h
  have taken : (s.extendDigest a v).modeCommand (bits v.toNat 0 4) (decide (who = .selvage)) = (true, t) := by
    rw [bits_zero_lo]
    exact ht
  rw [State.writeWord_alone hr, hj, State.takenOrRecorded, State.applyWord, hw]
  dsimp only
  rw [if_pos hid, hr.2.2, taken]
  rfl

/-- A command that writes the word its row names, where the word passes. -/
theorem exec_row_passes {s : State} {c : Instr} {w : WrIn} {a : Nat} {v : Word} {r : RegRef} (hc : rowWord c = some (w, a, v)) (hw : w.rival = none)
    (h : Passes s w.who a v r) (hid : r.desc.id ≠ .modCmd) : exec c s = .next ((s.extendDigest a v).takeWord r v.toNat []) := by
  rw [exec_rowWord hc, hw, State.writeWord_passes h hid]

/-- A token under verification stays so while CFG_DIGEST is extended (R353, R355). -/
theorem State.extendDigest_verifying (s : State) (a : Nat) (v : Word) : (s.extendDigest a v).sec.verifying = s.sec.verifying := by
  unfold State.extendDigest
  split <;> rfl

theorem State.putWord_of_ne {r : RegRef} (h1 : r.desc.id ≠ .drmMap) (h2 : r.desc.id ≠ .drmMsz) (s : State) (x : Nat) :
    s.putWord r x = s.setRd r.desc r.panel r.i r.j (w32 (r.desc.newWord (s.rd r.desc r.panel r.i r.j).toNat x)) := by
  unfold State.putWord
  dsimp only
  split
  · exact absurd ‹_› h1
  · exact absurd ‹_› h2
  · rfl

-- ---------------------------------------------------------------------------------------- what each row's word does

section
variable {s : State} {r : RegRef} (x : Nat) (found : List (Nat × Nat))

theorem State.takeWord_domCtl (h : r.desc.id = .domCtl) : s.takeWord r x found = s.domCtlEffect (s.putWord r x) r.i x := by
  simp only [State.takeWord, h]

theorem State.takeWord_chrVcommit (h : r.desc.id = .chrVcommit) : s.takeWord r x found = s.commitChart (x % 65536) := by
  simp only [State.takeWord, h]

theorem State.takeWord_chrVabort (h : r.desc.id = .chrVabort) : s.takeWord r x found = if bit x 0 then s.abortChart else s := by
  simp only [State.takeWord, h]

theorem State.takeWord_ndlRst (h : r.desc.id = .ndlRst) : s.takeWord r x found = s.resetStrand (r.panel * 416 + x % 512) := by
  simp only [State.takeWord, h, bits_zero_lo, Nat.reducePow]

theorem State.takeWord_tioPstat (h : r.desc.id = .tioPstat) : s.takeWord r x found = s.clearPstat (128 * r.panel + r.i) x := by
  simp only [State.takeWord, h]

theorem State.takeWord_hstQpctl (h : r.desc.id = .hstQpctl) : s.takeWord r x found = (s.setQpState r.i (x % 4)).getD s := by
  simp only [State.takeWord, h, bits_zero_lo, Nat.reducePow]

theorem State.takeWord_hstRing0 (h : r.desc.id = .hstRing0) :
    s.takeWord r x found = if bit x 0 && !s.ringEn r.i then (s.putWord r x).enableRing r.i else s.putWord r x := by
  simp only [State.takeWord, h]

theorem State.takeWord_hstHcfg (h : r.desc.id = .hstHcfg) : s.takeWord r x found = if bit x 2 then (s.putWord r x).failBack else s.putWord r x := by
  simp only [State.takeWord, h]

theorem State.takeWord_svAttn (h : r.desc.id = .svAttn) : s.takeWord r x found = s.putWord r x := by
  simp only [State.takeWord, h]

theorem State.takeWord_secTokctl (h : r.desc.id = .secTokctl) (hx : bit x 0 = true) (hv : s.sec.verifying = false) :
    s.takeWord r x found = { s.putWord r x with sec := { (s.putWord r x).sec with verifying := true } } := by
  simp only [State.takeWord, h, hx, hv, Bool.not_true, Bool.false_eq_true, if_false]

theorem State.takeWord_secArbadv (h : r.desc.id = .secArbadv) : s.takeWord r x found =
    if bit x 3 then (if bit x 2 then s.advanceArb (x % 4) else s).xferOwner else if bit x 2 then s.advanceArb (x % 4) else s := by
  simp only [State.takeWord, h, bits_zero_lo, Nat.reducePow]

theorem State.takeWord_recFlush (h : r.desc.id = .recFlush) :
    s.takeWord r x found = if bit x 0 then { s with rcd := { s.rcd with flushDue := true } } else s := by
  simp only [State.takeWord, h]

theorem State.takeWord_recFsel (h : r.desc.id = .recFsel) : s.takeWord r x found = (s.putWord r x).loadFbuf x := by
  simp only [State.takeWord, h]

theorem State.takeWord_sknLowrst (h : r.desc.id = .sknLowrst) : s.takeWord r x found = s.lowReset x := by
  simp only [State.takeWord, h]

theorem State.takeWord_swtExt (h : r.desc.id = .swtExt) : s.takeWord r x found = if bit x 0 then s.extTest r.panel found else s := by
  simp only [State.takeWord, h]

end

-- ----------------------------------------------------------------------------------------------------------- domains

/-- Both copies of a domain replaced. -/
theorem State.dom_setBoth {s : State} (h : SMap.sorted s.doms = true) {n q : Nat} (hn : n < 16) (hq : q < 2) (c : Nat → DomCopy) :
    ((s.setDom 0 n (c 0)).setDom 1 n (c 1)).dom q n = (c q).noting (s.dom q n) s.now := by
  rw [State.dom_setDom (State.sorted_setDom h 0 n _) hn hn, State.dom_setDom h hn hn, State.dom_setDom h hn hn]
  obtain rfl | rfl : q = 0 ∨ q = 1 := by omega
  · simp
  · simp

/-- A domain that is enabled starts in FAULT without a position (R32, R47). -/
theorem State.dom_enableDom {s : State} (h : SMap.sorted s.doms = true) {n q : Nat} (hn : n < 16) (hq : q < 2) :
    ((s.enableDom n).dom q n).state = .fault ∧ ((s.enableDom n).dom q n).cause = .notAcquired ∧ ((s.enableDom n).dom q n).epoch = 0 ∧
      ((s.enableDom n).dom q n).lost = (s.dom q n).lost := by
  unfold State.enableDom
  extract_lets old c
  rw [State.dom_setBoth h hn hq c]
  exact ⟨rfl, rfl, rfl, rfl⟩

/-- A domain that is disabled is in FAULT without a position (R45, R47). -/
theorem State.dom_disableDom {s : State} (h : SMap.sorted s.doms = true) {n q : Nat} (hn : n < 16) (hq : q < 2) :
    ((s.disableDom n).dom q n).state = .fault ∧ ((s.disableDom n).dom q n).epoch = 0 := by
  unfold State.disableDom
  extract_lets t c
  have kept : DomKept s t := ((domKept_fireDue s 0).trans (domKept_fireDue _ 1)).trans (pinsOnly_cancelEvs _ _ _).domKept
  have ht : SMap.sorted t.doms = true := kept.doms ▸ h
  rw [State.dom_setBoth ht hn hq c]
  exact ⟨rfl, rfl⟩

/-- A completion leaves the pending events alone. -/
theorem State.evs_complete (s : State) (e : Ev) (status late : Nat) : (s.complete e status late).evs = s.evs := by
  unfold State.complete
  dsimp only
  split <;> rfl

theorem State.evs_foldl_complete (l : List Ev) (status : Nat) (s : State) : (l.foldl (fun s e => s.complete e status 0) s).evs = s.evs := by
  induction l generalizing s with
  | nil => rfl
  | cons e l ih => exact (ih _).trans (State.evs_complete s e status 0)

/-- The events that are cancelled leave, and no others (R45). -/
theorem State.evs_cancelEvs (s : State) (p : Ev → Bool) (status : Nat) : (s.cancelEvs p status).evs = s.evs.filter fun e => !p e :=
  State.evs_foldl_complete _ _ _

/-- Nothing is flushed where no event is due. -/
theorem State.fireDue_of_not_due {s : State} (h : ∀ e ∈ s.evs, s.due e = false) (p : Nat) : s.fireDue p = s := by
  have none : (s.evs.filter fun e => decide (e.wheel = p) && s.due e && decide (s.dueTick e < s.now / 3000)) = [] :=
    List.filter_eq_nil_iff.2 fun e he => by simp [h e he]
  rw [State.fireDue, none]
  rfl

/-- Where no event is due, disabling a domain takes its pending events that have not fired, and no others (R45). -/
theorem State.mem_evs_disableDom {s : State} (h : ∀ e ∈ s.evs, s.due e = false) (n : Nat) (e : Ev) :
    e ∈ (s.disableDom n).evs ↔ e ∈ s.evs ∧ (e.domain = n → e.fired ≠ none) := by
  have left : (s.disableDom n).evs = s.evs.filter fun e => !(decide (e.domain = n) && e.fired.isNone) := by
    rw [← State.evs_cancelEvs s _ 0x08, State.disableDom, State.fireDue_of_not_due h, State.fireDue_of_not_due h]
    rfl
  rw [left, List.mem_filter, Bool.not_eq_true', Bool.and_eq_false_imp, decide_eq_true_eq, Option.isNone_eq_false_iff]
  simp only [Option.isSome_iff_ne_none]

/-- Whether an event is due depends on the SLEW of its domain and on no other register. -/
theorem State.due_of_slew {s u : State} (hd : u.doms = s.doms) (hn : u.now = s.now) (hm : u.md = s.md) {e : Ev}
    (hr : u.rf R.domCoast 0 e.domain 16 8 = s.rf R.domCoast 0 e.domain 16 8) : u.due e = s.due e := by
  have below : u.evRel e = s.evRel e := by rw [State.evRel, State.est, State.dom_congr hd, hn, hr, State.evRel, State.est]
  have above : u.evRelUp e = s.evRelUp e := by rw [State.evRelUp, State.dom_congr hd, hn, hr, State.evRelUp]
  rw [State.due, State.crossed, below, above, State.up_congr hm, State.dom_congr hd, State.due, State.crossed]

/-- A write of DOM_CTL makes no event due. -/
theorem State.due_putWord_domCtl {s : State} {r : RegRef} {n : Nat} (hid : r.desc.id = .domCtl) (ha : r.desc.addr r.panel r.i r.j = R.domCtl.addr 0 n)
    (x : Nat) (e : Ev) : (s.putWord r x).due e = s.due e := by
  rw [State.putWord_of_ne (by simp [hid]) (by simp [hid])]
  have ne : R.domCoast.addr 0 e.domain ≠ r.desc.addr r.panel r.i r.j := by
    rw [ha]
    simp only [RegDesc.addr, Blk.addr, Blk.base, Blk.space, R.domCoast, R.domCtl, reduceCtorEq, if_false]
    omega
  refine State.due_of_slew (by rfl) (by rfl) (by rfl) ?_
  rw [State.rf, State.rd, State.setRd, SMap.find_set_ne _ _ _ ne, State.rf, State.rd]

-- -------------------------------------------------------------------------------------------- pins, queue pairs, rings

theorem State.pin_setPin_self {s : State} (h : SMap.sorted s.tio.pins = true) (n : Nat) (c : Pin) : (s.setPin n c).pin n = c :=
  (SMap.get_set s.tio.pins {} n n c h).trans (if_pos rfl)

/-- A write of TIO_PSTAT changes the pin alone. -/
theorem State.clearPstat_frame (s : State) (n x : Nat) : s.clearPstat n x = { s with tio := (s.clearPstat n x).tio } := by
  unfold State.clearPstat State.clearSafe
  dsimp only
  split
  · split <;> rfl
  · rfl

/-- SAFE is cleared where the pin's owner is not lost, and the other bits stay (R262). -/
theorem State.pin_clearPstat {s : State} {n x : Nat} (h : SMap.sorted s.tio.pins = true) (hl : s.pinLost n = false) (hx : bits x 3 3 = 1) :
    (s.clearPstat n x).pin n = { s.pin n with safe := false } := by
  have b3 : bit x 3 = true := (bit_of_bits x 3 (w := 3) (i := 0) (by decide)).trans (by rw [hx]; rfl)
  have b4 : bit x 4 = false := (bit_of_bits x 3 (w := 3) (i := 1) (by decide)).trans (by rw [hx]; rfl)
  have b5 : bit x 5 = false := (bit_of_bits x 3 (w := 3) (i := 2) (by decide)).trans (by rw [hx]; rfl)
  have hs : SMap.sorted (s.setPin n { s.pin n with safe := false }).tio.pins = true := SMap.sorted_set _ _ _ h
  simp only [State.clearPstat, State.clearSafe, b3, b4, b5, hl, Bool.false_eq_true, if_false, if_true, Bool.not_false, Bool.and_true,
    State.pin_setPin_self h, State.pin_setPin_self hs]

/-- A queue pair in RESET goes to RTS with its numbers from HST_QP1 (R302). -/
theorem State.setQpState_rts {s : State} {n : Nat} (h : (s.qp n).state = 0) : s.setQpState n 1 = some (s.setQp n { ({} : Qp) with
    state := 1, spsn := bits (s.rd R.hstQp1 0 n 1).toNat 0 24, epsn := bits (s.rd R.hstQp1 0 n 2).toNat 0 24, sentAt := s.now, tickAt := s.now }) := by
  simp only [State.setQpState, h, State.rf]
  rfl

/-- A ring with no completed command in the journal starts empty (R307). -/
theorem State.enableRing_of_none {s : State} {n : Nat}
    (h : (s.hst.jrnl.filter fun e => decide (e.2.state = .done) && (decide (e.2.ring = n) || decide (s.ringPair e.2.ring = n))) = []) :
    s.enableRing n = s.setRing n {} := by
  rw [State.enableRing, h]
  rfl

/-- The bits of SEC_ARBADV that act (R353). -/
theorem advance_bits {x : Nat} (h : bits x 2 2 = 1) : bit x 2 = true ∧ bit x 3 = false :=
  ⟨(bit_of_bits x 2 (w := 2) (i := 0) (by decide)).trans (by rw [h]; rfl), (bit_of_bits x 2 (w := 2) (i := 1) (by decide)).trans (by rw [h]; rfl)⟩

theorem xfer_bits {x : Nat} (h : bits x 2 2 = 2) : bit x 2 = false ∧ bit x 3 = true :=
  ⟨(bit_of_bits x 2 (w := 2) (i := 0) (by decide)).trans (by rw [h]; rfl), (bit_of_bits x 2 (w := 2) (i := 1) (by decide)).trans (by rw [h]; rfl)⟩

-- -------------------------------------------------------------------------------------------------- the rows' commands

/-- What does not depend on the security state is as it was before CFG_DIGEST was extended (R355). -/
theorem State.extendDigest_keeps {α : Type} (f : State → α) {s : State} (h : ∀ y, f { s with sec := y } = f s) (a : Nat) (v : Word) :
    f (s.extendDigest a v) = f s := by
  rw [State.extendDigest_frame]
  exact h _

section
variable {s : State} {w : WrIn} {v : Word} {n p : Nat} {r : RegRef} (hw : w.rival = none)
include hw

/-- DOM_CTL acts on the domain its row names (R47). -/
theorem exec_domCtl {c : Instr} (hn : n < 16) (hc : rowWord c = some (w, R.domCtl.addr 0 (n % 16), v))
    (h : Passes s w.who (R.domCtl.addr 0 n) v r) (hid : r.desc.id = .domCtl) (hi : r.i = n) :
    exec c s = .next ((s.extendDigest (R.domCtl.addr 0 n) v).domCtlEffect ((s.extendDigest (R.domCtl.addr 0 n) v).putWord r v.toNat) n v.toNat) := by
  rw [Nat.mod_eq_of_lt hn] at hc
  rw [exec_row_passes hc hw h (by simp [hid]), State.takeWord_domCtl _ _ hid, hi]

theorem exec_domCtl_enable {c : Instr} (hn : n < 16) (hc : rowWord c = some (w, R.domCtl.addr 0 (n % 16), v))
    (h : Passes s w.who (R.domCtl.addr 0 n) v r) (hid : r.desc.id = .domCtl) (hi : r.i = n) (hen : s.domEn n = false) (hx : v.toNat % 2 = 1) :
    exec c s = .next (((s.extendDigest (R.domCtl.addr 0 n) v).putWord r v.toNat).enableDom n) := by
  have en : (s.extendDigest (R.domCtl.addr 0 n) v).domEn n = false := (State.extendDigest_keeps (·.domEn n) (fun _ => rfl) _ _).trans hen
  rw [exec_domCtl hw hn hc h hid hi, State.domCtlEffect, en, bit_zero, decide_eq_true hx]

theorem exec_domCtl_disable {c : Instr} (hn : n < 16) (hc : rowWord c = some (w, R.domCtl.addr 0 (n % 16), v))
    (h : Passes s w.who (R.domCtl.addr 0 n) v r) (hid : r.desc.id = .domCtl) (hi : r.i = n) (hen : s.domEn n = true) (hx : v.toNat % 2 = 0) :
    exec c s = .next (((s.extendDigest (R.domCtl.addr 0 n) v).putWord r v.toNat).disableDom n) := by
  have en : (s.extendDigest (R.domCtl.addr 0 n) v).domEn n = true := (State.extendDigest_keeps (·.domEn n) (fun _ => rfl) _ _).trans hen
  rw [exec_domCtl hw hn hc h hid hi, State.domCtlEffect, en, bit_zero, decide_eq_false (by omega)]

theorem exec_domCtl_resume {c : Instr} (hn : n < 16) (hc : rowWord c = some (w, R.domCtl.addr 0 (n % 16), v))
    (h : Passes s w.who (R.domCtl.addr 0 n) v r) (hid : r.desc.id = .domCtl) (hi : r.i = n) (hen : s.domEn n = true) (hx : v.toNat % 2 = 1)
    (hm : s.md.mode = .config) : exec c s = .next (((s.extendDigest (R.domCtl.addr 0 n) v).putWord r v.toNat).resumePrimary n) := by
  have en : (s.extendDigest (R.domCtl.addr 0 n) v).domEn n = true := (State.extendDigest_keeps (·.domEn n) (fun _ => rfl) _ _).trans hen
  have md : (s.extendDigest (R.domCtl.addr 0 n) v).md = s.md := State.extendDigest_keeps (·.md) (fun _ => rfl) _ _
  rw [exec_domCtl hw hn hc h hid hi, State.domCtlEffect, en, bit_zero, decide_eq_true hx, md]
  exact congrArg _ (if_pos hm)

/-- DOMAIN_ENABLE: both copies start anew (R32, R47). -/
theorem domainEnable_starts (hd : SMap.sorted s.doms = true) (hn : n < 16) (h : Passes s w.who (R.domCtl.addr 0 n) v r) (hid : r.desc.id = .domCtl)
    (hi : r.i = n) (hen : s.domEn n = false) (hx : v.toNat % 2 = 1) : ∃ u, exec (.domainEnable w n v) s = .next u ∧
      ∀ q, q < 2 → (u.dom q n).state = .fault ∧ (u.dom q n).cause = .notAcquired ∧ (u.dom q n).epoch = 0 ∧ (u.dom q n).lost = (s.dom q n).lost := by
  refine ⟨_, exec_domCtl_enable hw hn rfl h hid hi hen hx, fun q hq => ?_⟩
  have doms : ((s.extendDigest (R.domCtl.addr 0 n) v).putWord r v.toNat).doms = s.doms := by
    rw [State.putWord_of_ne (by simp [hid]) (by simp [hid])]
    exact State.extendDigest_keeps (·.doms) (fun _ => rfl) _ _
  rw [← State.dom_congr doms]
  exact State.dom_enableDom (by rw [doms]; exact hd) hn hq

/-- DOMAIN_DISABLE: the domain's pending events go, and both copies lose their position (R45, R47). -/
theorem domainDisable_stops (hd : SMap.sorted s.doms = true) (hn : n < 16) (h : Passes s w.who (R.domCtl.addr 0 n) v r) (hid : r.desc.id = .domCtl)
    (hi : r.i = n) (hen : s.domEn n = true) (hx : v.toNat % 2 = 0) : ∃ u, exec (.domainDisable w n v) s = .next u ∧
      ((∀ e ∈ s.evs, s.due e = false) → ∀ e, e ∈ u.evs ↔ e ∈ s.evs ∧ (e.domain = n → e.fired ≠ none)) ∧
      ∀ q, q < 2 → (u.dom q n).state = .fault ∧ (u.dom q n).epoch = 0 := by
  refine ⟨_, exec_domCtl_disable hw hn rfl h hid hi hen hx, fun hdue e => ?_, fun q hq => State.dom_disableDom ?_ hn hq⟩
  · have evs : ((s.extendDigest (R.domCtl.addr 0 n) v).putWord r v.toNat).evs = s.evs := by
      rw [State.putWord_of_ne (by simp [hid]) (by simp [hid])]
      exact State.extendDigest_keeps (·.evs) (fun _ => rfl) _ _
    rw [← evs]
    refine State.mem_evs_disableDom (fun e he => ?_) n e
    rw [State.due_putWord_domCtl hid h.addr]
    exact (State.extendDigest_keeps (·.due e) (fun _ => rfl) _ _).trans (hdue e (evs ▸ he))
  · rw [State.putWord_of_ne (by simp [hid]) (by simp [hid])]
    exact (congrArg SMap.sorted (State.extendDigest_keeps (·.doms) (fun _ => rfl) _ _)).trans hd

/-- SAFE_CLEAR (R262). -/
theorem safeClear_clears (hp : p < 2) (hn : n < 128) (h : Passes s w.who (R.tioPstat.addr p n) v r) (hid : r.desc.id = .tioPstat) (hpan : r.panel = p)
    (hi : r.i = n) (hx : bits v.toNat 3 3 = 1) (hl : s.pinLost (128 * p + n) = false) : ∃ u, exec (.safeClear w (128 * p + n) v) s = .next u ∧
      u = { s.extendDigest (R.tioPstat.addr p n) v with tio := u.tio } ∧
      (SMap.sorted s.tio.pins = true → u.pin (128 * p + n) = { s.pin (128 * p + n) with safe := false }) := by
  have row : rowWord (.safeClear w (128 * p + n) v) = some (w, R.tioPstat.addr p n, v) := by
    rw [rowWord, show (128 * p + n) / 128 % 2 = p by omega, show (128 * p + n) % 128 = n by omega]
  refine ⟨_, exec_row_passes row hw h (by simp [hid]), ?_, fun hs => ?_⟩
  · rw [State.takeWord_tioPstat _ _ hid, hpan, hi]
    exact State.clearPstat_frame _ _ _
  · have tio : (s.extendDigest (R.tioPstat.addr p n) v).tio = s.tio := State.extendDigest_keeps (·.tio) (fun _ => rfl) _ _
    have lost := (State.extendDigest_keeps (·.pinLost (128 * p + n)) (fun _ => rfl) (R.tioPstat.addr p n) v).trans hl
    rw [State.takeWord_tioPstat _ _ hid, hpan, hi, State.pin_clearPstat (by rw [tio]; exact hs) lost hx, State.pin, tio, State.pin]

/-- QP_STATE_WRITE of RTS to a queue pair in RESET (R302). -/
theorem exec_qpStateWrite_rts (hn : n < 64) (h : Passes s w.who (R.hstQpctl.addr 0 n) v r) (hid : r.desc.id = .hstQpctl) (hi : r.i = n)
    (hq : (s.qp n).state = 0) (hx : v.toNat % 4 = 1) :
    exec (.qpStateWrite w n v) s = .next ((s.extendDigest (R.hstQpctl.addr 0 n) v).setQp n { ({} : Qp) with
      state := 1, spsn := bits (s.rd R.hstQp1 0 n 1).toNat 0 24, epsn := bits (s.rd R.hstQp1 0 n 2).toNat 0 24, sentAt := s.now, tickAt := s.now }) := by
  have row : rowWord (.qpStateWrite w n v) = some (w, R.hstQpctl.addr 0 n, v) := by rw [rowWord, Nat.mod_eq_of_lt hn]
  have reset := (State.extendDigest_keeps (fun u => (u.qp n).state) (fun _ => rfl) (R.hstQpctl.addr 0 n) v).trans hq
  have regs : (s.extendDigest (R.hstQpctl.addr 0 n) v).regs = s.regs := State.extendDigest_keeps (·.regs) (fun _ => rfl) _ _
  have now : (s.extendDigest (R.hstQpctl.addr 0 n) v).now = s.now := State.extendDigest_keeps (·.now) (fun _ => rfl) _ _
  rw [exec_row_passes row hw h (by simp [hid]), State.takeWord_hstQpctl _ _ hid, hi, hx, State.setQpState_rts reset, State.rd_congr regs,
    State.rd_congr regs, now]
  rfl

/-- RING_ENABLE (R307). -/
theorem exec_ringEnable (hn : n < 256) (h : Passes s w.who (R.hstRing0.addr 0 n) v r) (hid : r.desc.id = .hstRing0) (hi : r.i = n)
    (hx : v.toNat % 2 = 1) (hen : s.ringEn n = false) :
    exec (.ringEnable w n v) s = .next (((s.extendDigest (R.hstRing0.addr 0 n) v).putWord r v.toNat).enableRing n) := by
  have row : rowWord (.ringEnable w n v) = some (w, R.hstRing0.addr 0 n, v) := by rw [rowWord, Nat.mod_eq_of_lt hn]
  have off := (State.extendDigest_keeps (·.ringEn n) (fun _ => rfl) (R.hstRing0.addr 0 n) v).trans hen
  rw [exec_row_passes row hw h (by simp [hid]), State.takeWord_hstRing0 _ _ hid, hi, bit_zero, decide_eq_true hx, off]
  rfl

/-- SEC_ARBADV advances an anti-rollback counter or transfers the owner (R353). -/
theorem exec_secArbadv {c : Instr} (hc : rowWord c = some (w, R.secArbadv.addr 0 0, v)) (h : Passes s w.who (R.secArbadv.addr 0 0) v r)
    (hid : r.desc.id = .secArbadv) :
    (bits v.toNat 2 2 = 1 → exec c s = .next ((s.extendDigest (R.secArbadv.addr 0 0) v).advanceArb (v.toNat % 4))) ∧
    (bits v.toNat 2 2 = 2 → exec c s = .next ((s.extendDigest (R.secArbadv.addr 0 0) v).xferOwner)) := by
  rw [exec_row_passes hc hw h (by simp [hid]), State.takeWord_secArbadv _ _ hid]
  refine ⟨fun hx => ?_, fun hx => ?_⟩
  · obtain ⟨b2, b3⟩ := advance_bits hx
    simp only [b2, b3, Bool.false_eq_true, if_false, if_true]
  · obtain ⟨b2, b3⟩ := xfer_bits hx
    simp only [b2, b3, Bool.false_eq_true, if_false, if_true]

/-- NDL_RST (R145, R261). -/
theorem exec_ndlRst (hp : p < 2) (h : Passes s w.who (R.ndlRst.addr p 0) v r) (hid : r.desc.id = .ndlRst) (hpan : r.panel = p) :
    exec (.ndlRst w p v) s = .next (((s.extendDigest (R.ndlRst.addr p 0) v).restart (p * 416 + v.toNat % 512)).loseOwner (p * 416 + v.toNat % 512)) := by
  have row : rowWord (.ndlRst w p v) = some (w, R.ndlRst.addr p 0, v) := by rw [rowWord, Nat.mod_eq_of_lt hp]
  rw [exec_row_passes row hw h (by simp [hid]), State.takeWord_ndlRst _ _ hid, hpan, State.resetStrand]

/-- EXTENDED_SELFTEST (R384). -/
theorem exec_extendedSelftest (hp : p < 2) (h : Passes s w.who (R.swtExt.addr p 0) v r) (hid : r.desc.id = .swtExt) (hpan : r.panel = p)
    (hx : v.toNat % 2 = 1) (found : List (Nat × Nat)) :
    exec (.extendedSelftest w p v found) s = .next ((s.extendDigest (R.swtExt.addr p 0) v).extTest p found) := by
  show Host.Outcome.next (s.rowWrite w R.swtExt (p % 2) 0 v found) = _
  rw [State.rowWrite, Nat.mod_eq_of_lt hp, hw, State.writeWord_passes h (by simp [hid]), State.takeWord_swtExt _ _ hid, bit_zero, decide_eq_true hx,
    if_pos rfl, hpan]

/-- TOKEN_GO (R353). -/
theorem exec_tokenGo (h : Passes s w.who (R.secTokctl.addr 0 0) v r) (hid : r.desc.id = .secTokctl) (hx : v.toNat % 2 = 1)
    (hv : s.sec.verifying = false) : exec (.tokenGo w v) s = .next { (s.extendDigest (R.secTokctl.addr 0 0) v).putWord r v.toNat with
      sec := { ((s.extendDigest (R.secTokctl.addr 0 0) v).putWord r v.toNat).sec with verifying := true } } := by
  rw [exec_row_passes rfl hw h (by simp [hid]), State.takeWord_secTokctl _ _ hid (by rw [bit_zero, decide_eq_true hx]) (by rw [State.extendDigest_verifying, hv])]

/-- FLUSH_GO (R394). -/
theorem exec_flushGo (h : Passes s w.who (R.recFlush.addr 0 0) v r) (hid : r.desc.id = .recFlush) (hx : v.toNat % 2 = 1) :
    exec (.flushGo w v) s = .next { s.extendDigest (R.recFlush.addr 0 0) v with rcd := { s.rcd with flushDue := true } } := by
  have rcd : (s.extendDigest (R.recFlush.addr 0 0) v).rcd = s.rcd := State.extendDigest_keeps (·.rcd) (fun _ => rfl) _ _
  rw [exec_row_passes rfl hw h (by simp [hid]), State.takeWord_recFlush _ _ hid, bit_zero, decide_eq_true hx, if_pos rfl, rcd]

/-- FAILBACK (R305). -/
theorem exec_failback (h : Passes s w.who (R.hstHcfg.addr 0 0) v r) (hid : r.desc.id = .hstHcfg) (hx : bits v.toNat 2 1 = 1) :
    exec (.failback w v) s = .next (((s.extendDigest (R.hstHcfg.addr 0 0) v).putWord r v.toNat).failBack) := by
  have b2 : bit v.toNat 2 = true := (bit_of_bits v.toNat 2 (w := 1) (i := 0) (by decide)).trans (by rw [hx]; rfl)
  rw [exec_row_passes rfl hw h (by simp [hid]), State.takeWord_hstHcfg _ _ hid, if_pos b2]

end

/-- Settles O35: each word that passes is taken by its row's effect, and each effect by what its bits ask for. -/
theorem rowWriteEffects : Obligations.RowWriteEffects := by
  intro s w v n p r hd hw
  refine ⟨?_, ?_, ?_, ?_, ?_, ?_, ?_, ?_, ?_, ?_, ?_, ?_, ?_, ?_, ?_, ?_⟩
  · rintro hn ⟨h, hid, -, hi⟩
    exact ⟨domainEnable_starts hw hd hn h hid hi, domainDisable_stops hw hd hn h hid hi, exec_domCtl_resume hw hn rfl h hid hi⟩
  · rintro ⟨h, hid, -, -⟩
    rw [exec_row_passes rfl hw h (by simp [hid]), State.takeWord_chrVcommit _ _ hid]
  · rintro ⟨h, hid, -, -⟩ hx
    rw [exec_row_passes rfl hw h (by simp [hid]), State.takeWord_chrVabort _ _ hid, bit_zero, decide_eq_true hx, if_pos rfl]
  · rintro hp ⟨h, hid, hpan, -⟩
    exact exec_ndlRst hw hp h hid hpan
  · rintro hp hn ⟨h, hid, hpan, hi⟩ hx hl
    exact safeClear_clears hw hp hn h hid hpan hi hx hl
  · rintro hn ⟨h, hid, -, hi⟩ hq hx
    exact exec_qpStateWrite_rts hw hn h hid hi hq hx
  · rintro hn ⟨h, hid, -, hi⟩ hx hen
    exact ⟨exec_ringEnable hw hn h hid hi hx hen, State.enableRing_of_none⟩
  · rintro ⟨h, hid, -, -⟩ hx
    exact exec_failback hw h hid hx
  · rintro ⟨h, hid, -, -⟩
    rw [exec_row_passes rfl hw h (by simp [hid]), State.takeWord_svAttn _ _ hid]
  · rintro ⟨h, hid, -, -⟩ hx hv
    exact exec_tokenGo hw h hid hx hv
  · rintro ⟨h, hid, -, -⟩
    exact ⟨(exec_secArbadv hw rfl h hid).1, (exec_secArbadv hw rfl h hid).2⟩
  · rintro ⟨h, hid, -, -⟩ hx
    exact exec_flushGo hw h hid hx
  · rintro ⟨h, hid, -, -⟩
    rw [exec_row_passes rfl hw h (by simp [hid]), State.takeWord_recFsel _ _ hid]
  · rintro ⟨h, hid, -, -⟩
    rw [exec_row_passes rfl hw h (by simp [hid]), State.takeWord_sknLowrst _ _ hid]
  · rintro found hp ⟨h, hid, hpan, -⟩ hx
    exact exec_extendedSelftest hw hp h hid hpan hx found
  · rintro ⟨h, hid, -, -⟩ t ht
    rw [exec_rowWord rfl, hw, State.writeWord_modCmd h hid ht]

end Sys2Proof.Machine
end

section
/-! PROOFS. Frames that are taken out of the switch core, and the ports that leave UP (R49, R61, R243, R254). -/

namespace Sys2Proof.Machine

theorem SMap.get_of_mem {β : Type} {m : SMap β} {e : Nat × β} (d : β) (h : SMap.sorted m = true) (he : e ∈ m) : SMap.get m d e.1 = e.2 := by
  induction m with
  | nil => cases he
  | cons x m ih =>
    rcases List.mem_cons.1 he with rfl | hm
    · simp [SMap.get, SMap.find]
    · have ne : x.1 ≠ e.1 := Nat.ne_of_lt (SMap.sorted_head h e hm)
      simpa [SMap.get, SMap.find, ne] using ih (SMap.sorted_tail h) hm

-- ------------------------------------------------------------------------------------------------- taking frames out

/-- The frames and the queues of the switch core are in their canonical order. -/
def State.queuesOk (s : State) : Prop := SMap.sorted s.swt.qs = true ∧ SMap.sorted s.swt.frames = true

/-- From `s` to `u` frames have only been taken out of the switch core, and counted: one that a queue of `s` held is still queued or is
forgotten, and none has come back. No port's condition has changed. -/
structure Thins (s u : State) : Prop where
  frame : u = { s with swt := { u.swt with link := s.swt.link }, ctrs := u.ctrs }
  queuesOk : u.queuesOk
  gone : ∀ n, s.fabFrame n = none → u.fabFrame n = none
  kept : ∀ k, ∀ n ∈ SMap.get s.swt.qs [] k, n ∈ SMap.get u.swt.qs [] k ∨ u.fabFrame n = none

theorem Thins.refl {s : State} (h : s.queuesOk) : Thins s s := ⟨rfl, h, fun _ hn => hn, fun _ _ hn => .inl hn⟩

theorem Thins.trans {s u v : State} (a : Thins s u) (b : Thins u v) : Thins s v where
  frame := by
    have e := b.frame
    rw [a.frame] at e
    exact e
  queuesOk := b.queuesOk
  gone n hn := b.gone n (a.gone n hn)
  kept k n hn := (a.kept k n hn).elim (b.kept k n) fun h => .inr (b.gone n h)

/-- A port's link state depends on nothing that taking frames out changes (R49). -/
theorem Thins.linkOf {s u : State} (h : Thins s u) (k : Nat) : u.linkOf k = s.linkOf k := by
  rw [h.frame]
  rfl

/-- What differs in the switch core other than its queues, its frames and the ports' conditions does not matter. -/
theorem Thins.withSwt {s u : State} (h : Thins s u) {w : SwtState} (hl : w.link = u.swt.link) (hq : w.qs = u.swt.qs) (hf : w.frames = u.swt.frames) :
    Thins s { u with swt := w } where
  frame := by
    have link : w.link = s.swt.link := hl.trans (congrArg (·.swt.link) h.frame)
    rw [h.frame, ← link]
  queuesOk := by
    rw [State.queuesOk, hq, hf]
    exact h.queuesOk
  gone n hn := by
    rw [State.fabFrame, hf]
    exact h.gone n hn
  kept k n hn := by
    rw [State.fabFrame, hf, hq]
    exact h.kept k n hn

theorem Thins.count {s u : State} (h : Thins s u) (set inst n : Nat) : Thins s (u.count set inst n) where
  frame := by
    rw [h.frame]
    rfl
  queuesOk := h.queuesOk
  gone := h.gone
  kept := h.kept

-- ------------------------------------------------------------------------------------- queues and frames of the core

/-- A queue that is replaced takes its class's deficit with it where it is left empty, and changes nothing else (R250). -/
theorem State.setQueue_frame (s : State) (p port tc : Nat) (l : List Nat) : s.setQueue p port tc l =
    { s with swt := { s.swt with qs := SMap.set s.swt.qs [] (qKey p port tc) l, dwrr := (s.setQueue p port tc l).swt.dwrr } } := by
  unfold State.setQueue
  split <;> rfl

theorem State.setQueue_qs (s : State) (p port tc : Nat) (l : List Nat) : (s.setQueue p port tc l).swt.qs = SMap.set s.swt.qs [] (qKey p port tc) l := by
  rw [State.setQueue_frame]

theorem State.setQueue_frames (s : State) (p port tc : Nat) (l : List Nat) : (s.setQueue p port tc l).swt.frames = s.swt.frames := by
  rw [State.setQueue_frame]

theorem State.setQueue_wentDown (s : State) (p port tc : Nat) (l : List Nat) : (s.setQueue p port tc l).swt.wentDown = s.swt.wentDown := by
  rw [State.setQueue_frame]

/-- The panel, port and class of a queue's key name that queue. -/
theorem qKey_of_key (k : Nat) : qKey (k / 8 / 1152) (k / 8 % 1152) (k % 8) = k := by
  unfold qKey
  omega

theorem State.fabFrame_delFrame {s : State} (h : SMap.sorted s.swt.frames = true) (n m : Nat) :
    (s.delFrame n).fabFrame m = if n = m then none else s.fabFrame m := SMap.find_del s.swt.frames n m h

theorem thins_delFrame {s : State} (h : s.queuesOk) (n : Nat) : Thins s (s.delFrame n) where
  frame := rfl
  queuesOk := ⟨h.1, SMap.sorted_del n h.2⟩
  gone m hm := by
    rw [State.fabFrame_delFrame h.2, hm, ite_self]
  kept _ _ hm := .inl hm

/-- A queue of `s` loses the frame `n`, which is forgotten. -/
theorem Thins.setQueue_filter {s u : State} (h : Thins s u) (hs : s.queuesOk) {n : Nat} (hn : u.fabFrame n = none) {e : Nat × List Nat} (he : e ∈ s.swt.qs) :
    Thins s (u.setQueue (e.1 / 8 / 1152) (e.1 / 8 % 1152) (e.1 % 8) (e.2.filter fun k => decide (k ≠ n))) := by
  have old : SMap.get s.swt.qs [] e.1 = e.2 := SMap.get_of_mem [] hs.1 he
  refine ⟨?_, ?_, fun m hm => ?_, fun k m hm => ?_⟩
  · rw [State.setQueue_frame, h.frame]
  · rw [State.queuesOk, State.setQueue_qs, State.setQueue_frames]
    exact ⟨SMap.sorted_set _ _ _ h.queuesOk.1, h.queuesOk.2⟩
  · rw [State.fabFrame, State.setQueue_frames]
    exact h.gone m hm
  · rw [State.fabFrame, State.setQueue_frames, State.setQueue_qs, qKey_of_key, SMap.get_set _ _ _ _ _ h.queuesOk.1]
    by_cases hk : e.1 = k
    · rw [if_pos hk]
      by_cases hmn : m = n
      · exact .inr (hmn ▸ hn)
      · rw [← hk, old] at hm
        exact .inl (List.mem_filter.2 ⟨hm, decide_eq_true hmn⟩)
    · rw [if_neg hk]
      exact h.kept k m hm

/-- A frame that is forgotten is in no queue, and no other frame leaves one. -/
theorem thins_forgetFrame {s : State} (h : s.queuesOk) (n : Nat) : Thins s (s.forgetFrame n) ∧ (s.forgetFrame n).fabFrame n = none := by
  have del : Thins s (s.delFrame n) ∧ (s.delFrame n).fabFrame n = none := ⟨thins_delFrame h n, by rw [State.fabFrame_delFrame h.2, if_pos rfl]⟩
  refine List.foldlRecOn (motive := fun u : State => Thins s u ∧ u.fabFrame n = none) _ _ ⟨del.1.withSwt rfl rfl rfl, del.2⟩ fun u hu e he => ?_
  refine ⟨hu.1.setQueue_filter h hu.2 (List.mem_of_mem_filter he), ?_⟩
  rw [State.fabFrame, State.setQueue_frames]
  exact hu.2

theorem State.forgetFrame_wentDown (s : State) (n : Nat) : (s.forgetFrame n).swt.wentDown = s.swt.wentDown :=
  List.foldlRecOn (motive := fun u : State => u.swt.wentDown = s.swt.wentDown) _ _ rfl fun u hu _ _ => (State.setQueue_wentDown u _ _ _ _).trans hu

/-- A frame that is dropped as LINK_DOWN is forgotten, if it was there (R49). -/
theorem thins_dropQueued {s : State} (h : s.queuesOk) (n : Nat) : Thins s (s.dropQueued n) ∧ (s.dropQueued n).fabFrame n = none := by
  unfold State.dropQueued
  split
  next hn => exact ⟨.refl h, hn⟩
  · exact ⟨(thins_forgetFrame h n).1.count _ _ _, (thins_forgetFrame h n).2⟩

theorem State.dropQueued_wentDown (s : State) (n : Nat) : (s.dropQueued n).swt.wentDown = s.swt.wentDown := by
  unfold State.dropQueued
  split
  · rfl
  · exact s.forgetFrame_wentDown n

theorem thins_foldl_dropQueued {s : State} (h : s.queuesOk) (l : List Nat) :
    Thins s (l.foldl State.dropQueued s) ∧ ∀ n ∈ l, (l.foldl State.dropQueued s).fabFrame n = none := by
  induction l generalizing s with
  | nil => exact ⟨.refl h, by simp⟩
  | cons n l ih =>
    obtain ⟨one, none⟩ := thins_dropQueued h n
    obtain ⟨rest, nones⟩ := ih one.queuesOk
    refine ⟨one.trans rest, fun m hm => ?_⟩
    rcases List.mem_cons.1 hm with rfl | hm
    · exact rest.gone m none
    · exact nones m hm

-- -------------------------------------------------------------------------------------------------- a port leaves UP

/-- The frame whose attempts a CAN port has begun is given up (R61). -/
def State.abandonCan (s : State) (port : Nat) : State :=
  match SMap.find s.swt.canTx port with
  | none => s
  | some c =>
    let m := (s.forgetFrame c.frame).countPort port 8
    { m with swt := { m.swt with canTx := SMap.del m.swt.canTx port } }

/-- The frames that wait at a port. -/
def State.queuedAt (s : State) (port : Nat) : List Nat := (List.range 8).flatMap fun tc => s.queue (portPanel port) port tc

theorem State.dropQueues_eq (s : State) (port : Nat) :
    s.dropQueues port = ((s.abandonCan port).queuedAt port).foldl State.dropQueued (s.abandonCan port) := rfl

theorem thins_abandonCan {s : State} (h : s.queuesOk) (port : Nat) : Thins s (s.abandonCan port) := by
  unfold State.abandonCan
  split
  · exact .refl h
  · exact ((thins_forgetFrame h _).1.count 2 port 8).withSwt rfl rfl rfl

theorem State.abandonCan_wentDown (s : State) (port : Nat) : (s.abandonCan port).swt.wentDown = s.swt.wentDown := by
  unfold State.abandonCan
  split
  · rfl
  next c _ => exact s.forgetFrame_wentDown c.frame

/-- No frame that waited at the port remains once its queues are dropped (R49). -/
theorem thins_dropQueues {s : State} (h : s.queuesOk) (port : Nat) :
    Thins s (s.dropQueues port) ∧ ∀ tc < 8, ∀ n ∈ s.queue (portPanel port) port tc, (s.dropQueues port).fabFrame n = none := by
  have can := thins_abandonCan h port
  obtain ⟨rest, nones⟩ := thins_foldl_dropQueued can.queuesOk ((s.abandonCan port).queuedAt port)
  rw [State.dropQueues_eq]
  refine ⟨can.trans rest, fun tc ht n hn => (can.kept _ n hn).elim (fun hq => nones n ?_) (rest.gone n)⟩
  exact List.mem_flatMap.2 ⟨tc, List.mem_range.2 ht, hq⟩

theorem State.dropQueues_wentDown (s : State) (port : Nat) : (s.dropQueues port).swt.wentDown = s.swt.wentDown := by
  rw [State.dropQueues_eq]
  exact List.foldlRecOn (motive := fun u : State => u.swt.wentDown = s.swt.wentDown) _ _ (s.abandonCan_wentDown port) fun u hu n _ => (State.dropQueued_wentDown u n).trans hu

/-- One port of a link leaves UP, if it was. -/
def State.leavePort (s : State) (q : Nat) : State :=
  if s.linkOf q = .up then
    let m := s.dropQueues q
    { m with swt := { m.swt with
      wentDown := SMap.set m.swt.wentDown false q true, verified := SMap.set m.swt.verified false q false
      tx := SMap.set m.swt.tx [] q ((SMap.get m.swt.tx [] q).filter fun x => x.cut.isNone) } }
  else s

theorem State.leaveUp_eq (s : State) (p : Nat) : s.leaveUp p = (linkGroup p).foldl State.leavePort s := rfl

/-- From `s` to `u` the ports `l` have left UP: WENT_DOWN of each that was UP is set, and no frame that waited at it remains (R49). -/
structure Leaves (l : List Nat) (s u : State) : Prop extends Thins s u where
  flagsOk : SMap.sorted u.swt.wentDown = true
  wentDown : ∀ k, SMap.get u.swt.wentDown false k = (SMap.get s.swt.wentDown false k || (decide (k ∈ l) && decide (s.linkOf k = .up)))
  emptied : ∀ k ∈ l, s.linkOf k = .up → ∀ tc < 8, ∀ n ∈ s.queue (portPanel k) k tc, u.fabFrame n = none

theorem leaves_leavePort {s : State} (h : s.queuesOk) (hw : SMap.sorted s.swt.wentDown = true) (q : Nat) : Leaves [q] s (s.leavePort q) := by
  unfold State.leavePort
  split
  next up =>
    obtain ⟨thins, nones⟩ := thins_dropQueues h q
    refine ⟨thins.withSwt rfl rfl rfl, ?_, fun k => ?_, fun k hk _ => ?_⟩
    · dsimp only
      rw [State.dropQueues_wentDown]
      exact SMap.sorted_set _ _ _ hw
    · dsimp only
      rw [State.dropQueues_wentDown, SMap.get_set _ _ _ _ _ hw]
      by_cases hk : q = k
      · subst hk
        simp [up]
      · simp [hk, Ne.symm hk]
    · obtain rfl := List.mem_singleton.1 hk
      exact nones
  next down =>
    refine ⟨.refl h, hw, fun k => ?_, fun k hk up => ?_⟩
    · by_cases hk : k = q
      · simp [hk, down]
      · simp [hk]
    · obtain rfl := List.mem_singleton.1 hk
      exact absurd up down

theorem Leaves.cons {q : Nat} {l : List Nat} {s u v : State} (a : Leaves [q] s u) (b : Leaves l u v) : Leaves (q :: l) s v where
  toThins := a.toThins.trans b.toThins
  flagsOk := b.flagsOk
  wentDown k := by
    rw [b.wentDown, a.wentDown, a.toThins.linkOf]
    simp only [List.mem_cons, List.not_mem_nil, or_false, Bool.decide_or, Bool.and_or_distrib_right, Bool.or_assoc]
  emptied k hk up tc ht n hn := by
    rcases List.mem_cons.1 hk with rfl | hk
    · exact b.gone n (a.emptied k (by simp) up tc ht n hn)
    · exact (a.kept _ n hn).elim (b.emptied k hk ((a.toThins.linkOf k).trans up) tc ht n) (b.gone n)

theorem leaves_foldl {s : State} (h : s.queuesOk) (hw : SMap.sorted s.swt.wentDown = true) (l : List Nat) : Leaves l s (l.foldl State.leavePort s) := by
  induction l generalizing s with
  | nil => exact ⟨.refl h, hw, by simp, by simp⟩
  | cons q l ih =>
    have one := leaves_leavePort h hw q
    exact one.cons (ih one.queuesOk one.flagsOk)

/-- A port's own UP condition reads as last set, and no other port's changes (R49). -/
theorem State.condUp_setCond {s : State} (h : SMap.sorted s.swt.link = true) (p k : Nat) (v : Bool) :
    (s.setCond p v).condUp k = if k = p then v else s.condUp k := by
  simp only [State.condUp, State.setCond, SMap.get_set _ _ _ _ _ h]
  by_cases hk : k = p
  · subst hk
    cases v <;> cases decide (k < 32) <;> simp
  · simp [hk, Ne.symm hk]

end Sys2Proof.Machine
end

section
/-! PROOFS. The commands that move a link, abandon a frame or verify preemption (R49, R61, R71, R254). -/

namespace Sys2Proof.Machine

/-- A port's link follows the condition of one port, which follows its own (R425). -/
theorem linkPort_of_not_t1s {p : Nat} (h : p < 32 ∨ 800 ≤ p) : linkPort p = p := by
  rw [linkPort, if_neg]
  simp only [Bool.and_eq_true, decide_eq_true_eq]
  omega

section
variable {s : State} {p : Nat}

/-- A port whose UP condition fails takes the ports of its link DOWN with it (R49). -/
theorem State.condDown_falls (hl : SMap.sorted s.swt.link = true) (hw : SMap.sorted s.swt.wentDown = true) (h : s.queuesOk) :
    s.condDown p = { s with swt := (s.condDown p).swt, ctrs := (s.condDown p).ctrs } ∧ (s.condDown p).condUp p = false ∧
    (∀ k, k ≠ p → (s.condDown p).condUp k = s.condUp k) ∧
    (∀ k, SMap.get (s.condDown p).swt.wentDown false k = (SMap.get s.swt.wentDown false k || (decide (k ∈ linkGroup p) && decide (s.linkOf k = .up)))) ∧
    (∀ k ∈ linkGroup p, s.linkOf k = .up → ∀ tc < 8, ∀ n ∈ s.queue (portPanel k) k tc, (s.condDown p).fabFrame n = none) := by
  have left : Leaves (linkGroup p) s (s.leaveUp p) := leaves_foldl h hw _
  have link : (s.leaveUp p).swt.link = s.swt.link := congrArg (·.swt.link) left.frame
  have cond (k : Nat) : (s.condDown p).condUp k = if k = p then false else s.condUp k := by
    rw [State.condDown, State.condUp_setCond (link ▸ hl)]
    simp only [State.condUp, link]
  refine ⟨?_, ?_, fun k hk => ?_, left.wentDown, left.emptied⟩
  · rw [State.condDown, left.frame]
    rfl
  · rw [cond, if_pos rfl]
  · rw [cond, if_neg hk]

theorem exec_portLinkDown {port : Nat} (hp : linkPort port < 960) (h : s.condUp (linkPort port) = true) :
    exec (.portLinkDown port) s = .next (s.condDown (linkPort port)) := by
  show execPortLinkDown port s = _
  simp [execPortLinkDown, h, hp]

theorem exec_linDominantTimeout (h1 : 960 ≤ p) (h2 : p < 1024) (h : s.condUp p = true) : exec (.linDominantTimeout p) s = .next (s.condDown p) := by
  show execLinDominantTimeout p s = _
  simp [execLinDominantTimeout, h, h1, h2]

theorem exec_linRecessiveRecovery (h1 : 960 ≤ p) (h2 : p < 1024) (h : s.condUp p = false) : exec (.linRecessiveRecovery p) s = .next (s.setCond p true) := by
  show execLinRecessiveRecovery p s = _
  simp [execLinRecessiveRecovery, h, h1, h2]

theorem exec_canBusoffRecovery (h1 : 800 ≤ p) (h2 : p < 960) (h : s.condUp p = false) : exec (.canBusoffRecovery p) s = .next (s.setCond p true) := by
  show execCanBusoffRecovery p s = _
  simp [execCanBusoffRecovery, h, h1, h2]

/-- The port regains its condition, and an Ethernet port of a mode that resolves one its rate (R71). -/
theorem exec_portLinkUp {port : Nat} (hp : linkPort port < 800) (h : s.condUp (linkPort port) = false) (rate : Nat) :
    exec (.portLinkUp port rate) s = .next (s.setCond (linkPort port) true) ∨
    exec (.portLinkUp port rate) s = .next { s.setCond (linkPort port) true with
      swt := { (s.setCond (linkPort port) true).swt with rate := SMap.set s.swt.rate 0 (linkPort port) rate } } := by
  show execPortLinkUp port rate s = _ ∨ execPortLinkUp port rate s = _
  unfold execPortLinkUp
  dsimp only
  rw [if_neg (by simp [h, hp])]
  split
  · exact .inr rfl
  · exact .inl rfl

/-- USXGMII resolves every rate that a link has (R71). -/
theorem exec_portLinkUp_rate {rate : Nat} (h1 : 4 ≤ p) (h2 : p < 32) (h : s.condUp p = false) (hm : s.portModeOf p = 2) (hr : rate ≤ 5) :
    exec (.portLinkUp p rate) s = .next { s.setCond p true with swt := { (s.setCond p true).swt with rate := SMap.set s.swt.rate 0 p rate } } := by
  show execPortLinkUp p rate s = _
  unfold execPortLinkUp
  rw [linkPort_of_not_t1s (.inl h2)]
  dsimp only
  rw [if_neg (by simp only [h, Bool.or_false, decide_eq_true_eq]; omega), if_pos (by simp [h1, h2, hm, hr])]
  rfl

/-- A condition that returns brings its port up and moves no other (R49). -/
theorem State.setCond_rises (hl : SMap.sorted s.swt.link = true) :
    (s.setCond p true).condUp p = true ∧ ∀ k, k ≠ p → (s.setCond p true).condUp k = s.condUp k :=
  ⟨by rw [State.condUp_setCond hl, if_pos rfl], fun k hk => by rw [State.condUp_setCond hl, if_neg hk]⟩

theorem exec_txAbandon {c : CanTx} (hc : SMap.find s.swt.canTx p = some c) (h : c.first + 2 * msU ≤ s.now ∨ s.linkOf p ≠ .up) :
    let m := ((s.popQueue (portPanel p) p c.tc).delFrame c.frame).countPort p 8
    exec (.txAbandon p) s = .next { m with swt := { m.swt with canTx := SMap.del m.swt.canTx p } } := by
  show execTxAbandon p s = _
  unfold execTxAbandon
  rw [hc]
  dsimp only
  rw [if_neg]
  simp only [Bool.and_eq_true, decide_eq_true_eq, not_and_or, not_lt]
  exact h

/-- An abandoned CAN frame leaves its queue and is counted (R61). -/
theorem txAbandon_abandons {c : CanTx} (hq : s.queuesOk) (ht : SMap.sorted s.swt.canTx = true) (hc : SMap.find s.swt.canTx p = some c)
    (h : c.first + 2 * msU ≤ s.now ∨ s.linkOf p ≠ .up) :
    Ends (.txAbandon p) s fun u => u = { s with swt := u.swt, ctrs := u.ctrs } ∧ SMap.find u.swt.canTx p = none ∧ u.fabFrame c.frame = none ∧
      u.queue (portPanel p) p c.tc = (s.queue (portPanel p) p c.tc).drop 1 ∧ u.ctrs = (s.countPort p 8).ctrs := by
  have pop : s.popQueue (portPanel p) p c.tc = { s with swt := (s.popQueue (portPanel p) p c.tc).swt } := by
    rw [State.popQueue, State.setQueue_frame]
  have canTx : (s.popQueue (portPanel p) p c.tc).swt.canTx = s.swt.canTx := congrArg (·.swt.canTx) (State.setQueue_frame _ _ _ _ _)
  have frames : (s.popQueue (portPanel p) p c.tc).swt.frames = s.swt.frames := State.setQueue_frames _ _ _ _ _
  refine ⟨_, exec_txAbandon hc h, ?_, ?_, ?_, ?_, ?_⟩
  · rw [pop]
    rfl
  · show SMap.find (SMap.del (s.popQueue _ _ _).swt.canTx p) p = none
    rw [canTx, SMap.find_del _ _ _ ht, if_pos rfl]
  · show SMap.find (SMap.del (s.popQueue _ _ _).swt.frames c.frame) c.frame = none
    rw [frames, SMap.find_del _ _ _ hq.2, if_pos rfl]
  · show SMap.get (s.setQueue _ _ _ _).swt.qs [] _ = _
    rw [State.setQueue_qs, SMap.get_set _ _ _ _ _ hq.1, if_pos rfl]
  · rw [pop]
    rfl

/-- Verification runs on a port that is UP, has preemption enabled and verification not disabled, and has yet to succeed (R254). -/
theorem exec_preemptionVerification (h1 : 4 ≤ p) (h2 : p < 32) (he : s.rb R.egrPcfg (portPanel p) (portLocal p) 20 = true)
    (hd : s.rb R.egrPcfg (portPanel p) (portLocal p) 23 = false) (hu : s.linkOf p = .up) (hv : SMap.get s.swt.verified false p = false) :
    exec (.preemptionVerification p true) s = .next { s with swt := { s.swt with verified := SMap.set s.swt.verified false p true } } ∧
    exec (.preemptionVerification p false) s = .next (s.countPort p 14) := by
  constructor
  · show execPreemptionVerification p true s = _
    simp [execPreemptionVerification, h1, h2, he, hd, hu, hv]
  · show execPreemptionVerification p false s = _
    simp [execPreemptionVerification, h1, h2, he, hd, hu, hv]

end

/-- Settles O38: what takes a port's condition away empties its link's queues, and what gives it back changes that condition alone. -/
theorem linkStates : Obligations.LinkStates := by
  intro s port hl hw hq hf hr hc
  dsimp only
  have falls (p : Nat) := State.condDown_falls (p := p) hl hw ⟨hq, hf⟩
  have rises (p : Nat) := State.setCond_rises (p := p) hl
  refine ⟨fun hp up => ⟨_, exec_portLinkDown hp up, falls _⟩,
    fun h1 h2 => ⟨fun up => ⟨_, exec_linDominantTimeout h1 h2 up, falls _⟩, fun down => ⟨_, exec_linRecessiveRecovery h1 h2 down, rfl, rises _⟩⟩,
    fun h1 h2 down => ⟨_, exec_canBusoffRecovery h1 h2 down, rfl, rises _⟩, fun rate hp down => ?_, fun rate h1 h2 down hm hle => ?_,
    fun c hfind h => txAbandon_abandons ⟨hq, hf⟩ hc hfind h, fun h1 h2 he hd hu hv hs => ⟨?_, (exec_preemptionVerification h1 h2 he hd hu hv).2⟩⟩
  · rcases exec_portLinkUp hp down rate with e | e
    · exact ⟨_, e, rfl, rises _⟩
    · exact ⟨_, e, rfl, rises _⟩
  · exact ⟨_, exec_portLinkUp_rate h1 h2 down hm hle, (SMap.get_set _ _ _ _ _ hr).trans (if_pos rfl), rfl⟩
  · refine ⟨_, (exec_preemptionVerification h1 h2 he hd hu hv).1, rfl, fun k => ?_⟩
    dsimp only
    rw [SMap.get_set _ _ _ _ _ hs]
    by_cases hk : k = port
    · simp [hk]
    · simp [hk, Ne.symm hk]

end Sys2Proof.Machine
end

section
/-! PROOFS. The checks of reception and what passes them: Ethernet ports and T1S segments (R52, R56, R57, R425, R426). -/

namespace Sys2Proof.Machine

-- -------------------------------------------------------------------------------------------- the end of reception

/-- Command `c` run in `s` has the frame `bs` wait for panel `p`'s parser, as `m` admits and stores it; or counts it as ING_CONG where no
cells are free (R100, R426). -/
def AwaitsParser (c : Instr) (s m : State) (p port : Nat) (bs : List Byte) (stamp : HWord) : Prop :=
  (∀ r x cs u, m.admitIngress p (rxCells bs.length) = some (r, x) → m.storeFrame p bs = (cs, u) →
    u = { m with mem := { m.mem with dev := u.mem.dev }, fresh := m.fresh + 1 } ∧
    exec c s = .next (u.withParse p (SMap.get m.swt.parseQ [] p ++
      [{ port := port, ingress := port, frame := bs, stamp := stamp, cellsR := r, cellsS := x, cells := cs, rx := some s.now }]))) ∧
  (m.admitIngress p (rxCells bs.length) = none → exec c s = .next (m.countPort port 13))

/-- A frame that reaches the last steps of reception outside LIMP is admitted and stored, or counted (R426). -/
theorem awaitsParser_of_rxTail {c : Instr} {s m : State} {port : Nat} {bs : List Byte} {stamp : HWord} (h : exec c s = .next (m.rxTail port bs stamp))
    (hm : m.md.mode ≠ .limp) (hn : m.now = s.now) : AwaitsParser c s m (portPanel port) port bs stamp := by
  unfold State.rxTail at h
  rw [if_neg hm] at h
  refine ⟨fun r x cs u ha hs => ?_, fun ha => ?_⟩
  · have stored : u = { m with mem := { m.mem with dev := u.mem.dev }, fresh := m.fresh + 1 } := by
      have e := State.storeFrame_frame m (portPanel port) bs
      rw [hs] at e
      exact e
    have queued : u.swt.parseQ = m.swt.parseQ := congrArg (·.swt.parseQ) stored
    have now : u.now = s.now := (congrArg (·.now) stored).trans hn
    refine ⟨stored, h.trans ?_⟩
    simp [ha, hs, queued, now, State.withParse]
  · rw [h]
    simp [ha]

/-- One that is admitted is queued, and the parser's queue and the cells are all that changes (R100, R426). -/
theorem AwaitsParser.ends {c : Instr} {s m : State} {p port : Nat} {bs : List Byte} {stamp : HWord} (h : AwaitsParser c s m p port bs stamp)
    (hq : SMap.sorted m.swt.parseQ = true) {r x : Nat} (ha : m.admitIngress p (rxCells bs.length) = some (r, x)) :
    Ends c s fun u => u = { m with swt := { m.swt with parseQ := u.swt.parseQ }, mem := { m.mem with dev := u.mem.dev }, fresh := m.fresh + 1 } ∧
      ∃ it, SMap.get u.swt.parseQ [] p = SMap.get m.swt.parseQ [] p ++ [it] ∧ it.port = port ∧ it.frame = bs := by
  rcases hs : m.storeFrame p bs with ⟨cs, v⟩
  obtain ⟨stored, e⟩ := h.1 r x cs v ha hs
  have queued : v.swt.parseQ = m.swt.parseQ := congrArg (·.swt.parseQ) stored
  refine ⟨_, e, ?_, { port := port, ingress := port, frame := bs, stamp := stamp, cellsR := r, cellsS := x, cells := cs, rx := some s.now }, ?_, rfl, rfl⟩
  · rw [stored]
    rfl
  · dsimp only [State.withParse]
    rw [queued, SMap.get_set _ _ _ _ _ hq, if_pos rfl]

-- --------------------------------------------------------------------------------------------- a frame's ingress port

section
variable {s : State} {f : RxFrame} {bs : List Byte}

theorem exec_frameReceive_dropped {m : State} (ho : s.rxOpen f.port = true) (hd : f.data = .eth bs) (hp : f.port < 800) (h : s.rxEth f bs = (none, m)) :
    exec (.frameReceive f) s = .next m := by
  show Host.Outcome.next (s.receive f) = _
  simp [State.receive, ho, hd, Nat.not_le.2 hp, h]

theorem exec_frameReceive_credited {m : State} {port : Nat} (ho : s.rxOpen f.port = true) (hd : f.data = .eth bs) (hp : f.port < 800)
    (h : s.rxEth f bs = (some port, m)) : exec (.frameReceive f) s = .next (m.rxHost f port bs) := by
  show Host.Outcome.next (s.receive f) = _
  simp [State.receive, ho, hd, Nat.not_le.2 hp, h]

/-- A frame that is neither the host engine's nor a Register Access Frame goes on to the parser (R301, R318, R426). -/
theorem State.rxHost_of_open {port : Nat} (hh : (s.hostPort port && s.hostTraffic bs) = false) (hr : port = 0 → etherAt bs (rtagPos bs) ≠ 0x88B5)
    (ho : s.rxOpen port = true) : s.rxHost f port bs = s.rxTail port bs (s.stamp (portPanel port) (s.tsDom port)) := by
  unfold State.rxHost
  rw [hh, if_neg Bool.false_ne_true, if_neg, if_pos ho]
  simpa using hr

/-- On a port of its own a frame is checked for its length and its protection (R52, R426). -/
theorem State.rxEth_wired (hp : f.port < 32) : s.rxEth f bs =
    if s.maxFrm f.port < bs.length + 4 then (none, s.countPort f.port 0)
    else if s.macsecOk f.port bs f.sec = false then (none, s.countPort f.port 1) else (some f.port, s) := by
  unfold State.rxEth
  simp [Nat.not_le.2 hp]

/-- On a segment the frame's transmit opportunity must name one of its nodes (R56). -/
theorem State.t1sCredit_none (seg : Nat) {opp : Nat} {ok : Bool} (h : ok = false ∨ opp = 0) : s.t1sCredit seg opp ok = (none, s.countPort (32 + 8 * seg) 2) := by
  unfold State.t1sCredit
  rcases h with rfl | rfl
  · simp
  · simp

section
variable {seg opp : Nat} (h0 : 0 < opp) (h1 : opp < s.rf R.t1sPlca 0 seg 0 4)
include h0 h1

/-- A node-port that is absent or disabled takes no frame (R56, R425). -/
theorem State.t1sCredit_absent (h : s.rb R.npCfg 0 (32 + 8 * seg + opp - 32) 0 = false ∨ s.portEn (32 + 8 * seg + opp) = false) :
    s.t1sCredit seg opp true = (none, s.countPort (32 + 8 * seg + opp) 3) := by
  unfold State.t1sCredit
  dsimp only
  rw [if_neg (by simp [Nat.ne_of_gt h0, h1]), if_pos (by simpa using h)]

theorem State.t1sCredit_present (h2 : s.rb R.npCfg 0 (32 + 8 * seg + opp - 32) 0 = true) (h3 : s.portEn (32 + 8 * seg + opp) = true) :
    s.t1sCredit seg opp true = (some (32 + 8 * seg + opp), s) := by
  unfold State.t1sCredit
  dsimp only
  rw [if_neg (by simp [Nat.ne_of_gt h0, h1]), if_neg (by simp [h2, h3])]

end

section
variable (hlo : 32 ≤ f.port) (hhi : f.port < 800)
include hlo hhi

theorem State.rxEth_uncredited {m : State} (h : s.t1sCredit ((f.port - 32) / 8) f.opp f.oppOk = (none, m)) : s.rxEth f bs = (none, m) := by
  unfold State.rxEth
  simp [hlo, hhi, h]

/-- A frame credited to a node-port that is short enough and protected is held against the port's sources (R52, R57). -/
theorem State.rxEth_credited {p : Nat} (h : s.t1sCredit ((f.port - 32) / 8) f.opp f.oppOk = (some p, s)) (hl : bs.length + 4 ≤ s.maxFrm p)
    (hm : s.macsecOk p bs f.sec = true) : s.rxEth f bs = (if (s.bindCheck p bs).2 then some p else none, (s.bindCheck p bs).1) := by
  unfold State.rxEth
  simp [hlo, hhi, h, Nat.not_lt.2 hl, hm]

end

/-- A group address is no source (R57). -/
theorem State.bindCheck_group {p : Nat} (h : bit (byteAt (sliceZ bs 6 6) 0).toNat 0 = true) : s.bindCheck p bs = (s.countPort p 4, false) := by
  unfold State.bindCheck
  simp [h]

theorem State.bindCheck_bound {p : Nat} (h : bit (byteAt (sliceZ bs 6 6) 0).toNat 0 = false) (hb : s.boundAt p 0 = some (leVal (sliceZ bs 6 6))) :
    s.bindCheck p bs = (s, true) := by
  unfold State.bindCheck
  simp [h, hb]

-- ------------------------------------------------------------------------------------------- whole Ethernet receptions

section
variable (ho : s.rxOpen f.port = true) (hd : f.data = .eth bs)
include ho hd

theorem exec_frameReceive_long (hp : f.port < 32) (hl : s.maxFrm f.port < bs.length + 4) : exec (.frameReceive f) s = .next (s.countPort f.port 0) :=
  exec_frameReceive_dropped ho hd (by omega) (by rw [State.rxEth_wired hp, if_pos hl])

theorem exec_frameReceive_unprotected (hp : f.port < 32) (hl : bs.length + 4 ≤ s.maxFrm f.port) (hm : s.macsecOk f.port bs f.sec = false) :
    exec (.frameReceive f) s = .next (s.countPort f.port 1) :=
  exec_frameReceive_dropped ho hd (by omega) (by rw [State.rxEth_wired hp, if_neg (Nat.not_lt.2 hl), if_pos hm])

theorem frameReceive_wired_awaits (hmode : s.md.mode ≠ .limp) (hp : f.port < 32) (hl : bs.length + 4 ≤ s.maxFrm f.port)
    (hm : s.macsecOk f.port bs f.sec = true) (hh : (s.hostPort f.port && s.hostTraffic bs) = false) (hr : f.port = 0 → etherAt bs (rtagPos bs) ≠ 0x88B5) :
    AwaitsParser (.frameReceive f) s s (portPanel f.port) f.port bs (s.stamp (portPanel f.port) (s.tsDom f.port)) := by
  have credited : s.rxEth f bs = (some f.port, s) := by rw [State.rxEth_wired hp, if_neg (Nat.not_lt.2 hl), if_neg (by simp [hm])]
  refine awaitsParser_of_rxTail ?_ hmode rfl
  rw [exec_frameReceive_credited ho hd (by omega) credited, State.rxHost_of_open hh hr ho]

section
variable (hlo : 32 ≤ f.port) (hhi : f.port < 800)
include hlo hhi

/-- A frame on a segment that no node-port is credited with is dropped and counted (R56). -/
theorem exec_frameReceive_uncredited (h : f.oppOk = false ∨ f.opp = 0) :
    exec (.frameReceive f) s = .next (s.countPort (32 + 8 * ((f.port - 32) / 8)) 2) :=
  exec_frameReceive_dropped ho hd hhi (State.rxEth_uncredited hlo hhi (State.t1sCredit_none _ h))

variable (hok : f.oppOk = true) (h0 : 0 < f.opp) (h1 : f.opp < s.rf R.t1sPlca 0 ((f.port - 32) / 8) 0 4)
variable {node : Nat} (hnode : node = 32 + 8 * ((f.port - 32) / 8) + f.opp)
include hok h0 h1 hnode

theorem exec_frameReceive_absent (h : s.rb R.npCfg 0 (node - 32) 0 = false ∨ s.portEn node = false) :
    exec (.frameReceive f) s = .next (s.countPort node 3) := by
  subst hnode
  exact exec_frameReceive_dropped ho hd hhi (State.rxEth_uncredited hlo hhi (hok ▸ State.t1sCredit_absent h0 h1 h))

variable (h2 : s.rb R.npCfg 0 (node - 32) 0 = true) (h3 : s.portEn node = true) (hl : bs.length + 4 ≤ s.maxFrm node)
  (hm : s.macsecOk node bs f.sec = true)
include h2 h3 hl hm

omit ho hd in
/-- A frame credited to a node-port is received if its source may be that node's (R57, R425). -/
theorem State.rxEth_node : s.rxEth f bs = (if (s.bindCheck node bs).2 then some node else none, (s.bindCheck node bs).1) := by
  refine State.rxEth_credited hlo hhi ?_ hl hm
  subst hnode
  rw [hok, State.t1sCredit_present h0 h1 h2 h3]

theorem exec_frameReceive_group (h : bit (byteAt (sliceZ bs 6 6) 0).toNat 0 = true) : exec (.frameReceive f) s = .next (s.countPort node 4) := by
  refine exec_frameReceive_dropped ho hd hhi ?_
  rw [State.rxEth_node hlo hhi hok h0 h1 hnode h2 h3 hl hm, State.bindCheck_group h]
  rfl

/-- A frame of the node-port's bound source waits for the parser of the segment's panel (R48, R57, R425). -/
theorem frameReceive_node_awaits (hmode : s.md.mode ≠ .limp) (h : bit (byteAt (sliceZ bs 6 6) 0).toNat 0 = false)
    (hb : s.boundAt node 0 = some (leVal (sliceZ bs 6 6))) (hseg : node < 32 + 8 * ((f.port - 32) / 8) + 8) (hopen : s.rxOpen node = true)
    (hts : s.tsDom node = s.tsDom f.port) :
    AwaitsParser (.frameReceive f) s s (portPanel f.port) node bs (s.stamp (portPanel f.port) (s.tsDom f.port)) := by
  have bound : s.rxEth f bs = (some node, s) := by
    rw [State.rxEth_node hlo hhi hok h0 h1 hnode h2 h3 hl hm, State.bindCheck_bound h hb]
    rfl
  have range : 32 < node ∧ node < 800 := by omega
  have panel : portPanel node = portPanel f.port := by
    simp only [portPanel]
    split_ifs <;> omega
  have noHost : s.hostPort node = false := by
    simp only [State.hostPort, Bool.or_eq_false_iff, Bool.and_eq_false_iff, decide_eq_false_iff_not]
    omega
  have e := exec_frameReceive_credited ho hd hhi bound
  rw [State.rxHost_of_open (by rw [noHost, Bool.false_and]) (by omega) hopen, panel, hts] at e
  have awaits := awaitsParser_of_rxTail e hmode rfl
  rw [panel] at awaits
  exact awaits

end
end
end

end Sys2Proof.Machine
end

section
/-! PROOFS. The reception of CAN and LIN frames and of LIN headers (R60, R61, R62, R63, R282). -/

namespace Sys2Proof.Machine

-- ------------------------------------------------------------------------------------------- the words of an envelope

theorem length_leBytes (n v : Nat) : (leBytes n v).length = n := by
  induction n generalizing v with
  | zero => rfl
  | succ n ih => rw [leBytes, List.length_cons, ih]

theorem leVal_leBytes (n v : Nat) : leVal (leBytes n v) = v % 256 ^ n := by
  induction n generalizing v with
  | zero => rw [Nat.pow_zero, Nat.mod_one, leBytes, leVal]
  | succ n ih => rw [leBytes, leVal, ih, BitVec.toNat_ofNat, Nat.pow_succ' (m := 256), Nat.mod_mul]

theorem sliceZ_append (a b c : List Byte) : sliceZ (a ++ b ++ c) a.length b.length = b := by
  simp [sliceZ]

/-- A field of a word that an envelope holds behind `a`. -/
theorem envF_append (a c : List Byte) (v lo w : Nat) : envF (a ++ leBytes 4 v ++ c) a.length lo w = bits (v % 2 ^ 32) lo w := by
  have word := sliceZ_append a (leBytes 4 v) c
  rw [length_leBytes] at word
  rw [envF, word, leVal_leBytes]
  rfl

/-- A response of no byte is none, whatever its checksum (R63). -/
theorem linOutcome_nil (enh : Bool) (pid : Nat) (checksum : Option Byte) : linOutcome enh pid [] checksum = .noResponse := rfl

section
variable {port fid : Nat} {enh own : Bool} {data : List Byte} {stamp : HWord}

/-- STATUS of an envelope says that no response came (R63). -/
theorem envStatus_linEnv_noResponse (hp : port < 1024) : envStatus (linEnv port .noResponse fid enh own data stamp) = 1 := by
  have e := envF_append [] (leBytes 4 (fid % 64 + b2n enh * 256 + b2n own * 512) ++ (leBytes 4 0 ++ (leBytes 4 0 ++ leBytes 16 stamp.toNat)))
    (1 + 3 * 16 + port * 256 + 1 * 2 ^ 24) 24 8
  have word : bits ((1 + 3 * 16 + port * 256 + 1 * 2 ^ 24) % 2 ^ 32) 24 8 = 1 := by
    simp only [bits]
    omega
  rw [word] at e
  simpa [envStatus, linEnv, linCode] using e

theorem envLen_linEnv_noResponse : envLen (linEnv port .noResponse fid enh own data stamp) = 0 := by
  have e := envF_append (leBytes 4 (1 + 3 * 16 + port * 256 + 1 * 2 ^ 24) ++ (leBytes 4 (fid % 64 + b2n enh * 256 + b2n own * 512) ++ leBytes 4 0))
    (leBytes 16 stamp.toNat) 0 0 12
  simpa [envLen, linEnv, linCode, length_leBytes, bits] using e

/-- An envelope of no response ends with its stamp (R63, R64). -/
theorem length_linEnv_noResponse : (linEnv port .noResponse fid enh own data stamp).length = 32 := by
  simp [linEnv, length_leBytes]

end

-- ------------------------------------------------------------------------------------------------- CAN and LIN frames

section
variable {s : State} {f : RxFrame} (ho : s.rxOpen f.port = true)
include ho

section
variable {kind id sdt vcid af len : Nat} {ide rtr sec brs esi : Bool} {data bs : List Byte}
  (hd : f.data = .can kind ide rtr sec id brs esi sdt vcid af len data) (hlo : 800 ≤ f.port) (hhi : f.port < 960)
  (he : canEnv f.port kind ide rtr sec id brs esi sdt vcid af len data (s.stamp (portPanel f.port) (s.tsDom f.port)) = some bs)
include hd hlo hhi he

theorem exec_frameReceive_can : exec (.frameReceive f) s =
    .next (if s.portModeOf f.port < min kind 2 then s.countPort f.port 7 else s.rxTail f.port bs (s.stamp (portPanel f.port) (s.tsDom f.port))) := by
  show Host.Outcome.next (s.receive f) = _
  unfold State.receive
  rw [ho, hd]
  dsimp only
  rw [he, if_neg (by simp), if_neg (by simp [hlo, hhi])]
  rfl

/-- A CAN frame of a format that the port's mode has waits for the parser as its envelope (R60, R64). -/
theorem frameReceive_can_awaits (hmode : s.md.mode ≠ .limp) (h : min kind 2 ≤ s.portModeOf f.port) :
    AwaitsParser (.frameReceive f) s s (portPanel f.port) f.port bs (s.stamp (portPanel f.port) (s.tsDom f.port)) := by
  have e := exec_frameReceive_can ho hd hlo hhi he
  rw [if_neg (Nat.not_lt.2 h)] at e
  exact awaitsParser_of_rxTail e hmode rfl

end

theorem frameReceive_lin_awaits {status : LinStatus} {fid : Nat} {enh own : Bool} {data : List Byte} (hd : f.data = .lin status fid enh own data)
    (hlo : 960 ≤ f.port) (hmode : s.md.mode ≠ .limp) :
    AwaitsParser (.frameReceive f) s s (portPanel f.port) f.port
      (linEnv f.port status fid enh own data (s.stamp (portPanel f.port) (s.tsDom f.port))) (s.stamp (portPanel f.port) (s.tsDom f.port)) := by
  refine awaitsParser_of_rxTail ?_ hmode rfl
  show Host.Outcome.next (s.receive f) = _
  unfold State.receive
  rw [ho, hd]
  dsimp only
  rw [if_neg (by simp), if_neg (Nat.not_lt.2 hlo)]

end

-- -------------------------------------------------------------------------------------------------------- LIN headers

/-- The checksum kind of a remote response: that of the schedule entry whose slot it is, else `b` (R282). -/
def State.linEnhanced (s : State) (port fid : Nat) (b : Bool) : Bool :=
  match SMap.find s.tio.linSlot port with
  | some e => if s.portModeOf port = 0 && s.rf R.tioLsch (portPanel port) e 0 6 = fid then s.rb R.tioLsch (portPanel port) e 6 else b
  | none => b

theorem State.linEnhanced_slot {s : State} {port fid e : Nat} (he : SMap.find s.tio.linSlot port = some e) (hm : s.portModeOf port = 0)
    (hf : s.rf R.tioLsch (portPanel port) e 0 6 = fid) (b : Bool) : s.linEnhanced port fid b = s.rb R.tioLsch (portPanel port) e 6 := by
  simp [State.linEnhanced, he, hm, hf]

/-- Only an external port is received on (R48). -/
theorem State.lt_of_rxOpen {s : State} {port : Nat} (h : s.rxOpen port = true) : port < 1024 := by
  simp only [State.rxOpen, Bool.and_eq_true, decide_eq_true_eq] at h
  obtain ⟨⟨⟨hlt, -⟩, -⟩, -⟩ := h
  exact hlt

section
variable {s : State} {port : Nat} (ho : s.rxOpen port = true) (hlo : 960 ≤ port) (fid : BitVec 6)
include ho hlo

theorem State.lin_open : (decide (port < 960) || decide (1024 ≤ port) || !s.rxOpen port) = false := by
  simp [ho, hlo, State.lt_of_rxOpen ho]

/-- A loaded response is put on the bus and received like every LIN frame (R62). -/
theorem exec_linHeaderReceive_loaded {r : List Byte} (h : SMap.find s.swt.linResp (port * 64 + fid.toNat) = some r) (rsp : LinRsp) :
    exec (.linHeaderReceive port fid rsp) s = .next ((s.emit (.linResponse port fid.toNat (r.drop 32))).rxTail port
      (linEnv port .ok fid.toNat (decide (envF r 4 8 1 = 1)) true (r.drop 32) (s.stamp (portPanel port) (s.tsDom port)))
      (s.stamp (portPanel port) (s.tsDom port))) := by
  show execLinHeaderReceive port fid rsp s = _
  unfold execLinHeaderReceive
  rw [State.lin_open ho hlo, h]
  rfl

/-- A remote response is received with the status that its bytes and its checksum give (R63). -/
theorem exec_linHeaderReceive_remote (h : SMap.find s.swt.linResp (port * 64 + fid.toNat) = none) (rsp : LinRsp) :
    exec (.linHeaderReceive port fid rsp) s = .next (({ s with fresh := s.fresh + 1 } : State).rxTail port
      (linEnv port (linOutcome (s.linEnhanced port fid.toNat s.freeB.1) (linPid fid.toNat) rsp.data rsp.checksum) fid.toNat
        (s.linEnhanced port fid.toNat s.freeB.1) false rsp.data (s.stamp (portPanel port) (s.tsDom port)))
      (s.stamp (portPanel port) (s.tsDom port))) := by
  show execLinHeaderReceive port fid rsp s = _
  unfold execLinHeaderReceive
  rw [State.lin_open ho hlo, h]
  rfl

variable (hmode : s.md.mode ≠ .limp)
include hmode

theorem linHeaderReceive_loaded_awaits {r : List Byte} (h : SMap.find s.swt.linResp (port * 64 + fid.toNat) = some r) (rsp : LinRsp) :
    AwaitsParser (.linHeaderReceive port fid rsp) s (s.emit (.linResponse port fid.toNat (r.drop 32))) (portPanel port) port
      (linEnv port .ok fid.toNat (decide (envF r 4 8 1 = 1)) true (r.drop 32) (s.stamp (portPanel port) (s.tsDom port)))
      (s.stamp (portPanel port) (s.tsDom port)) :=
  awaitsParser_of_rxTail (exec_linHeaderReceive_loaded ho hlo fid h rsp) hmode rfl

variable (h : SMap.find s.swt.linResp (port * 64 + fid.toNat) = none)
include h

theorem linHeaderReceive_remote_awaits (rsp : LinRsp) :
    AwaitsParser (.linHeaderReceive port fid rsp) s { s with fresh := s.fresh + 1 } (portPanel port) port
      (linEnv port (linOutcome (s.linEnhanced port fid.toNat s.freeB.1) (linPid fid.toNat) rsp.data rsp.checksum) fid.toNat
        (s.linEnhanced port fid.toNat s.freeB.1) false rsp.data (s.stamp (portPanel port) (s.tsDom port)))
      (s.stamp (portPanel port) (s.tsDom port)) :=
  awaitsParser_of_rxTail (exec_linHeaderReceive_remote ho hlo fid h rsp) hmode rfl

/-- A header that no node answers is received as no response, of no bytes (R63). -/
theorem linHeaderReceive_silent (hq : SMap.sorted s.swt.parseQ = true) (checksum : Option Byte) {r x : Nat}
    (ha : ({ s with fresh := s.fresh + 1 } : State).admitIngress (portPanel port) (rxCells 32) = some (r, x)) :
    Ends (.linHeaderReceive port fid ⟨[], checksum⟩) s fun u =>
      u = { s with swt := { s.swt with parseQ := u.swt.parseQ }, mem := { s.mem with dev := u.mem.dev }, fresh := s.fresh + 2 } ∧
      ∃ it, SMap.get u.swt.parseQ [] (portPanel port) = SMap.get s.swt.parseQ [] (portPanel port) ++ [it] ∧
        it.port = port ∧ envStatus it.frame = 1 ∧ envLen it.frame = 0 := by
  have awaits := linHeaderReceive_remote_awaits ho hlo fid hmode h ⟨[], checksum⟩
  rw [linOutcome_nil] at awaits
  obtain ⟨u, e, hu, it, hget, hport, hframe⟩ := awaits.ends hq (by rw [length_linEnv_noResponse]; exact ha)
  exact ⟨u, e, hu, it, hget, hport, by rw [hframe, envStatus_linEnv_noResponse (State.lt_of_rxOpen ho)], by rw [hframe, envLen_linEnv_noResponse]⟩

end

/-- Settles O39: each check of reception that fails drops the frame with its count, and what passes them all reaches the parser's queue. -/
theorem frameReception : Obligations.FrameReception := by
  intro s f ho hmode hq p stamp waits rx
  refine ⟨fun bs hd hp => ⟨?_, ?_, ?_⟩, fun bs hd hlo hhi => ⟨?_, fun hok h0 h1 => ⟨?_, fun h2 h3 hl hm => ⟨?_, ?_⟩⟩⟩, ?_, ?_, ?_, ?_, ?_⟩
  · exact exec_frameReceive_long ho hd hp
  · exact exec_frameReceive_unprotected ho hd hp
  · exact fun hl hm hh hr => frameReceive_wired_awaits ho hd hmode hp hl hm hh hr
  · exact exec_frameReceive_uncredited ho hd hlo hhi
  · exact exec_frameReceive_absent ho hd hlo hhi hok h0 h1 rfl
  · exact exec_frameReceive_group ho hd hlo hhi hok h0 h1 rfl h2 h3 hl hm
  · exact fun h hb hseg hopen hts => frameReceive_node_awaits ho hd hlo hhi hok h0 h1 rfl h2 h3 hl hm hmode h hb hseg hopen hts
  · intro kind ide rtr sec id brs esi sdt vcid af len data bs hd hlo hhi he
    exact ⟨fun h => (exec_frameReceive_can ho hd hlo hhi he).trans (by rw [if_pos h]), frameReceive_can_awaits ho hd hlo hhi he hmode⟩
  · exact fun status fid enh own data hd hlo => frameReceive_lin_awaits ho hd hlo hmode
  · exact fun fid response checksum r hlo h => linHeaderReceive_loaded_awaits ho hlo fid hmode h _
  · intro fid response checksum hlo h
    have awaits := linHeaderReceive_remote_awaits ho hlo fid hmode h ⟨response, checksum⟩
    exact ⟨s.linEnhanced f.port fid.toNat s.freeB.1, fun e he hm hf => State.linEnhanced_slot he hm hf s.freeB.1, awaits⟩
  · exact fun fid checksum hlo _ h r x ha => linHeaderReceive_silent ho hlo fid hmode h hq checksum ha

end Sys2Proof.Machine
end

section
/-! PROOFS. The table commands of the host: the checks of every one, the staged and unversioned operations, prefixes and conditional
deletes (R91, R190, R196, R199, R200, R203, R206, R209, R314). -/

namespace Sys2Proof.Machine

/-- A command in its course has changed only the host engine (R312): it sees the tables, the charts and the panels as they were before. -/
theorem State.inCommand_state (s : State) (op : Nat) (c : CmdIn) : ∃ t, (s.inCommand op c).2 = { s with hst := t } := ⟨_, rfl⟩

-- ------------------------------------------------------------------------------------------------ the checks of a command

/-- A kind of LPM table (R199). -/
def IsLpm (k : Nat) : Prop := k = 4 ∨ k = 5

/-- A table of kind `k` fits a staged or an unversioned command (R314). -/
def TblFits (k : Nat) (staged : Bool) : Prop := k ≠ 0 ∧ k ≠ 7 ∧ (IsLpm k → staged = true) ∧ (k = 6 → staged = false)

/-- The checks that come before the outcomes of a table command pass (R314). -/
def TblOpen (m : State) (n : Nat) (staged : Bool) : Prop :=
  TblFits (m.tblKind n) staged ∧ m.engFenced n = false ∧ m.split = false ∧ (staged = true → m.stageReady = true)

theorem noTable_iff (k : Nat) (staged : Bool) :
    (decide (k = 0) || decide (k = 7) || ((decide (k = 4) || decide (k = 5)) && !staged) || (decide (k = 6) && staged)) = true ↔ ¬ TblFits k staged := by
  unfold TblFits IsLpm
  cases staged <;> simp <;> omega

/-- The work that a command for an L2 bucket leaves in a queue (R206). -/
def queuedWork (o : TblOp) (rec : Nat) (key : List Byte) (data : Nat) : L2Work :=
  match o with
  | .insert => .insert rec key data
  | .delete => .delete rec key
  | .modify => .modify rec key data

section
variable {m : State} {o : TblOp} {staged : Bool} {c : CmdIn} {rec n k : Nat} {key : List Byte}

theorem State.tblRun_noTable (hn : c.p 16 1 % 64 = n) (h : ¬ TblFits (m.tblKind n) staged) : m.tblRun o staged c rec = m.finish rec 0x05 [] := by
  subst hn
  exact if_pos ((noTable_iff _ _).2 h)

theorem State.tblRun_fenced (hn : c.p 16 1 % 64 = n) (h : TblFits (m.tblKind n) staged) (hf : m.engFenced n = true) :
    m.tblRun o staged c rec = m.finish rec 0x13 [] := by
  subst hn
  exact (if_neg fun hc => (noTable_iff _ _).1 hc h).trans (if_pos hf)

theorem State.tblRun_notReady (hn : c.p 16 1 % 64 = n) (h : TblFits (m.tblKind n) staged) (hf : m.engFenced n = false)
    (hr : m.split = true ∨ (staged = true ∧ m.stageReady = false)) : m.tblRun o staged c rec = m.finish rec 0x04 [] := by
  subst hn
  have closed : (m.split || (staged && !m.stageReady)) = true := by simpa using hr
  exact (if_neg fun hc => (noTable_iff _ _).1 hc h).trans ((if_neg (by simp [hf])).trans (if_pos closed))

/-- A command whose checks pass goes on by the kind of its table. -/
theorem State.tblRun_open (hn : c.p 16 1 % 64 = n) (hk : m.tblKind n = k) (hkey : c.key.take (keyWidth k) = key) (h : TblOpen m n staged) :
    m.tblRun o staged c rec =
      if (decide (k = 4) || decide (k = 5)) = true then m.stagedLpm o rec n (c.p 17 1) (beVal key) (c.p 24 8)
      else if staged = true then m.stagedEm o rec n key (c.p 24 8)
      else if (decide (k = 6) && m.l2Waits n (m.tblBucket n key)) = true then m.queueL2 n key (queuedWork o rec key (c.p 24 8))
      else m.unversioned o rec n key (c.p 24 8) := by
  obtain ⟨hfits, hf, hs, hr⟩ := h
  have ready : ¬ (m.split || (staged && !m.stageReady)) = true := by
    cases staged
    · simp [hs]
    · simp [hs, hr rfl]
  subst hn hk hkey
  exact (if_neg fun hc => (noTable_iff _ _).1 hc hfits).trans ((if_neg (by simp [hf])).trans (if_neg ready))

variable (hn : c.p 16 1 % 64 = n) (hk : m.tblKind n = k) (hkey : c.key.take (keyWidth k) = key) (h : TblOpen m n staged)
include hn hk hkey h

theorem State.tblRun_lpm (hl : IsLpm k) : m.tblRun o staged c rec = m.stagedLpm o rec n (c.p 17 1) (beVal key) (c.p 24 8) := by
  rw [State.tblRun_open hn hk hkey h, if_pos]
  simpa [IsLpm] using hl

theorem State.tblRun_staged (hl : ¬ IsLpm k) (hs : staged = true) : m.tblRun o staged c rec = m.stagedEm o rec n key (c.p 24 8) := by
  rw [State.tblRun_open hn hk hkey h, if_neg (by simpa [IsLpm] using hl), if_pos hs]

theorem State.tblRun_queued (h6 : k = 6) (hw : m.l2Waits n (m.tblBucket n key) = true) :
    m.tblRun o staged c rec = m.queueL2 n key (queuedWork o rec key (c.p 24 8)) := by
  rw [State.tblRun_open hn hk hkey h]
  obtain ⟨⟨_, _, _, plain⟩, _⟩ := h
  have hs : staged = false := plain (hk.trans h6)
  rw [if_neg (by simp [h6]), if_neg (ne_true_of_eq_false hs), if_pos (by simp [h6, hw])]

theorem State.tblRun_unversioned (hl : ¬ IsLpm k) (hs : staged = false) (hw : k = 6 → m.l2Waits n (m.tblBucket n key) = false) :
    m.tblRun o staged c rec = m.unversioned o rec n key (c.p 24 8) := by
  rw [State.tblRun_open hn hk hkey h, if_neg (by simpa [IsLpm] using hl), if_neg (by simp [hs]), if_neg (by simpa using hw)]

end

-- ------------------------------------------------------------------------------- staged operations on exact-match tables

/-- The staging entry of a key, where its home has it. -/
def State.stagedHere (m : State) (n : Nat) (key : List Byte) : Option (Nat × TblEntry) :=
  m.homeFind 0 n key fun e => decide (e.vmask ≠ 15) && bit e.vmask m.stagingSlot

/-- The unversioned entry of a key, where its home has it. -/
def State.plainHere (m : State) (n : Nat) (key : List Byte) : Option (Nat × TblEntry) := m.homeFind 0 n key fun e => decide (e.vmask = 15)

section
variable {m t : State} {rec n data h : Nat} {o : TblOp} {key : List Byte} {e : TblEntry}

theorem State.stagedEm_present (ho : o = .insert) (hp : m.stagedHere n key ≠ none ∨ m.plainHere n key ≠ none) :
    m.stagedEm o rec n key data = m.finish rec 0x01 [] := by
  subst ho
  unfold State.stagedHere State.plainHere at hp
  unfold State.stagedEm
  dsimp only
  generalize m.homeFind 0 n key (fun e => decide (e.vmask ≠ 15) && bit e.vmask m.stagingSlot) = here at hp
  cases here with
  | some x => rfl
  | none => exact if_pos (Option.isSome_iff_ne_none.2 (hp.resolve_left fun hne => hne rfl))

theorem State.stagedEm_inserts (ho : o = .insert) (hh : m.stagedHere n key = none) (hp : m.plainHere n key = none) :
    m.stagedEm o rec n key data = m.insertEnt rec n { key := key, vmask := 2 ^ m.stagingSlot, data := data } := by
  subst ho
  unfold State.stagedHere at hh
  unfold State.plainHere at hp
  unfold State.stagedEm
  dsimp only
  rw [hh, hp]
  rfl

theorem State.stagedEm_absent (ho : o ≠ .insert) (hh : m.stagedHere n key = none) : m.stagedEm o rec n key data = m.finish rec 0x02 [] := by
  unfold State.stagedHere at hh
  unfold State.stagedEm
  dsimp only
  rw [hh]
  cases o with
  | insert => exact absurd rfl ho
  | delete | modify => rfl

theorem State.stagedEm_deletes (ho : o = .delete) (hh : m.stagedHere n key = some (h, e)) :
    m.stagedEm o rec n key data = m.putEnt (m.tblHome 0 (hIdx h)) h (dropBit m.stagingSlot e) (some rec) (leBytes 4 h) := by
  subst ho
  unfold State.stagedHere at hh
  unfold State.stagedEm
  dsimp only
  rw [hh]
  rfl

/-- A staged modify ends the key's staging entry, then places one of its own (R91). -/
theorem State.stagedEm_modify (ho : o = .modify) (hh : m.stagedHere n key = some (h, e))
    (ht : t = m.putEnt (m.tblHome 0 (hIdx h)) h (dropBit m.stagingSlot e)) : m.stagedEm o rec n key data =
      (t.tblPlace (t.tblHome 0 (t.tblBucket n key)) n key).elim (m.finish rec 0x03 []) fun g =>
        (if m.joined then m.putEnt (m.tblHome 0 (hIdx h)) h (dropBit m.stagingSlot e) (some rec) (leBytes 4 g) else t).insertEnt rec n
          { key := key, vmask := 2 ^ m.stagingSlot, data := data } := by
  subst ho ht
  unfold State.stagedHere at hh
  unfold State.stagedEm
  dsimp only
  rw [hh]
  dsimp only
  generalize State.tblPlace _ _ n key = place
  cases place <;> rfl

theorem State.stagedEm_modify_full (ho : o = .modify) (hh : m.stagedHere n key = some (h, e))
    (ht : t = m.putEnt (m.tblHome 0 (hIdx h)) h (dropBit m.stagingSlot e)) (hp : t.tblPlace (t.tblHome 0 (t.tblBucket n key)) n key = none) :
    m.stagedEm o rec n key data = m.finish rec 0x03 [] := by
  rw [State.stagedEm_modify ho hh ht, hp, Option.elim_none]

theorem State.stagedEm_modifies {g : Nat} (ho : o = .modify) (hh : m.stagedHere n key = some (h, e))
    (ht : t = m.putEnt (m.tblHome 0 (hIdx h)) h (dropBit m.stagingSlot e)) (hp : t.tblPlace (t.tblHome 0 (t.tblBucket n key)) n key = some g) :
    m.stagedEm o rec n key data =
      (if m.joined then m.putEnt (m.tblHome 0 (hIdx h)) h (dropBit m.stagingSlot e) (some rec) (leBytes 4 g) else t).insertEnt rec n
        { key := key, vmask := 2 ^ m.stagingSlot, data := data } := by
  rw [State.stagedEm_modify ho hh ht, hp, Option.elim_some]

-- -------------------------------------------------------------------------------------------- unversioned operations

/-- Bytes 24–31 of an entry that an unversioned command writes (R201). -/
def State.freshAux (m : State) (n : Nat) : Nat := if m.tblKind n = 6 then mkAux 0 false 0 m.t8us m.tms else 0

theorem State.unversioned_present (ho : o = .insert) (hh : m.homeFind 0 n key (fun _ => true) ≠ none) :
    m.unversioned o rec n key data = m.finish rec 0x01 [] := by
  subst ho
  exact if_pos (Option.isSome_iff_ne_none.2 hh)

theorem State.unversioned_inserts (ho : o = .insert) (hh : m.homeFind 0 n key (fun _ => true) = none) :
    m.unversioned o rec n key data = m.insertEnt rec n { key := key, vmask := 15, data := data, aux := m.freshAux n } := by
  subst ho
  simp only [State.unversioned, hh, Option.isSome_none, Bool.false_eq_true, if_false, decide_eq_true_eq, State.freshAux]

theorem State.unversioned_absent (ho : o ≠ .insert) (hh : m.plainHere n key = none) : m.unversioned o rec n key data = m.finish rec 0x02 [] := by
  unfold State.plainHere at hh
  cases o with
  | insert => exact absurd rfl ho
  | delete | modify => simp only [State.unversioned, hh]

theorem State.unversioned_deletes (ho : o = .delete) (hh : m.plainHere n key = some (h, e)) :
    m.unversioned o rec n key data = m.putEnt (m.tblHome 0 (hIdx h)) h none (some rec) (leBytes 4 h) := by
  subst ho
  unfold State.plainHere at hh
  simp only [State.unversioned, hh, if_true, handleBytes]

theorem State.unversioned_modifies (ho : o = .modify) (hh : m.plainHere n key = some (h, e)) : m.unversioned o rec n key data =
    m.putEnt (m.tblHome 0 (hIdx h)) h (some { e with data := if m.tblKind n = 6 then setBit data 13 (bit e.data 13) else data, aux := m.freshAux n })
      (some rec) (leBytes 4 h) := by
  subst ho
  unfold State.plainHere at hh
  simp only [State.unversioned, hh, reduceCtorEq, if_false, handleBytes, decide_eq_true_eq, State.freshAux]

/-- An entry that finds a place gets its activity word and is written there (R193, R197). -/
theorem State.insertEnt_places (hp : m.tblPlace (m.tblHome 0 (m.tblBucket n e.key)) n e.key = some h) :
    m.insertEnt rec n e = (m.newActivity (m.tblHome 0 (hIdx h)) h).putEnt (m.tblHome 0 (hIdx h)) h (some e) (some rec) (leBytes 4 h) := by
  simp only [State.insertEnt, hp, handleBytes]

theorem State.insertEnt_full (hp : m.tblPlace (m.tblHome 0 (m.tblBucket n e.key)) n e.key = none) : m.insertEnt rec n e = m.finish rec 0x03 [] := by
  simp only [State.insertEnt, hp]

end

-- -------------------------------------------------------------------------------------- prefixes

/-- Has it this length and this address? -/
def Prefix.names (plen addr : Nat) (p : Prefix) : Bool := decide (p.len = plen) && decide (p.addr = addr)

/-- The staged changes, or the prefixes under the CURRENT roots, leave no room for a command (log entry 94). -/
def LpmFull (m : State) (o : TblOp) (n plen addr : Nat) : Prop :=
  4096 < (m.lpmTouch n plen addr).length ∨ (o = .insert ∧ (if m.tblKind n = 4 then 262144 else 65536) < m.familyUse (m.tblKind n))

/-- What an insert or a modify leaves under STAGING of the length and address it names; a delete leaves nothing. -/
def lpmLeft (o : TblOp) (plen addr data : Nat) : List Prefix := if o = .delete then [] else [{ len := plen, addr := addr, data := data }]

/-- The state with the prefixes of a table under STAGING replaced, and one of them noted as changed. -/
def State.putPrefixes (m : State) (n plen addr : Nat) (l : List Prefix) : State :=
  { m with tbl := { m.tbl with lpm := SMap.set m.tbl.lpm [] (n * 4 + m.stagingSlot) l, lpmChg := m.lpmTouch n plen addr } }

section
variable {m : State} {o : TblOp} {rec n plen addr data : Nat}

theorem State.stagedLpm_present (ho : o = .insert) (h : (m.prefixes n m.stagingSlot).any (Prefix.names plen addr) = true) :
    m.stagedLpm o rec n plen addr data = m.finish rec 0x01 [] := by
  subst ho
  exact if_pos h

theorem State.stagedLpm_absent (ho : o ≠ .insert) (h : (m.prefixes n m.stagingSlot).any (Prefix.names plen addr) = false) :
    m.stagedLpm o rec n plen addr data = m.finish rec 0x02 [] := by
  have habs : (!(m.prefixes n m.stagingSlot).any (Prefix.names plen addr)) = true := by rw [h, Bool.not_false]
  cases o with
  | insert => exact absurd rfl ho
  | delete | modify => exact if_pos habs

variable (h : o = .insert ↔ (m.prefixes n m.stagingSlot).any (Prefix.names plen addr) = false)
include h

theorem State.stagedLpm_full (hf : LpmFull m o n plen addr) : m.stagedLpm o rec n plen addr data = m.finish rec 0x03 [] := by
  cases o with
  | insert =>
    have room : (decide (4096 < (m.lpmTouch n plen addr).length) || decide ((if m.tblKind n = 4 then 262144 else 65536) < m.familyUse (m.tblKind n))) = true := by
      simpa [LpmFull] using hf
    exact (if_neg (ne_true_of_eq_false (h.1 rfl))).trans (if_pos room)
  | delete | modify =>
    have there : ¬ (!(m.prefixes n m.stagingSlot).any (Prefix.names plen addr)) = true := by simpa using h
    have room : decide (4096 < (m.lpmTouch n plen addr).length) = true := by simpa [LpmFull] using hf
    exact (if_neg there).trans (if_pos room)

theorem State.stagedLpm_puts (hf : ¬ LpmFull m o n plen addr) : m.stagedLpm o rec n plen addr data =
    (m.putPrefixes n plen addr ((m.prefixes n m.stagingSlot).filter (fun p => !Prefix.names plen addr p) ++ lpmLeft o plen addr data)).finish rec 0 [] := by
  have room : ¬ decide (4096 < (m.lpmTouch n plen addr).length) = true := fun hd => hf (.inl (of_decide_eq_true hd))
  cases o with
  | insert =>
    have roots : ¬ (decide (4096 < (m.lpmTouch n plen addr).length) || decide ((if m.tblKind n = 4 then 262144 else 65536) < m.familyUse (m.tblKind n))) = true := by
      simpa [LpmFull] using hf
    exact (if_neg (ne_true_of_eq_false (h.1 rfl))).trans (if_neg roots)
  | delete =>
    have there : ¬ (!(m.prefixes n m.stagingSlot).any (Prefix.names plen addr)) = true := by simpa using h
    rw [lpmLeft, if_pos rfl, List.append_nil]
    exact (if_neg there).trans (if_neg room)
  | modify =>
    have there : ¬ (!(m.prefixes n m.stagingSlot).any (Prefix.names plen addr)) = true := by simpa using h
    exact (if_neg there).trans (if_neg room)

end

-- ------------------------------------------------------------------------------------------------- conditional deletes

theorem State.setTp_frame (s : State) (p : Nat) (x : TblPanel) : s.setTp p x = { s with tbl := (s.setTp p x).tbl } := by
  unfold State.setTp
  split <;> rfl

theorem State.tp_setTp_self (s : State) (p : Nat) (x : TblPanel) : (s.setTp p x).tp p = x := by
  unfold State.setTp State.tp
  by_cases hp : p = 0 <;> simp [hp]

/-- One panel's copy of the tables is not the other's. -/
theorem State.tp_setTp_other (s : State) {p q : Nat} (x : TblPanel) (h : ¬ (p = 0 ↔ q = 0)) : (s.setTp p x).tp q = s.tp q := by
  unfold State.setTp State.tp
  by_cases hp : p = 0
  · have hq : q ≠ 0 := fun hq => h (iff_of_true hp hq)
    simp [hp, hq]
  · have hq : q = 0 := by omega
    simp [hp, hq]

/-- The table of a conditional delete keeps activity (R209). -/
def CdelAged (m : State) (n : Nat) : Prop := (1 ≤ m.tblKind n ∧ m.tblKind n ≤ 3 ∨ m.tblKind n = 6) ∧ m.tblAge n = true

theorem cdelAged_iff (m : State) (n : Nat) : ((isEm (m.tblKind n) || decide (m.tblKind n = 6)) && m.tblAge n) = true ↔ CdelAged m n := by
  simp only [CdelAged, isEm, Bool.and_eq_true, Bool.or_eq_true, decide_eq_true_eq]

/-- The request that a conditional delete sends to its home engine (R209, R210). -/
def State.cdelReq (m : State) (c : CmdIn) (rec : Nat) : CdelReq :=
  { jrec := rec, handle := c.p 20 4, key := c.key.take (keyWidth (m.tblKind (c.p 16 4 % 64))), hitgen := bits (c.p 16 4) 16 8 }

section
variable {m : State} {c : CmdIn} {rec n : Nat}

theorem State.cdelRun_noTable (hn : c.p 16 4 % 64 = n) (h : ¬ CdelAged m n) : m.cdelRun c rec = m.finish rec 0x05 [] := by
  subst hn
  exact if_pos (by rw [Bool.eq_false_iff.2 (mt (cdelAged_iff m _).1 h), Bool.not_false])

variable (hn : c.p 16 4 % 64 = n) (h : CdelAged m n)
include hn h

theorem State.cdelRun_aged : m.cdelRun c rec =
    if m.engFenced n = true then m.finish rec 0x13 []
    else if m.split = true then m.finish rec 0x04 []
    else if hTable (c.p 20 4) ≠ n then m.finish rec 0x02 []
    else if (decide (m.tblKind n = 6) && m.l2Waits n (m.tblBucket n (m.cdelReq c rec).key)) = true then m.queueL2 n (m.cdelReq c rec).key (.cdelete (m.cdelReq c rec))
    else m.startCdelete m.hostPanel (m.cdelReq c rec) := by
  subst hn
  exact if_neg (by rw [(cdelAged_iff m _).2 h, Bool.not_true]; exact Bool.false_ne_true)

theorem State.cdelRun_fenced (hf : m.engFenced n = true) : m.cdelRun c rec = m.finish rec 0x13 [] := by
  rw [State.cdelRun_aged hn h, if_pos hf]

variable (hf : m.engFenced n = false)
include hf

theorem State.cdelRun_split (hs : m.split = true) : m.cdelRun c rec = m.finish rec 0x04 [] := by
  rw [State.cdelRun_aged hn h, if_neg (ne_true_of_eq_false hf), if_pos hs]

variable (hs : m.split = false)
include hs

theorem State.cdelRun_otherTable (ht : hTable (c.p 20 4) ≠ n) : m.cdelRun c rec = m.finish rec 0x02 [] := by
  rw [State.cdelRun_aged hn h, if_neg (ne_true_of_eq_false hf), if_neg (ne_true_of_eq_false hs), if_pos ht]

theorem State.cdelRun_starts (ht : hTable (c.p 20 4) = n) (hw : m.tblKind n = 6 → m.l2Waits n (m.tblBucket n (c.key.take (keyWidth (m.tblKind n)))) = false) :
    m.cdelRun c rec = m.startCdelete m.hostPanel (m.cdelReq c rec) := by
  have free : ¬ (decide (m.tblKind n = 6) && m.l2Waits n (m.tblBucket n (m.cdelReq c rec).key)) = true := by
    subst hn
    simpa [State.cdelReq] using hw
  rw [State.cdelRun_aged hn h, if_neg (ne_true_of_eq_false hf), if_neg (ne_true_of_eq_false hs), if_neg (not_not_intro ht), if_neg free]

end

theorem State.split_of_joined {s : State} (h : s.joined = true) : s.split = false := by
  simp only [State.joined, Bool.and_eq_true] at h
  simp [State.split, h]

theorem State.tblHome_of_joined {s : State} (h : s.joined = true) (p i : Nat) : s.tblHome p i = i % 2 := by
  simp only [State.joined, Bool.and_eq_true] at h
  simp [State.tblHome, h]

/-- With both panels joined, a conditional delete waits at its home for the marker that it posts into the other panel's activity
stream (R210). -/
theorem State.startCdelete_waits {m : State} (hj : m.joined = true) (p : Nat) (d : CdelReq) {home : Nat} (hh : hIdx d.handle % 2 = home) :
    let u := m.startCdelete p d
    u = { m with tbl := u.tbl } ∧ (u.tp home).cdels = (m.tp home).cdels ++ [d] ∧
      (u.tp (1 - home)).stream = (m.tp (1 - home)).stream ++ [.marker d.jrec] ∧
      (u.tp home).ents = (m.tp home).ents ∧ (u.tp (1 - home)).ents = (m.tp (1 - home)).ents := by
  let v := m.setTp home { m.tp home with cdels := (m.tp home).cdels ++ [d] }
  have there : v.tp (1 - home) = m.tp (1 - home) := State.tp_setTp_other _ _ (by omega)
  have hu : m.startCdelete p d = v.setTp (1 - home) { v.tp (1 - home) with stream := (v.tp (1 - home)).stream ++ [.marker d.jrec] } := by
    subst hh
    unfold State.startCdelete
    rw [if_pos hj, State.tblHome_of_joined hj p]
  have here : (m.startCdelete p d).tp home = v.tp home := by rw [hu, State.tp_setTp_other _ _ (by omega)]
  intro u
  refine ⟨?_, ?_, ?_, ?_, ?_⟩
  · show m.startCdelete p d = { m with tbl := (m.startCdelete p d).tbl }
    have frame : v = { m with tbl := v.tbl } := State.setTp_frame _ _ _
    rw [hu, State.setTp_frame, frame]
  · rw [here, State.tp_setTp_self]
  · rw [show u = _ from hu, State.tp_setTp_self, there]
  · rw [here, State.tp_setTp_self]
  · rw [show u = _ from hu, State.tp_setTp_self, there]

-- ------------------------------------------------------------------------------------------------- the obligation

/-- The table commands of a ring. -/
theorem exec_tblRow {x : Instr} {c : CmdIn} {op : Nat} {o : TblOp} {staged : Bool} (h : tblRow x = some (c, op, o, staged)) (s : State) :
    exec x s = s.command op c (s.tblRsv o c) fun rec s => s.tblRun o staged c rec := by
  unfold tblRow at h
  split at h <;> cases h <;> rfl

theorem exec_tblCdelete (c : CmdIn) (s : State) : exec (.tblCdelete c) s = s.command 4 c (s.cdelRsv c) fun rec s => s.cdelRun c rec := rfl

/-- Settles O49: the checks of a table command in their order, then the outcomes by the kind of its table; a conditional delete starts at its home. -/
theorem hostTables : Obligations.HostTables := by
  intro s c hs n k key data lpm st
  refine ⟨fun x op o staged hx h => ?rows, fun m rec e => ⟨fun _ hp => State.insertEnt_places hp, fun hp => State.insertEnt_full hp⟩, fun h => ?cdel⟩
  case rows =>
    have run := fun u => exec_admitted (u := u) hs (exec_tblRow hx s) h
    unfold Answers
    obtain ⟨t, ht⟩ := s.inCommand_state op c
    rw [ht] at run ⊢
    generalize (s.inCommand op c).1 = rec at run ⊢
    intro rec' m fits open_
    refine ⟨fun hf => run _ (State.tblRun_noTable rfl hf), fun hf he => run _ (State.tblRun_fenced rfl hf he),
      fun hf he hr => run _ (State.tblRun_notReady rfl hf he hr), fun ho hl hst => ?staged, fun ho h6 hw => run _ (State.tblRun_queued rfl rfl rfl ho h6 hw),
      fun ho hl hst hw => ?unversioned, fun ho hl => ?prefixes⟩
    case staged =>
      have run := fun u hu => run u ((State.tblRun_staged (m := m) rfl rfl rfl ho hl hst).trans hu)
      refine ⟨fun hi hp => run _ (State.stagedEm_present hi hp), fun hi hh hp => run _ (State.stagedEm_inserts hi hh hp), fun hi hh => run _ (State.stagedEm_absent hi hh),
        fun _ _ hd hh => run _ (State.stagedEm_deletes hd hh), fun _ _ t hm hh ht => ?_⟩
      exact ⟨fun hp => run _ (State.stagedEm_modify_full hm hh ht hp), fun g hp => run _ (State.stagedEm_modifies hm hh ht hp)⟩
    case unversioned =>
      have run := fun u hu => run u ((State.tblRun_unversioned (m := m) rfl rfl rfl ho hl hst hw).trans hu)
      exact ⟨fun hi hp => run _ (State.unversioned_present hi hp), fun hi hp => run _ (State.unversioned_inserts hi hp), fun hi hh => run _ (State.unversioned_absent hi hh),
        fun _ _ hd hh => run _ (State.unversioned_deletes hd hh), fun _ _ hm hh => run _ (State.unversioned_modifies hm hh)⟩
    case prefixes =>
      have run := fun u hu => run u ((State.tblRun_lpm (m := m) rfl rfl rfl ho hl).trans hu)
      exact ⟨fun hi hp => run _ (State.stagedLpm_present hi hp), fun hi hp => run _ (State.stagedLpm_absent hi hp), fun hi hf => run _ (State.stagedLpm_full hi hf),
        fun hi hf => run _ (State.stagedLpm_puts hi hf)⟩
  case cdel =>
    have run := fun u => exec_admitted (u := u) hs (exec_tblCdelete c s) h
    unfold Answers Ends
    obtain ⟨t, ht⟩ := s.inCommand_state 4 c
    rw [ht] at run ⊢
    generalize (s.inCommand 4 c).1 = rec at run ⊢
    intro w h tn kind aged x
    refine ⟨fun ha => run _ (State.cdelRun_noTable rfl ha), fun ha he => run _ (State.cdelRun_fenced rfl ha he), fun ha he hp => run _ (State.cdelRun_split rfl ha he hp),
      fun ha he hp ht => run _ (State.cdelRun_otherTable rfl ha he hp ht), fun ha he hj ht hw => ?_⟩
    have hsplit := State.split_of_joined hj
    let m : State := { s with hst := t }
    obtain ⟨frame, waits⟩ := State.startCdelete_waits (m := m) hj m.hostPanel (m.cdelReq c rec) rfl
    refine ⟨_, run _ (State.cdelRun_starts rfl ha he hsplit ht hw), ?_, waits⟩
    exact frame.trans (by rw [frame])

end Sys2Proof.Machine
end

section
/-! PROOFS. The Chart Reader: a parser's pass, cast-on, generations and sweep passes, and the delivery to a strand endpoint (R76, R83, R85,
R94, R95, R98, R161). -/

namespace Sys2Proof.Machine

-- ------------------------------------------------------------------------------------------------------ a parser's pass

section
variable {s : State} {p parser : Nat} {x : ParseItem} {rest : List ParseItem}

/-- The oldest frame leaves the queue of its panel; one that is dead ends there (R76, R114). -/
theorem exec_parsePass (hp : p < 2) (hr : parser < 4) (hq : SMap.get s.swt.parseQ [] p = x :: rest) (hu : s.up p = true)
    (hf : s.isFenced p 8 (4 * p + parser) = false) :
    exec (.parsePass p parser) s = .next (if x.dead then s.withParse p rest else (s.withParse p rest).parse p x) := by
  show execParsePass p parser s = _
  simp only [execParsePass, Nat.mod_eq_of_lt hp, Nat.mod_eq_of_lt hr, hq, hu, hf, Bool.not_true, Bool.or_self, Bool.false_eq_true, if_false]
  split <;> rfl

/-- A frame that meets an exception of the drop mask in its first pass is counted under the lowest of them (R84). -/
theorem State.parse_counts {n : Nat} (hl : x.ll = none) (hw : x.work = none)
    (he : lowBit ((s.parseFrom (s.chr.curGen % 4) x.frame (s.startState (s.chr.curGen % 4) x.port) 0 {} 64).exc &&&
      (s.bankW (s.chr.curGen % 4) (0x310C / 4)).toNat) = some n) : s.parse p x = s.countP p n := by
  simp only [State.parse, hl, hw, Option.map_none, he]

end

-- ------------------------------------------------------------------------------------- what a list that takes an item keeps

/-- `u` is `s` but for the lists, the memories and the DRAM controllers. -/
def ListsOnly (s u : State) : Prop := u = { s with car := u.car, mem := u.mem, drm := u.drm }

theorem ListsOnly.refl (s : State) : ListsOnly s s := rfl

theorem ListsOnly.trans {s u v : State} (a : ListsOnly s u) (b : ListsOnly u v) : ListsOnly s v := by
  unfold ListsOnly at *
  rw [b, a]

theorem ListsOnly.odoms_eq {s u : State} (h : ListsOnly s u) : u.odoms = s.odoms := by rw [h]

theorem listsOnly_devSet (s : State) (req a : Nat) (v : Byte) : ListsOnly s (s.devSet req a v) := by
  unfold State.devSet
  dsimp only
  split
  · split <;> rfl
  · rfl

theorem listsOnly_devWrite (s : State) (req a : Nat) (bs : List Byte) : ListsOnly s (s.devWrite req a bs) := by
  induction bs generalizing s a with
  | nil => exact .refl s
  | cons b bs ih => exact (listsOnly_devSet s req a b).trans (ih _ _)

theorem listsOnly_askDram (s : State) (req port a n : Nat) (write : Bool) : ListsOnly s (s.askDram req port a n write) := rfl

/-- An item that goes to a list's spill ring is written to device memory (R104). -/
theorem listsOnly_spillTo {s u : State} {l : Nat} {w : WorkItem} (h : s.spillTo l w = some u) : ListsOnly s u := by
  obtain ⟨i, -, rfl⟩ := Option.map_eq_some_iff.1 h
  dsimp only
  refine ListsOnly.trans (ListsOnly.trans ?_ (listsOnly_devWrite _ _ _ _)) (listsOnly_askDram _ _ _ _ _ _)
  rfl

theorem listsOnly_storeItem {s u : State} {l : Nat} {w : WorkItem} (h : s.storeItem l w = some u) : ListsOnly s u := by
  unfold State.storeItem at h
  dsimp only at h
  split at h
  · exact listsOnly_spillTo h
  · split at h
    · cases h
      rfl
    · split at h
      · exact listsOnly_spillTo h
      · cases h

theorem listsOnly_setHoldQ (s : State) (p : Nat) (x : List WorkItem) : ListsOnly s (s.setHoldQ p x) := by
  unfold State.setHoldQ
  split <;> rfl

/-- A list that takes an item, if only in the hold queue (R104), changes nothing outside the Carriage and the memory. -/
theorem listsOnly_appendItem {s u : State} {w : WorkItem} (h : s.appendItem w = some u) : ListsOnly s u := by
  have held {o : Option State} (ho : o = if (s.holdQ (listPanel w.list)).length < 256 then some (s.setHoldQ (listPanel w.list) (s.holdQ (listPanel w.list) ++ [w])) else none)
      (hu : o = some u) : ListsOnly s u := by
    rw [ho] at hu
    split at hu <;> cases hu
    exact listsOnly_setHoldQ _ _ _
  unfold State.appendItem at h
  dsimp only at h
  split at h
  · exact held rfl h
  · split at h
    next v hv =>
      cases h
      exact listsOnly_storeItem hv
    · exact held rfl h

theorem State.learnRequest_odoms (s : State) (p : Nat) (r : LearnReq) : (s.learnRequest p r).odoms = s.odoms := by
  unfold State.learnRequest
  split
  · rfl
  · dsimp only
    split
    · exact State.setTp_odoms _ _ _
    · rfl

/-- A learn request of a first pass (R202) leaves the ordering domains alone. -/
theorem State.castLearn_odoms (s : State) (p ingress : Nat) (area : List Byte) : (s.castLearn p ingress area).odoms = s.odoms := by
  unfold State.castLearn
  extract_lets c field
  split
  · rfl
  · split
    · rfl
    · split
      · rfl
      · exact State.learnRequest_odoms _ _ _

-- ------------------------------------------------------------------------------------------------- markers and cast-on

/-- No ordering domain hands out another marker next: what ends an item, and what stores it, only moves heads and slots (R98, R114). -/
structure NextKept (s u : State) : Prop where
  sorted : SMap.sorted u.odoms = true
  next : ∀ k, (SMap.get u.odoms {} k).next = (SMap.get s.odoms {} k).next

theorem NextKept.trans {s u v : State} (a : NextKept s u) (b : NextKept u v) : NextKept s v := ⟨b.sorted, fun k => (b.next k).trans (a.next k)⟩

theorem nextKept_of_odoms {s u : State} (hs : SMap.sorted s.odoms = true) (h : u.odoms = s.odoms) : NextKept s u := ⟨by rw [h, hs], fun k => by rw [h]⟩

/-- An ordering domain reads as last written. -/
theorem State.od_setOd_self {s : State} (hs : SMap.sorted s.odoms = true) (p d : Nat) (o : Odom) : (s.setOd p d o).od p d = o :=
  (SMap.get_set s.odoms {} _ _ o hs).trans (if_pos rfl)

theorem State.sorted_setOd {s : State} (hs : SMap.sorted s.odoms = true) (p d : Nat) (o : Odom) : SMap.sorted (s.setOd p d o).odoms = true :=
  SMap.sorted_set ({} : Odom) (odKey p d) o hs

theorem nextKept_setOd {s : State} (hs : SMap.sorted s.odoms = true) (p d : Nat) {o : Odom} (h : o.next = (s.od p d).next) : NextKept s (s.setOd p d o) := by
  refine ⟨State.sorted_setOd hs p d o, fun k => ?_⟩
  show (SMap.get (SMap.set s.odoms {} (odKey p d) o) {} k).next = _
  rw [SMap.get_set _ _ _ _ _ hs]
  split
  next hk => rw [h, ← hk, State.od]
  · rfl

theorem nextKept_passHead (p d n : Nat) {s : State} (hs : SMap.sorted s.odoms = true) : NextKept s (s.passHead p d n) := by
  induction n generalizing s with
  | zero => exact nextKept_of_odoms hs rfl
  | succ n ih =>
    have passed : NextKept s (s.setOd p d (s.od p d).pass) := nextKept_setOd hs p d rfl
    have counted (k : Nat) : NextKept s ((s.setOd p d (s.od p d).pass).countP p k) := passed.trans (nextKept_of_odoms passed.sorted rfl)
    unfold State.passHead
    dsimp only
    split
    next cause _ =>
      cases cause with
      | none => exact passed.trans (ih passed.sorted)
      | some k => exact (counted k).trans (ih (counted k).sorted)
    · exact passed.trans (ih passed.sorted)
    · exact nextKept_of_odoms hs rfl

theorem nextKept_advanceHead {s : State} (hs : SMap.sorted s.odoms = true) (p d : Nat) : NextKept s (s.advanceHead p d) := nextKept_passHead p d 512 hs

theorem nextKept_dropMark {s : State} (hs : SMap.sorted s.odoms = true) (w : WorkItem) (cause : Nat) : NextKept s (s.dropMark w cause) := by
  unfold State.dropMark State.setMark
  split
  · have marked := nextKept_setOd hs w.panel w.odom (o := (s.od w.panel w.odom).setSlot w.marker (.drop (some cause))) rfl
    exact marked.trans (nextKept_advanceHead marked.sorted _ _)
  · exact nextKept_of_odoms hs rfl

/-- A marker is the next of its domain, which then hands out the one after it (R98). -/
theorem State.assignMarker_room {s : State} {p d : Nat} (h : ((s.od p d).next + 65536 - (s.od p d).head) % 65536 < 512) (vgen : Nat) (v : Slot) :
    ∃ o, s.assignMarker p d vgen v = (some (s.od p d).next, s.setOd p d o) ∧ o.next = ((s.od p d).next + 1) % 65536 :=
  ⟨_, if_pos h, rfl⟩

theorem State.assignMarker_full {s : State} {p d : Nat} (h : 512 ≤ ((s.od p d).next + 65536 - (s.od p d).head) % 65536) (vgen : Nat) (v : Slot) :
    s.assignMarker p d vgen v = (none, s) := if_neg (Nat.not_lt.2 h)

section
variable {s : State} {p : Nat} {w : WorkItem} {early : Bool} (he : bits w.action 8 2 = 1 → early = false)
include he

/-- A full window drops the frame at cast-on (R98). -/
theorem State.castOn_full (h : 512 ≤ ((s.od p (bits w.action 26 14)).next + 65536 - (s.od p (bits w.action 26 14)).head) % 65536) :
    s.castOn p w early = s.countP p 13 := by
  have late : ¬ (decide (bits w.action 8 2 = 1) && early) = true := by simpa using he
  unfold State.castOn
  dsimp only
  rw [if_neg late, State.assignMarker_full h]

/-- A frame that casts on takes the next marker of its ordering domain, whether it is stored or dropped (R98, R103, R114). -/
theorem State.castOn_next (hs : SMap.sorted s.odoms = true)
    (h : ((s.od p (bits w.action 26 14)).next + 65536 - (s.od p (bits w.action 26 14)).head) % 65536 < 512) :
    ((s.castOn p w early).od p (bits w.action 26 14)).next = ((s.od p (bits w.action 26 14)).next + 1) % 65536 := by
  have late : ¬ (decide (bits w.action 8 2 = 1) && early) = true := by simpa using he
  obtain ⟨o, assigned, next⟩ := State.assignMarker_room h w.vgen (if decide (bits w.action 8 2 = 1) = true then .drop (some 11) else .pending)
  have hu := State.sorted_setOd hs p (bits w.action 26 14) o
  suffices kept : NextKept (s.setOd p (bits w.action 26 14) o) (s.castOn p w early) by
    rw [← next, ← State.od_setOd_self hs p (bits w.action 26 14) o]
    exact kept.next _
  unfold State.castOn
  dsimp only
  rw [if_neg late, assigned]
  dsimp only
  split
  · exact nextKept_advanceHead hu _ _
  · have learnt := nextKept_of_odoms hu (State.castLearn_odoms (s.setOd p (bits w.action 26 14) o) p w.ingress w.keyArea)
    generalize (s.setOd p (bits w.action 26 14) o).castLearn p w.ingress w.keyArea = u at learnt
    split
    · exact learnt.trans (nextKept_dropMark learnt.sorted _ _)
    next c _ =>
      have chosen (r : SMap Nat) : NextKept u { u with car := { u.car with castRr := r } } := nextKept_of_odoms learnt.sorted rfl
      split
      next t ht =>
        have stored : t.odoms = u.odoms := (listsOnly_appendItem ht).odoms_eq
        exact learnt.trans (nextKept_of_odoms learnt.sorted stored)
      · exact (learnt.trans (chosen _)).trans (nextKept_dropMark (chosen _).sorted _ _)

end

-- --------------------------------------------------------------------------------------------- generations and sweeps

/-- A DRAINING generation without a frame on any powered panel retires (R95). -/
theorem exec_generationRetire_retires {s : State} {g : Nat} (hd : s.chr.draining = some g) (h : ∀ p < 2, s.reachable p = true → s.genCount p g = 0) :
    exec .generationRetire s = .next { s with chr := { s.chr with draining := none, passes := s.chr.passes ++ [.retire (g % 4)] } } := by
  have idle (p : Nat) (hp : p < 2) : (s.reachable p && decide (s.genCount p g ≠ 0)) = false := by simpa using h p hp
  show execGenerationRetire s = _
  simp only [execGenerationRetire, hd, idle 0 (by decide), idle 1 (by decide), Bool.or_self, Bool.false_eq_true, if_false]

theorem exec_generationRetire_busy {s : State} {g p : Nat} (hp : p < 2) (hd : s.chr.draining = some g) (hr : s.reachable p = true) (h : s.genCount p g ≠ 0) :
    exec .generationRetire s = .next s := by
  have busy : (s.reachable p && decide (s.genCount p g ≠ 0)) = true := by simp [hr, h]
  show execGenerationRetire s = _
  simp only [execGenerationRetire, hd]
  obtain rfl | rfl : p = 0 ∨ p = 1 := by omega
  · rw [busy, Bool.true_or, if_pos rfl]
  · rw [busy, Bool.or_true, if_pos rfl]

/-- A map whose entries are each changed or removed reads so at every key. -/
theorem SMap.find_filterMap {β γ : Type} {m : SMap β} (f : β → Option γ) (h : SMap.sorted m = true) (k : Nat) :
    SMap.find (m.filterMap fun e => (f e.2).map fun v => (e.1, v)) k = (SMap.find m k).bind f := by
  induction m with
  | nil => rfl
  | cons e m ih =>
    obtain ⟨a, w⟩ := e
    have tail := ih (SMap.sorted_tail h)
    rw [List.filterMap_cons]
    by_cases hk : a = k
    · subst hk
      have gone : SMap.find m a = none := SMap.find_none_of_lt (SMap.sorted_head h)
      rw [gone, Option.bind_none] at tail
      cases hw : f w <;> simp [SMap.find, hw, tail]
    · cases f w <;> simp [SMap.find, hk, tail]

/-- What a sweep pass makes of a mask (R94). -/
def State.sweepMask (s : State) (w : Sweep) (v : Nat) : Nat :=
  match w with
  | .copy => setBit v s.stagingSlot (bit v (s.chr.curGen % 4))
  | .retire k => setBit v k false

theorem find_maskEnts {x : TblPanel} (f : Nat → Nat) (h : SMap.sorted x.ents = true) (k : Nat) :
    SMap.find (maskEnts x f).ents k = (SMap.find x.ents k).bind (maskEnt f) := SMap.find_filterMap (maskEnt f) h k

/-- A sweep pass changes the masks of every entry of both copies (R94). -/
theorem State.applySweep_find {s : State} (ha : SMap.sorted s.tbl.a.ents = true) (hb : SMap.sorted s.tbl.b.ents = true) (w : Sweep) (p k : Nat) :
    SMap.find ((s.applySweep w).tp p).ents k = (SMap.find (s.tp p).ents k).bind (maskEnt (s.sweepMask w)) := by
  have swept : (s.applySweep w).tp p = maskEnts (s.tp p) (s.sweepMask w) := by
    unfold State.tp
    cases w <;> split <;> rfl
  rw [swept, find_maskEnts]
  unfold State.tp
  split
  · exact ha
  · exact hb

theorem exec_sweepPassEnd {s : State} {w : Sweep} {rest : List Sweep} (h : s.chr.passes = w :: rest) :
    exec .sweepPassEnd s = .next { s.applySweep w with chr := { (s.applySweep w).chr with passes := rest } } := by
  show execSweepPassEnd s = _
  simp only [execSweepPassEnd, h]

/-- A sweep pass changes the charts and the tables, not the generation in use. -/
theorem State.applySweep_frame (s : State) (w : Sweep) : s.applySweep w = { s with chr := { s.chr with words := (s.applySweep w).chr.words }, tbl := (s.applySweep w).tbl } := by
  cases w <;> rfl

-- --------------------------------------------------------------------------------------------------------- endpoints

/-- The frame that waits longest in the highest class leaves the core and counts in SEQ (R161): the endpoint asks for a buffer. -/
def State.takenByEp (s : State) (e tc n : Nat) : State :=
  let u := (s.popQueue (coursePanel (s.sepCourse e)) (1109 + e) tc).delFrame n
  { u with yrn := { u.yrn with epSeq := SMap.set u.yrn.epSeq 0 e ((SMap.get s.yrn.epSeq 0 e + 1) % 4294967296) } }

theorem State.offerEp_endpoint {e : Nat} (he : e < 43) (s : State) : s.offerEp (1109 + e) =
    { s with yrn := { s.yrn with epSeq := SMap.set s.yrn.epSeq 0 e ((SMap.get s.yrn.epSeq 0 e + 1) % 4294967296) } } := by
  have inside : (decide (1109 ≤ 1109 + e) && decide (1109 + e < 1152)) = true := by
    rw [Bool.and_eq_true, decide_eq_true_eq, decide_eq_true_eq]
    omega
  unfold State.offerEp
  rw [if_pos inside, Nat.add_sub_cancel_left]

theorem State.takenByEp_eq {e : Nat} (he : e < 43) (s : State) (tc n : Nat) :
    ((s.popQueue (coursePanel (s.sepCourse e)) (1109 + e) tc).delFrame n).offerEp (1109 + e) = s.takenByEp e tc n := by
  have seq : ((s.popQueue (coursePanel (s.sepCourse e)) (1109 + e) tc).delFrame n).yrn = s.yrn := State.setQueue_yrn _ _ _ _ _
  rw [State.offerEp_endpoint he, seq, State.takenByEp, seq]

theorem State.takenByEp_regs (s : State) (e tc n : Nat) : (s.takenByEp e tc n).regs = s.regs := State.setQueue_regs _ _ _ _ _

/-- The key of the yarn that an endpoint delivers to (R161). -/
def State.epYarn (s : State) (e : Nat) : Nat := s.sepCourse e * 64 + s.rf R.sepCfg 0 e 4 6

/-- What the delivery of a frame comes to by the buffer that the endpoint is given (R161): its message in the yarn, or a count. -/
def State.epOutcome (s : State) (e tc : Nat) (f : FabFrame) (r : Nat × Nat × Nat × State) : Host.Outcome State Fault Refusal :=
  let a := r.2.1
  let u := r.2.2.2.devWrite (coursePanel (s.sepCourse e)) a f.bytes
  let m := [w32 a, w32 (a / 2 ^ 32 % 256 + (f.bytes.length % 16384) * 256 + tc * 2 ^ 22), w32 f.ingress, w32 (SMap.get s.yrn.epSeq 0 e)]
  if r.1 = 0 then .next (u.setYarn (s.epYarn e) { u.yarn (s.epYarn e) with transit := (u.yarn (s.epYarn e)).transit ++ [m] })
  else .next (r.2.2.2.count 6 e 0)

theorem exec_endpointDelivery {s : State} {e tc n : Nat} {f : FabFrame} (he : e < 43) (hok : s.epOk e = true) (hu : s.up (coursePanel (s.sepCourse e)) = true)
    (hy : (s.yarn (s.epYarn e)).count < 8) (hh : s.innerHead (coursePanel (s.sepCourse e)) (1109 + e) = some (tc, n, f)) :
    exec (.endpointDelivery e) s = s.epOutcome e tc f ((s.takenByEp e tc n).allocBuf (.endpoint e) (s.rf R.sepCfg 0 e 10 4) f.bytes.length false) := by
  have room : ¬ (decide (43 ≤ e) || !s.epOk e || !s.up (coursePanel (s.sepCourse e)) || decide (8 ≤ (s.yarn (s.epYarn e)).count)) = true := by
    simp [hok, hu, he, hy]
  have seq : ((s.popQueue (coursePanel (s.sepCourse e)) (1109 + e) tc).delFrame n).yrn = s.yrn := State.setQueue_yrn _ _ _ _ _
  show execEndpointDelivery e s = _
  unfold execEndpointDelivery
  dsimp only
  rw [State.epYarn] at room
  rw [if_neg room, hh]
  dsimp only
  rw [State.takenByEp_eq he, State.rf_congr (s.takenByEp_regs e tc n), seq]
  generalize State.allocBuf _ _ _ _ _ = r
  obtain ⟨st, a, pl, t⟩ := r
  cases st <;> rfl

-- ------------------------------------------------------------------------------------------------- the obligation

/-- Settles O41: the parser's pass and cast-on by the branch that the frame takes, the sweeps entry by entry, the delivery by the buffer it gets. -/
theorem parseAndCharts : Obligations.ParseAndCharts := by
  intro s
  refine ⟨fun p parser x rest hp hr hq hu hf => ?parse, fun p w early _ ho _ he => ⟨State.castOn_next he ho, State.castOn_full he⟩,
    fun g hd h => exec_generationRetire_retires hd h, fun g p hp hd hr h => exec_generationRetire_busy hp hd hr h,
    fun w rest hw ha hb => ?sweep, fun e tc n f he hok => ?deliver⟩
  case parse =>
    have pass := exec_parsePass hp hr hq hu hf
    intro s0 r
    refine ⟨fun hd => by rw [pass, if_pos hd], fun hd => by rw [pass, if_neg (ne_true_of_eq_false hd)], fun hd hl hw n hn => ?_⟩
    rw [pass, if_neg (ne_true_of_eq_false hd), State.parse_counts hl hw hn]
  case sweep =>
    refine ⟨_, exec_sweepPassEnd hw, ?_, rfl, ?_, ?_⟩
    · rw [State.applySweep_frame]
    · rw [State.applySweep_frame]
    · intro f p h
      have mask : s.sweepMask w = f := by cases w <;> rfl
      have swept := State.applySweep_find ha hb w p h
      rw [mask] at swept
      refine Eq.trans swept ?_
      cases SMap.find (s.tp p).ents h <;> rfl
  case deliver =>
    intro c p key hu hy hh s1 q s2 len
    have delivery := exec_endpointDelivery he hok hu hy hh
    refine ⟨fun a pl s3 hb => ?_, fun st a pl s3 hst hb => ?_⟩
    · exact (delivery.trans (congrArg _ hb)).trans rfl
    · exact (delivery.trans (congrArg _ hb)).trans (if_neg hst)

end Sys2Proof.Machine
end

section
/-! PROOFS. Bind-off by the strand (R112, R138), and what lifelines and marker slots read as once they have been written. -/

namespace Sys2Proof.Machine

/-- A lifeline reads as last written. -/
theorem State.ll_setLl {s : State} (h : SMap.sorted s.lls = true) (k j : Nat) (l : Lifeline) : (s.setLl k l).ll j = if k = j then l else s.ll j :=
  SMap.get_set s.lls {} k j l h

theorem State.ll_setLl_self {s : State} (h : SMap.sorted s.lls = true) (k : Nat) (l : Lifeline) : (s.setLl k l).ll k = l := by
  rw [State.ll_setLl h, if_pos rfl]

theorem State.ll_setLl_other {s : State} (h : SMap.sorted s.lls = true) {k j : Nat} (hj : j ≠ k) (l : Lifeline) : (s.setLl k l).ll j = s.ll j := by
  rw [State.ll_setLl h, if_neg (Ne.symm hj)]

theorem State.sorted_setLl {s : State} (h : SMap.sorted s.lls = true) (k : Nat) (l : Lifeline) : SMap.sorted (s.setLl k l).lls = true :=
  SMap.sorted_set ({} : Lifeline) k l h

/-- Marking an item's slot changes the ordering domains alone. -/
theorem State.setMark_frame (s : State) (w : WorkItem) (v : Slot) : s.setMark w v = { s with odoms := (s.setMark w v).odoms } := by
  unfold State.setMark
  split <;> rfl

theorem State.setMark_strands (s : State) (w : WorkItem) (v : Slot) : (s.setMark w v).strands = s.strands := by rw [State.setMark_frame]
theorem State.setMark_lls (s : State) (w : WorkItem) (v : Slot) : (s.setMark w v).lls = s.lls := by rw [State.setMark_frame]

/-- The slot of an item with a marker reads as marked. -/
theorem State.slot_setMark {s : State} (h : SMap.sorted s.odoms = true) {w : WorkItem} (hw : w.ord = true)
    (hs : SMap.sorted (s.od w.panel w.odom).slots = true) (v : Slot) : ((s.setMark w v).od w.panel w.odom).slot w.marker = v := by
  rw [State.setMark, if_pos hw, State.od_setOd_self h]
  exact (SMap.get_set _ _ _ _ _ hs).trans (if_pos rfl)

/-- The other ordering domains keep their slots. -/
theorem State.od_setMark_other {s : State} (h : SMap.sorted s.odoms = true) (w : WorkItem) (v : Slot) {p d : Nat} (hd : odKey p d ≠ odKey w.panel w.odom) :
    (s.setMark w v).od p d = s.od p d := by
  unfold State.setMark
  split
  · exact (SMap.get_set _ _ _ _ _ h).trans (if_neg (Ne.symm hd))
  · rfl

/-- What a write of a general register leaves of the strands depends on the strands alone. -/
theorem State.wreg_strands_congr {s u : State} (h : u.strands = s.strands) (t r : Nat) (v : Word) : (u.wreg t r v).strands = (s.wreg t r v).strands := by
  simp only [State.wreg, State.setBank, State.setStrand, State.bank, State.strand, h]

/-- Strands that are the same list read the same. -/
theorem State.strand_congr {s u : State} (h : u.strands = s.strands) (t : Nat) : u.strand t = s.strand t := by
  rw [State.strand, h, State.strand]

theorem State.od_congr {s u : State} (h : u.odoms = s.odoms) (p d : Nat) : u.od p d = s.od p d := by
  rw [State.od, h, State.od]

/-- Strand `t` ends item `k`, which has not timed out: the bank gives it up, its lifeline is DONE, and its slot is marked (R112, R138). -/
def State.itemDone (s : State) (t k : Nat) : State :=
  ((s.setBank t (s.bank t).dropItem).setLl k { s.ll k with state := .done, strand := none }).setMark (s.ll k).item .done

theorem State.itemDone_strands (s : State) (t k : Nat) : (s.itemDone t k).strands = (s.setBank t (s.bank t).dropItem).strands := State.setMark_strands _ _ _
theorem State.itemDone_lls (s : State) (t k : Nat) : (s.itemDone t k).lls = (s.setLl k { s.ll k with state := .done, strand := none }).lls := State.setMark_lls _ _ _
theorem State.itemDone_odoms (s : State) (t k : Nat) : (s.itemDone t k).odoms = (s.setMark (s.ll k).item .done).odoms := by
  unfold State.itemDone State.setMark
  split <;> rfl
theorem State.itemDone_frame (s : State) (t k : Nat) :
    s.itemDone t k = { s with strands := (s.itemDone t k).strands, lls := (s.itemDone t k).lls, odoms := (s.itemDone t k).odoms } := by
  unfold State.itemDone State.setMark
  split <;> rfl

theorem State.bindoffItem_done {s : State} {t k : Nat} (hi : (s.bank t).item = some k) (hh : (s.bank t).hasItem = true) (hl : (s.ll k).state ≠ .timedOut) :
    s.bindoffItem t = (0, s.itemDone t k) := by
  simp only [State.bindoffItem, hi, hh, Bool.not_true, Bool.false_eq_true, if_false, if_neg hl]
  rfl

/-- BINDOFF of such an item answers OK. -/
theorem exec_bindoff_done {s : State} {t k : Nat} {f : SysFmt} (ho : SMap.sorted s.strands = true) (hf : f.rs1 = 0#5) (hops : (s.strand t).ops = [])
    (hr : Runs s t f.g [f.rd.toNat] []) (hi : (s.bank t).item = some k) (hh : (s.bank t).hasItem = true) (hv : s.viewCut t = false)
    (hl : (s.ll k).state ≠ .timedOut) : exec (.bindoff t f) s = .next ((((s.advance t).itemDone t k).wreg t f.rd.toNat 0#32).stepDone t) := by
  have hb := State.bank_advance s t ho
  have hx : exec (.bindoff t f) s = .next (s.issue t { word := f.word 2, g := f.g, regs := [f.rd.toNat], hold := !(s.strand t).ops.isEmpty || s.viewCut t, emu := fieldErr (f.rs1 ≠ 0#5) }
      fun s => (s.bindoffItem t).2.wreg t f.rd.toNat (w32 (s.bindoffItem t).1)) := rfl
  rw [hx, State.issue_runs hr (by simp [fieldErr, hf]) (by simp [hops, hv]) rfl (fun _ => rfl) rfl,
    State.bindoffItem_done (s := s.advance t) (by rw [hb]; exact hi) (by rw [hb]; exact hh) hl]
  rfl

/-- What becomes of the strands: the running bank is past the instruction, without the item, and holds the status. -/
theorem State.bindoff_strands {s : State} (ho : SMap.sorted s.strands = true) (t k r : Nat) :
    (((s.advance t).itemDone t k).wreg t r 0#32).strands = (s.setBank t ((s.bank t).next.dropItem.wg r 0#32)).strands := by
  have o1 := State.sorted_setBank s t (s.bank t).next ho
  have hb : (s.advance t).bank t = (s.bank t).next := State.bank_advance s t ho
  rw [State.wreg_strands_congr (State.itemDone_strands (s.advance t) t k), State.wreg, State.bank_setBank (s.advance t) _ _ o1,
    State.setBank_setBank (s.advance t) _ _ _ o1, hb, State.advance_eq, State.setBank_setBank _ _ _ _ ho]

/-- Settles O15: the bank drops the item and takes the status, the lifeline ends DONE, and the item's slot is marked. -/
theorem bindOff : Obligations.BindOff := by
  intro s t k f ho hlls hod hslots hf hops hr hi hh hv hl w
  have strands := State.bindoff_strands ho t k f.rd.toNat
  obtain ⟨-, own, others⟩ := became_setBank s t ((s.bank t).next.dropItem.wg f.rd.toNat 0#32) ho
  have lls := State.itemDone_lls (s.advance t) t k
  have odoms := State.itemDone_odoms (s.advance t) t k
  refine ⟨_, exec_bindoff_done ho hf hops hr hi hh hv hl, ?_, (State.strand_congr strands t).trans own,
    fun j hj => (State.strand_congr strands j).trans (others j hj), (State.ll_congr lls k).trans (State.ll_setLl_self hlls k _),
    fun j hj => (State.ll_congr lls j).trans (State.ll_setLl_other hlls hj _), fun hw => odoms.trans ?_, fun hw => ?_, fun p d hd => ?_⟩
  · conv_lhs => rw [State.itemDone_frame]
    rfl
  · rw [State.setMark, if_neg]
    · rfl
    · exact fun h => Bool.false_ne_true (hw.symm.trans h)
  · exact (congrArg (fun o : Odom => o.slot w.marker) (State.od_congr odoms _ _)).trans (State.slot_setMark (s := s.advance t) hod hw hslots .done)
  · exact (State.od_congr odoms p d).trans (State.od_setMark_other (s := s.advance t) hod w .done hd)

end Sys2Proof.Machine
end

section
/-! PROOFS. FLOW_GET of a read-set entry (R182): the operation that the model asks for the item of the read names none, so it always finds
no entry. -/

namespace Sys2Proof.Machine

/-- Strand 0 runs with item 5, which has read one record; h1 asks for the bytes from offset 100 on. -/
def readEntryState : State :=
  { md := { mode := .run, a := { phase := .up }, b := { phase := .up } },
    lls := [(5, { state := .running, rs := [{}] })],
    strands := [(0, { bank0 := { pc := 0x00200000#32, h := [(1, 100#128)], item := some 5, hasItem := true }, idle := false, xmask := 0xFFFF })] }

/-- FLOW_GET of read-set entry 0 at the offset that h1 holds, into h2. -/
def readEntryGet : HFmt := ⟨0#4, 2#4, 0#4, 1#4, 0#4⟩

theorem readEntryState_runs : HookRuns readEntryState 0 3 0 readEntryGet [readEntryGet.hd.toNat] := by
  unfold HookRuns HookOffered Runs Offered Unwatched
  decide

/-- The values that the outstanding operations of strand 0 will deliver. -/
def opVals : Host.Outcome State Fault Refusal → List HWord
  | .next u => (u.strand 0).ops.map (·.val)
  | _ => []

theorem readEntryGet_answers : opVals (exec (.flowGet 0 readEntryGet) readEntryState) = [hres 0x04] := by decide

/-- An operation whose strand no debugger STEP runs delivers the value it is said to. -/
theorem opVals_of_becomes {c : Instr} {s : State} {y : Bank} {o : HookOp} (h : OpBecomes c s 0 y o) (hs : ((s.strand 0).withOp 0 y o).stepOver = false) :
    opVals (exec c s) = (s.strand 0).ops.map (·.val) ++ [o.val] := by
  obtain ⟨v, hx, -, hv, -⟩ := h
  rw [hx, State.stepDone_idle v 0 (by rw [hv]; exact hs)]
  show (v.strand 0).ops.map (·.val) = _
  rw [hv]
  simp [Strand.withOp]

/-- Refutes O27: FLOW_GET of a read-set entry at an offset beyond 68 answers NOT_READ (0x04) where the statement has 0x05: `execFlowGet` looks
up the item through an operation that names none, so it finds the entry of no read. -/
theorem not_hookFlowReads : ¬ Obligations.HookFlowReads := by
  intro h
  obtain ⟨-, -, get⟩ := h readEntryState 0 readEntryGet (by decide) (by decide) readEntryState_runs
  obtain ⟨entry, -⟩ := get (by decide) (by decide)
  obtain ⟨-, found, -⟩ := entry 5 (by decide) (by decide) (by decide)
  have beyond := (found {} (by decide) rfl rfl).1 (by decide)
  have vals := opVals_of_becomes beyond (by decide)
  rw [readEntryGet_answers] at vals
  exact absurd vals (by decide)

end Sys2Proof.Machine
end

section
/-! PROOFS. What a reservation takes (R223) does not depend on the strands. -/

namespace Sys2Proof.Machine

/-- The state with other strands: what the flow state and the memories do does not see them. -/
def State.withStrands (s : State) (x : SMap Strand) : State := { s with strands := x }

section
variable (s : State) (x : SMap Strand)

/-- A device byte's write changes the bytes kept and, of a mirrored line, the segment it marks (R288). -/
theorem State.devSet_eq (req a : Nat) (v : Byte) : s.devSet req a v =
    { s with
      mem := { s.mem with dev := (s.writeKeys req a).foldl (fun m k => cellSet m k v) s.mem.dev }
      drm := match s.devLoc a with
        | .mirror m =>
          if !s.md.bridge && s.up 0 && s.up 1 then
            { s.drm with msync := false, marked := SMap.set s.drm.marked 0 (m / 65536) (SMap.get s.drm.marked 0 (m / 65536) ||| (req + 1)) }
          else s.drm
        | _ => s.drm } := by
  have loc (m : MemState) : ({ s with mem := m } : State).devLoc a = s.devLoc a := rfl
  have up (m : MemState) (p : Nat) : ({ s with mem := m } : State).up p = s.up p := rfl
  simp only [State.devSet, loc, up]
  cases s.devLoc a with
  | mirror m => exact (apply_ite (fun d => ({ s with mem := _, drm := d } : State)) _ _ _).symm
  | _ => rfl

theorem State.devSet_withStrands (req a : Nat) (v : Byte) : (s.withStrands x).devSet req a v = (s.devSet req a v).withStrands x := by
  rw [State.devSet_eq, State.devSet_eq]
  rfl

theorem State.devWrite_withStrands (req a : Nat) (bs : List Byte) : (s.withStrands x).devWrite req a bs = (s.devWrite req a bs).withStrands x := by
  induction bs generalizing s a with
  | nil => rfl
  | cons b bs ih => rw [State.devWrite, State.devSet_withStrands, ih, State.devWrite]

theorem State.askDram_withStrands (req port a n : Nat) (write : Bool) : (s.withStrands x).askDram req port a n write = (s.askDram req port a n write).withStrands x := rfl
theorem State.wayAddr_withStrands (p b w : Nat) : (s.withStrands x).wayAddr p b w = s.wayAddr p b w := rfl
theorem State.mirWayAddr_withStrands (p b w : Nat) : (s.withStrands x).mirWayAddr p b w = s.mirWayAddr p b w := rfl
theorem State.flowBucket_withStrands (p : Nat) (key : List Byte) : (s.withStrands x).flowBucket p key = s.flowBucket p key := rfl
theorem State.countP_withStrands (p n : Nat) : (s.withStrands x).countP p n = (s.countP p n).withStrands x := rfl
theorem State.flw_withStrands (p : Nat) : (s.withStrands x).flw p = s.flw p := rfl

theorem State.setFlw_withStrands (p : Nat) (f : FlwPanel) : (s.withStrands x).setFlw p f = (s.setFlw p f).withStrands x := by
  unfold State.setFlw
  split <;> rfl

theorem State.setEntry_withStrands (p : Nat) (l : EntryLoc) (e : IdxEntry) : (s.withStrands x).setEntry p l e = (s.setEntry p l e).withStrands x := by
  cases l with
  | way b w => rw [State.setEntry, State.wayAddr_withStrands, State.devWrite_withStrands, State.askDram_withStrands, State.setEntry]
  | ovf i => exact State.setFlw_withStrands s x _ _
  | mir b w => rw [State.setEntry, State.mirWayAddr_withStrands, State.devWrite_withStrands, State.askDram_withStrands, State.setEntry]

theorem State.ridxOk_withStrands (p i : Nat) : (s.withStrands x).ridxOk p i = s.ridxOk p i := rfl

theorem State.nextRidx_withStrands (p k n : Nat) : (s.withStrands x).nextRidx p k n = s.nextRidx p k n := by
  induction n generalizing k with
  | zero => rfl
  | succ n ih => simp only [State.nextRidx, State.ridxOk_withStrands, ih]

theorem State.freePlace_withStrands (p : Nat) (key : List Byte) : (s.withStrands x).freePlace p key = s.freePlace p key := rfl

theorem State.pickRidx_withStrands (p : Nat) : (s.withStrands x).pickRidx p = ((s.pickRidx p).1, (s.pickRidx p).2.withStrands x) := by
  have next : (s.freeN.2.withStrands x).nextRidx p 0 (s.numRidx p) = s.freeN.2.nextRidx p 0 (s.numRidx p) := State.nextRidx_withStrands _ _ _ _ _
  have free : (s.withStrands x).freeN = (s.freeN.1, s.freeN.2.withStrands x) := rfl
  have num : (s.freeN.2.withStrands x).numRidx p = s.numRidx p := rfl
  have num' : s.freeN.2.numRidx p = s.numRidx p := rfl
  have ok (c : Nat) : (s.freeN.2.withStrands x).ridxOk p c = s.freeN.2.ridxOk p c := rfl
  simp only [State.pickRidx, free, num, num', ok, next]
  split <;> rfl

/-- A reservation with other strands: the same place and record index, and the same state but for the strands. -/
theorem State.reserve_withStrands (p : Nat) (key : List Byte) : (s.withStrands x).reserve p key = ((s.reserve p key).1, (s.reserve p key).2.withStrands x) := by
  have en : (s.withStrands x).flwEn p = s.flwEn p := rfl
  simp only [State.reserve, en, State.freePlace_withStrands, State.pickRidx_withStrands, State.flowBucket_withStrands, State.setEntry_withStrands,
    State.setFlw_withStrands, State.countP_withStrands, State.flw_withStrands]
  split
  · rfl
  · split <;> rfl

end
end Sys2Proof.Machine
end

section
/-! PROOFS. The staged operations of hook 3 (R111, R182, R183). -/

namespace Sys2Proof.Machine

/-- An operation of hook 3 that is taken, and whose body changes all but the strands to `m` and executes. -/
theorem opChanges_hook3 {s m : State} {t : Nat} {f : HFmt} {c : Instr} {d : HookDec} {body : State → State} {hregs : List Nat} {func : Nat} {v : HWord}
    (ho : SMap.sorted s.strands = true) (h : HookRuns s t 3 func f hregs) (hx : exec c s = .next (s.hookIssue t f d body)) (h3 : d.hook = 3)
    (hd : d.useHd = true ∧ d.mdBad = false ∧ d.refuse = none ∧ d.refDeps = [])
    (hu : (d.useHa = true ∨ f.ha = 0#4) ∧ (d.useHb = true ∨ f.hb = 0#4) ∧ (d.useMd = true ∨ f.md = 0#4)) (hn : ∀ r ∈ d.srcs, r < 16)
    (hh : (s.strand t).hookArrived [f.hd.toNat] = true) (hs : (s.strand t).hookArrived d.srcs = true)
    (hbody : body (s.hookReady t) = (m.withStrands (s.hookReady t).strands).hookDone t 3 d.func f.hd d.srcs v) :
    OpChanges c s m t { hook := 3, func := d.func, hd := some f.hd.toNat, srcs := d.srcs, val := v } := by
  obtain ⟨ud, um, ur, up⟩ := hd
  obtain ⟨ua, ub, umd⟩ := hu
  obtain ⟨⟨⟨-, hb, -⟩, hr, fence, -, -, -, -, reach⟩, -⟩ := id h
  have he : s.hookEmu t f d = none := State.hookEmu_none (by rw [h3]; exact fence) um ud ua ub umd hn
  have hcut : s.hookCut t d.hook d.func (s.hookItem t) = false := by rw [h3]; exact reach
  have run := State.hookIssue_runs ho (by rw [h3]; exact h) hcut he ur up hh hs body
  exact opChanges_of_body ho hb hr (hx.trans (congrArg _ run)) hbody

/-- What a staged operation of item `k` answers, and the state it leaves: nothing is staged into a lifeline that has timed out, nor by an
operation that fails a check (R183). -/
def State.stageAnswer (s : State) (k : Nat) (op : StOp) (rsi hb ha : Nat) : HWord × State :=
  if (s.ll k).state = .timedOut then (if stageCheck op none 15 hb = some 0x11 then hres 0x11 else hres 0x00, s)
  else match stageCheck op (some (s.ll k)) rsi hb with
    | some st => (hres st, s)
    | none => (hres ((s.stage k op rsi hb ha).1 + (s.stage k op rsi hb ha).2.1 * 256), (s.stage k op rsi hb ha).2.2)

section
variable (s : State) (k : Nat) (op : StOp) (rsi hb ha : Nat)

/-- Staging does not depend on the strands. -/
theorem State.stage_withStrands (x : SMap Strand) :
    (s.withStrands x).stage k op rsi hb ha = ((s.stage k op rsi hb ha).1, (s.stage k op rsi hb ha).2.1, (s.stage k op rsi hb ha).2.2.withStrands x) := by
  have item : (s.withStrands x).ll k = s.ll k := rfl
  have ctx (p n : Nat) : (s.withStrands x).ctx p n = s.ctx p n := rfl
  cases op with
  | insert =>
    simp only [State.stage, item, ctx, State.reserve_withStrands]
    split <;> rfl
  | _ => rfl

/-- Nor does the answer. -/
theorem State.stageAnswer_withStrands (x : SMap Strand) :
    (s.withStrands x).stageAnswer k op rsi hb ha = ((s.stageAnswer k op rsi hb ha).1, (s.stageAnswer k op rsi hb ha).2.withStrands x) := by
  have item : (s.withStrands x).ll k = s.ll k := rfl
  simp only [State.stageAnswer, item, State.stage_withStrands]
  split
  · rfl
  · split <;> rfl

variable {s k op rsi hb ha}

theorem State.stageAnswer_timedOut (out : (s.ll k).state = .timedOut) (admitted : stageCheck op none 15 hb ≠ some 0x11) :
    s.stageAnswer k op rsi hb ha = (hres 0x00, s) := by
  rw [State.stageAnswer, if_pos out, if_neg admitted]

/-- An edit is staged as one entry, at its target (R183). -/
theorem State.stage_edit (hne : op ≠ .insert) : s.stage k op rsi hb ha = (0x00, (s.ll k).log.length,
    let l := s.ll k
    let target := if rsi = 15 then bits hb 32 25 else match insertedOn l.log rsi with | some e => e.target | none => (l.rs.getD rsi {}).ridx
    s.setLl k { l with log := l.log ++ [{ op := op, rsi := rsi, off := if op = .delete then 0 else bits hb 0 7, width := if op = .delete then 0 else bits hb 8 3, target := target, operand := stageOperand op ha }] }) := by
  cases op with
  | insert => exact absurd rfl hne
  | _ => rfl

/-- The reservation of a staged insert, for the key of its read (R223). -/
def State.reservedFor (s : State) (k rsi : Nat) : Option (Nat × Nat) × State :=
  s.reserve (k / 4096) ((s.ctx (k / 4096) ((s.ll k).rs.getD rsi {}).ver).data.take 48)

theorem State.stage_insert_full (full : (s.reservedFor k rsi).1 = none) : s.stage k .insert rsi hb ha = (0x06, 0, (s.reservedFor k rsi).2) := by
  rw [State.reservedFor] at full
  simp only [State.stage, full]
  rfl

theorem State.stage_insert_placed {loc i : Nat} (place : (s.reservedFor k rsi).1 = some (loc, i)) (same : (s.reservedFor k rsi).2.ll k = s.ll k) :
    s.stage k .insert rsi hb ha = (0x00, (s.ll k).log.length,
      (s.reservedFor k rsi).2.setLl k { s.ll k with log := (s.ll k).log ++ [{ op := .insert, rsi := rsi, target := i, rsvWay := some loc }] }) := by
  rw [State.reservedFor] at place same
  simp only [State.stage, place, same]
  rfl

section
variable (live : (s.ll k).state ≠ .timedOut)
include live

theorem State.stageAnswer_failed {st : Nat} (failed : stageCheck op (some (s.ll k)) rsi hb = some st) :
    s.stageAnswer k op rsi hb ha = (hres st, s) := by
  rw [State.stageAnswer, if_neg live, failed]

theorem State.stageAnswer_passed (passed : stageCheck op (some (s.ll k)) rsi hb = none) :
    s.stageAnswer k op rsi hb ha = (hres ((s.stage k op rsi hb ha).1 + (s.stage k op rsi hb ha).2.1 * 256), (s.stage k op rsi hb ha).2.2) := by
  rw [State.stageAnswer, if_neg live, passed]

end
end

/-- FUNC of hook 3 uses HA and HB when it has an offset and an operand. -/
theorem stageOps_uses {p : (Nat → HFmt → Instr) × Nat × StOp × Bool} (hp : p ∈ stageOps) :
    (decide (p.2.2.1 = .add) || decide (p.2.2.1 = .set) || decide (p.2.2.1 = .cas)) = p.2.2.2 := by
  simp only [stageOps, List.mem_cons, List.not_mem_nil, or_false] at hp
  obtain rfl | rfl | rfl | rfl | rfl := hp <;> rfl

theorem exec_stageOps {p : (Nat → HFmt → Instr) × Nat × StOp × Bool} (hp : p ∈ stageOps) (t : Nat) (f : HFmt) (s : State) :
    exec (p.1 t f) s = .next (s.stageOp t f p.2.1 p.2.2.1) := by
  simp only [stageOps, List.mem_cons, List.not_mem_nil, or_false] at hp
  obtain rfl | rfl | rfl | rfl | rfl := hp <;> rfl

/-- A staged operation of an item gives `stageAnswer` (R173, R183). -/
theorem exec_stage_answers {s : State} {t k : Nat} {f : HFmt} (ho : SMap.sorted s.strands = true) {p : (Nat → HFmt → Instr) × Nat × StOp × Bool}
    (hp : p ∈ stageOps) (hmd : f.md.toNat < 12 ∨ f.md = 15#4) (hu : p.2.2.2 = false → f.ha = 0#4 ∧ f.hb = 0#4)
    (h : HookRuns s t 3 p.2.1 f (f.hd.toNat :: if p.2.2.2 then [f.ha.toNat, f.hb.toNat] else [])) (hk : s.hookItem t = some k) :
    let r := s.stageAnswer k p.2.2.1 f.md.toNat (if p.2.2.2 then (s.hval t f.hb.toNat).toNat else 0) (if p.2.2.2 then (s.hval t f.ha.toNat).toNat else 0)
    OpChanges (p.1 t f) s r.2 t { hook := 3, func := p.2.1, hd := some f.hd.toNat, srcs := if p.2.2.2 then [f.ha.toNat, f.hb.toNat] else [], val := r.1 } := by
  obtain ⟨⟨⟨-, hb, -⟩, hr, -⟩, -⟩ := id h
  have md : flowMdBad f = false := by
    rw [flowMdBad, Bool.and_eq_false_iff, decide_eq_false_iff_not, decide_eq_false_iff_not]
    rcases hmd with hlt | he
    · exact .inl (by omega)
    · exact .inr (by rw [he]; decide)
  have item : (s.hookReady t).hookItem t = some k := by
    rw [State.hookItem_hookReady ho hb hr, ← hk, State.hookItem, hr]
    rfl
  have val (r : Nat) : (s.hookReady t).hval t r = s.hval t r := State.hval_hookReady ho hb hr r
  obtain ⟨hh, hs⟩ := hookArrived_hd h
  obtain ⟨mk, func, op, w⟩ := p
  obtain rfl : (decide (op = .add) || decide (op = .set) || decide (op = .cas)) = w := stageOps_uses hp
  have unused {b : BitVec 4} (hb : ¬ (decide (op = .add) || decide (op = .set) || decide (op = .cas)) = true → b = 0#4) := Decidable.or_iff_not_imp_left.2 hb
  refine opChanges_hook3 ho h (exec_stageOps hp t f s) rfl ⟨rfl, md, rfl, rfl⟩
    ⟨unused fun n => (hu (Bool.eq_false_iff.2 n)).1, unused fun n => (hu (Bool.eq_false_iff.2 n)).2, .inl rfl⟩ ?_ hh hs ?_
  · dsimp only
    split
    · exact two_lt_sixteen _ _
    · exact List.forall_mem_nil _
  · have ans (hb ha : Nat) := State.stageAnswer_withStrands s k op f.md.toNat hb ha (s.hookReady t).strands
    have ans2 (hb ha : Nat) : (s.stageAnswer k op f.md.toNat hb ha).2.withStrands (s.hookReady t).strands = ((s.hookReady t).stageAnswer k op f.md.toNat hb ha).2 :=
      (congrArg Prod.snd (ans hb ha)).symm
    have ans1 (hb ha : Nat) : (s.stageAnswer k op f.md.toNat hb ha).1 = ((s.hookReady t).stageAnswer k op f.md.toNat hb ha).1 := (congrArg Prod.fst (ans hb ha)).symm
    simp only [item, val]
    rw [ans1, ans2, State.stageAnswer]
    split
    · split
      · rename_i refused
        rw [if_pos refused]
      · rename_i passed
        rw [if_neg passed]
    · split <;> rename_i check <;> simp only [check, Nat.zero_mul, Nat.add_zero]

/-- Settles O28: by what `stageAnswer` gives for a failed check, an entry staged, a reservation, and a lifeline that has timed out. -/
theorem hookStaged : Obligations.HookStaged := by
  intro s t k f ho _ p hp hmd hu h hk hb ha rsi l op o
  have answers := exec_stage_answers ho hp hmd hu h hk
  change OpChanges (p.1 t f) s (s.stageAnswer k op rsi hb ha).2 t (o (s.stageAnswer k op rsi hb ha).1) at answers
  have gives {v : HWord} {m : State} (e : s.stageAnswer k op rsi hb ha = (v, m)) : OpChanges (p.1 t f) s m t (o v) := by
    rwa [e] at answers
  refine ⟨fun live => ⟨fun st failed => (gives (State.stageAnswer_failed live failed)).becomes, fun passed hne => ?_, fun passed he => ?_⟩,
    fun out admitted => (gives (State.stageAnswer_timedOut out admitted)).becomes⟩
  · intro target e
    refine gives ((State.stageAnswer_passed live passed).trans ?_)
    exact (congrArg (fun r : Nat × Nat × State => (hres (r.1 + r.2.1 * 256), r.2.2)) (State.stage_edit hne)).trans
      (Prod.ext (congrArg hres (Nat.zero_add _)) rfl)
  · intro r
    have answer := State.stageAnswer_passed (ha := ha) live passed
    rw [show op = .insert from he] at answer
    refine ⟨fun full => gives ?_, fun loc i place same => gives ?_⟩ <;> rw [show op = .insert from he, answer]
    · rw [State.stage_insert_full full]
      dsimp only
      rw [Nat.zero_mul, Nat.add_zero]
      rfl
    · rw [State.stage_insert_placed place same]
      dsimp only
      rw [Nat.zero_add]
      rfl

end Sys2Proof.Machine
end

section
/-! PROOFS. Locks, misses and adopted records (R110, R116, R221, R227). -/

namespace Sys2Proof.Machine

-- --------------------------------------------------------------------------------------------------------- flow state

@[simp] theorem State.flw_setFlw_self (s : State) (p : Nat) (f : FlwPanel) : (s.setFlw p f).flw p = f := by
  unfold State.setFlw State.flw
  split <;> rfl

@[simp] theorem State.setCtx_strands (s : State) (p n : Nat) (c : Ctx) : (s.setCtx p n c).strands = s.strands := State.setFlw_strands _ _ _
@[simp] theorem State.flw_setCtx (s : State) (p n : Nat) (c : Ctx) : (s.setCtx p n c).flw p = { s.flw p with ctxs := SMap.set (s.flw p).ctxs {} n c } :=
  State.flw_setFlw_self _ _ _

/-- Whether an index names a record depends on the records in use and adopted (R216). -/
theorem State.hasRecord_congr {s u : State} {p : Nat} (hu : (u.flw p).used = (s.flw p).used) (ha : (u.flw p).adopted = (s.flw p).adopted)
    (hm : (u.flw p).adoptUsed = (s.flw p).adoptUsed) (i : Nat) : u.hasRecord p i = s.hasRecord p i := by
  rw [State.hasRecord, State.hasRecord, hu, ha, hm]

/-- A context is filled without a strand's change. -/
theorem State.fillOnce_strands (s : State) (p slot ridx : Nat) : (s.fillOnce p slot ridx).strands = s.strands := by
  unfold State.fillOnce
  split
  · exact State.setCtx_strands _ _ _ _
  · exact State.setCtx_strands _ _ _ _

theorem State.fillCtx_strands (s : State) (p slot : Nat) : (s.fillCtx p slot).strands = s.strands := by
  simp only [State.fillCtx, State.flowLookup]
  split
  · rfl
  · split
    · split
      · exact State.fillOnce_strands _ _ _ _
      · exact State.setCtx_strands _ _ _ _
    · split
      · exact State.fillOnce_strands _ _ _ _
      · exact State.setCtx_strands _ _ _ _

/-- A read by an index that holds no record leaves no context (R222). -/
theorem State.fillCtx_gone {s : State} {p n : Nat} (hf : (s.ctx p n).state = .filling) (hi : (s.ctx p n).ridx ≠ ridxNone)
    (hr : s.hasRecord p (s.ctx p n).ridx = false) : s.fillCtx p n = s.setCtx p n {} := by
  simp [State.fillCtx, hf, hi, hr]

-- ------------------------------------------------------------------------------------------------- LOCK_GRANT (R116)

section
variable {s : State} {t : Nat}

theorem exec_lockGrant_idle (h : (s.strand t).ops.find? HookOp.onLock = none) : exec (.lockGrant t) s = .next s := by
  show execLockGrant t s = _
  rw [execLockGrant, h]

section
variable {o : HookOp} {p key : Nat} (ho : (s.strand t).ops.find? HookOp.onLock = some o) (hw : o.wait = .lock p key)
include ho hw

theorem exec_lockGrant (t' : Option Nat) (hf : ((s.flw p).lockWait.find? fun u => (s.strand u).ops.any fun q => decide (q.wait = .lock p key)) = t') :
    exec (.lockGrant t) s =
      .next (if (s.flw p).locks.any (fun l => decide (l.key + b2n l.onBucket * 2 ^ 26 = key)) || decide (t' ≠ some t) then s else s.rerun t HookOp.onLock) := by
  subst hf
  show execLockGrant t s = _
  rw [execLockGrant, ho]
  dsimp only
  rw [hw]
  dsimp only
  split <;> rfl

end
end

/-- The strands before the first that meets a condition do not meet it. -/
theorem any_takeWhile_of_find? {q : Nat → Bool} {l : List Nat} {t : Nat} (h : l.find? q = some t) : (l.takeWhile fun u => decide (u ≠ t)).any q = false := by
  induction l with
  | nil => rfl
  | cons a l ih =>
    cases hq : q a with
    | true =>
      rw [List.find?_cons_of_pos hq] at h
      cases h
      simp
    | false =>
      rw [List.find?_cons_of_neg (by simp [hq])] at h
      rw [List.takeWhile_cons]
      split
      · rw [List.any_cons, hq, ih h]
        rfl
      · rfl

theorem State.lockAhead_of_first {s : State} {t p key : Nat}
    (h : ((s.flw p).lockWait.find? fun u => (s.strand u).ops.any fun q => decide (q.wait = .lock p key)) = some t) : s.lockAhead t p key = false :=
  any_takeWhile_of_find? h

/-- A strand with one outstanding operation offers it again. -/
theorem State.rerun_only {s : State} {t : Nat} {o : HookOp} {q : HookOp → Bool} (ho : (s.strand t).ops = [o]) (hq : q o = true) :
    s.rerun t q = (s.tryRead t o).2.setStrand t { (s.tryRead t o).2.strand t with ops := ((s.tryRead t o).2.strand t).ops.set 0 (s.tryRead t o).1 } := by
  simp [State.rerun, ho, hq, List.range_succ]

theorem State.takeLock_strands (s : State) (p : Nat) (b : Bool) (key k : Nat) : (s.takeLock p b key k).strands = s.strands := by
  unfold State.takeLock
  dsimp only
  split
  · rfl
  · exact State.setFlw_strands _ _ _

theorem State.leaveLockWait_strands (s : State) (t p : Nat) : (s.leaveLockWait t p).strands = s.strands := State.setFlw_strands _ _ _

theorem State.sweepAbsence_strands (s : State) (p : Nat) : (s.sweepAbsence p).strands = s.strands := by
  have fold (l : SMap Ctx) (u : State) : (l.foldl (fun s e => s.setCtx p e.1 {}) u).strands = u.strands := by
    induction l generalizing u with
    | nil => rfl
    | cons e l ih => exact (ih _).trans (State.setCtx_strands _ _ _ _)
  exact fold _ s

/-- A read that finds its context resident changes no strand (R110, R116). -/
theorem State.finishRead_strands (s : State) (t : Nat) (o : HookOp) (p n : Nat) : (s.finishRead t o p n).2.strands = s.strands := by
  unfold State.finishRead
  dsimp only
  split
  · split <;> rfl
  · split
    · exact State.sweepAbsence_strands _ _
    · split
      · rfl
      · split
        · exact State.sweepAbsence_strands _ _
        · split
          · exact State.setFlw_strands _ _ _
          · refine (State.setLl_strands _ _ _).trans ?_
            split
            · exact (State.leaveLockWait_strands _ _ _).trans (State.takeLock_strands _ _ _ _ _)
            · rfl

/-- A serial read of a record that no other item has locked and no earlier read waits for takes a read-set entry (R110, R116). -/
theorem State.finishRead_serial {s : State} {t k p n : Nat} {o : HookOp} (h1 : o.func = 1) (hc : (s.ctx p n).state = .clean) (hk : s.opLl t o = some k)
    (hr : repeatOf (s.ll k).rs p n (s.ctx p n).ridx = none) (hl : (s.ll k).rs.length < 12) (hs : (s.ll k).serial = true)
    (hn : s.lockedByOther p false (s.ctx p n).ridx k = false) (ha : s.lockAhead t p (s.ctx p n).ridx = false) :
    (s.finishRead t o p n).1 = { o with wait := .ready, val := readVal 0x00 (s.ll k).rs.length (s.ctx p n).ridx (s.ctx p n).ver, rsi := (s.ll k).rs.length } := by
  have key : s.lockKey p n = (false, (s.ctx p n).ridx) := by rw [State.lockKey, hc]; rfl
  have ahead : s.lockAhead t p ((s.ctx p n).ridx + b2n false * 2 ^ 26) = false := by
    rwa [show b2n false = 0 from rfl, Nat.zero_mul, Nat.add_zero]
  have two : o.func ≠ 2 := by omega
  simp only [State.finishRead, if_neg two, hk, hr, if_neg (Nat.not_le.2 hl), key, hn, ahead, hs, hc, reduceCtorEq, decide_false,
    Bool.or_self, Bool.and_false, Bool.false_eq_true, if_false, HookOp.answer]

/-- A read by the index of a record in the workbasket is answered from its context (R220). -/
theorem State.tryRead_resident {s : State} {t p n : Nat} {o : HookOp} (hp : o.home = p) (hb : s.overBridge t p = false) (he : s.flwEn p = true)
    (hk : o.key = []) (hi : o.ridx ≠ ridxNone) (hc : s.ctxOf p o.ridx = some n) (hf : (s.ctx p n).state ≠ .filling) : s.tryRead t o = s.finishRead t o p n := by
  subst hp
  simp [State.tryRead, hb, he, hk, hi, hc, hf]

/-- LOCK_GRANT of a serial read of a record: it is answered with its new read-set entry (R116). -/
theorem lockGrant_serial {s : State} {t k p n : Nat} {o : HookOp} (ho : SMap.sorted s.strands = true) (hops : (s.strand t).ops = [o]) (hp : o.home = p)
    (hb : s.overBridge t p = false) (he : s.flwEn p = true) (hk : o.key = []) (hi : o.ridx ≠ ridxNone) (h1 : o.func = 1) (hc : s.ctxOf p o.ridx = some n)
    (hst : (s.ctx p n).state = .clean) (hll : s.opLl t o = some k) (hr : repeatOf (s.ll k).rs p n (s.ctx p n).ridx = none) (hlen : (s.ll k).rs.length < 12)
    (hser : (s.ll k).serial = true) (hw : o.wait = .lock p (s.ctx p n).ridx)
    (hfree : ∀ l ∈ (s.flw p).locks, l.key + b2n l.onBucket * 2 ^ 26 ≠ (s.ctx p n).ridx) (hn : s.lockedByOther p false (s.ctx p n).ridx k = false)
    (hfirst : ((s.flw p).lockWait.find? fun u => (s.strand u).ops.any fun q => decide (q.wait = .lock p (s.ctx p n).ridx)) = some t) :
    Ends (.lockGrant t) s fun u =>
      (u.strand t).ops = [{ o with wait := .ready, val := readVal 0x00 (s.ll k).rs.length (s.ctx p n).ridx (s.ctx p n).ver, rsi := (s.ll k).rs.length }] ∧
        ∀ j, j ≠ t → u.strand j = s.strand j := by
  have waits : o.onLock = true := by rw [HookOp.onLock, hw]
  have read : s.tryRead t o = s.finishRead t o p n := State.tryRead_resident hp hb he hk hi hc (by rw [hst]; exact CtxState.noConfusion)
  have answer := State.finishRead_serial h1 hst hll hr hlen hser hn (State.lockAhead_of_first hfirst)
  have strand (j : Nat) : (s.finishRead t o p n).2.strand j = s.strand j := by rw [State.strand, State.finishRead_strands, State.strand]
  have ho2 : SMap.sorted (s.finishRead t o p n).2.strands = true := by rwa [State.finishRead_strands]
  have run : exec (.lockGrant t) s = .next (s.rerun t HookOp.onLock) := by
    refine (exec_lockGrant (by rw [hops]; exact List.find?_cons_of_pos waits) hw _ rfl).trans (congrArg _ (if_neg ?_))
    simpa [hfirst] using hfree
  refine ⟨_, run, ?_, fun j hj => ?_⟩ <;> rw [State.rerun_only hops waits, read, State.strand_setStrand _ _ _ _ ho2]
  · rw [if_pos rfl, strand, hops, answer]
    rfl
  · rw [if_neg (Ne.symm hj), strand]

-- ---------------------------------------------------------------------------------------- misses served (R221, R222)

theorem State.missReaders_congr {s u : State} (h : u.strands = s.strands) (p n : Nat) : u.missReaders p n = s.missReaders p n := by
  rw [State.missReaders, State.missReaders, h]

/-- What becomes of an operation that waits on a context whose record is gone (R222). -/
def HookOp.gone (p n : Nat) (o : HookOp) : HookOp := if o.wait = .miss p n then o.absent else o

theorem HookOp.gone_of_ne {p n : Nat} {o : HookOp} (h : o.wait ≠ .miss p n) : o.gone p n = o := if_neg h

theorem HookOp.absent_wait (o : HookOp) : o.absent.wait = .ready := by
  unfold HookOp.absent
  split <;> rfl

theorem HookOp.gone_gone (p n : Nat) (o : HookOp) : (o.gone p n).gone p n = o.gone p n := by
  refine HookOp.gone_of_ne ?_
  by_cases h : o.wait = .miss p n
  · rw [HookOp.gone, if_pos h, HookOp.absent_wait]
    exact HookWait.noConfusion
  · rwa [HookOp.gone_of_ne h]

/-- The operations of a strand that wait on a context whose record is gone answer ABSENT. -/
def State.readsGone (s : State) (p n t : Nat) : State := s.setStrand t { s.strand t with ops := (s.strand t).ops.map (HookOp.gone p n) }

/-- The strands of a list have their reads answered, whatever their order. -/
theorem readsGone_foldl (p n : Nat) (l : List Nat) {s : State} (ho : SMap.sorted s.strands = true) :
    (∀ q, ((l.foldl (fun s t => s.readsGone p n t) s).flw q) = s.flw q) ∧
      ∀ t, ((l.foldl (fun s t => s.readsGone p n t) s).strand t).ops = if t ∈ l then (s.strand t).ops.map (HookOp.gone p n) else (s.strand t).ops := by
  induction l generalizing s with
  | nil => exact ⟨fun _ => rfl, fun t => by simp⟩
  | cons a l ih =>
    obtain ⟨flw, ops⟩ := ih (s := s.readsGone p n a) (State.sorted_setStrand _ _ _ ho)
    refine ⟨flw, fun t => (ops t).trans ?_⟩
    have step : ((s.readsGone p n a).strand t).ops = if a = t then (s.strand t).ops.map (HookOp.gone p n) else (s.strand t).ops := by
      rw [State.readsGone, State.strand_setStrand _ _ _ _ ho]
      split
      · rename_i h
        rw [h]
      · rfl
    have twice (l : List HookOp) : (l.map (HookOp.gone p n)).map (HookOp.gone p n) = l.map (HookOp.gone p n) := by
      rw [List.map_map]
      exact List.map_congr_left fun o _ => HookOp.gone_gone p n o
    rw [step]
    by_cases h : a = t
    · subst h
      simp [twice]
    · simp [h, Ne.symm h]

theorem SMap.mem_of_find {β : Type} {m : SMap β} {k : Nat} {v : β} (h : SMap.find m k = some v) : (k, v) ∈ m := by
  induction m with
  | nil => cases h
  | cons e m ih =>
    rw [SMap.find] at h
    split at h
    · rename_i he
      cases h
      exact List.mem_cons.2 (.inl (Prod.ext he.symm rfl))
    · exact List.mem_cons_of_mem _ (ih h)

/-- A strand outside the readers of a context has no read that waits on it. -/
theorem State.ops_of_not_reader {s : State} {p n t : Nat} (h : t ∉ s.missReaders p n) : (s.strand t).ops.map (HookOp.gone p n) = (s.strand t).ops := by
  refine (List.map_congr_left fun o ho => HookOp.gone_of_ne fun w => h ?_).trans (List.map_id _)
  obtain ⟨x, hx⟩ : ∃ x, SMap.find s.strands t = some x := by
    refine Option.ne_none_iff_exists'.1 fun none => ?_
    rw [State.strand, SMap.get, none] at ho
    cases ho
  rw [State.strand, SMap.get, hx] at ho
  exact List.mem_map.2 ⟨(t, x), List.mem_filter.2 ⟨SMap.mem_of_find hx, List.any_eq_true.2 ⟨o, ho, decide_eq_true w⟩⟩, rfl⟩

/-- The reads of a record that is gone answer ABSENT, and no other operation changes. -/
theorem State.strand_readsGone {s : State} (ho : SMap.sorted s.strands = true) (p n t : Nat) :
    (((s.missReaders p n).foldl (fun s t => s.readsGone p n t) s).strand t).ops = (s.strand t).ops.map (HookOp.gone p n) := by
  rw [(readsGone_foldl p n _ ho).2 t]
  split
  · rfl
  · rename_i h
    exact (State.ops_of_not_reader h).symm

-- ------------------------------------------------------------------------------- MISS_QUEUE_ADMIT, MISS_SERVE (R221)

section
variable {s : State} {p : Nat} (hp : p < 2)
include hp

theorem exec_missQueueAdmit_full (h : 4096 ≤ (s.flw p).missQ.length) : exec (.missQueueAdmit p) s = .next s := by
  show execMissQueueAdmit p s = _
  simp only [execMissQueueAdmit, Nat.mod_eq_of_lt hp, if_pos h]

theorem exec_missQueueAdmit {t : Nat} (h : (s.flw p).missQ.length < 4096)
    (ht : ((s.flw p).missWait.find? fun u => (s.strand u).ops.any fun q => decide (q.wait = .missFull p)) = some t) :
    exec (.missQueueAdmit p) s =
      .next ((s.setFlw p { s.flw p with missWait := (s.flw p).missWait.filter fun u => decide (u ≠ t) }).rerun t fun o => decide (o.wait = .missFull p)) := by
  show execMissQueueAdmit p s = _
  simp only [execMissQueueAdmit, Nat.mod_eq_of_lt hp, if_neg (Nat.not_le.2 h), ht]

theorem exec_missServe_none (h : (s.flw p).missQ = []) : exec (.missServe p) s = .next s := by
  show execMissServe p s = _
  simp only [execMissServe, Nat.mod_eq_of_lt hp, h]

end

/-- Misses that a panel has served in the calendar microsecond of the state (R221, log entry 65). -/
def State.missesDone (s : State) (p : Nat) : Nat := if (s.flw p).servedUs = s.now / usU then (s.flw p).served else 0

/-- The state in which the miss at the head of panel `p`'s queue, that of context `n`, has been served: its bytes are asked of DRAM, it has
left the queue, and its context is filled. -/
def State.missServed (s : State) (p n : Nat) (rest : List Nat) : State :=
  let r := s.missReads p (s.ctx p n)
  ((s.askDram p 0 r.1 r.2 false).setFlw p { s.flw p with missQ := rest, served := s.missesDone p + 1, servedUs := s.now / usU }).fillCtx p n

theorem State.missServed_strands (s : State) (p n : Nat) (rest : List Nat) : (s.missServed p n rest).strands = s.strands :=
  (State.fillCtx_strands _ _ _).trans (State.setFlw_strands _ _ _)

section
variable {s : State} {p n : Nat} {rest : List Nat} (hp : p < 2) (hq : (s.flw p).missQ = n :: rest)
include hp hq

theorem exec_missServe_waits (h : s.up p = false ∨ s.missRate p ≤ s.missesDone p ∨
      s.dramHolds p 0 (s.missReads p (s.ctx p n)).1 (s.missReads p (s.ctx p n)).2 false = true) : exec (.missServe p) s = .next s := by
  show execMissServe p s = _
  rw [State.missesDone] at h
  simp only [execMissServe, Nat.mod_eq_of_lt hp, hq]
  refine if_pos ?_
  rcases h with h | h | h <;> simp [h]

variable (hu : s.up p = true) (hr : s.missesDone p < s.missRate p)
  (hd : s.dramHolds p 0 (s.missReads p (s.ctx p n)).1 (s.missReads p (s.ctx p n)).2 false = false)
include hu hr hd

/-- A miss is served, and the reads that wait on its context answer ABSENT or are offered again. -/
theorem exec_missServe : exec (.missServe p) s =
    .next ((s.missReaders p n).foldl (fun u t =>
      if decide ((s.ctx p n).state = .filling) && decide ((s.ctx p n).ridx ≠ ridxNone) &&
          !((s.missServed p n rest).hasRecord p (s.ctx p n).ridx && (s.missServed p n rest).devOk p ((s.missServed p n rest).recAddr p (s.ctx p n).ridx) 128) then u.readsGone p n t
      else u.rerun t fun o => decide (o.wait = .miss p n)) (s.missServed p n rest)) := by
  show execMissServe p s = _
  rw [State.missesDone] at hr
  rw [← State.missReaders_congr (s.missServed_strands p n rest)]
  simp only [execMissServe, Nat.mod_eq_of_lt hp, hq]
  refine if_neg ?_
  simp only [hu, hd, Bool.not_true, Bool.or_false, Bool.false_or, decide_eq_true_eq]
  exact Nat.not_le.2 hr

theorem exec_missServe_unread (h : s.missReaders p n = []) : exec (.missServe p) s = .next (s.missServed p n rest) := by
  rw [exec_missServe hp hq hu hr hd, h]
  rfl

/-- The reads of a record that is gone by the time its miss is served answer ABSENT (R222). -/
theorem missServe_gone (hf : (s.ctx p n).state = .filling) (hi : (s.ctx p n).ridx ≠ ridxNone) (hg : s.hasRecord p (s.ctx p n).ridx = false)
    (ho : SMap.sorted s.strands = true) : Ends (.missServe p) s fun u =>
      (u.flw p).missQ = rest ∧ ∀ t, (u.strand t).ops = (s.strand t).ops.map (HookOp.gone p n) := by
  let f : FlwPanel := { s.flw p with missQ := rest, served := s.missesDone p + 1, servedUs := s.now / usU }
  let r := s.missReads p (s.ctx p n)
  have flw : ((s.askDram p 0 r.1 r.2 false).setFlw p f).flw p = f := State.flw_setFlw_self _ _ _
  have ctx : ((s.askDram p 0 r.1 r.2 false).setFlw p f).ctx p n = s.ctx p n := by rw [State.ctx, flw, State.ctx]
  have rec0 (i : Nat) : ((s.askDram p 0 r.1 r.2 false).setFlw p f).hasRecord p i = s.hasRecord p i :=
    State.hasRecord_congr (by rw [flw]) (by rw [flw]) (by rw [flw]) i
  have eq : s.missServed p n rest = ((s.askDram p 0 r.1 r.2 false).setFlw p f).setCtx p n {} :=
    State.fillCtx_gone (by rw [ctx, hf]) (by rwa [ctx]) (by rw [ctx, rec0, hg])
  have flw1 : (s.missServed p n rest).flw p = { f with ctxs := SMap.set f.ctxs {} n {} } := by rw [eq, State.flw_setCtx, flw]
  have rec1 : (s.missServed p n rest).hasRecord p (s.ctx p n).ridx = false := by
    rw [← hg]
    exact State.hasRecord_congr (by rw [flw1]) (by rw [flw1]) (by rw [flw1]) _
  have strands := State.missServed_strands s p n rest
  have ho1 : SMap.sorted (s.missServed p n rest).strands = true := by rwa [strands]
  refine ⟨_, exec_missServe hp hq hu hr hd, ?_⟩
  rw [hf, rec1, decide_eq_true hi]
  simp only [decide_true, Bool.false_and, Bool.not_false, Bool.and_self, if_true]
  rw [← State.missReaders_congr strands]
  refine ⟨?_, fun t => ?_⟩
  · rw [(readsGone_foldl p n _ ho1).1, flw1]
  · rw [State.strand_readsGone ho1, State.strand, strands, State.strand]

end

-- ----------------------------------------------------------------------------------------------- ADOPT_CONFLICT (R227)

/-- What a count leaves of the counters depends on the counters. -/
theorem State.countP_ctrs_congr {s u : State} (h : u.ctrs = s.ctrs) (p n : Nat) : (u.countP p n).ctrs = (s.countP p n).ctrs := by
  simp only [State.countP, State.count, State.ctr, h]

/-- An index entry of the adopted mirror is written to device memory. -/
theorem listsOnly_setEntry_mir (s : State) (p b w : Nat) (e : IdxEntry) : ListsOnly s (s.setEntry p (.mir b w) e) :=
  (listsOnly_devWrite _ _ _ _).trans (listsOnly_askDram _ _ _ _ _ _)

/-- The entries that name an adopted record are freed. -/
def State.freeAdopted (s : State) (p b m : Nat) : State :=
  (List.range 4).foldl (fun s w => match s.entryAt p (.mir b w) with
    | some e => if e.valid && decide (e.ridx = m) then s.setEntry p (.mir b w) {} else s
    | none => s) s

theorem listsOnly_foldl {α : Type} {f : State → α → State} (h : ∀ s a, ListsOnly s (f s a)) (l : List α) (s : State) : ListsOnly s (l.foldl f s) := by
  induction l generalizing s with
  | nil => exact .refl s
  | cons a l ih => exact (h s a).trans (ih _)

theorem listsOnly_freeAdopted (s : State) (p b m : Nat) : ListsOnly s (s.freeAdopted p b m) := by
  refine listsOnly_foldl (fun s w => ?_) _ _
  split
  · split
    · exact listsOnly_setEntry_mir _ _ _ _ _
    · exact .refl _
  · exact .refl _

section
variable {s : State} {p : Nat} (hp : p < 2)
include hp

theorem exec_adoptConflict_none (h : ((s.flw p).adoptUsed.find? fun e => e.2 && s.adoptDup p e.1) = none) : exec (.adoptConflict p) s = .next s := by
  show execAdoptConflict p s = _
  simp only [execAdoptConflict, Nat.mod_eq_of_lt hp, h]

theorem exec_adoptConflict {m : Nat} {b : Bool} (h : ((s.flw p).adoptUsed.find? fun e => e.2 && s.adoptDup p e.1) = some (m, b)) :
    ∃ u, ListsOnly s u ∧ exec (.adoptConflict p) s =
      .next (((u.markGone p (0x1000000 + m)).setAdopt p (SMap.set (u.flw p).adoptUsed false m false)).countP p 36) := by
  refine ⟨match s.recKey p (0x1000000 + m) with
    | none => s
    | some key => s.freeAdopted p (s.flowHash p key % 2 ^ (s.log2m p - 2)) m, ?_, ?_⟩
  · split
    · exact .refl _
    · exact listsOnly_freeAdopted _ _ _ _
  · show execAdoptConflict p s = _
    simp only [execAdoptConflict, Nat.mod_eq_of_lt hp, h]
    rfl

theorem adoptConflict_frees {m : Nat} {b : Bool} (hs : SMap.sorted (s.flw p).adoptUsed = true)
    (h : ((s.flw p).adoptUsed.find? fun e => e.2 && s.adoptDup p e.1) = some (m, b)) : Ends (.adoptConflict p) s fun u =>
      SMap.get (u.flw p).adoptUsed false m = false ∧ u.ctrs = (s.countP p 36).ctrs ∧ u.strands = s.strands ∧ u.regs = s.regs := by
  obtain ⟨u, only, hx⟩ := exec_adoptConflict hp h
  have flw : u.flw p = s.flw p := by rw [only]; rfl
  refine ⟨_, hx, ?_, State.countP_ctrs_congr ?_ p 36, ?_, ?_⟩
  · have kept : (((u.markGone p (0x1000000 + m)).setAdopt p (SMap.set (u.flw p).adoptUsed false m false)).countP p 36).flw p =
        ((u.markGone p (0x1000000 + m)).setAdopt p (SMap.set (u.flw p).adoptUsed false m false)).flw p := rfl
    rw [kept, State.setAdopt, State.flw_setFlw_self, flw, SMap.get_set _ _ _ _ _ hs, if_pos rfl]
  · rw [State.setAdopt, State.setFlw_ctrs, only]
    rfl
  · rw [State.countP_strands, State.setAdopt, State.setFlw_strands, only]
    rfl
  · rw [State.countP_regs, State.setAdopt, State.setFlw_regs, only]
    rfl

end

/-- Settles O44: by the case in which each command does something, and the one in which it leaves the state as it is. -/
theorem flowProgress : Obligations.FlowProgress := by
  intro s
  refine ⟨?locks, fun t h => exec_lockGrant_idle h, ?serial, fun p hp => ?panel⟩
  case locks =>
    intro t o p key ho hw f first
    have run := exec_lockGrant ho hw first rfl
    refine ⟨fun h => run.trans (congrArg _ (if_pos ?_)), fun hl h1 => run.trans (congrArg _ (if_neg ?_))⟩
    · simpa using h
    · simpa [h1] using hl
  case serial =>
    intro t o k n p c ho hops hp hb he hk hi h1 hc hcn hst hri hll hr hlen hser hw hfree hn hfirst
    subst hcn
    exact lockGrant_serial ho hops hp hb he hk hi h1 hc hst hll hr hlen hser hw hfree hn hfirst
  case panel =>
    intro f waits
    refine ⟨exec_missQueueAdmit_full hp, fun t => exec_missQueueAdmit hp, exec_missServe_none hp, fun n rest hq => ?_,
      fun m b => adoptConflict_frees hp, exec_adoptConflict_none hp⟩
    intro done c r
    exact ⟨exec_missServe_waits hp hq, fun hu hr hd => ⟨exec_missServe_unread hp hq hu hr hd, fun hf hi hg ho => missServe_gone hp hq hu hr hd hf hi hg ho⟩⟩

end Sys2Proof.Machine
end

section
/-! PROOFS. What leaves the lifelines, the lists and the strands alone. -/

namespace Sys2Proof.Machine

/-- The lifelines, the Carriage's lists and queues, and the strands are as they were. -/
structure ItemsKept (s u : State) : Prop where
  lls : u.lls = s.lls
  car : u.car = s.car
  strands : u.strands = s.strands

theorem ItemsKept.refl (s : State) : ItemsKept s s := ⟨rfl, rfl, rfl⟩

theorem ItemsKept.trans {s u v : State} (a : ItemsKept s u) (b : ItemsKept u v) : ItemsKept s v :=
  ⟨b.lls.trans a.lls, b.car.trans a.car, b.strands.trans a.strands⟩

/-- The same with the later step first, for a first step that is an update of other parts of the state. -/
theorem ItemsKept.after {s u v : State} (b : ItemsKept u v) (a : ItemsKept s u) : ItemsKept s v := a.trans b

theorem ItemsKept.foldl {α : Type} {f : State → α → State} (h : ∀ s x, ItemsKept s (f s x)) (l : List α) (s : State) : ItemsKept s (l.foldl f s) := by
  induction l generalizing s with
  | nil => exact .refl s
  | cons x l ih => exact (h s x).trans (ih (f s x))

theorem ItemsKept.ite {s u v : State} {c : Prop} [Decidable c] (a : ItemsKept s u) (b : ItemsKept s v) : ItemsKept s (if c then u else v) := by
  split
  · exact a
  · exact b

section
variable {s u : State} (h : ItemsKept s u)
include h

theorem ItemsKept.ll_eq (k : Nat) : u.ll k = s.ll k := by rw [State.ll, State.ll, h.lls]
theorem ItemsKept.items_eq (l : Nat) : u.items l = s.items l := by rw [State.items, State.items, h.car]

end

theorem HostOnly.itemsKept {s u : State} (h : HostOnly s u) : ItemsKept s u := by
  rw [h]
  exact ⟨rfl, rfl, rfl⟩

-- ----------------------------------------------------------------------------------------- memory, counters and records

section
variable (s : State)

theorem itemsKept_count (set inst n : Nat) : ItemsKept s (s.count set inst n) := ⟨rfl, rfl, rfl⟩
theorem itemsKept_countP (p n : Nat) : ItemsKept s (s.countP p n) := ⟨rfl, rfl, rfl⟩
theorem itemsKept_askDram (req port a n : Nat) (write : Bool) : ItemsKept s (s.askDram req port a n write) := ⟨rfl, rfl, rfl⟩

theorem itemsKept_devWrite (req a : Nat) (bs : List Byte) : ItemsKept s (s.devWrite req a bs) := by
  induction bs generalizing s a with
  | nil => exact .refl s
  | cons b bs ih =>
    rw [State.devWrite, State.devSet_eq]
    exact (ih _ _).after ⟨rfl, rfl, rfl⟩

theorem itemsKept_postEvent (kind count panel : Nat) (body : List Byte) : ItemsKept s (s.postEvent kind count panel body) := by
  unfold State.postEvent
  split
  · exact itemsKept_count _ _ _ _
  · dsimp only
    split
    · split
      · exact (itemsKept_countP _ _ _).after ⟨rfl, rfl, rfl⟩
      · exact ⟨rfl, rfl, rfl⟩
    · exact (hostOnly_produce _ _ _ _).itemsKept.after ⟨rfl, rfl, rfl⟩

theorem itemsKept_recAlert (cause seq : Nat) : ItemsKept s (s.recAlert cause seq) :=
  (itemsKept_postEvent _ _ _ _ _).after ⟨rfl, rfl, rfl⟩

theorem itemsKept_place (r : RecSlot) : ItemsKept s (s.place r) := by
  unfold State.place
  dsimp only
  split
  · exact .ite ⟨rfl, rfl, rfl⟩ ⟨rfl, rfl, rfl⟩
  · refine .ite ⟨rfl, rfl, rfl⟩ ?_
    split <;> exact ⟨rfl, rfl, rfl⟩

theorem itemsKept_record (kind sev part origin src : Nat) (body : List Byte) : ItemsKept s (s.record kind sev part origin src body) := by
  unfold State.record
  extract_lets c bs s1 f u s2 s3
  split
  · exact .refl s
  · have h2 : ItemsKept s s2 := ItemsKept.trans (u := s1) ⟨rfl, rfl, rfl⟩ (itemsKept_place _ _)
    have h3 : ItemsKept s s3 := h2.trans (.ite (itemsKept_recAlert _ _ _) (.ite (itemsKept_recAlert _ _ _) (.refl _)))
    exact .ite (h3.trans (itemsKept_recAlert _ _ _)) h3

theorem itemsKept_endWork (w : WorkItem) (status : Nat) (result : List Byte) : ItemsKept s (s.endWork w status result) := by
  unfold State.endWork
  split
  · exact (hostOnly_finish _ _ _ _).itemsKept
  · exact .refl s

-- ------------------------------------------------------------------------------------------------- packet buffers (R235–R238)

theorem itemsKept_putTag (p i v : Nat) : ItemsKept s (s.putTag p i v) := (itemsKept_devWrite _ _ _ _).trans (itemsKept_askDram _ _ _ _ _ _)

theorem itemsKept_uncharge (tag : Nat) : ItemsKept s (s.uncharge tag) := .ite ⟨rfl, rfl, rfl⟩ ⟨rfl, rfl, rfl⟩

theorem itemsKept_returnBuf (p i : Nat) : ItemsKept s (s.returnBuf p i) :=
  (itemsKept_putTag _ _ _ _).trans (.ite ⟨rfl, rfl, rfl⟩ (itemsKept_count _ _ _ _))

theorem itemsKept_putBuf (p i : Nat) : ItemsKept s (s.putBuf p i) := (itemsKept_uncharge _ _).trans (itemsKept_returnBuf _ _ _)

theorem itemsKept_dropTent (a t : Nat) : ItemsKept s (s.dropTent a t) := by
  have h : ItemsKept s (s.unchargeStrand t) := ⟨rfl, rfl, rfl⟩
  unfold State.dropTent
  dsimp only
  split
  · exact h
  · exact .ite (h.trans (itemsKept_count _ _ _ _)) (h.trans (itemsKept_returnBuf _ _ _))

theorem itemsKept_confirmTent (a : Nat) : ItemsKept s (s.confirmTent a) := by
  unfold State.confirmTent
  split
  · exact .refl s
  · exact itemsKept_putTag _ _ _ _

theorem itemsKept_freeError (panel a p kind : Nat) : ItemsKept s (s.freeError panel a p kind) :=
  (itemsKept_record _ _ _ _ _ _ _).after ⟨rfl, rfl, rfl⟩

theorem itemsKept_freeBufAt (panel a : Nat) : ItemsKept s (s.freeBufAt panel a).2 := by
  unfold State.freeBufAt
  split
  · exact .refl s
  · split
    · exact itemsKept_count _ _ _ _
    · split
      · split
        · exact ⟨rfl, rfl, rfl⟩
        · exact itemsKept_count _ _ _ _
      · split
        · exact itemsKept_count _ _ _ _
        · dsimp only
          split
          · exact itemsKept_freeError _ _ _ _ _
          · split
            · exact itemsKept_freeError _ _ _ _ _
            · exact itemsKept_putBuf _ _ _

-- ---------------------------------------------------------------------------------------------------- flow state (ch. 10)

theorem itemsKept_setFlw (p : Nat) (f : FlwPanel) : ItemsKept s (s.setFlw p f) := ⟨State.setFlw_lls _ _ _, State.setFlw_car _ _ _, State.setFlw_strands _ _ _⟩
theorem itemsKept_setCtx (p n : Nat) (c : Ctx) : ItemsKept s (s.setCtx p n c) := itemsKept_setFlw _ _ _

theorem itemsKept_setEntry (p : Nat) (l : EntryLoc) (e : IdxEntry) : ItemsKept s (s.setEntry p l e) := by
  cases l with
  | ovf i => exact itemsKept_setFlw _ _ _
  | way b w => exact (itemsKept_devWrite _ _ _ _).trans (itemsKept_askDram _ _ _ _ _ _)
  | mir b w => exact (itemsKept_devWrite _ _ _ _).trans (itemsKept_askDram _ _ _ _ _ _)

theorem itemsKept_unreserve (p loc ridx : Nat) : ItemsKept s (s.unreserve p loc ridx) := (itemsKept_setEntry _ _ _ _).trans (itemsKept_setFlw _ _ _)

theorem itemsKept_sweepAbsence (p : Nat) : ItemsKept s (s.sweepAbsence p) := .foldl (fun _ _ => itemsKept_setCtx _ _ _ _) _ _

theorem itemsKept_freeLocks (k : Nat) : ItemsKept s (s.freeLocks k) := (itemsKept_setFlw _ _ _).trans (itemsKept_setFlw _ _ _)

theorem itemsKept_leaveLockWait (t p : Nat) : ItemsKept s (s.leaveLockWait t p) := itemsKept_setFlw _ _ _

theorem itemsKept_writeBack (p n : Nat) : ItemsKept s (s.writeBack p n) := by
  refine .ite ?_ (.refl s)
  exact (((itemsKept_devWrite _ _ _ _).trans (itemsKept_askDram _ _ _ _ _ _)).trans (itemsKept_setCtx _ _ _ _)).trans (itemsKept_countP _ _ _)

theorem itemsKept_takeCtx (p : Nat) : ItemsKept s (s.takeCtx p).2 := by
  unfold State.takeCtx
  dsimp only
  split
  · exact .refl s
  · exact (((itemsKept_writeBack _ _ _).trans (itemsKept_countP _ _ _)).trans (itemsKept_setFlw _ _ _)).trans (itemsKept_setCtx _ _ _ _)

theorem itemsKept_fillRecord (p n ridx : Nat) : ItemsKept s (s.fillRecord p n ridx) := itemsKept_setCtx _ _ _ _

theorem itemsKept_loadCtx (p ridx : Nat) : ItemsKept s (s.loadCtx p ridx).2 := by
  unfold State.loadCtx
  split
  · exact .ite (itemsKept_fillRecord _ _ _ _) (.refl s)
  · exact (itemsKept_takeCtx _ _).trans (itemsKept_fillRecord _ _ _ _)

theorem itemsKept_mirrorRec (p ridx : Nat) : ItemsKept s (s.mirrorRec p ridx) := by
  unfold State.mirrorRec
  split
  · exact .refl s
  · exact .ite ((itemsKept_devWrite _ _ _ _).trans (itemsKept_askDram _ _ _ _ _ _)) (itemsKept_setFlw _ _ _)

theorem itemsKept_endCtx (p ridx : Nat) (inserted : Bool) : ItemsKept s (s.endCtx p ridx inserted) :=
  ((itemsKept_loadCtx _ _ _).trans (itemsKept_setCtx _ _ _ _)).trans (itemsKept_mirrorRec _ _ _)

theorem itemsKept_applyRec (p ridx : Nat) (e : StEntry) : ItemsKept s (s.applyRec p ridx e) :=
  .ite (.refl s) ((itemsKept_loadCtx _ _ _).trans (itemsKept_setCtx _ _ _ _))

theorem itemsKept_makeRecord (p loc ridx : Nat) (key : List Byte) : ItemsKept s (s.makeRecord p loc ridx key) :=
  (((itemsKept_devWrite _ _ _ _).trans (itemsKept_askDram _ _ _ _ _ _)).trans (itemsKept_setFlw _ _ _)).trans (itemsKept_setEntry _ _ _ _)

theorem itemsKept_freeMirror (p ridx : Nat) : ItemsKept s (s.freeMirror p ridx) := by
  unfold State.freeMirror
  split
  · exact .refl s
  · dsimp only
    split
    · exact itemsKept_setFlw _ _ _
    · split
      · exact (itemsKept_setFlw _ _ _).trans (itemsKept_devWrite _ _ _ _)
      · exact itemsKept_setFlw _ _ _

theorem itemsKept_dropCtx (p ridx : Nat) : ItemsKept s (s.dropCtx p ridx) := by
  unfold State.dropCtx
  split
  · exact .ite (.refl s) (itemsKept_setCtx _ _ _ _)
  · exact .refl s

-- ---------------------------------------------------------------------------------------------- ordering domains (R97, R114)

theorem itemsKept_setMark (w : WorkItem) (v : Slot) : ItemsKept s (s.setMark w v) := .ite ⟨rfl, rfl, rfl⟩ (.refl s)

theorem itemsKept_passHead (p d n : Nat) : ItemsKept s (s.passHead p d n) := by
  induction n generalizing s with
  | zero => exact .refl s
  | succ n ih =>
    unfold State.passHead
    dsimp only
    split
    · split <;> exact (ih _).after ⟨rfl, rfl, rfl⟩
    · exact (ih _).after ⟨rfl, rfl, rfl⟩
    · exact .refl s

theorem itemsKept_advanceHead (p d : Nat) : ItemsKept s (s.advanceHead p d) := itemsKept_passHead _ _ _ _

theorem itemsKept_dropMark (w : WorkItem) (cause : Nat) : ItemsKept s (s.dropMark w cause) :=
  .ite ((itemsKept_setMark _ _ _).trans (itemsKept_advanceHead _ _ _)) (itemsKept_countP _ _ _)

-- ------------------------------------------------------------------------------------------------ hand-off (R115, R244)

theorem itemsKept_putFrameBytes (p : Nat) (bs : List Byte) (cs : List Nat) : ItemsKept s (s.putFrameBytes p bs cs) := by
  induction cs generalizing s bs with
  | nil => exact .refl s
  | cons c cs ih => exact ItemsKept.trans (u := s.putCell p c bs) ⟨rfl, rfl, rfl⟩ (ih _ _)

theorem itemsKept_rewriteFrame (p : Nat) (bs : List Byte) (cs : List Nat) : ItemsKept s (s.rewriteFrame p bs cs).2 := by
  unfold State.rewriteFrame
  dsimp only
  split
  · exact ItemsKept.trans (u := (s.takeCells p _).2) ⟨rfl, rfl, rfl⟩ (itemsKept_putFrameBytes _ _ _ _)
  · exact itemsKept_putFrameBytes _ _ _ _

theorem itemsKept_meterFrame (p m l : Nat) : ItemsKept s (s.meterFrame p m l).2 := by
  have e : (s.meterFrame p m l).2 = { s with swt := (s.meterFrame p m l).2.swt } := by
    unfold State.meterFrame
    extract_lets
    split
    · rfl
    · split <;> rfl
  rw [e]
  exact ⟨rfl, rfl, rfl⟩

theorem itemsKept_psFilter (p : Nat) (f : FabFrame) : ItemsKept s (s.psFilter p f).2 := by
  unfold State.psFilter
  extract_lets mp n key v x s1 g m
  split
  · exact .refl s
  · split
    · exact itemsKept_count _ _ _ _
    · split
      · have h1 : ItemsKept s s1 := .ite ⟨rfl, rfl, rfl⟩ (.refl s)
        exact h1.trans (itemsKept_count _ _ _ _)
      · split
        · exact itemsKept_count _ _ _ _
        · split
          · exact .refl s
          · have meter := itemsKept_meterFrame s p m f.bytes.length
            generalize s.meterFrame p m f.bytes.length = r at meter ⊢
            split
            split
            · exact meter
            · split
              · exact meter.trans (itemsKept_count _ _ _ _)
              · exact meter
            · exact meter.trans (itemsKept_count _ _ _ _)

theorem itemsKept_frerGen (p : Nat) (f : FabFrame) : ItemsKept s (s.frerGen p f).2.2 := by
  unfold State.frerGen
  split <;> exact ⟨rfl, rfl, rfl⟩

theorem itemsKept_mirrorCopy (p x : Nat) (f : FabFrame) : ItemsKept s (s.mirrorCopy p x f).2 := by
  unfold State.mirrorCopy
  split <;> exact ⟨rfl, rfl, rfl⟩

theorem itemsKept_enterStream (f : FabFrame) : ItemsKept s (s.enterStream f) :=
  .ite ⟨rfl, rfl, rfl⟩ (.ite ⟨rfl, rfl, rfl⟩ ⟨rfl, rfl, rfl⟩)

theorem itemsKept_toFabric (f : FabFrame) (mir : Option Nat) : ItemsKept s (s.toFabric f mir) := by
  unfold State.toFabric
  extract_lets p
  have filter := itemsKept_psFilter s p f
  generalize s.psFilter p f = r at filter
  obtain ⟨r, s1⟩ := r
  cases r with
  | none => exact filter
  | some f1 =>
    dsimp only
    have gen := filter.trans (itemsKept_frerGen s1 p f1)
    generalize s1.frerGen p f1 = g at gen
    obtain ⟨f2, partner, s2⟩ := g
    dsimp only
    have mirror : ItemsKept s (match mir with | some x => s2.mirrorCopy p x f1 | none => (none, s2) : Option FabFrame × State).2 := by
      cases mir with
      | none => exact gen
      | some x => exact gen.trans (itemsKept_mirrorCopy _ _ _ _)
    have forward {u : State} (h : ItemsKept s u) : ItemsKept s (if (decide (1092 ≤ f2.port) && decide (f2.port < 1108)) = true then
        (match u.mirrorTo p (f2.port - 1092) f2 with | some g => u.enterStream g | none => u.countPc f2.port f2.tc 4) else u.enterStream f2) := by
      refine .ite ?_ (h.trans (itemsKept_enterStream _ _))
      split
      · exact h.trans (itemsKept_enterStream _ _)
      · exact h.trans (itemsKept_count _ _ _ _)
    have also {u : State} (h : ItemsKept s u) (c : Option FabFrame) : ItemsKept s (match c with | some c => u.enterStream c | none => u) := by
      cases c with
      | none => exact h
      | some c => exact h.trans (itemsKept_enterStream _ _)
    cases partner with
    | none => exact also (forward mirror) _
    | some q => exact (also (forward mirror) _).trans (itemsKept_enterStream _ _)

end
end Sys2Proof.Machine
end

section
/-! PROOFS. The release turn (R113–R116): what a commit, a frog and a failed serial attempt leave of an item's lifeline. -/

namespace Sys2Proof.Machine

theorem SMap.sorted_mapVal {β γ : Type} {m : SMap β} (f : β → γ) (h : SMap.sorted m = true) : SMap.sorted (m.map fun e => (e.1, f e.2)) = true := by
  induction m with
  | nil => rfl
  | cons e m ih =>
    refine SMap.sorted_cons (ih (SMap.sorted_tail h)) fun x hx => ?_
    obtain ⟨y, hy, rfl⟩ := List.mem_map.1 hx
    exact SMap.sorted_head h y hy

theorem SMap.find_mapVal {β γ : Type} (m : SMap β) (f : β → γ) (k : Nat) : SMap.find (m.map fun e => (e.1, f e.2)) k = (SMap.find m k).map f := by
  induction m with
  | nil => rfl
  | cons e m ih =>
    rw [List.map_cons, SMap.find, SMap.find]
    split
    · rfl
    · exact ih

-- ------------------------------------------------------------------------------------------------------ an item's lifeline

/-- The lifelines of `s` with one replaced, through what keeps them. -/
theorem ItemsKept.setLl {s u : State} (h : ItemsKept s u) (k : Nat) (l : Lifeline) : ItemsKept (s.setLl k l) (u.setLl k l) :=
  ⟨by rw [State.setLl, State.setLl, h.lls], h.car, h.strands⟩

/-- A lifeline is freed: no other changes. -/
theorem State.freeLl_lls (s : State) (k : Nat) : (s.freeLl k).lls = SMap.del s.lls k := by
  have sweep := itemsKept_sweepAbsence ({ s.freeLocks k with lls := SMap.del (s.freeLocks k).lls k } : State) (k / 4096)
  rw [State.freeLl, sweep.lls, (itemsKept_freeLocks s k).lls]

theorem State.find_freeLl {s : State} (hs : SMap.sorted s.lls = true) (k : Nat) : SMap.find (s.freeLl k).lls k = none := by
  rw [State.freeLl_lls, SMap.find_del _ _ _ hs, if_pos rfl]

/-- What an attempt leaves of its lifeline when it is discarded (R116). -/
def Lifeline.discarded (l : Lifeline) : Lifeline := { l with rs := [], log := [], tents := [], egr := l.egr0, fmeta := l.fmeta0, frame := l.frame0 }

/-- An attempt is discarded: its lifeline goes back to the start of the pass, and no other item changes (R116, R237). -/
theorem itemsKept_discardAttempt (s : State) (k : Nat) : ItemsKept (s.setLl k (s.ll k).discarded) (s.discardAttempt k) := by
  unfold State.discardAttempt
  extract_lets l s1 p s2 s3 l3 s4
  have tents : ItemsKept s s1 := .foldl (fun _ _ => itemsKept_dropTent _ _ _) _ _
  have log : ItemsKept s1 s2 := by
    refine .foldl (fun u e => ?_) _ _
    split
    · exact itemsKept_unreserve _ _ _ _
    · exact .refl u
  have h3 : ItemsKept s s3 := (tents.trans log).trans (itemsKept_freeLocks _ _)
  have hl : s4 = s3.setLl k (s.ll k).discarded := by rw [← h3.ll_eq k]; rfl
  rw [hl]
  exact (h3.setLl k _).trans (itemsKept_sweepAbsence _ _)

theorem State.sorted_discardAttempt {s : State} (hs : SMap.sorted s.lls = true) (k : Nat) : SMap.sorted (s.discardAttempt k).lls = true := by
  rw [(itemsKept_discardAttempt s k).lls]
  exact State.sorted_setLl hs _ _

theorem State.ll_discardAttempt {s : State} (hs : SMap.sorted s.lls = true) (k : Nat) : (s.discardAttempt k).ll k = (s.ll k).discarded := by
  rw [(itemsKept_discardAttempt s k).ll_eq, State.ll_setLl_self hs]

/-- The lifelines are in order, and that of item `k` has the item and the egress descriptor that it had. -/
structure ItemStands (k : Nat) (s u : State) : Prop where
  sorted : SMap.sorted u.lls = true
  item : (u.ll k).item = (s.ll k).item
  egr : (u.ll k).egr = (s.ll k).egr

theorem ItemStands.trans {k : Nat} {s u v : State} (a : ItemStands k s u) (b : ItemStands k u v) : ItemStands k s v :=
  ⟨b.sorted, b.item.trans a.item, b.egr.trans a.egr⟩

theorem ItemsKept.stands {s u : State} (h : ItemsKept s u) (hs : SMap.sorted s.lls = true) (k : Nat) : ItemStands k s u :=
  ⟨by rwa [h.lls], by rw [h.ll_eq], by rw [h.ll_eq]⟩

theorem ItemStands.foldl {k : Nat} {α : Type} {f : State → α → State} (h : ∀ s x, SMap.sorted s.lls = true → ItemStands k s (f s x)) (l : List α) {s : State}
    (hs : SMap.sorted s.lls = true) : ItemStands k s (l.foldl f s) := by
  induction l generalizing s with
  | nil => exact (ItemsKept.refl s).stands hs k
  | cons x l ih => exact (h s x hs).trans (ih (h s x hs).sorted)

/-- A lifeline is written with its item and its egress descriptor as they are. -/
theorem itemStands_setLl {s : State} (hs : SMap.sorted s.lls = true) (k : Nat) {l : Lifeline} (hi : l.item = (s.ll k).item) (he : l.egr = (s.ll k).egr) :
    ItemStands k s (s.setLl k l) :=
  ⟨State.sorted_setLl hs _ _, by rw [State.ll_setLl_self hs, hi], by rw [State.ll_setLl_self hs, he]⟩

/-- Read-set entries are marked, and no item changes (R224). -/
theorem itemStands_markGone {s : State} (hs : SMap.sorted s.lls = true) (k p ridx : Nat) : ItemStands k s (s.markGone p ridx) := by
  let mark (r : RsEntry) : RsEntry := { r with gone := r.gone || (decide (r.home = p) && decide (r.ridx = ridx) && !r.absent) }
  let g (l : Lifeline) : Lifeline := { l with rs := l.rs.map mark }
  have ll : (s.markGone p ridx).ll k = ((SMap.find s.lls k).map g).getD {} := by
    show (SMap.find (s.lls.map fun e => (e.1, g e.2)) k).getD {} = _
    rw [SMap.find_mapVal]
  have now : s.ll k = (SMap.find s.lls k).getD {} := rfl
  refine ⟨SMap.sorted_mapVal g hs, ?_, ?_⟩ <;> rw [ll, now] <;> cases SMap.find s.lls k <;> rfl

theorem itemStands_deleteRecord {s : State} (hs : SMap.sorted s.lls = true) (k p ridx : Nat) : ItemStands k s (s.deleteRecord p ridx) := by
  unfold State.deleteRecord
  extract_lets s1 s2 s3 f
  have h0 := (itemsKept_freeMirror s p ridx).stands hs k
  have h1 : ItemStands k s s1 := h0.trans (itemStands_markGone h0.sorted k p ridx)
  have h12 : ItemsKept s1 s2 := by
    show ItemsKept s1 (match s1.entryOf p ridx with | some (l, _) => s1.setEntry p l {} | none => s1)
    split
    · exact itemsKept_setEntry _ _ _ _
    · exact .refl _
  have h3 : ItemsKept s1 s3 := h12.trans (itemsKept_dropCtx _ _ _)
  refine h1.trans (ItemsKept.stands ?_ h1.sorted k)
  split
  · exact h3.trans (itemsKept_setFlw _ _ _)
  · exact h3.trans (itemsKept_setFlw _ _ _)

theorem itemStands_applyEntry {s : State} (hs : SMap.sorted s.lls = true) (k : Nat) (e : StEntry) : ItemStands k s (s.applyEntry k e) := by
  unfold State.applyEntry
  extract_lets p rs r ridx key s1
  split
  · exact (itemsKept_freeBufAt _ _ _).stands hs k
  · exact ((itemsKept_makeRecord _ _ _ _ _).trans (itemsKept_setCtx _ _ _ _)).stands hs k
  · exact itemStands_deleteRecord hs _ _ _
  · exact (itemsKept_applyRec _ _ _ _).stands hs k

theorem itemStands_applyLog {s : State} (hs : SMap.sorted s.lls = true) (k : Nat) : ItemStands k s (s.applyLog k) := by
  refine .foldl (fun u e hu => ?_) _ hs
  split
  · exact (ItemsKept.refl u).stands hu k
  · have applied := itemStands_applyEntry hu k e.1
    exact applied.trans (itemStands_setLl applied.sorted k rfl rfl)

-- ------------------------------------------------------------------------------------------------------- commit (R115)

/-- An item that is not sent to recirculation gives up its lifeline when it leaves. -/
theorem State.find_leave {s : State} (hs : SMap.sorted s.lls = true) (k : Nat) (parallel : Bool)
    (h : (s.ll k).item.kind ≠ .frame ∨ bits (leVal (s.ll k).egr) 0 11 < 1024 ∨ 1027 < bits (leVal (s.ll k).egr) 0 11) :
    SMap.find (s.leave k parallel).lls k = none := by
  unfold State.leave
  extract_lets l w p egr ok v port done
  have ends {u : State} (hu : ItemsKept s u) : SMap.find (done u).lls k = none := by
    dsimp -zeta only [done]
    extract_lets u1 u2 u3 u4
    have h1 : ItemsKept s u1 := .ite (hu.trans (itemsKept_setMark _ _ _)) (hu.trans (itemsKept_setMark _ _ _))
    have h2 : ItemsKept u1 u2 := .ite ⟨rfl, rfl, rfl⟩ (.refl _)
    have h3 : ItemsKept s u3 := (h1.trans h2).trans (itemsKept_endWork _ _ _ _)
    have gone : SMap.find u4.lls k = none := State.find_freeLl (by rwa [h3.lls]) k
    split
    · rw [(itemsKept_advanceHead _ _ _).lls, gone]
    · exact gone
  split
  · exact ends (.refl s)
  · rename_i frame
    split
    · exact ends (itemsKept_countP _ _ _)
    · split
      · exact ends (itemsKept_countP _ _ _)
      · have written := itemsKept_rewriteFrame s p l.frame w.cells
        generalize s.rewriteFrame p l.frame w.cells = r at written ⊢
        obtain ⟨cs, s1⟩ := r
        dsimp only
        have outside : ¬ (decide (1024 ≤ port) && decide (port ≤ 1027)) = true := by
          have out : port < 1024 ∨ 1027 < port := h.resolve_left frame
          simp only [Bool.and_eq_true, decide_eq_true_eq]
          omega
        rw [if_neg outside, (itemsKept_toFabric _ _ _).lls]
        exact ends written

/-- An item that commits gives up its lifeline, unless it is sent to recirculation (R115). -/
theorem State.find_commit {s : State} (hs : SMap.sorted s.lls = true) (k : Nat) (parallel : Bool)
    (h : (s.ll k).item.kind ≠ .frame ∨ bits (leVal (s.ll k).egr) 0 11 < 1024 ∨ 1027 < bits (leVal (s.ll k).egr) 0 11) :
    SMap.find (s.commit k parallel).lls k = none := by
  unfold State.commit
  extract_lets p l s1 s2 ch s3 s4 s5
  have h1 : ItemStands k s s1 := itemStands_setLl hs k rfl rfl
  have h2 : ItemsKept s1 s2 := .foldl (fun _ _ => itemsKept_confirmTent _ _) _ _
  have h3 : ItemStands k s s3 := (h1.trans (h2.stands h1.sorted k)).trans (itemStands_applyLog (h2.stands h1.sorted k).sorted k)
  have h4 : ItemsKept s3 s4 := .foldl (fun u c => .ite (itemsKept_endCtx _ _ _ _) (.refl u)) _ _
  have h5 : ItemStands k s s5 := h3.trans ((h4.trans (itemsKept_freeLocks _ _)).stands h3.sorted k)
  rw [(itemsKept_sweepAbsence _ _).lls]
  exact State.find_leave h5.sorted k parallel (by rw [h5.item, h5.egr]; exact h)

-- --------------------------------------------------------------------------------------- frog, serial failure (R113, R116)

/-- A serial attempt that fails is released: its lifeline is free. -/
theorem State.find_release_serial {s : State} (hs : SMap.sorted s.lls = true) {k r : Nat} (hf : s.commitFails k = some r) (hl : (s.ll k).serial = true) :
    SMap.find (s.release k).lls k = none := by
  have ended := itemsKept_endWork (s.discardAttempt k) (s.ll k).item 0x14 []
  simp only [State.release, hf, if_pos hl]
  rw [(itemsKept_dropMark _ _ _).lls]
  exact State.find_freeLl (by rw [ended.lls]; exact State.sorted_discardAttempt hs k) k

/-- A list holds the items last written. -/
theorem State.items_setItems {s : State} (h : SMap.sorted s.car.lists = true) (l j : Nat) (x : List WorkItem) :
    (s.setItems l x).items j = if l = j then x else s.items j := SMap.get_set _ _ _ _ _ h

/-- A lifeline in use is found as it is written. -/
theorem State.find_setLl {s : State} (hs : SMap.sorted s.lls = true) (k : Nat) {l : Lifeline} (hl : l ≠ {}) : SMap.find (s.setLl k l).lls k = some l := by
  rw [State.setLl, SMap.set, if_neg hl, SMap.find_put _ _ _ _ hs, if_pos rfl]

/-- The lifeline of an item that is put back into its list (R116, R117). -/
def Lifeline.requeued (l : Lifeline) (k attempt : Nat) (serial replay : Bool) (frogRsi : Nat) : Lifeline :=
  { l.discarded with state := .queued, item := { l.item with attempt := attempt, replay := replay, ll := some k }, serial := serial, replay := replay, frogRsi := frogRsi, strand := none }

/-- An item is put back: its attempt is discarded, and it stands at the head of its list (R104, R116). -/
theorem State.requeueLl_puts {s : State} (hs : SMap.sorted s.lls = true) (hc : SMap.sorted s.car.lists = true) (k attempt : Nat) (serial replay : Bool) (frogRsi : Nat) :
    let x := (s.ll k).requeued k attempt serial replay frogRsi
    SMap.find (s.requeueLl k attempt serial replay frogRsi).lls k = some x ∧
      (s.requeueLl k attempt serial replay frogRsi).items (s.ll k).item.list = x.item :: s.items (s.ll k).item.list := by
  intro x
  have discard := itemsKept_discardAttempt s k
  have car : (s.discardAttempt k).car = s.car := discard.car
  have eq : s.requeueLl k attempt serial replay frogRsi = ((s.discardAttempt k).setLl k x).requeue x.item := by
    simp only [State.requeueLl, State.ll_discardAttempt hs]
    rfl
  have used : x ≠ {} := fun e => LlState.noConfusion (congrArg Lifeline.state e)
  rw [eq]
  refine ⟨?_, ?_⟩
  · rw [State.requeue, State.setItems_lls]
    exact State.find_setLl (State.sorted_discardAttempt hs k) k used
  · have items : ((s.discardAttempt k).setLl k x).items (s.ll k).item.list = s.items (s.ll k).item.list := by
      rw [State.items, State.items, ← car]
      rfl
    have sorted : SMap.sorted ((s.discardAttempt k).setLl k x).car.lists = true := by
      rw [← car] at hc
      exact hc
    rw [State.requeue, show x.item.list = (s.ll k).item.list from rfl, State.items_setItems sorted, if_pos rfl, items]

/-- A frog puts the item back with its attempt counted (R116). -/
theorem State.frog_puts {s : State} (hs : SMap.sorted s.lls = true) (hc : SMap.sorted s.car.lists = true) (k r : Nat) :
    let a := (s.ll k).item.attempt + 1
    let x := (s.ll k).requeued k (min a 3) (decide (3 ≤ a)) false r
    SMap.find (s.frog k r).lls k = some x ∧ (s.frog k r).items (s.ll k).item.list = x.item :: s.items (s.ll k).item.list := by
  intro b x
  unfold State.frog
  extract_lets l a ser s1 s2
  have h : ItemsKept s s2 := .ite ((itemsKept_countP _ _ _).trans (itemsKept_countP _ _ _)) (itemsKept_countP _ _ _)
  have puts := State.requeueLl_puts (by rwa [h.lls]) (by rwa [h.car]) k (min a 3) ser false r
  rw [h.ll_eq, h.items_eq] at puts
  exact puts

/-- An item that passes every check commits (R113). -/
theorem State.release_commits {s : State} {k : Nat} (hf : s.commitFails k = none) :
    s.release k = s.commit k ((s.ll k).item.ord && decide (s.listAttr (s.ll k).item.list = 2)) := by
  simp only [State.release, hf]

/-- A failed attempt that is not serial is put back (R113, R116). -/
theorem State.release_frogs {s : State} {k r : Nat} (hf : s.commitFails k = some r) (hl : (s.ll k).serial = false) :
    s.release k = (s.setMark (s.ll k).item .pending).frog k r := by
  simp only [State.release, hf, hl, Bool.false_eq_true, if_false]

section
variable {s : State} {p i : Nat} (hp : p < 2) (hi : i < 4096)
include hp hi

theorem exec_releaseTurn : exec (.releaseTurn p i) s = .next (if s.up p && s.isTurn (p * 4096 + i) then s.release (p * 4096 + i) else s) := by
  show execReleaseTurn p i s = _
  rw [execReleaseTurn, Nat.mod_eq_of_lt hp, Nat.mod_eq_of_lt hi]
  split <;> rfl

theorem exec_releaseTurn_waits (h : s.isTurn (p * 4096 + i) = false) : exec (.releaseTurn p i) s = .next s := by
  rw [exec_releaseTurn hp hi, h, Bool.and_false]
  rfl

theorem exec_releaseTurn_releases (hu : s.up p = true) (h : s.isTurn (p * 4096 + i) = true) : exec (.releaseTurn p i) s = .next (s.release (p * 4096 + i)) := by
  rw [exec_releaseTurn hp hi, h, hu]
  rfl

end

end Sys2Proof.Machine
end

section
/-! PROOFS. The bind-off timeout (R114). -/

namespace Sys2Proof.Machine

/-- Reads that do not wait for a lock are not offered again. -/
theorem State.rerun_none {s : State} {t : Nat} {q : HookOp → Bool} (h : ∀ o ∈ (s.strand t).ops, q o = false) : s.rerun t q = s := by
  have fold (l : List Nat) : l.foldl (fun s i =>
      match (s.strand t).ops[i]? with
      | none => s
      | some o => if q o then (s.tryRead t o).2.setStrand t { (s.tryRead t o).2.strand t with ops := ((s.tryRead t o).2.strand t).ops.set i (s.tryRead t o).1 } else s) s = s := by
    induction l with
    | nil => rfl
    | cons i l ih =>
      rw [List.foldl_cons]
      cases ho : (s.strand t).ops[i]? with
      | none => exact ih
      | some o =>
        dsimp only
        rw [if_neg (by rw [h o (List.mem_of_getElem? ho)]; exact Bool.false_ne_true)]
        exact ih
  exact fold _

/-- No strand's reads change with the locks of an item that has gone, where none of them waits for a lock (R116). -/
theorem itemsKept_rerunLocks {s : State} {t : Nat} (h : ∀ o ∈ (s.strand t).ops, o.onLock = false) : ItemsKept s (s.rerunLocks t) := by
  rw [State.rerunLocks, State.rerun_none h]
  exact (itemsKept_leaveLockWait _ _ _).trans (itemsKept_leaveLockWait _ _ _)

section
variable {s : State} {k : Nat}

theorem State.timeoutHeld_waits (h : s.timedOut (s.ll k).item = false) : s.timeoutHeld k = s := by
  simp [State.timeoutHeld, h]

variable (hs : SMap.sorted s.lls = true) (h : s.timedOut (s.ll k).item = true)
include hs h

/-- An item that waits in a list or in recirculation is released (R114). -/
theorem State.find_timeoutHeld (hq : (s.ll k).state = .queued ∨ (s.ll k).state = .recirc) : SMap.find (s.timeoutHeld k).lls k = none := by
  have sorted := State.sorted_discardAttempt hs k
  rcases hq with hq | hq <;> simp only [State.timeoutHeld, h, hq, Bool.not_true, Bool.false_eq_true, if_false] <;> rw [(itemsKept_dropMark _ _ _).lls]
  · refine State.find_freeLl ?_ k
    show SMap.sorted ((s.discardAttempt k).endWork _ _ _).lls = true
    rwa [(itemsKept_endWork _ _ _ _).lls]
  · refine State.find_freeLl ?_ k
    exact sorted

/-- A running item is released with its lifeline TIMED_OUT, and its strand goes on (R114). -/
theorem State.timeoutHeld_running {t : Nat} (hr : (s.ll k).state = .running) (ht : (s.ll k).strand = some t) (ho : ∀ o ∈ (s.strand t).ops, o.onLock = false) :
    ((s.timeoutHeld k).ll k).state = .timedOut ∧ ((s.timeoutHeld k).ll k).rs = [] ∧ ((s.timeoutHeld k).ll k).log = [] ∧ (s.timeoutHeld k).strands = s.strands := by
  let s1 := (s.discardAttempt k).endWork (s.ll k).item 0x0D []
  let l : Lifeline := { (s.ll k).discarded with state := .timedOut, item := { (s.ll k).item with work := none } }
  have ended : ItemsKept (s.discardAttempt k) s1 := itemsKept_endWork _ _ _ _
  have ll : s1.ll k = (s.ll k).discarded := by rw [ended.ll_eq, State.ll_discardAttempt hs]
  have strands : (s1.setLl k l).strands = s.strands := ended.strands.trans (itemsKept_discardAttempt s k).strands
  have sorted : SMap.sorted s1.lls = true := by
    rw [ended.lls]
    exact State.sorted_discardAttempt hs k
  have idle : ∀ o ∈ ((s1.setLl k l).strand t).ops, o.onLock = false := by rwa [State.strand, strands]
  have eq : s.timeoutHeld k = ((s1.setLl k l).rerunLocks t).dropMark (s.ll k).item 16 := by
    simp only [State.timeoutHeld, h, hr, ht, Bool.not_true, Bool.false_eq_true, if_false]
    rw [show s1.setLl k l = s1.setLl k { s1.ll k with state := .timedOut, item := { (s.ll k).item with work := none } } by rw [ll]]
  have kept : ItemsKept (s1.setLl k l) (s.timeoutHeld k) := by
    rw [eq]
    exact (itemsKept_rerunLocks idle).trans (itemsKept_dropMark _ _ _)
  rw [kept.ll_eq, kept.strands, strands, State.ll_setLl_self sorted]
  exact ⟨rfl, rfl, rfl, rfl⟩

end

section
variable {s : State} {p d m : Nat} {w : WorkItem}

/-- The items that wait as one of a marker are marked as released (R114). -/
def killed (p d m : Nat) (l : List WorkItem) : List WorkItem := l.map fun x => if x.waitsAs p d m then { x with dead := true } else x

/-- The Carriage with every item that waits as one of a marker marked. -/
def State.killListed (s : State) (p d m : Nat) : State :=
  { s with car := { s.car with
    lists := s.car.lists.map fun (e : Nat × List WorkItem) => (e.1, killed p d m e.2)
    spill := s.car.spill.map fun (e : Nat × List WorkItem) => (e.1, killed p d m e.2)
    holdA := killed p d m s.car.holdA
    holdB := killed p d m s.car.holdB } }

/-- A first pass that waits alone in its list is the one that its marker names. -/
theorem State.timeoutListed_eq (hc : s.car.lists = [(w.list, [w])]) (hw : w.waitsAs p d m = true) :
    s.timeoutListed p d m = if s.timedOut w then (s.killListed p d m).dropMark w 16 else s := by
  have found : ((s.car.lists.flatMap (·.2)) ++ (s.car.spill.flatMap (·.2)) ++ s.car.holdA ++ s.car.holdB).find? (fun x => x.waitsAs p d m) = some w := by
    rw [hc]
    exact List.find?_cons_of_pos hw
  simp only [State.timeoutListed, found]
  cases s.timedOut w <;> rfl

/-- It is marked as released where it stands (R114). -/
theorem State.items_timeoutListed (hc : s.car.lists = [(w.list, [w])]) (hw : w.waitsAs p d m = true) (h : s.timedOut w = true) :
    (s.timeoutListed p d m).items w.list = [{ w with dead := true }] := by
  rw [State.timeoutListed_eq hc hw, if_pos h, (itemsKept_dropMark _ _ _).items_eq, State.items, State.killListed, hc]
  simp [killed, SMap.get, SMap.find, hw]

end

section
variable {s : State} {p : Nat} (hp : p < 2)
include hp

theorem exec_bindTimeout_held {i : Nat} (hi : i < 4096) : exec (.bindTimeout (.held p i)) s = .next (s.timeoutHeld (p * 4096 + i)) := by
  show execBindTimeout (.held p i) s = _
  rw [execBindTimeout, Nat.mod_eq_of_lt hp, Nat.mod_eq_of_lt hi]

theorem exec_bindTimeout_listed {d m : Nat} (hd : d < 16384) (hm : m < 65536) : exec (.bindTimeout (.listed p d m)) s = .next (s.timeoutListed p d m) := by
  show execBindTimeout (.listed p d m) s = _
  rw [execBindTimeout, Nat.mod_eq_of_lt hp, Nat.mod_eq_of_lt hd, Nat.mod_eq_of_lt hm]

end

end Sys2Proof.Machine
end

section
/-! PROOFS. Dispatch (R105, R138), and the items that are held back or spilled (R104). -/

namespace Sys2Proof.Machine

-- ---------------------------------------------------------------------------------------------- hold queue, spill (R104)

section
variable {s : State} {p : Nat} (hp : p < 2)
include hp

theorem exec_holdQueueRetry : exec (.holdQueueRetry p) s = .next (s.retryHold p) := by
  show execHoldQueueRetry p s = _
  rw [execHoldQueueRetry, Nat.mod_eq_of_lt hp]

end

/-- With no WORK item held back at its ring, none is offered again. -/
theorem State.retryWork_none {s : State} (h : s.hst.heldWork = []) : s.retryWork = s.setHeldWork [] := by
  rw [State.retryWork, h]
  rfl

theorem State.setHoldQ_self (s : State) (p : Nat) : s.setHoldQ p (s.holdQ p) = s := by
  unfold State.setHoldQ State.holdQ
  split <;> rfl

/-- The hold queue is offered item by item (R104). -/
def retryItem (acc : State × List WorkItem) (w : WorkItem) : State × List WorkItem :=
  if acc.2.any fun x => decide (x.list = w.list) then (acc.1, acc.2 ++ [w])
  else match acc.1.storeItem w.list w with
    | some s => (s, acc.2)
    | none => (acc.1, acc.2 ++ [w])

theorem State.retryHold_eq (s : State) (p : Nat) :
    s.retryHold p = (((s.holdQ p).foldl retryItem (s, [])).1.setHoldQ p ((s.holdQ p).foldl retryItem (s, [])).2).retryWork := rfl

/-- Items whose lists take none of them stay. -/
theorem retryItem_foldl_none {s : State} {l : List WorkItem} (h : ∀ w ∈ l, s.storeItem w.list w = none) (q : List WorkItem) :
    l.foldl retryItem (s, q) = (s, q ++ l) := by
  induction l generalizing q with
  | nil => rw [List.foldl_nil, List.append_nil]
  | cons w l ih =>
    have step : retryItem (s, q) w = (s, q ++ [w]) := by
      simp only [retryItem, h w List.mem_cons_self, ite_self]
    rw [List.foldl_cons, step, ih fun x hx => h x (List.mem_cons_of_mem _ hx), List.append_assoc]
    rfl

theorem State.retryHold_stays {s : State} {p : Nat} (hh : s.hst.heldWork = []) (h : ∀ w ∈ s.holdQ p, s.storeItem w.list w = none) :
    s.retryHold p = s.setHeldWork [] := by
  rw [State.retryHold_eq, retryItem_foldl_none h, List.nil_append, State.setHoldQ_self, State.retryWork_none hh]

theorem State.retryHold_moves {s s1 : State} {p : Nat} {w : WorkItem} (hh : s.hst.heldWork = []) (hq : s.holdQ p = [w]) (h : s.storeItem w.list w = some s1) :
    s.retryHold p = (s1.setHoldQ p []).setHeldWork [] := by
  have step : retryItem (s, []) w = (s1, []) := by simp [retryItem, h]
  have held : (s1.setHoldQ p []).hst.heldWork = [] := by rw [State.setHoldQ_hst, listsOnly_storeItem h, hh]
  rw [State.retryHold_eq, hq, List.foldl_cons, step, List.foldl_nil, State.retryWork_none held]

section
variable {s : State} {l : Nat} {w : WorkItem} {rest : List WorkItem} (hw : s.spilled l = w :: rest)
include hw

/-- The oldest spilled item moves back where there is room and its place can be read, and is discarded where its place is poisoned (R104, R298). -/
theorem exec_spillReturn : exec (.spillReturn l) s = .next (
    if decide ((s.items l).length < s.listDepth l) && decide (s.storeUse (listPanel l) < s.storeSize (listPanel l)) &&
        !s.dramHolds (listPanel l) 2 (s.spillAddr l (w.ring.getD 0)) 32 false then
      if s.spillPoison l (w.ring.getD 0) then ((s.setSpilled l rest).askDram (listPanel l) 2 (s.spillAddr l (w.ring.getD 0)) 32 false).discardHead w
      else ((s.setSpilled l rest).askDram (listPanel l) 2 (s.spillAddr l (w.ring.getD 0)) 32 false).setItems l (s.items l ++ [{ w with ring := none }])
    else s) := by
  show execSpillReturn l s = _
  rw [execSpillReturn, hw]
  dsimp only
  split
  · split <;> rfl
  · rfl

end

theorem State.spilled_setSpilled {s : State} (h : SMap.sorted s.car.spill = true) (l j : Nat) (x : List WorkItem) :
    (s.setSpilled l x).spilled j = if l = j then x else s.spilled j := SMap.get_set _ _ _ _ _ h

-- ------------------------------------------------------------------------------------------------------- dispatch (R105)

/-- Work that waits for a course changes the yarns' knots alone (R165). -/
theorem State.stirWork_frame (s b : State) : s.stirWork b = { s with yrn := (s.stirWork b).yrn } := by
  have fold (l : List Nat) (u : State) : ∃ y, l.foldl (fun s c => if (b.yrn.order.any fun t => decide (courseOf t = c)) && b.workFor c then s.stir c else s) u = { u with yrn := y } := by
    induction l generalizing u with
    | nil => exact ⟨u.yrn, rfl⟩
    | cons c l ih =>
      obtain ⟨y, hy⟩ := ih (if (b.yrn.order.any fun t => decide (courseOf t = c)) && b.workFor c then u.stir c else u)
      refine ⟨y, hy.trans ?_⟩
      split <;> rfl
  obtain ⟨y, hy⟩ := fold (List.range 8) s
  rw [show s.stirWork b = _ from hy]

/-- An item as it is given to a strand: with its lifeline, and with the generation that a first pass takes (R107). -/
def State.given (s : State) (k : Nat) (w : WorkItem) : WorkItem :=
  { w with ll := some k, vgen := if w.kind = .frame || w.ll.isSome then w.vgen else s.chr.curGen }

/-- The lifeline of an item that is given to a strand: the one it has, or a new one charged to the strand or to the item's home course. -/
def State.givenLl (s : State) (t k : Nat) (w : WorkItem) : Lifeline :=
  match SMap.find s.lls k with
  | some l => { l with state := .running, strand := some t, lastStrand := t, item := s.given k w }
  | none =>
    let own := decide (panelOf t = w.panel)
    { newLl (s.given k w) with strand := some t, lastStrand := t, chg := if own then some t else none, chgC := if own then none else some (w.list / 128) }

theorem State.givenLl_runs (s : State) (t k : Nat) (w : WorkItem) :
    (s.givenLl t k w).state = .running ∧ (s.givenLl t k w).strand = some t ∧ (s.givenLl t k w).item.list = w.list := by
  unfold State.givenLl
  split <;> exact ⟨rfl, rfl, rfl⟩

/-- An idle strand enters an item at its dispatch entry (R105, R138). -/
theorem State.giveItem_idle {s : State} {t : Nat} (k : Nat) (w : WorkItem) (h : (s.strand t).idle = true) :
    s.giveItem t k w = (s.setLl k (s.givenLl t k w)).enterItem t k false := by
  unfold State.giveItem State.givenLl
  cases SMap.find s.lls k <;> exact if_pos h

/-- What a strand becomes that takes item `k`, which reads as `w`, into its first bank (R138, R149). -/
def State.entered (s : State) (t k : Nat) (w : WorkItem) : Strand :=
  let x := s.strand t
  { x with
    bank0 := { x.bank0 with item := some k, hasItem := true, wi := ({ w with ll := some k } : WorkItem).words, pc := x.tvbase + 0x180#32, watchExempt := false }
    inB1 := false, idle := false, dispTime := s.now, deferred := none
    shareBase := s.rf R.ndlShare (panelOf t) (kOf t) 0 6, shareSize := s.rf R.ndlShare (panelOf t) (kOf t) 6 7
    wins := (List.range 4).map fun n => s.rd R.ndlWin (panelOf t) (courseOf t % 4) n
    xmask := s.rf R.ndlXmask (panelOf t) (courseOf t % 4) 0 16 }

theorem State.enterItem_first (s : State) (t k : Nat) : s.enterItem t k false = s.setStrand t (s.entered t k (s.ll k).item) := rfl

/-- Item `i` of list `l` is given to strand `t`, and the round robin is noted (R105). -/
def State.sends (s : State) (c pr l i t k : Nat) (w : WorkItem) : State :=
  let u := (s.takeAt l i).giveItem t k w
  { u with car := { u.car with dispRr := SMap.set u.car.dispRr 0 ((if l / 128 = c then 0 else 64) + c * 8 + pr) (l + 1) } }

/-- A lifeline is picked, and nothing else changes but the free choices. -/
theorem State.pickLl_snd (s : State) (p : Nat) : (s.pickLl p).2 = { s with fresh := s.fresh + 1 } := by
  unfold State.pickLl
  dsimp only [State.freeN]
  split <;> rfl

/-- The lists and the knots are what an item's removal from its list changes (R165). -/
theorem State.takeAt_frame (s : State) (l i : Nat) : s.takeAt l i = { s.setItems l ((s.items l).eraseIdx i) with yrn := (s.takeAt l i).yrn } := State.stirWork_frame _ _

section
variable {s : State} {c pr l i t : Nat} {w : WorkItem} (he : s.eligible l = some i) (hw : (s.items l)[i]? = some w) (hd : w.dead = false)
  (ht : s.timedOut w = false) (hf : s.strandFor c pr w = some t)
include he hw hd ht hf

/-- An item that holds a lifeline is dispatched with it (R105, R107). -/
theorem State.tryList_held {k : Nat} (hk : w.ll = some k) : s.tryList c pr l = .sent (s.sends c pr l i t k w) := by
  simp only [State.tryList, he, hw, hd, ht, hf, hk, Bool.or_self, Bool.false_eq_true, if_false]
  rfl

/-- A first pass is dispatched with a free lifeline. -/
theorem State.tryList_new {k : Nat} {s1 : State} (hk : w.ll = none) (hp : s.pickLl w.panel = (some k, s1)) : s.tryList c pr l = .sent (s1.sends c pr l i t k w) := by
  simp only [State.tryList, he, hw, hd, ht, hf, hk, hp, Bool.or_self, Bool.false_eq_true, if_false]
  rfl

end

/-- What is left of a round after it has dispatched does nothing. -/
theorem roundStep_done (c pr : Nat) (s : State) (l : List Nat) : l.foldl (State.roundStep c pr) (s, true) = (s, true) := by
  induction l with
  | nil => rfl
  | cons a l ih => exact ih

/-- One priority of a round (R105). -/
def State.roundPrio (c : Nat) (acc : State × Bool) (q : Nat) : State × Bool :=
  if acc.2 then acc else (acc.1.served c (7 - q)).foldl (State.roundStep c (7 - q)) acc

theorem roundPrio_done (c : Nat) (s : State) (l : List Nat) : l.foldl (State.roundPrio c) (s, true) = (s, true) := by
  induction l with
  | nil => rfl
  | cons a l ih => exact ih

/-- A round passes over the priorities at which nothing waits. -/
theorem roundPrio_empty {s : State} {c : Nat} {l : List Nat} (h : ∀ q ∈ l, s.served c (7 - q) = []) : l.foldl (State.roundPrio c) (s, false) = (s, false) := by
  induction l with
  | nil => rfl
  | cons q l ih =>
    have step : State.roundPrio c (s, false) q = (s, false) := by simp [State.roundPrio, h q List.mem_cons_self]
    rw [List.foldl_cons, step, ih fun x hx => h x (List.mem_cons_of_mem _ hx)]

/-- A round ends with the first item that it dispatches (R105). -/
theorem State.dispatchRound_sends {s u : State} {c pr l : Nat} {ls : List Nat} (hp : pr < 8) (h : ∀ q, pr < q → q < 8 → s.served c q = [])
    (hl : s.served c pr = l :: ls) (hs : s.tryList c pr l = .sent u) : s.dispatchRound c = u := by
  have prio : State.roundPrio c (s, false) (7 - pr) = (u, true) := by
    have step : State.roundStep c pr (s, false) l = (u, true) := by simp [State.roundStep, hs]
    rw [State.roundPrio, show 7 - (7 - pr) = pr by omega]
    simp only [Bool.false_eq_true, if_false, hl, List.foldl_cons, step, roundStep_done]
  have above : (List.range (7 - pr)).foldl (State.roundPrio c) (s, false) = (s, false) :=
    roundPrio_empty fun q hq => h _ (by have := List.mem_range.1 hq; omega) (by omega)
  have parts : List.range 8 = List.range (7 - pr) ++ (7 - pr) :: (List.range pr).map fun j => 7 - pr + 1 + j := by
    rw [show 8 = 7 - pr + 1 + pr by omega, List.range_add, List.range_succ, List.append_assoc]
    rfl
  show ((List.range 8).foldl (State.roundPrio c) (s, false)).1 = u
  rw [parts, List.foldl_append, above, List.foldl_cons, prio, roundPrio_done]

theorem exec_dispatch {s : State} {c : Nat} (hc : c < 8) (hs : s.inService = true) (hu : s.up (coursePanel c) = true) :
    exec (.dispatch c) s = .next (s.dispatchRound c) := by
  show execDispatch c s = _
  simp [execDispatch, hc, hs, hu]

/-- `u` is `s` in which item `w` has left its place in list `l` and runs on strand `t` with lifeline `k`. -/
structure ItemRuns (s : State) (l i t k : Nat) (w : WorkItem) (u : State) : Prop where
  taken : u.items l = (s.items l).eraseIdx i
  items : ∀ j, j ≠ l → u.items j = s.items j
  running : (u.ll k).state = .running
  holder : (u.ll k).strand = some t
  list : (u.ll k).item.list = w.list
  lls : ∀ j, j ≠ k → u.ll j = s.ll j
  strand : u.strand t = s.entered t k (u.ll k).item
  strands : ∀ j, j ≠ t → u.strand j = s.strand j
  regs : u.regs = s.regs
  mem : u.mem = s.mem

theorem State.sends_runs {s : State} (hl : SMap.sorted s.lls = true) (ho : SMap.sorted s.strands = true) (hc : SMap.sorted s.car.lists = true) (c pr l i : Nat) {t : Nat}
    (k : Nat) (w : WorkItem) (hi : (s.strand t).idle = true) : ItemRuns s l i t k w (s.sends c pr l i t k w) := by
  obtain ⟨state, holder, list⟩ := (s.takeAt l i).givenLl_runs t k w
  have frame := State.takeAt_frame s l i
  have give (h : ((s.takeAt l i).strand t).idle = true) := State.giveItem_idle k w h
  have send : s.sends c pr l i t k w = { (s.takeAt l i).giveItem t k w with car := (s.sends c pr l i t k w).car } := rfl
  have sendItems (j : Nat) : (s.sends c pr l i t k w).items j = ((s.takeAt l i).giveItem t k w).items j := rfl
  generalize (s.takeAt l i).givenLl t k w = x at *
  generalize s.takeAt l i = v at *
  have lls : v.lls = s.lls := by rw [frame]; rfl
  have strands : v.strands = s.strands := by rw [frame]; rfl
  have entered : (v.setLl k x).entered t k x.item = s.entered t k x.item := by
    have own : (v.setLl k x).strand t = s.strand t := by rw [← State.strand_congr strands]; rfl
    rw [State.entered, own, frame]
    rfl
  have self : (v.setLl k x).ll k = x := State.ll_setLl_self (by rwa [lls]) _ _
  rw [give (by rwa [State.strand, strands]), State.enterItem_first, self, entered] at send sendItems
  have ll (j : Nat) : (s.sends c pr l i t k w).ll j = if k = j then x else s.ll j := by
    have now : (s.sends c pr l i t k w).lls = (v.setLl k x).lls := by rw [send]; rfl
    rw [State.ll, now, ← State.ll, State.ll_setLl (by rwa [lls]), State.ll, State.ll, lls]
  have items (j : Nat) : (s.sends c pr l i t k w).items j = if l = j then (s.items l).eraseIdx i else s.items j := by
    have now : (((v.setLl k x).setStrand t (s.entered t k x.item)).items j) = v.items j := rfl
    rw [sendItems, now, State.items, frame]
    exact State.items_setItems hc l j _
  have strand (j : Nat) : (s.sends c pr l i t k w).strand j = if t = j then s.entered t k x.item else s.strand j := by
    have now : (s.sends c pr l i t k w).strands = (v.setStrand t (s.entered t k x.item)).strands := by rw [send]; rfl
    rw [State.strand_congr now, State.strand_setStrand _ _ _ _ (by rwa [strands]), State.strand_congr strands]
  refine ⟨?_, fun j hj => ?_, ?_, ?_, ?_, fun j hj => ?_, ?_, fun j hj => ?_, ?_, ?_⟩
  · rw [items, if_pos rfl]
  · rw [items, if_neg (Ne.symm hj)]
  · rw [ll, if_pos rfl, state]
  · rw [ll, if_pos rfl, holder]
  · rw [ll, if_pos rfl, list]
  · rw [ll, if_neg (Ne.symm hj)]
  · rw [ll, if_pos rfl, strand, if_pos rfl]
  · rw [strand, if_neg (Ne.symm hj)]
  · have now : (s.sends c pr l i t k w).regs = v.regs := by rw [send]; rfl
    rw [now, frame]
    rfl
  · have now : (s.sends c pr l i t k w).mem = v.mem := by rw [send]; rfl
    rw [now, frame]
    rfl

end Sys2Proof.Machine
end

section
/-! PROOFS. The turns of the Carriage (R104, R105, R107, R112–R116, R138, R298). -/

namespace Sys2Proof.Machine

/-- An item that runs, as the turns of the Carriage describe it: its lifeline, and the strand at its dispatch entry. -/
theorem ItemRuns.enters {s u : State} {l i t k : Nat} {w : WorkItem} (h : ItemRuns s l i t k w u) :
    u.items l = (s.items l).eraseIdx i ∧ (∀ j, j ≠ l → u.items j = s.items j) ∧
      (u.ll k).state = .running ∧ (u.ll k).strand = some t ∧ (u.ll k).item.list = w.list ∧ (∀ j, j ≠ k → u.ll j = s.ll j) ∧
      (u.strand t).inB1 = false ∧ (u.strand t).idle = false ∧ (u.bank t).item = some k ∧ (u.bank t).hasItem = true ∧
      (u.bank t).pc = (s.strand t).tvbase + 0x180#32 ∧ (u.bank t).wi = ({ (u.ll k).item with ll := some k } : WorkItem).words ∧
      (∀ j, j ≠ t → u.strand j = s.strand j) ∧ u.regs = s.regs ∧ u.mem = s.mem := by
  have bank : u.bank t = (s.entered t k (u.ll k).item).bank0 := by
    rw [State.bank, h.strand]
    rfl
  refine ⟨h.taken, h.items, h.running, h.holder, h.list, h.lls, ?_, ?_, ?_, ?_, ?_, ?_, h.strands, h.regs, h.mem⟩
  · rw [h.strand]
    rfl
  · rw [h.strand]
    rfl
  all_goals rw [bank]; rfl

/-- A free choice has no part in what a dispatch leaves. -/
theorem ItemRuns.of_fresh {s u : State} {l i t k n : Nat} {w : WorkItem} (h : ItemRuns { s with fresh := n } l i t k w u) : ItemRuns s l i t k w u :=
  ⟨h.taken, h.items, h.running, h.holder, h.list, h.lls, h.strand, h.strands, h.regs, h.mem⟩

/-- Settles O43: by the turn that each command takes, and the state that it leaves where it takes none. -/
theorem carriageTurns : Obligations.CarriageTurns := by
  intro s hl ho hc hsp
  refine ⟨?dispatch, fun p hp hh => ⟨fun h => ?_, fun w s1 hq h => ?_⟩, ?spill, ?held, ?listed⟩
  case dispatch =>
    intro c pr l ls i w t hc8 hp8 hs hu hpr hserved he hw hd ht hf hi runs
    have round {u : State} (sent : s.tryList c pr l = .sent u) : exec (.dispatch c) s = .next u := by
      rw [exec_dispatch hc8 hs hu, State.dispatchRound_sends hp8 hpr hserved sent]
    refine ⟨fun k x hk _ => ⟨_, round (State.tryList_held he hw hd ht hf hk), (State.sends_runs hl ho hc c pr l i k w hi).enters⟩, fun k s1 hk hp _ => ?_⟩
    have picked : s1 = { s with fresh := s.fresh + 1 } := by rw [← State.pickLl_snd s w.panel, hp]
    refine ⟨_, round (State.tryList_new he hw hd ht hf hk hp), ItemRuns.enters ?_⟩
    subst picked
    exact (State.sends_runs (s := { s with fresh := s.fresh + 1 }) hl ho hc c pr l i k w hi).of_fresh
  · rw [exec_holdQueueRetry hp, State.retryHold_stays hh h]
  · rw [exec_holdQueueRetry hp, State.retryHold_moves hh hq h]
  case spill =>
    intro l w rest hw a held asked
    have run := exec_spillReturn hw
    have room (hlen : (s.items l).length < s.listDepth l) (huse : s.storeUse (listPanel l) < s.storeSize (listPanel l)) (hheld : held = false) :
        (decide ((s.items l).length < s.listDepth l) && decide (s.storeUse (listPanel l) < s.storeSize (listPanel l)) && !held) = true := by
      simp [hlen, huse, hheld]
    refine ⟨fun hlen huse hheld => ⟨fun hpoi => ⟨asked.setItems l (s.items l ++ [{ w with ring := none }]), ?_, rfl, ?_, ?_, fun j hj => ⟨?_, ?_⟩⟩, fun hpoi => ?_⟩, fun h => ?_⟩
    · rw [run, if_pos (room hlen huse hheld), hpoi]
      rfl
    · exact (State.spilled_setSpilled hsp l l rest).trans (if_pos rfl)
    · exact (State.items_setItems (s := asked) hc l l _).trans (if_pos rfl)
    · exact (State.spilled_setSpilled hsp l j rest).trans (if_neg (Ne.symm hj))
    · exact (State.items_setItems (s := asked) hc l j _).trans (if_neg (Ne.symm hj))
    · rw [run, if_pos (room hlen huse hheld), hpoi]
      rfl
    · refine run.trans (congrArg _ (if_neg ?_))
      rcases h with h | h | h
      · simp [Nat.not_lt.2 h]
      · simp [Nat.not_lt.2 h]
      · have busy : s.dramHolds (listPanel l) 2 (s.spillAddr l (w.ring.getD 0)) 32 false = true := h
        simp [busy]
  case held =>
    intro p i hp hi k l
    have release (hu : s.up p = true) (ht : s.isTurn k = true) := exec_releaseTurn_releases hp hi hu ht
    have timeout := exec_bindTimeout_held hp hi (s := s)
    refine ⟨exec_releaseTurn_waits hp hi, fun hu ht _ => ⟨fun hf hk => ⟨_, release hu ht, ?_⟩, fun r hf hser => ⟨_, release hu ht, State.find_release_serial hl hf hser⟩,
      fun r hf hser => ⟨_, release hu ht, ?_⟩⟩, fun h => ?_,
      fun h _ => ⟨fun hq => ⟨_, timeout, State.find_timeoutHeld hl h hq⟩, fun t hr hst hops => ⟨_, timeout, State.timeoutHeld_running hl h hr hst hops⟩⟩⟩
    · rw [State.release_commits hf]
      exact State.find_commit hl k _ hk
    · rw [State.release_frogs hf hser]
      have marked := itemsKept_setMark s (s.ll k).item .pending
      have puts := State.frog_puts (s := s.setMark (s.ll k).item .pending) (by rwa [marked.lls]) (by rwa [marked.car]) k r
      rw [marked.ll_eq, marked.items_eq] at puts
      obtain ⟨found, queued⟩ := puts
      exact ⟨_, _, found, rfl, rfl, rfl, rfl, rfl, rfl, rfl, rfl, rfl, rfl, queued, rfl⟩
    · rw [timeout, State.timeoutHeld_waits h]
  case listed =>
    intro p d m w hp hd hm hi hcl hw
    refine ⟨fun h => ?_, fun h => ⟨_, exec_bindTimeout_listed hp hd hm, State.items_timeoutListed hcl hw h⟩⟩
    rw [exec_bindTimeout_listed hp hd hm, State.timeoutListed_eq hcl hw, h]
    rfl

end Sys2Proof.Machine
end

section
/-! PROOFS. A hook operation of any unit: what decode finds, the operation that is taken at once, and the one that is refused (R123, R173, R175). -/

namespace Sys2Proof.Machine

/-- What decode finds leaves nothing to complain of in the opcode `f`: unused fields are zero, MOD is in its range and the sources exist (R123). -/
structure HookDec.Fits (d : HookDec) (f : HFmt) : Prop where
  mod : d.mdBad = false
  hd : d.useHd = true ∨ f.hd = 0#4
  ha : d.useHa = true ∨ f.ha = 0#4
  hb : d.useHb = true ∨ f.hb = 0#4
  md : d.useMd = true ∨ f.md = 0#4
  srcs : ∀ r ∈ d.srcs, r < 16

/-- Decode finds nothing wrong with an opcode that fits, at a unit that is not fenced (R123, R176). -/
theorem HookDec.Fits.emu {d : HookDec} {f : HFmt} (h : d.Fits f) {s : State} {t : Nat}
    (fence : s.isFenced (panelOf t) 3 (courseOf t * 8 + d.hook) = false) : s.hookEmu t f d = none := by
  have wide : (d.srcs.any fun r => decide (15 < r)) = false := by
    simp only [List.any_eq_false, decide_eq_true_eq]
    exact fun r hr => Nat.not_lt.2 (Nat.le_of_lt_succ (h.srcs r hr))
  have unused {u : Bool} {x : BitVec 4} (h : u = true ∨ x = 0#4) : (!u && decide (x ≠ 0#4)) = false := by
    rcases h with h | h <;> simp [h]
  simp only [State.hookEmu, fence, h.mod, unused h.hd, unused h.ha, unused h.hb, unused h.md, wide, Bool.or_self, fieldErr, Bool.false_eq_true, if_false]

/-- What is offered to a unit does not wait at decode: HD has arrived, its queue has room, and neither a register that a refusal depends on nor
the lookups of the panel keep it (R173, R180). -/
theorem HookOffered.notKept {s : State} {t hook func : Nat} {hregs : List Nat} (h : HookOffered s t hook func hregs) {deps : List Nat} {lookup : Bool}
    (hdeps : (s.strand t).hookArrived deps = true) (hl : lookup = true → s.lookupsIn (panelOf t) < 4096) : s.keptBusy t hook deps lookup = false := by
  obtain ⟨-, -, -, -, -, -, room, -⟩ := h
  have few : (lookup && decide (4096 ≤ s.lookupsIn (panelOf t))) = false := by
    cases lookup with
    | false => rfl
    | true => simpa using hl rfl
  simp only [State.keptBusy, hdeps, few, Bool.not_true, Bool.or_false, decide_eq_false_iff_not]
  exact Nat.not_le.2 room

/-- The unit need not hold what it is offered once the pc has moved: its sources have arrived, and its own operations have executed (R173). -/
theorem HookOffered.notHeld {s : State} {t hook func : Nat} {hregs : List Nat} (ho : SMap.sorted s.strands = true) (h : HookOffered s t hook func hregs)
    {d : HookDec} (hk : d.hook = hook) (hcut : s.hookCut t hook d.func (s.hookItem t) = false) (hs : (s.strand t).hookArrived d.srcs = true) :
    (s.hookReady t).mustHold t d = false := by
  obtain ⟨⟨-, hb, -⟩, hr, -, -, older, -⟩ := h
  obtain ⟨-, moved, -⟩ := became_hookReady ho hb
  have arrived : ((s.strand t).setCur (s.bank t).next).hookArrived d.srcs = true := by
    simpa only [Strand.hookArrived, Strand.setCur_ops, Strand.setCur_inB1] using hs
  have done : ((s.strand t).ops.any fun o => !o.isReady && decide (o.hook = d.hook)) = false := by
    rw [hk]
    simpa [List.any_eq_false, List.all_eq_true, or_iff_not_imp_left] using older
  have cut : (s.hookReady t).hookCut t d.hook d.func ((s.hookReady t).hookItem t) = false := by
    rw [State.hookItem_hookReady ho hb hr, hk, ← hcut, State.hookItem, hr]
    rfl
  simp only [State.mustHold, cut, moved, arrived, Strand.setCur_ops, done, Bool.not_true, Bool.or_self]

/-- Nor does it wait for room or for HD. -/
theorem HookOffered.notWaiting {s : State} {t hook func : Nat} {hregs : List Nat} (h : HookOffered s t hook func hregs) {f : HFmt} {d : HookDec}
    (hh : d.useHd = true → (s.strand t).hookArrived [f.hd.toNat] = true) : s.hookWaits t f d = false := by
  obtain ⟨-, -, -, room, -⟩ := h
  have arrived : (d.useHd && !(s.strand t).hookArrived [f.hd.toNat]) = false := by
    cases hd : d.useHd with
    | false => rfl
    | true => rw [hh hd]; rfl
  simp only [State.hookWaits, arrived, Bool.or_false, decide_eq_false_iff_not]
  omega

section
variable {s : State} {t hook func : Nat} {f : HFmt} {d : HookDec} {hregs : List Nat} {lookup : Bool}
  (hk : d.hook = hook) (fits : d.Fits f) (hdeps : (s.strand t).hookArrived d.refDeps = true)
  (hh : d.useHd = true → (s.strand t).hookArrived [f.hd.toNat] = true) (hl : lookup = true → s.lookupsIn (panelOf t) < 4096)
include hk fits hdeps hh hl

/-- A unit takes an operation at once and executes it, as `State.hookIssue_runs` says; here HD need not be used, the operation may be a lookup,
and a refusal may depend on registers that have arrived (R173, R175, R180). -/
theorem State.hookIssue_taken (ho : SMap.sorted s.strands = true) (h : HookRuns s t hook func f hregs)
    (hcut : s.hookCut t hook d.func (s.hookItem t) = false) (hr : d.refuse = none) (hs : (s.strand t).hookArrived d.srcs = true) (body : State → State) :
    s.hookIssue t f d body lookup = (body (s.hookReady t)).stepDone t := by
  obtain ⟨offered, runs⟩ := h
  have held : ((s.setStrand t (s.strand t).unbusy).advance t).mustHold t d = false := offered.notHeld ho hk hcut hs
  have kept : s.keptBusy t d.hook d.refDeps lookup = false := by
    rw [hk]
    exact offered.notKept hdeps hl
  have waits := offered.notWaiting hh
  obtain ⟨⟨hm, hb, hc⟩, hrun, fence, -⟩ := offered
  have he : s.hookEmu t f d = none := fits.emu (by rw [hk]; exact fence)
  have run := State.issue_runs (d := { word := f.word d.hook d.func, g := f.g }) (body := fun s => if s.mustHold t d then s.holdOp t f d else body s)
    (Runs.setStrand_unbusy ho hb runs) rfl rfl rfl (fun _ => rfl) rfl
  rw [held, if_neg Bool.false_ne_true] at run
  have idle : (s.strand t).running.isSome = false := by rw [hrun, Option.isSome_none]
  simp only [State.hookIssue, idle, he, hm, hb, hc, waits, kept, hr, Option.isSome_none, Option.any_none, Bool.not_true,
    Bool.or_self, Bool.false_eq_true, if_false]
  exact run

/-- A unit refuses an operation at decode: it is counted, and traps (R123, R174, R175). -/
theorem State.hookIssue_refused (ho : SMap.sorted s.strands = true) (offered : HookOffered s t hook func hregs) {r : Nat} (hr : d.refuse = some r)
    (body : State → State) : s.hookIssue t f d body lookup =
      ((s.setStrand t (s.strand t).unbusy).count 5 (t / 104) (if r = 1 then 1 else 3)).trapHere t .emu 4 r (f.word hook d.func)
        (s.bank t).pc ((s.bank t).pc + 4#32) := by
  have kept : s.keptBusy t d.hook d.refDeps lookup = false := by
    rw [hk]
    exact offered.notKept hdeps hl
  have waits := offered.notWaiting hh
  obtain ⟨⟨hm, hb, hc⟩, hrun, fence, -⟩ := offered
  have he : s.hookEmu t f d = none := fits.emu (by rw [hk]; exact fence)
  have same : ((s.setStrand t (s.strand t).unbusy).count 5 (t / 104) (if r = 1 then 1 else 3)).strand t = s.strand t := by
    show (s.setStrand t (s.strand t).unbusy).strand t = _
    rw [State.strand_setStrand_self s t _ ho, Strand.unbusy_of_none hb]
  have may : ((s.setStrand t (s.strand t).unbusy).count 5 (t / 104) (if r = 1 then 1 else 3)).mayIssue t = true := by
    simp only [State.mayIssue, same] at hm ⊢
    exact hm
  have idle : (s.strand t).running.isSome = false := by rw [hrun, Option.isSome_none]
  simp only [State.hookIssue, idle, he, hm, hb, hc, waits, kept, hr, Option.isSome_none, Option.any_none, Bool.not_true,
    Bool.or_self, Bool.false_eq_true, if_false]
  show ((s.setStrand t (s.strand t).unbusy).count 5 (t / 104) (if r = 1 then 1 else 3)).issue t _ id = _
  simp only [State.issue, may, same, hb, hc, Option.any_none, Bool.not_true, Bool.or_self, Bool.false_eq_true, if_false, hk]
  rfl

end

/-- Opcode `f` of unit `hook`, as decode sees it in `d`, is taken at once by its unit, which executes it (R173). -/
structure HookTaken (s : State) (t hook : Nat) (f : HFmt) (d : HookDec) (lookup : Bool) : Prop where
  order : SMap.sorted s.strands = true
  runs : ∃ func hregs, HookRuns s t hook func f hregs
  unit : d.hook = hook
  fits : d.Fits f
  cut : s.hookCut t hook d.func (s.hookItem t) = false
  allowed : d.refuse = none
  deps : (s.strand t).hookArrived d.refDeps = true
  hd : d.useHd = true → (s.strand t).hookArrived [f.hd.toNat] = true
  srcs : (s.strand t).hookArrived d.srcs = true
  lookups : lookup = true → s.lookupsIn (panelOf t) < 4096

section
variable {s : State} {t hook : Nat} {f : HFmt} {d : HookDec} {lookup : Bool} (h : HookTaken s t hook f d lookup)
include h

theorem HookTaken.notBusy : (s.strand t).busy = none := by
  obtain ⟨_, _, ⟨⟨⟨-, hb, -⟩, -⟩, -⟩⟩ := h.runs
  exact hb

theorem HookTaken.notRunning : (s.strand t).running = none := by
  obtain ⟨_, _, ⟨⟨-, hr, -⟩, -⟩⟩ := h.runs
  exact hr

theorem HookTaken.issue (body : State → State) : s.hookIssue t f d body lookup = (body (s.hookReady t)).stepDone t := by
  obtain ⟨_, _, runs⟩ := h.runs
  exact State.hookIssue_taken h.unit h.fits h.deps h.hd h.lookups h.order runs h.cut h.allowed h.srcs body

/-- The body finds the sources, the item and the bank as they were. -/
theorem HookTaken.hval (r : Nat) : (s.hookReady t).hval t r = s.hval t r := State.hval_hookReady h.order h.notBusy h.notRunning r

theorem HookTaken.hbytesOf (r n : Nat) : (s.hookReady t).hbytesOf t r n = s.hbytesOf t r n := by
  simp only [State.hbytesOf, h.hval]

theorem HookTaken.item : (s.hookReady t).hookItem t = s.hookItem t := by
  rw [State.hookItem_hookReady h.order h.notBusy h.notRunning, State.hookItem, h.notRunning]
  rfl

/-- An operation that its body makes outstanding, with the running bank replaced by `y` and all but the strands by that of `m`. -/
theorem HookTaken.pushes {m z : State} {c : Instr} {body : State → State} {y : Bank} {o : HookOp}
    (hx : exec c s = .next (s.hookIssue t f d body lookup)) (hz : Became s z t ((s.strand t).setCur y)) (ho : SMap.sorted z.strands = true)
    (hi : y.hasItem = (s.bank t).hasItem ∧ y.item = (s.bank t).item) (hbody : body (s.hookReady t) = (m.withStrands z.strands).pushOp t o) :
    ∃ u : State, exec c s = .next (u.stepDone t) ∧ u = { m with strands := u.strands } ∧ u.strand t = (s.strand t).withOp t y o ∧
      ∀ j, j ≠ t → u.strand j = s.strand j := by
  obtain ⟨-, own, others⟩ := hz
  refine ⟨_, hx.trans (congrArg _ (h.issue body)), ?_, ?_, fun j hj => ?_⟩ <;> rw [hbody]
  · rfl
  · refine (State.strand_setStrand_self _ t _ ho).trans ?_
    have item : (m.withStrands z.strands).hookItem t = if (s.strand t).cur.hasItem then (s.strand t).cur.item else none := by
      have e : (m.withStrands z.strands).strand t = (s.strand t).setCur y := own
      obtain ⟨h1, h2⟩ := hi
      simp only [State.hookItem, State.bank, e, Strand.running_setCur, h.notRunning, Strand.cur_setCur, h1, h2]
    show Strand.pushed (z.strand t) t ((m.withStrands z.strands).hookItem t) o = _
    rw [own, item, Strand.pushed_setCur h.notBusy]
  · refine (State.strand_setStrand _ t j _ ho).trans ?_
    rw [if_neg (Ne.symm hj)]
    exact others j hj

theorem HookTaken.sorted_hookReady : SMap.sorted (s.hookReady t).strands = true := State.sorted_setBank _ _ _ (State.sorted_setStrand _ _ _ h.order)

/-- An operation whose body changes all but the strands to `m`. -/
theorem HookTaken.changes {m : State} {c : Instr} {body : State → State} {o : HookOp} (hx : exec c s = .next (s.hookIssue t f d body lookup))
    (hbody : body (s.hookReady t) = (m.withStrands (s.hookReady t).strands).pushOp t o) : OpChanges c s m t o :=
  h.pushes hx (became_hookReady h.order h.notBusy) h.sorted_hookReady ⟨rfl, rfl⟩ hbody

/-- An operation whose body changes nothing but the strand. -/
theorem HookTaken.becomes {c : Instr} {body : State → State} {o : HookOp} (hx : exec c s = .next (s.hookIssue t f d body lookup))
    (hbody : body (s.hookReady t) = (s.hookReady t).pushOp t o) : OpBecomes c s t (s.bank t).next o :=
  (h.changes (m := s) hx hbody).becomes

end

section
variable {s : State} {t hook func : Nat} {f : HFmt} {hregs : List Nat}

/-- HD has arrived for an operation that is offered with it. -/
theorem HookRuns.hdArrived (h : HookRuns s t hook func f (f.hd.toNat :: hregs)) : (s.strand t).hookArrived [f.hd.toNat] = true := (hookArrived_hd h).1

/-- An operation that no refusal of its unit meets. -/
theorem HookRuns.taken (h : HookRuns s t hook func f hregs) (ho : SMap.sorted s.strands = true) {d : HookDec}
    (hd : d.hook = hook ∧ d.refuse = none ∧ (s.strand t).hookArrived d.refDeps = true) (fits : d.Fits f) (hh : d.useHd = true → (s.strand t).hookArrived [f.hd.toNat] = true) (hs : (s.strand t).hookArrived d.srcs = true)
    (hcut : s.hookCut t hook d.func (s.hookItem t) = false) {lookup : Bool} (hl : lookup = true → s.lookupsIn (panelOf t) < 4096) :
    HookTaken s t hook f d lookup := by
  obtain ⟨unit, allowed, deps⟩ := hd
  exact ⟨ho, ⟨_, _, h⟩, unit, fits, hcut, allowed, deps, hh, hs, hl⟩

end

end Sys2Proof.Machine
end

section
/-! PROOFS. Hook 2: the checksum operations (R181). -/

namespace Sys2Proof.Machine

theorem regRange_eq (a : BitVec 4) (n : Nat) : regRange a n = (List.range (n + 1)).map fun j => a.toNat + j := by
  rfl

/-- The registers from HA on exist as far as h15. -/
theorem regRange_lt {a : BitVec 4} {n : Nat} (h : a.toNat + n ≤ 15) : ∀ r ∈ regRange a n, r < 16 := by
  intro r hr
  simp only [regRange, List.mem_map, List.mem_range] at hr
  obtain ⟨i, hi, rfl⟩ := hr
  omega

theorem regRange_append_lt {a b : BitVec 4} {n : Nat} (h : a.toNat + n ≤ 15) : ∀ r ∈ regRange a n ++ [b.toNat], r < 16 := by
  intro r hr
  rcases List.mem_append.1 hr with hr | hr
  · exact regRange_lt h r hr
  · rw [List.mem_singleton.1 hr]
    exact b.isLt

/-- A checksum operation over HD and HA is `sumOp` with the value of its row. -/
theorem exec_sumOps {p : (Nat → HFmt → Instr) × Nat × (Nat → List Byte → Nat)} (hp : p ∈ sumOps) (t : Nat) (f : HFmt) (s : State) :
    exec (p.1 t f) s = .next (s.sumOp t f p.2.1 fun v bs => p.2.2 v.toNat bs) := by
  have low (w : Nat) (v : HWord) : bits v.toNat 0 w = v.toNat % 2 ^ w := bits_zero_lo _ _
  simp only [sumOps, List.mem_cons, List.not_mem_nil, or_false] at hp
  obtain rfl | rfl | rfl | rfl | rfl := hp <;> simp only [← bits_zero_lo] <;> rfl

/-- None of them looks at the item's frame. -/
theorem sumOps_notCut {p : (Nat → HFmt → Instr) × Nat × (Nat → List Byte → Nat)} (hp : p ∈ sumOps) (s : State) (t : Nat) (it : Option Nat) :
    s.hookCut t 2 p.2.1 it = false := by
  simp only [sumOps, List.mem_cons, List.not_mem_nil, or_false] at hp
  obtain rfl | rfl | rfl | rfl | rfl := hp <;> rfl

/-- The body of CSUM_PKT (R181): the sum over the frame's bytes, with bit 16 for bytes that it does not have. -/
def State.csumPktVal (s : State) (t hd ha : Nat) : HWord :=
  let n := bits (hlane (s.hval t ha) 1).toNat 0 14
  let bs := ((s.itemFrame t).drop (bits (hlane (s.hval t ha) 0).toNat 0 14)).take n
  mkLanes (onesSum (bits (s.hval t hd).toNat 0 16) bs + if bs.length < n || (s.hookItem t).isNone then 65536 else 0) 0 0 0

theorem exec_csumPkt (s : State) (t : Nat) (f : HFmt) : exec (.csumPkt t f) s = .next (s.hookIssue t f { hook := 2, func := 5, srcs := [f.hd.toNat, f.ha.toNat] }
    fun s => s.hookDone t 2 5 f.hd [f.hd.toNat, f.ha.toNat] (s.csumPktVal t f.hd.toNat f.ha.toNat)) := rfl

/-- The frame of the item is what the item's lifeline holds. -/
theorem HookTaken.itemFrame {s : State} {t hook : Nat} {f : HFmt} {d : HookDec} {lookup : Bool} (h : HookTaken s t hook f d lookup) :
    (s.hookReady t).itemFrame t = s.itemFrame t := by
  unfold State.itemFrame
  rw [h.item]
  rfl

/-- Settles O26: every operation is taken at once, and its body computes its value from the sources as they were. -/
theorem hookSums : Obligations.HookSums := by
  intro s t f ho h b hd ha arrived
  have two := two_lt_sixteen f.hd f.ha
  have hh := h.hdArrived
  refine ⟨fun p hp hb hs => ?_, fun hb hm hs hcut => ?_, fun hm hr hs => ?_⟩
  · have taken := h.taken (d := { hook := 2, func := p.2.1, useMd := true, srcs := [hd, ha] }) (lookup := false) ho ⟨rfl, rfl, rfl⟩
      ⟨rfl, .inl rfl, .inl rfl, .inr hb, .inl rfl, two⟩ (fun _ => hh) hs (sumOps_notCut hp s t _) nofun
    refine taken.becomes (exec_sumOps hp t f s) ?_
    simp only [State.hookDone, taken.hval, taken.hbytesOf]
    rfl
  · have taken := h.taken (d := { hook := 2, func := 5, srcs := [hd, ha] }) (lookup := false) ho ⟨rfl, rfl, rfl⟩
      ⟨rfl, .inl rfl, .inl rfl, .inr hb, .inr hm, two⟩ (fun _ => hh) hs hcut nofun
    refine taken.becomes (exec_csumPkt s t f) ?_
    simp only [State.hookDone, State.csumPktVal, taken.hval, taken.itemFrame, taken.item, bits_zero_lo, Bool.or_eq_true, decide_eq_true_eq, Option.isNone_iff_eq_none]
    rfl
  · have taken := h.taken (d := { hook := 2, func := 6, useHb := true, useMd := true, srcs := regRange f.ha f.md.toNat ++ [f.hb.toNat], mdBad := decide (2 < f.md.toNat) })
      (lookup := false) ho ⟨rfl, rfl, rfl⟩ ⟨decide_eq_false (by omega), .inl rfl, .inl rfl, .inl rfl, .inl rfl, regRange_append_lt hr⟩ (fun _ => hh) hs rfl nofun
    refine taken.becomes rfl ?_
    simp only [State.hookDone, taken.hval, taken.hbytesOf]
    rfl

end Sys2Proof.Machine
end

section
/-! PROOFS. Hook 1: the lookups in the panel's tables and in the stash (R180). -/

namespace Sys2Proof.Machine

section
variable {s : State} {t func : Nat} {f : HFmt} {ok : Nat → Bool} {srcs : List Nat} {key : Nat → List Byte}

theorem State.emLook_noTable (h : s.lookTable t f ok = none) : s.emLook t func f ok srcs key = s.hookDone t 1 func f.hd srcs (hres 0x0F) := by
  rw [State.emLook, h]

variable {n : Nat} (h : s.lookTable t f ok = some n)
include h

theorem State.emLook_failed (hn : s.tblOk (panelOf t) n = false) : s.emLook t func f ok srcs key = s.hookDone t 1 func f.hd srcs (hres 0x0E) := by
  rw [State.emLook, h]
  exact if_pos (by rw [hn]; rfl)

variable (hn : s.tblOk (panelOf t) n = true)
include hn

theorem State.emLook_miss (hm : s.tblFind (panelOf t) n (s.lookGen t) (key (s.tblKind n)) = none) : s.emLook t func f ok srcs key =
    s.pushOp t { hook := 1, func := func, hd := some f.hd.toNat, srcs := srcs, val := hres 0x01, ridx := mkHandle n false 0 0 } := by
  simp only [State.emLook, h, hn, hm, Bool.not_true, Bool.false_eq_true, if_false]

theorem State.emLook_hit {i : Nat} {e : TblEntry} (hm : s.tblFind (panelOf t) n (s.lookGen t) (key (s.tblKind n)) = some (i, e)) :
    s.emLook t func f ok srcs key = s.pushOp t { hook := 1, func := func, hd := some f.hd.toNat, srcs := srcs, val := hitResult i e.data, key := key (s.tblKind n), ridx := i, off := 1 } := by
  simp only [State.emLook, h, hn, hm, Bool.not_true, Bool.false_eq_true, if_false]

end

/-- The table that HB names, where there is one of a kind asked for. -/
theorem State.lookTable_some {s : State} {t : Nat} {f : HFmt} {ok : Nat → Bool} {n : Nat} (hn : (hlane (s.hval t f.hb.toNat) 0).toNat = n)
    (h : n < 64) (hk : ok (s.tblKind n) = true) : s.lookTable t f ok = some n := by
  simp only [State.lookTable, hn, h, hk, decide_true, Bool.and_self, if_true]

theorem State.lookTable_none {s : State} {t : Nat} {f : HFmt} {ok : Nat → Bool} {n : Nat} (hn : (hlane (s.hval t f.hb.toNat) 0).toNat = n)
    (h : 64 ≤ n ∨ ok (s.tblKind n) = false) : s.lookTable t f ok = none := by
  have no : (decide (n < 64) && ok (s.tblKind n)) = false := by
    rcases h with h | h
    · rw [decide_eq_false (Nat.not_lt.2 h), Bool.false_and]
    · rw [h, Bool.and_false]
  simp only [State.lookTable, hn, no, Bool.false_eq_true, if_false]

/-- Is it an LPM kind (R189)? -/
def lpmKind (k : Nat) : Bool := k = 4 || k = 5

theorem lpmKind_eq {k : Nat} : lpmKind k = true ↔ k = 4 ∨ k = 5 := by
  simp only [lpmKind, Bool.or_eq_true, decide_eq_true_eq]

/-- The L2 key of an address and the VLAN that a word holds. -/
theorem l2Key_vlan (mac : List Byte) (v : Nat) : l2Key mac (bits v 16 12) = sliceZ mac 0 6 ++ leBytes 2 (bits v 16 12) := by
  rw [l2Key, show bits v 16 12 % 4096 = bits v 16 12 from Nat.mod_mod _ _]

/-- The body of LPM_LOOKUP. -/
def State.lpmLook (s : State) (t : Nat) (f : HFmt) : State :=
  match s.lookTable t f lpmKind with
  | none => s.hookDone t 1 1 f.hd [f.ha.toNat, f.hb.toNat] (hres 0x0F)
  | some n =>
    if !s.tblOk (panelOf t) n then s.hookDone t 1 1 f.hd [f.ha.toNat, f.hb.toNat] (hres 0x0E)
    else match s.lpmFind n (s.lookGen t) (s.lpmAddr t f (s.tblKind n)) with
      | none => s.hookDone t 1 1 f.hd [f.ha.toNat, f.hb.toNat] (hres 0x01)
      | some q => s.hookDone t 1 1 f.hd [f.ha.toNat, f.hb.toNat] (hitResult q.len q.data)

theorem exec_lpmLookup (s : State) (t : Nat) (f : HFmt) : exec (.lpmLookup t f) s =
    .next (s.hookIssue t f { hook := 1, func := 1, useHb := true, srcs := [f.ha.toNat, f.hb.toNat] } (fun s => s.lpmLook t f) true) := rfl

section
variable {s : State} {t : Nat} {f : HFmt}

theorem State.lpmLook_noTable (h : s.lookTable t f lpmKind = none) : s.lpmLook t f = s.hookDone t 1 1 f.hd [f.ha.toNat, f.hb.toNat] (hres 0x0F) := by
  rw [State.lpmLook, h]

variable {n : Nat} (h : s.lookTable t f lpmKind = some n) (hn : s.tblOk (panelOf t) n = true)
include h hn

theorem State.lpmLook_miss (hm : s.lpmFind n (s.lookGen t) (s.lpmAddr t f (s.tblKind n)) = none) :
    s.lpmLook t f = s.hookDone t 1 1 f.hd [f.ha.toNat, f.hb.toNat] (hres 0x01) := by
  simp only [State.lpmLook, h, hn, hm, Bool.not_true, Bool.false_eq_true, if_false]

theorem State.lpmLook_hit {q : Prefix} (hm : s.lpmFind n (s.lookGen t) (s.lpmAddr t f (s.tblKind n)) = some q) :
    s.lpmLook t f = s.hookDone t 1 1 f.hd [f.ha.toNat, f.hb.toNat] (hitResult q.len q.data) := by
  simp only [State.lpmLook, h, hn, hm, Bool.not_true, Bool.false_eq_true, if_false]

end

/-- The panel whose stash FLOW_FIND looks in: that of its item, or of the strand (R180). -/
def State.stashHome (s : State) (t : Nat) : Nat := match s.hookItem t with | some k => k / 4096 | none => panelOf t

/-- What it finds there: nothing while the store is disabled. -/
def State.flowFound (s : State) (t : Nat) (key : List Byte) : Option (EntryLoc × IdxEntry) × State :=
  if s.flwEn (s.stashHome t) then s.flowLookup (s.stashHome t) key else (none, s)

/-- What FLOW_FIND answers. -/
def flowFindVal : Option (EntryLoc × IdxEntry) → HWord
  | none => hres 0x01
  | some (l, e) => hres 0x00 (l.ridx e)

/-- The body of FLOW_FIND. -/
def State.flowFindBody (s : State) (t : Nat) (f : HFmt) : State :=
  let r := s.flowFound t (s.hbytesOf t f.ha.toNat 48)
  r.2.hookDone t 1 3 f.hd (regRange f.ha 2) (flowFindVal r.1)

theorem exec_flowFind (s : State) (t : Nat) (f : HFmt) : exec (.flowFind t f) s =
    .next (s.hookIssue t f { hook := 1, func := 3, srcs := regRange f.ha 2 } (fun s => s.flowFindBody t f) true) := by
  have body : (fun s : State => (match s.flowFound t (s.hbytesOf t f.ha.toNat 48) with
      | (r, s) => match r with
        | none => s.hookDone t 1 3 f.hd (regRange f.ha 2) (hres 0x01)
        | some (l, e) => s.hookDone t 1 3 f.hd (regRange f.ha 2) (hres 0x00 (l.ridx e)))) = fun s => s.flowFindBody t f := by
    funext s
    unfold State.flowFindBody
    generalize s.flowFound t (s.hbytesOf t f.ha.toNat 48) = r
    obtain ⟨_ | _, _⟩ := r <;> rfl
  exact congrArg (fun b => Host.Outcome.next (s.hookIssue t f { hook := 1, func := 3, srcs := regRange f.ha 2 } b true)) body

-- The stash does not see the strands.

section
variable (s : State) (x : SMap Strand) (p : Nat) (key : List Byte)

theorem State.devRead_withStrands (a n : Nat) : (s.withStrands x).devRead p a n = s.devRead p a n := by
  have same (i : Nat) : (s.withStrands x).readKey p i = s.readKey p i := State.readKey_congr rfl rfl rfl rfl p i
  unfold State.devRead
  simp only [same]
  rfl
theorem State.recAddr_withStrands (i : Nat) : (s.withStrands x).recAddr p i = s.recAddr p i := rfl
theorem State.flowHash_withStrands : (s.withStrands x).flowHash p key = s.flowHash p key := rfl
theorem State.flowSig_withStrands : (s.withStrands x).flowSig p key = s.flowSig p key := rfl
theorem State.log2m_withStrands : (s.withStrands x).log2m p = s.log2m p := rfl
theorem State.adoptOk_withStrands (l : EntryLoc) (e : IdxEntry) : (s.withStrands x).adoptOk p l e = s.adoptOk p l e := rfl

theorem State.searchPlaces_withStrands : (s.withStrands x).searchPlaces p key = s.searchPlaces p key := by
  simp only [State.searchPlaces, State.flowBucket_withStrands, State.flw_withStrands, State.flowHash_withStrands, State.log2m_withStrands]
  rfl
theorem State.entryAt_withStrands (l : EntryLoc) : (s.withStrands x).entryAt p l = s.entryAt p l := by
  cases l with
  | way b w => rw [State.entryAt, State.devRead_withStrands, State.wayAddr_withStrands, State.entryAt]
  | ovf i => rfl
  | mir b w => rw [State.entryAt, State.devRead_withStrands, State.mirWayAddr_withStrands, State.entryAt]
theorem State.recKey_withStrands (i : Nat) : (s.withStrands x).recKey p i = s.recKey p i := by
  rw [State.recKey, State.devRead_withStrands, State.recAddr_withStrands, State.recKey]
theorem State.flowSearch_withStrands :
    (s.withStrands x).flowSearch p key = s.flowSearch p key := by
  simp only [State.flowSearch, State.searchPlaces_withStrands, State.entryAt_withStrands, State.recKey_withStrands, State.flowSig_withStrands, State.adoptOk_withStrands]
  rfl
end
theorem State.flowLookup_withStrands (s : State) (x : SMap Strand) (p : Nat) (key : List Byte) :
    (s.withStrands x).flowLookup p key = ((s.flowLookup p key).1, (s.flowLookup p key).2.withStrands x) := by
  rw [State.flowLookup, State.flowSearch_withStrands, State.flowLookup]
  rfl
theorem State.hookReady_withStrands (s : State) (t : Nat) : s.hookReady t = s.withStrands (s.hookReady t).strands := rfl

/-- What FLOW_FIND finds depends on the strands by its item alone. -/
theorem State.flowFound_withStrands (s : State) (x : SMap Strand) (t : Nat) (key : List Byte) (item : (s.withStrands x).hookItem t = s.hookItem t) :
    (s.withStrands x).flowFound t key = ((s.flowFound t key).1, (s.flowFound t key).2.withStrands x) := by
  have en (p : Nat) : (s.withStrands x).flwEn p = s.flwEn p := rfl
  have home : (s.withStrands x).stashHome t = s.stashHome t := by rw [State.stashHome, item, State.stashHome]
  simp only [State.flowFound, home, en, State.flowLookup_withStrands]
  split <;> rfl

/-- A lookup that is taken at once runs under the generation of its item, or else of the chart, and in the table that HB names. -/
theorem HookTaken.lookGen {s : State} {t hook : Nat} {f : HFmt} {d : HookDec} {lookup : Bool} (h : HookTaken s t hook f d lookup) :
    (s.hookReady t).lookGen t = match s.hookItem t with | some k => (s.ll k).item.vgen | none => s.chr.curGen := by
  unfold State.lookGen
  rw [h.item]
  rfl

theorem HookTaken.tableNo {s : State} {t hook : Nat} {f : HFmt} {d : HookDec} {lookup : Bool} (h : HookTaken s t hook f d lookup) :
    (hlane ((s.hookReady t).hval t f.hb.toNat) 0).toNat = (hlane (s.hval t f.hb.toNat) 0).toNat := by rw [h.hval]

theorem HookTaken.lpmAddr {s : State} {t hook : Nat} {f : HFmt} {d : HookDec} {lookup : Bool} (h : HookTaken s t hook f d lookup) (k : Nat) :
    (s.hookReady t).lpmAddr t f k = s.lpmAddr t f k := by
  rw [State.lpmAddr, h.hbytesOf, State.lpmAddr]

/-- Settles O25: every lookup is taken at once; what it finds is what the tables of its panel hold. -/
theorem hookLookups : Obligations.HookLookups := by
  intro s t f ho h few n p gen arrived em ans hit miss
  have hh := h.hdArrived
  have hl : true = true → s.lookupsIn (panelOf t) < 4096 := fun _ => few
  have two := two_lt_sixteen f.ha f.hb
  refine ⟨fun hm hr hs => ?_, fun hm hs => ?_, fun hb hm hr hs hcut => ?_⟩
  · have taken := h.taken (d := { hook := 1, func := 0, useHb := true, useMd := true, srcs := em f.hb.toNat, mdBad := decide (2 < f.md.toNat) }) ho
      ⟨rfl, rfl, rfl⟩ ⟨decide_eq_false (by omega), .inl rfl, .inl rfl, .inl rfl, .inl rfl, regRange_append_lt hr⟩ (fun _ => hh) hs rfl hl
    have found (hn : n < 64) (hk : isEm (s.tblKind n) = true) := State.lookTable_some (ok := isEm) (s := s.hookReady t) taken.tableNo hn hk
    intro key
    refine ⟨fun no => ?_, fun hn hk bad => ?_, fun hn hk good => ⟨fun no => ?_, fun i e yes => ?_⟩⟩
    · exact taken.becomes rfl (State.emLook_noTable (State.lookTable_none taken.tableNo no))
    · exact taken.becomes rfl (State.emLook_failed (found hn hk) bad)
    · exact taken.becomes rfl (State.emLook_miss (found hn hk) good (by rw [taken.lookGen, taken.hbytesOf]; exact no))
    · refine taken.becomes rfl ((State.emLook_hit (found hn hk) good (by rw [taken.lookGen, taken.hbytesOf]; exact yes)).trans ?_)
      rw [taken.hbytesOf]
      rfl
  · have fits (d : HookDec) (hd : d.mdBad = false ∧ d.useHd = true ∧ d.useHa = true ∧ d.useHb = true ∧ d.srcs = [f.ha.toNat, f.hb.toNat]) : d.Fits f := by
      obtain ⟨e1, e2, e3, e4, e5⟩ := hd
      exact ⟨e1, .inl e2, .inl e3, .inl e4, .inr hm, by rw [e5]; exact two⟩
    have l2 := h.taken (d := { hook := 1, func := 2, useHb := true, srcs := [f.ha.toNat, f.hb.toNat] }) ho ⟨rfl, rfl, rfl⟩ (fits _ ⟨rfl, rfl, rfl, rfl, rfl⟩) (fun _ => hh) hs rfl hl
    have lpm := h.taken (d := { hook := 1, func := 1, useHb := true, srcs := [f.ha.toNat, f.hb.toNat] }) ho ⟨rfl, rfl, rfl⟩ (fits _ ⟨rfl, rfl, rfl, rfl, rfl⟩) (fun _ => hh) hs rfl hl
    have lpmTable (hn : n < 64) (hk : s.tblKind n = 4 ∨ s.tblKind n = 5) : (s.hookReady t).lookTable t f lpmKind = some n :=
      State.lookTable_some lpm.tableNo hn (lpmKind_eq.2 hk)
    refine ⟨fun no => ?_, fun no => ?_, fun hn good => ⟨fun hk => ⟨fun no => ?_, fun i e yes => ?_⟩, fun hk => ⟨fun no => ?_, fun q yes => ?_⟩⟩⟩
    · exact l2.becomes rfl (State.emLook_noTable (State.lookTable_none l2.tableNo (no.imp_right decide_eq_false)))
    · refine lpm.becomes (exec_lpmLookup s t f) ?_
      exact State.lpmLook_noTable (State.lookTable_none lpm.tableNo (no.imp_right fun other => Bool.eq_false_iff.2 fun is => (lpmKind_eq.1 is).elim other.1 other.2))
    · exact l2.becomes rfl (State.emLook_miss (State.lookTable_some l2.tableNo hn (decide_eq_true hk)) good (by rw [l2.lookGen, l2.hbytesOf, l2.hval, l2Key_vlan]; exact no))
    · refine l2.becomes rfl ((State.emLook_hit (State.lookTable_some l2.tableNo hn (decide_eq_true hk)) good (by rw [l2.lookGen, l2.hbytesOf, l2.hval, l2Key_vlan]; exact yes)).trans ?_)
      rw [l2.hbytesOf, l2.hval, l2Key_vlan]
      rfl
    · refine lpm.becomes (exec_lpmLookup s t f) ((State.lpmLook_miss (lpmTable hn hk) good ?_).trans rfl)
      rw [lpm.lookGen, lpm.lpmAddr]
      exact no
    · refine lpm.becomes (exec_lpmLookup s t f) ((State.lpmLook_hit (lpmTable hn hk) good (q := q) ?_).trans rfl)
      rw [lpm.lookGen, lpm.lpmAddr]
      exact yes
  · have taken := h.taken (d := { hook := 1, func := 3, srcs := regRange f.ha 2 }) ho ⟨rfl, rfl, rfl⟩
      ⟨rfl, .inl rfl, .inl rfl, .inr hb, .inr hm, regRange_lt (by omega)⟩ (fun _ => hh) hs hcut hl
    intro i r o
    have same : (s.hookReady t).flowFindBody t f = ((s.flowFound t (s.hbytesOf t f.ha.toNat 48)).2.withStrands (s.hookReady t).strands).hookDone t 1 3 f.hd
        (regRange f.ha 2) (flowFindVal (s.flowFound t (s.hbytesOf t f.ha.toNat 48)).1) := by
      have found := State.flowFound_withStrands s (s.hookReady t).strands t (s.hbytesOf t f.ha.toNat 48) taken.item
      rw [← State.hookReady_withStrands] at found
      simp only [State.flowFindBody, taken.hbytesOf, found]
    have finds {m : State} {x : Option (EntryLoc × IdxEntry)} (e : s.flowFound t (s.hbytesOf t f.ha.toNat 48) = (x, m)) :
        OpChanges (.flowFind t f) s m t (o (flowFindVal x)) := by
      rw [e] at same
      exact taken.changes (exec_flowFind s t f) same
    have off (en : s.flwEn i = false) : s.flowFound t (s.hbytesOf t f.ha.toNat 48) = (none, s) := if_neg (Bool.eq_false_iff.1 en)
    have on (en : s.flwEn i = true) {x : Option (EntryLoc × IdxEntry)} (hx : r.1 = x) : s.flowFound t (s.hbytesOf t f.ha.toNat 48) = (x, r.2) :=
      (if_pos en).trans (Prod.ext hx rfl)
    exact ⟨fun en => (finds (off en)).becomes, fun en no => finds (on en no), fun l e en yes => finds (on en yes)⟩

end Sys2Proof.Machine
end

section
/-! PROOFS. Hook 0: the crypto context and its operations (R175, R178). -/

namespace Sys2Proof.Machine

/-- Between an operation of hook 0 and the next the unit holds none, so the context that a refusal is judged by is the running bank's (R175). -/
theorem HookOffered.cctxSeen {s : State} {t func : Nat} {hregs : List Nat} (h : HookOffered s t 0 func hregs) : s.cctxSeen t = (s.bank t).crypto := by
  obtain ⟨-, -, -, -, done, -⟩ := h
  have none : ((s.strand t).ops.filter fun o => decide (o.hook = 0) && decide (o.wait = .held) && decide (o.bank = b2n (s.strand t).inB1)) = [] := by
    rw [List.filter_eq_nil_iff]
    intro o ho
    have ready := List.all_eq_true.1 done o ho
    simp only [HookOp.isReady, Bool.or_eq_true, decide_eq_true_eq] at ready
    simp only [Bool.and_eq_true, decide_eq_true_eq]
    rintro ⟨⟨h0, held⟩, -⟩
    rcases ready with ready | other
    · rw [ready] at held
      cases held
    · exact absurd h0 other
  simp only [State.cctxSeen, none, List.foldl_nil]
  rfl

/-- A unit that executes nothing reads the key itself (R178). -/
theorem State.decKey_idle {s : State} {t : Nat} (h : (s.strand t).running = none) (key : Option (List Byte)) : s.decKey t key = key := by
  rw [State.decKey, h]

theorem hookArrived_append {x : Strand} {l l' : List Nat} : x.hookArrived (l ++ l') = true ↔ x.hookArrived l = true ∧ x.hookArrived l' = true := by
  simp only [Strand.hookArrived, List.all_append, Bool.and_eq_true]

/-- The running bank with its context written, once the pc has moved. -/
theorem HookTaken.became_setCctx {s : State} {t hook : Nat} {f : HFmt} {d : HookDec} {lookup : Bool} (h : HookTaken s t hook f d lookup) (c : CryptoCtx) :
    Became s ((s.hookReady t).setCctx t c) t ((s.strand t).setCur ((s.bank t).next.withCtx c)) := by
  have moved := became_hookReady h.order h.notBusy
  have written := became_setBank (s.hookReady t) t (((s.hookReady t).bank t).withCtx c) h.sorted_hookReady
  have bank : (s.hookReady t).bank t = (s.bank t).next := by
    rw [State.bank, moved.2.1, Strand.cur_setCur]
  rw [moved.2.1, Strand.setCur_setCur, bank] at written
  have e : (s.hookReady t).setCctx t c = (s.hookReady t).setBank t ((s.bank t).next.withCtx c) := by
    rw [State.setCctx, bank]
    rfl
  rw [e]
  exact moved.trans written

/-- An operation whose body writes the context. -/
theorem HookTaken.becomesCtx {s : State} {t hook : Nat} {f : HFmt} {d : HookDec} {lookup : Bool} (h : HookTaken s t hook f d lookup) {c : Instr}
    {body : State → State} {ctx : CryptoCtx} {o : HookOp} (hx : exec c s = .next (s.hookIssue t f d body lookup))
    (hbody : body (s.hookReady t) = ((s.hookReady t).setCctx t ctx).pushOp t o) : OpBecomes c s t ((s.bank t).next.withCtx ctx) o := by
  obtain ⟨u, hu, became⟩ := h.pushes (m := s) hx (h.became_setCctx ctx) (State.sorted_setBank _ _ _ h.sorted_hookReady) ⟨rfl, rfl⟩ hbody
  exact ⟨u, hu, became⟩

theorem ctxRefuse_none {ok : Bool} (h : ok = true) : ctxRefuse ok = none := by rw [h]; rfl

theorem ctxRefuse_some {ok : Bool} (h : ok = false) : ctxRefuse ok = some 3 := by rw [h]; rfl

theorem HookOffered.arrived {s : State} {t hook func : Nat} {hregs : List Nat} (h : HookOffered s t hook func hregs) : (s.strand t).hookArrived hregs = true := by
  obtain ⟨-, -, -, -, -, arrived, -⟩ := h
  exact arrived

theorem HookOffered.notRunning {s : State} {t hook func : Nat} {hregs : List Nat} (h : HookOffered s t hook func hregs) : (s.strand t).running = none := h.2.1

theorem hookArrived_cons {x : Strand} {r : Nat} {l : List Nat} : x.hookArrived (r :: l) = true ↔ x.hookArrived [r] = true ∧ x.hookArrived l = true :=
  hookArrived_append (l := [r])

section
variable {s : State} {t func : Nat} {f : HFmt} {hregs : List Nat} (ho : SMap.sorted s.strands = true) (h : HookRuns s t 0 func f hregs)
include ho h

theorem HookRuns.hbytesOf (r n : Nat) : (s.hookReady t).hbytesOf t r n = s.hbytesOf t r n := by
  simp only [State.hbytesOf, State.hval_hookReady ho h.1.1.2.1 h.1.2.1]

variable {c : Instr} {d : HookDec} {body : State → State} {o : HookOp} (hx : exec c s = .next (s.hookIssue t f d body))
  (hd : d.hook = 0 ∧ d.refuse = none ∧ (s.strand t).hookArrived d.refDeps = true) (fits : d.Fits f)
  (hh : d.useHd = true → (s.strand t).hookArrived [f.hd.toNat] = true) (hs : (s.strand t).hookArrived d.srcs = true)
include hx hd fits hh hs

/-- An operation of hook 0 that its unit takes, and whose body leaves the context as it is. -/
theorem HookRuns.crypto (hbody : body (s.hookReady t) = (s.hookReady t).pushOp t o) : OpBecomes c s t (s.bank t).next o :=
  (h.taken ho hd fits hh hs rfl Bool.noConfusion).becomes hx hbody

/-- One whose body writes the context. -/
theorem HookRuns.cryptoCtx {ctx : CryptoCtx} (hbody : body (s.hookReady t) = ((s.hookReady t).setCctx t ctx).pushOp t o) :
    OpBecomes c s t ((s.bank t).next.withCtx ctx) o :=
  (h.taken ho hd fits hh hs rfl Bool.noConfusion).becomesCtx hx hbody

end

/-- An operation of hook 0 that its unit refuses (R175). -/
theorem HookOffered.cryptoRefused {s : State} {t func : Nat} {f : HFmt} {hregs : List Nat} (h : HookOffered s t 0 func hregs) (ho : SMap.sorted s.strands = true)
    {c : Instr} {d : HookDec} {body : State → State} {r n : Nat} (hx : exec c s = .next (s.hookIssue t f d body)) (hd : d.hook = 0 ∧ d.func = n ∧ d.refuse = some r) (fits : d.Fits f)
    (hdeps : (s.strand t).hookArrived d.refDeps = true) (hh : d.useHd = true → (s.strand t).hookArrived [f.hd.toNat] = true) :
    HookRefused c s t f 0 n r := by
  obtain ⟨unit, rfl, refused⟩ := hd
  exact hx.trans (congrArg _ (State.hookIssue_refused unit fits hdeps hh Bool.noConfusion ho h refused body))

-- CTX_INIT, and the operations on one block (R178).

/-- What decode finds in CTX_INIT: the modes to 3 have a key. -/
def initDec (s : State) (t : Nat) (f : HFmt) : HookDec :=
  let key := s.decKey t (s.keyOf t (s.slotIn t f.ha) (if f.md.toNat % 2 = 0 then 16 else 32))
  let keyed := decide (f.md.toNat ≤ 3)
  { hook := 0, func := 0x00, key := key.getD [], useHd := false, useHb := true, useMd := true, srcs := if keyed then [f.ha.toNat, f.hb.toNat] else [],
    mdBad := decide (6 < f.md.toNat), refuse := if keyed && key.isNone then some 1 else none, refDeps := if keyed then [f.ha.toNat] else [] }

/-- The context that it makes under a key (R178). -/
def State.initCtx (s : State) (t : Nat) (f : HFmt) (key : List Byte) : CryptoCtx :=
  if f.md.toNat ≤ 1 then { mode := .gcm, key := key, iv := s.hbytesOf t f.hb.toNat 12 }
  else if f.md.toNat ≤ 3 then { mode := .cmac, key := key }
  else { mode := initMode f.md.toNat }

theorem exec_ctxInit (s : State) (t : Nat) (f : HFmt) : exec (.ctxInit t f) s = .next (s.hookIssue t f (initDec s t f) fun u =>
    (u.setCctx t (u.initCtx t f ((s.decKey t (s.keyOf t (s.slotIn t f.ha) (if f.md.toNat % 2 = 0 then 16 else 32))).getD []))).cryptoDone t 0 []) := rfl

theorem initDec_allow {s : State} {t : Nat} {f : HFmt} (hr : (s.strand t).running = none) {k : List Byte}
    (hk : s.keyOf t (s.slotIn t f.ha) (if f.md.toNat % 2 = 0 then 16 else 32) = some k) : (initDec s t f).refuse = none := by
  simp only [initDec, State.decKey_idle hr, hk, Option.isNone_some, Bool.and_false, Bool.false_eq_true, if_false]

section
variable {s : State} {t : Nat} {f : HFmt} (keyed : decide (f.md.toNat ≤ 3) = true)
include keyed

theorem initDec_srcs : (initDec s t f).srcs = [f.ha.toNat, f.hb.toNat] := if_pos keyed

theorem initDec_deps : (initDec s t f).refDeps = [f.ha.toNat] := if_pos keyed

theorem initDec_refuse (hr : (s.strand t).running = none) (hk : s.keyOf t (s.slotIn t f.ha) (if f.md.toNat % 2 = 0 then 16 else 32) = none) :
    (initDec s t f).refuse = some 1 := by
  simp only [initDec, State.decKey_idle hr, hk, keyed, Option.isNone_none, Bool.and_self, if_true]

end

section
variable {s : State} {t : Nat} {f : HFmt} (ho : SMap.sorted s.strands = true)
include ho

theorem HookRuns.ctxInit_keyed (h : HookRuns s t 0 0 f [f.ha.toNat, f.hb.toNat]) (hd : f.hd = 0#4) (hm : f.md.toNat ≤ 3) {k : List Byte}
    (hk : s.keyOf t (s.slotIn t f.ha) (if f.md.toNat % 2 = 0 then 16 else 32) = some k) :
    OpBecomes (.ctxInit t f) s t ((s.bank t).next.withCtx (if f.md.toNat ≤ 1 then { mode := .gcm, key := k, iv := s.hbytesOf t f.hb.toNat 12 } else { mode := .cmac, key := k })) { hook := 0 } := by
  have keyed : decide (f.md.toNat ≤ 3) = true := decide_eq_true hm
  have srcs : (initDec s t f).srcs = [f.ha.toNat, f.hb.toNat] := initDec_srcs keyed
  have deps : (s.strand t).hookArrived (initDec s t f).refDeps = true := by rw [initDec_deps keyed]; exact (hookArrived_cons.1 h.1.arrived).1
  have fits : (initDec s t f).Fits f := ⟨decide_eq_false (by omega), .inr hd, .inl rfl, .inl rfl, .inl rfl, by rw [srcs]; exact two_lt_sixteen _ _⟩
  refine h.cryptoCtx ho (exec_ctxInit s t f) ⟨rfl, initDec_allow h.1.notRunning hk, deps⟩ fits Bool.noConfusion (by rw [srcs]; exact h.1.arrived) ?_
  simp only [State.initCtx, h.hbytesOf ho, State.decKey_idle h.1.notRunning, hk, Option.getD_some, hm, if_true]
  rfl

/-- CTX_INIT without the key that its mode asks for is refused (R175). -/
theorem HookOffered.ctxInit_refused (h : HookOffered s t 0 0 [f.ha.toNat]) (hd : f.hd = 0#4) (hm : f.md.toNat ≤ 3)
    (hk : s.keyOf t (s.slotIn t f.ha) (if f.md.toNat % 2 = 0 then 16 else 32) = none) : HookRefused (.ctxInit t f) s t f 0 0 1 := by
  have keyed : decide (f.md.toNat ≤ 3) = true := decide_eq_true hm
  have srcs : (initDec s t f).srcs = [f.ha.toNat, f.hb.toNat] := initDec_srcs keyed
  have deps : (initDec s t f).refDeps = [f.ha.toNat] := initDec_deps keyed
  have fits : (initDec s t f).Fits f := ⟨decide_eq_false (by omega), .inr hd, .inl rfl, .inl rfl, .inl rfl, by rw [srcs]; exact two_lt_sixteen _ _⟩
  exact h.cryptoRefused ho (exec_ctxInit s t f) ⟨rfl, rfl, initDec_refuse keyed h.notRunning hk⟩ fits (by rw [deps]; exact h.arrived) Bool.noConfusion

theorem HookRuns.ctxInit_keyless (h : HookRuns s t 0 0 f []) (hd : f.hd = 0#4) {p : Nat × CMode} (hp : p ∈ [(4, CMode.sha3), (5, CMode.shake128), (6, CMode.shake256)])
    (hm : f.md.toNat = p.1) : OpBecomes (.ctxInit t f) s t ((s.bank t).next.withCtx { mode := p.2 }) { hook := 0 } := by
  have range : 4 ≤ p.1 ∧ p.1 ≤ 6 ∧ initMode p.1 = p.2 := by
    simp only [List.mem_cons, List.not_mem_nil, or_false] at hp
    obtain rfl | rfl | rfl := hp <;> decide
  obtain ⟨low, high, mode⟩ := range
  have keyed : decide (f.md.toNat ≤ 3) = false := decide_eq_false (by omega)
  have srcs : (initDec s t f).srcs = [] := if_neg (Bool.eq_false_iff.1 keyed)
  have deps : (initDec s t f).refDeps = [] := if_neg (Bool.eq_false_iff.1 keyed)
  have allowed : (initDec s t f).refuse = none := by simp only [initDec, keyed, Bool.false_and, Bool.false_eq_true, if_false]
  have fits : (initDec s t f).Fits f := ⟨decide_eq_false (by omega), .inr hd, .inl rfl, .inl rfl, .inl rfl, by rw [srcs]; exact List.forall_mem_nil _⟩
  refine h.cryptoCtx ho (exec_ctxInit s t f) ⟨rfl, allowed, by rw [deps]; rfl⟩ fits Bool.noConfusion (by rw [srcs]; rfl) ?_
  rw [State.initCtx, if_neg (by omega), if_neg (by omega), hm, mode]
  rfl

/-- One AES block under a key that its slot holds. -/
theorem HookRuns.aesOp {func : Nat} (h : HookRuns s t 0 9 f [f.hd.toNat, f.ha.toNat, f.hb.toNat]) (hm : f.md.toNat ≤ 1) {k : List Byte}
    (hk : s.keyOf t (s.slotIn t f.hb) (if f.md = 0#4 then 16 else 32) = some k) {c : Instr} {op : List Byte → List Byte → List Byte}
    (hx : exec c s = .next (s.aesOp t f func op)) : OpBecomes c s t (s.bank t).next
      { hook := 0, func := func, hd := some f.hd.toNat, srcs := [f.ha.toNat, f.hb.toNat], val := ofHbytes (op k (s.hbytesOf t f.ha.toNat 16)) } := by
  have key := (State.decKey_idle h.1.notRunning (s.keyOf t (s.slotIn t f.hb) (if f.md = 0#4 then 16 else 32))).trans hk
  have arrived := (hookArrived_cons.1 h.1.arrived).2
  refine h.crypto ho hx ⟨rfl, by simp only [key]; rfl, (hookArrived_cons.1 arrived).2⟩
    ⟨decide_eq_false (Nat.not_lt.2 hm), .inl rfl, .inl rfl, .inl rfl, .inl rfl, two_lt_sixteen _ _⟩ (fun _ => h.hdArrived) arrived ?_
  simp only [key, h.hbytesOf ho]
  rfl

end

-- The operations on a context whose mode fits it.

theorem ha_lt_sixteen (f : HFmt) : ∀ r ∈ [f.ha.toNat], r < 16 := fun r hr => two_lt_sixteen f.ha f.ha r (List.mem_cons_of_mem _ hr)

/-- The tag that TAG gives and TAGCHK compares (R178). -/
theorem ctxTag_eq (c : CryptoCtx) : ctxTag c = if c.mode = .gcm then gcmTag c.key c.iv c.aad c.msg else cmac c.key c.msg := by
  simp only [ctxTag, isGcm, decide_eq_true_eq]

section
variable {s : State} {t : Nat} {f : HFmt} (ho : SMap.sorted s.strands = true) (hb : f.hb = 0#4)
include ho hb

section
variable (hd : f.hd = 0#4)
include hd

theorem HookRuns.aad (h : HookRuns s t 0 1 f [f.ha.toNat]) (ok : (isGcm (s.bank t).crypto && !(s.bank t).crypto.started) = true) :
    OpBecomes (.aad t f) s t ((s.bank t).next.withCtx { (s.bank t).crypto with aad := (s.bank t).crypto.aad ++ s.hbytesOf t f.ha.toNat (f.md.toNat + 1) })
      { hook := 0, func := 1, srcs := [f.ha.toNat] } :=
  h.cryptoCtx ho rfl ⟨rfl, ctxRefuse_none (by rwa [h.1.cctxSeen]), rfl⟩ ⟨rfl, .inr hd, .inl rfl, .inr hb, .inl rfl, ha_lt_sixteen f⟩ Bool.noConfusion h.1.arrived
    (by rw [h.hbytesOf ho]; rfl)

theorem HookRuns.mac (h : HookRuns s t 0 4 f [f.ha.toNat]) (ok : isCmac (s.bank t).crypto = true) :
    OpBecomes (.mac t f) s t ((s.bank t).next.withCtx { (s.bank t).crypto with msg := (s.bank t).crypto.msg ++ s.hbytesOf t f.ha.toNat (f.md.toNat + 1) })
      { hook := 0, func := 4, srcs := [f.ha.toNat] } :=
  h.cryptoCtx ho rfl ⟨rfl, ctxRefuse_none (by rwa [h.1.cctxSeen]), rfl⟩ ⟨rfl, .inr hd, .inl rfl, .inr hb, .inl rfl, ha_lt_sixteen f⟩ Bool.noConfusion h.1.arrived
    (by rw [h.hbytesOf ho]; rfl)

theorem HookRuns.absorb (h : HookRuns s t 0 7 f [f.ha.toNat]) (ok : (isKeccak (s.bank t).crypto && !(s.bank t).crypto.started) = true) :
    OpBecomes (.absorb t f) s t ((s.bank t).next.withCtx { (s.bank t).crypto with msg := (s.bank t).crypto.msg ++ s.hbytesOf t f.ha.toNat (f.md.toNat + 1) })
      { hook := 0, func := 7, srcs := [f.ha.toNat] } :=
  h.cryptoCtx ho rfl ⟨rfl, ctxRefuse_none (by rwa [h.1.cctxSeen]), rfl⟩ ⟨rfl, .inr hd, .inl rfl, .inr hb, .inl rfl, ha_lt_sixteen f⟩ Bool.noConfusion h.1.arrived
    (by rw [h.hbytesOf ho]; rfl)

end

section
variable (h : HookRuns s t 0 2 f [f.hd.toNat, f.ha.toNat]) (ok : isGcm (s.bank t).crypto = true)
include h ok

theorem HookRuns.enc : OpBecomes (.enc t f) s t ((s.bank t).next.withCtx { (s.bank t).crypto with
      msg := (s.bank t).crypto.msg ++ gcmXor (s.bank t).crypto (s.hbytesOf t f.ha.toNat (f.md.toNat + 1)), started := true })
    { hook := 0, func := 2, hd := some f.hd.toNat, srcs := [f.ha.toNat], val := ofHbytes (sliceZ (gcmXor (s.bank t).crypto (s.hbytesOf t f.ha.toNat (f.md.toNat + 1))) 0 16) } :=
  h.cryptoCtx ho rfl ⟨rfl, ctxRefuse_none (by rwa [h.1.cctxSeen]), rfl⟩ ⟨rfl, .inl rfl, .inl rfl, .inr hb, .inl rfl, ha_lt_sixteen f⟩ (fun _ => h.hdArrived)
    (hookArrived_cons.1 h.1.arrived).2 (by rw [h.hbytesOf ho]; rfl)

theorem HookRuns.dec : OpBecomes (.dec t f) s t ((s.bank t).next.withCtx { (s.bank t).crypto with
      msg := (s.bank t).crypto.msg ++ s.hbytesOf t f.ha.toNat (f.md.toNat + 1), started := true })
    { hook := 0, func := 3, hd := some f.hd.toNat, srcs := [f.ha.toNat], val := ofHbytes (sliceZ (gcmXor (s.bank t).crypto (s.hbytesOf t f.ha.toNat (f.md.toNat + 1))) 0 16) } :=
  h.cryptoCtx ho rfl ⟨rfl, ctxRefuse_none (by rwa [h.1.cctxSeen]), rfl⟩ ⟨rfl, .inl rfl, .inl rfl, .inr hb, .inl rfl, ha_lt_sixteen f⟩ (fun _ => h.hdArrived)
    (hookArrived_cons.1 h.1.arrived).2 (by rw [h.hbytesOf ho]; rfl)

end

section
variable (ha : f.ha = 0#4) (hm : f.md = 0#4)
include ha hm

theorem HookRuns.tag (h : HookRuns s t 0 5 f [f.hd.toNat]) (ok : (isGcm (s.bank t).crypto || isCmac (s.bank t).crypto) = true) :
    OpBecomes (.tag t f) s t ((s.bank t).next.withCtx { (s.bank t).crypto with started := false, aad := [], msg := [], outPos := 0 })
      { hook := 0, func := 5, hd := some f.hd.toNat, val := ofHbytes (ctxTag (s.bank t).crypto) } :=
  h.cryptoCtx ho rfl ⟨rfl, ctxRefuse_none (by rwa [h.1.cctxSeen]), rfl⟩ ⟨rfl, .inl rfl, .inr ha, .inr hb, .inr hm, List.forall_mem_nil _⟩ (fun _ => h.hdArrived) rfl rfl

theorem HookRuns.squeeze (h : HookRuns s t 0 8 f [f.hd.toNat]) (ok : isKeccak (s.bank t).crypto = true) :
    OpBecomes (.squeeze t f) s t ((s.bank t).next.withCtx { (s.bank t).crypto with started := true, outPos := (s.bank t).crypto.outPos + 16 })
      { hook := 0, func := 8, hd := some f.hd.toNat, val := ofHbytes (keccakOut (s.bank t).crypto 16) } :=
  h.cryptoCtx ho rfl ⟨rfl, ctxRefuse_none (by rwa [h.1.cctxSeen]), rfl⟩ ⟨rfl, .inl rfl, .inr ha, .inr hb, .inr hm, List.forall_mem_nil _⟩ (fun _ => h.hdArrived) rfl rfl

end

theorem HookRuns.tagchk (h : HookRuns s t 0 6 f [f.hd.toNat, f.ha.toNat]) (hn : 4 ≤ f.md.toNat + 1) (ok : (isGcm (s.bank t).crypto || isCmac (s.bank t).crypto) = true) :
    OpBecomes (.tagchk t f) s t (s.bank t).next
      { hook := 0, func := 6, hd := some f.hd.toNat, srcs := [f.ha.toNat], val := hres (if (ctxTag (s.bank t).crypto).take (f.md.toNat + 1) = s.hbytesOf t f.ha.toNat (f.md.toNat + 1) then 0x00 else 0x0D) } :=
  h.crypto ho rfl ⟨rfl, ctxRefuse_none (by rwa [h.1.cctxSeen]), rfl⟩ ⟨decide_eq_false (Nat.not_lt.2 hn), .inl rfl, .inl rfl, .inr hb, .inl rfl, ha_lt_sixteen f⟩
    (fun _ => h.hdArrived) (hookArrived_cons.1 h.1.arrived).2 (by rw [h.hbytesOf ho]; rfl)

end

/-- Settles O23: by what each operation's body writes, and by the context or key that decode sees. -/
theorem hookCrypto : Obligations.HookCrypto := by
  intro s t f ho b y c ha n bs
  have gcm (hc : c.mode = .gcm) : isGcm c = true := decide_eq_true hc
  have tagged (hc : c.mode = .gcm ∨ c.mode = .cmac) : (isGcm c || isCmac c) = true := by simpa [isGcm, isCmac] using hc
  have keccak (hc : c.mode = .sha3 ∨ c.mode = .shake128 ∨ c.mode = .shake256) : isKeccak c = true := by simpa [isKeccak, or_assoc] using hc
  have fresh {ok : Bool} (ho : ok = true) (hs : c.started = false) : (ok && !c.started) = true := by rw [ho, hs]; rfl
  refine ⟨fun k hd hm hk h => h.ctxInit_keyed ho hd hm hk, fun hd hm hk h => ?_, fun p hp hd hm h => h.ctxInit_keyless ho hd hp hm,
    fun hd hb hc hs h => h.aad ho hb hd (fresh (gcm hc) hs), fun hb hc h => ⟨h.enc ho hb (gcm hc), h.dec ho hb (gcm hc)⟩, fun hd hb hc h => h.mac ho hb hd (decide_eq_true hc),
    fun ha' hb hm hc h => ?_, fun hb hn hc h => ?_, fun hd hb hc hs h => h.absorb ho hb hd (fresh (keccak hc) hs), fun ha' hb hm hc h => h.squeeze ho hb ha' hm (keccak hc),
    fun k hm hk h => ⟨h.aesOp ho hm hk rfl, h.aesOp ho hm hk rfl⟩, fun hb h hc => ?_⟩
  · exact h.ctxInit_refused ho hd hm hk
  · rw [← ctxTag_eq]
    exact h.tag ho hb ha' hm (tagged hc)
  · rw [← ctxTag_eq]
    exact h.tagchk ho hb hn (tagged hc)
  · have bad : isGcm (s.cctxSeen t) = false := by rw [h.cctxSeen]; exact decide_eq_false hc
    have bad' : (isGcm (s.cctxSeen t) && !(s.cctxSeen t).started) = false := by rw [bad, Bool.false_and]
    have one := ha_lt_sixteen f
    exact ⟨h.cryptoRefused ho rfl ⟨rfl, rfl, ctxRefuse_some bad⟩ ⟨rfl, .inl rfl, .inl rfl, .inr hb, .inl rfl, one⟩ rfl fun _ => h.arrived,
      h.cryptoRefused ho rfl ⟨rfl, rfl, ctxRefuse_some bad⟩ ⟨rfl, .inl rfl, .inl rfl, .inr hb, .inl rfl, one⟩ rfl fun _ => h.arrived,
      fun hd => h.cryptoRefused ho rfl ⟨rfl, rfl, ctxRefuse_some bad'⟩ ⟨rfl, .inr hd, .inl rfl, .inr hb, .inl rfl, one⟩ rfl Bool.noConfusion⟩

end Sys2Proof.Machine
end

section
/-! PROOFS. What a strand's accesses see of the strands: its own share, windows and item (R139, R140). -/

namespace Sys2Proof.Machine

section
variable {s : State} {z : SMap Strand} {t : Nat} {y : Bank} (own : (s.withStrands z).strand t = (s.strand t).setCur y)
include own

theorem State.region_withStrands (a : Nat) : (s.withStrands z).region t a = s.region t a := by
  simp only [State.region, own, Strand.setCur_shareSize, Strand.setCur_shareBase]

theorem State.winAddr_withStrands (n o : Nat) : (s.withStrands z).winAddr t n o = s.winAddr t n o := by
  simp only [State.winAddr, State.win, own, Strand.setCur_wins]

theorem State.polyOk_withStrands (a : Nat) : (s.withStrands z).polyOk t a = s.polyOk t a := by
  simp only [State.polyOk, own, Strand.setCur_xmask]

variable (hi : y.hasItem = (s.bank t).hasItem ∧ y.item = (s.bank t).item)
include hi

theorem State.viewLl_withStrands : (s.withStrands z).viewLl t = s.viewLl t := by
  obtain ⟨h1, h2⟩ := hi
  have bank : (s.withStrands z).bank t = y := by rw [State.bank, own, Strand.cur_setCur]
  simp only [State.viewLl, bank, h1, h2]

/-- A read by a strand whose share, windows and item are the same. -/
theorem State.memRead_withStrands (a n : Nat) : (s.withStrands z).memRead t a n = s.memRead t a n := by
  have bytes (w o : Nat) : (s.withStrands z).devBytes (panelOf t) ((s.withStrands z).winAddr t w o) n = s.devBytes (panelOf t) (s.winAddr t w o) n := by
    rw [State.winAddr_withStrands own]
    exact State.devBytes_congr (s := s) (u := s.withStrands z) rfl rfl rfl rfl rfl _ _ _
  have ll (k : Nat) : (s.withStrands z).ll k = s.ll k := State.ll_congr rfl k
  have len (k : Nat) : (s.withStrands z).winLen k = s.winLen k := State.winLen_congr rfl k
  unfold State.memRead
  rw [State.region_withStrands own, State.viewLl_withStrands own hi]
  cases s.region t a with
  | none => rfl
  | some r => cases r with
    | scratch b => rfl
    | packet o => simp only [ll, len]
    | view o => simp only [ll]
    | sram o => rfl
    | window w o => simp only [bytes]

theorem State.polyRead_withStrands (a : Nat) : (s.withStrands z).polyRead t a = s.polyRead t a := by
  simp only [State.polyRead, State.memRead_withStrands own hi]

/-- A write by such a strand. -/
theorem State.memWrite_withStrands (a : Nat) (bs : List Byte) : (s.withStrands z).memWrite t a bs = (s.memWrite t a bs).withStrands z := by
  have window (w o : Nat) : (s.withStrands z).devWrite (panelOf t) ((s.withStrands z).winAddr t w o) bs = (s.devWrite (panelOf t) (s.winAddr t w o) bs).withStrands z := by
    rw [State.winAddr_withStrands own, State.devWrite_withStrands]
  unfold State.memWrite
  rw [State.region_withStrands own, State.viewLl_withStrands own hi]
  split
  case h_6 w o _ => exact window w o
  all_goals first | rfl | (split <;> rfl)

end

end Sys2Proof.Machine
end

section
/-! PROOFS. Hook 0: the lattice operations (R178, R179). -/

namespace Sys2Proof.Machine

/-- A strand whose running bank alone has changed, but for its item, stores a polynomial as before. -/
theorem Became.polyWrite {s u : State} {t : Nat} {y : Bank} (h : Became s u t ((s.strand t).setCur y)) (hi : y.hasItem = (s.bank t).hasItem ∧ y.item = (s.bank t).item)
    (a : Nat) (w : List Nat) : u.polyWrite t a w = (s.polyWrite t a w).withStrands u.strands := by
  obtain ⟨same, own, -⟩ := h
  have e : s.withStrands u.strands = u := same.symm
  have write := State.memWrite_withStrands (s := s) (z := u.strands) (by rw [e]; exact own) hi a (w.flatMap fun x => leBytes 4 x)
  rwa [e] at write

/-- Where no coefficient is undefined, none is replaced. -/
theorem State.freeWhere_none (s : State) {bad : Nat → Bool} {w : List Nat} (h : ∀ i, i < w.length → bad i = false) : s.freeWhere bad w = (w, s) := by
  have keep (l : List (Nat × Nat)) (hl : ∀ e ∈ l, bad e.2 = false) (acc : List Nat) : l.foldl (fun acc e =>
      if bad e.2 then
        let (v, s) := acc.2.freeW
        (acc.1 ++ [v.toNat], s)
      else (acc.1 ++ [e.1], acc.2)) (acc, s) = (acc ++ l.map (·.1), s) := by
    induction l generalizing acc with
    | nil => simp
    | cons e l ih =>
      have he := hl e List.mem_cons_self
      rw [List.foldl_cons, if_neg (by rw [he]; exact Bool.false_ne_true), ih fun x hx => hl x (List.mem_cons_of_mem _ hx)]
      simp
  have good : ∀ e ∈ w.zipIdx, bad e.2 = false := fun e he => h e.2 (List.snd_lt_of_mem_zipIdx (x := e) he)
  rw [State.freeWhere, keep _ good []]
  simp

/-- Coefficients below q are all defined. -/
theorem any_latQ_false {w : List Nat} (h : ∀ v ∈ w, v < 8380417) : (w.any fun v => decide (latQ ≤ v)) = false := by
  rw [List.any_eq_false]
  intro v hv
  exact fun le => absurd (h v hv) (Nat.not_lt.2 (of_decide_eq_true le))

theorem latQ_le_getD_false {w : List Nat} (h : ∀ v ∈ w, v < 8380417) (i : Nat) : decide (latQ ≤ w.getD i 0) = false := by
  refine decide_eq_false (Nat.not_le.2 ?_)
  rw [List.getD_eq_getElem?_getD]
  cases e : w[i]? with
  | none => decide
  | some v => exact h v (List.mem_of_getElem? e)

/-- A coefficient-wise operation on defined coefficients stores its values. -/
theorem State.latPoint_good (s : State) (t a b c : Nat) (op : Nat → Nat → Nat) (hx : ∀ v ∈ s.polyRead t b, v < 8380417) (hy : ∀ v ∈ s.polyRead t c, v < 8380417) :
    s.latPoint t a b c op = s.polyWrite t a (List.zipWith op (s.polyRead t b) (s.polyRead t c)) := by
  unfold State.latPoint
  dsimp only
  rw [State.freeWhere_none s fun i _ => by rw [latQ_le_getD_false hx, latQ_le_getD_false hy]; rfl]

/-- The body of LAT_NTT (R178, R179). -/
def State.nttBody (s : State) (t a : Nat) (md : BitVec 4) : State :=
  let w := s.polyRead t a
  let r := s.freeWhere (fun _ => w.any fun x => decide (latQ ≤ x)) (if md = 0#4 then latNtt w else latIntt w)
  r.2.polyWrite t a r.1

theorem State.nttBody_good {s : State} {t a : Nat} {md : BitVec 4} (h : ∀ v ∈ s.polyRead t a, v < 8380417) :
    s.nttBody t a md = s.polyWrite t a (if md = 0#4 then latNtt (s.polyRead t a) else latIntt (s.polyRead t a)) := by
  unfold State.nttBody
  dsimp only
  rw [State.freeWhere_none s fun _ _ => any_latQ_false h]

/-- The body of LAT_EXPAND, from the context `c` (R178, R179). -/
def State.expandBody (s : State) (t a : Nat) (c : CryptoCtx) : State :=
  let r := rejSample 1024 (keccakOut c 3072) [] 0
  let z := s.freeWhere (fun i => decide (r.1.length ≤ i)) (r.1 ++ List.replicate (256 - r.1.length) 0)
  (z.2.setCctx t { c with started := true, outPos := c.outPos + r.2 }).polyWrite t a z.1

theorem State.expandBody_full {s : State} {t a : Nat} {c : CryptoCtx} {r : List Nat × Nat} (hr : rejSample 1024 (keccakOut c 3072) [] 0 = r) (h : r.1.length = 256) :
    s.expandBody t a c = (s.setCctx t { c with started := true, outPos := c.outPos + r.2 }).polyWrite t a r.1 := by
  have whole : r.1 ++ List.replicate (256 - r.1.length) 0 = r.1 := by
    rw [h, Nat.sub_self, List.replicate_zero, List.append_nil]
  unfold State.expandBody
  dsimp only
  rw [hr, whole, State.freeWhere_none s fun i hi => decide_eq_false (Nat.not_le.2 hi)]

theorem exec_latNtt (s : State) (t : Nat) (f : HFmt) :
    exec (.latNtt t f) s = .next (s.latOp t f 0x10 true none [s.haLane t f 0] fun u => u.nttBody t (s.haLane t f 0) f.md) := rfl

theorem exec_latExpand (s : State) (t : Nat) (f : HFmt) : exec (.latExpand t f) s = .next (s.latOp t f 0x13 false (ctxRefuse (decide ((s.cctxSeen t).mode = .shake128)))
    [s.haLane t f 0] fun u => u.expandBody t (s.haLane t f 0) (s.bank t).crypto) := rfl

/-- The product of two coefficients, and their sum or difference (R178). -/
def latMul (x y : Nat) : Nat := x * y % latQ
def latAdd (md : BitVec 4) (x y : Nat) : Nat := if md = 0#4 then (x + y) % latQ else (x + latQ - y) % latQ

theorem exec_latPmul (s : State) (t : Nat) (f : HFmt) : exec (.latPmul t f) s =
    .next (s.latOp t f 0x11 false none [s.haLane t f 0, s.haLane t f 1, s.haLane t f 2] fun u => u.latPoint t (s.haLane t f 0) (s.haLane t f 1) (s.haLane t f 2) latMul) := rfl

theorem exec_latPadd (s : State) (t : Nat) (f : HFmt) : exec (.latPadd t f) s =
    .next (s.latOp t f 0x12 true none [s.haLane t f 0, s.haLane t f 1, s.haLane t f 2] fun u => u.latPoint t (s.haLane t f 0) (s.haLane t f 1) (s.haLane t f 2) (latAdd f.md)) := rfl

/-- What decode finds in a lattice operation. -/
def latDec (f : HFmt) (func : Nat) (md : Bool) (refuse : Option Nat) : HookDec :=
  { hook := 0, func := func, useMd := md, srcs := [f.ha.toNat], mdBad := md && decide (1 < f.md.toNat), refuse := refuse }

/-- What a lattice operation of unit 0 leaves outstanding: its status (R179). -/
def latOut (f : HFmt) (func st : Nat) : HookOp := { hook := 0, func := func, hd := some f.hd.toNat, srcs := [f.ha.toNat], val := hres st }

section
variable {s : State} {t : Nat} {f : HFmt} (ho : SMap.sorted s.strands = true) (hb : f.hb = 0#4) (h : HookRuns s t 0 0x10 f [f.hd.toNat, f.ha.toNat])
include ho hb h

theorem HookRuns.latTaken {func : Nat} {md : Bool} {refuse : Option Nat} (hr : refuse = none) (hm : md = true ∧ f.md.toNat ≤ 1 ∨ f.md = 0#4) :
    HookTaken s t 0 f (latDec f func md refuse) false := by
  have range : (md && decide (1 < f.md.toNat)) = false := by
    rcases hm with ⟨-, hm⟩ | hm
    · rw [decide_eq_false (Nat.not_lt.2 hm), Bool.and_false]
    · rw [hm, decide_eq_false (by decide), Bool.and_false]
  exact h.taken ho ⟨rfl, hr, rfl⟩ ⟨range, .inl rfl, .inl rfl, .inr hb, hm.imp_left And.left, ha_lt_sixteen f⟩ (fun _ => h.hdArrived) (hookArrived_cons.1 h.1.arrived).2 rfl Bool.noConfusion

variable {c : Instr} {func : Nat} {md : Bool} {refuse : Option Nat} {addrs : List Nat} {body : State → State}
  (hx : exec c s = .next (s.latOp t f func md refuse addrs body)) (hr : refuse = none) (hm : md = true ∧ f.md.toNat ≤ 1 ∨ f.md = 0#4)
include hx hr hm

/-- A lattice operation on addresses that cannot all be used stores nothing (R179). -/
theorem HookRuns.latRange (bad : (addrs.all fun a => s.polyOk t a) = false) : OpBecomes c s t (s.bank t).next (latOut f func 0x0B) := by
  have taken := h.latTaken ho hb (func := func) hr hm
  have own := (became_hookReady ho taken.notBusy).2.1
  refine taken.becomes hx ?_
  have bad' : (addrs.all fun a => (s.hookReady t).polyOk t a) = false := by
    rw [← bad]
    exact congrArg (List.all addrs) (funext fun a => State.polyOk_withStrands (s := s) (z := (s.hookReady t).strands) own a)
  exact if_neg (Bool.eq_false_iff.1 bad')

/-- One on addresses that can be used stores what its body does. -/
theorem HookRuns.latStores {z m : State} {y : Bank} (good : (addrs.all fun a => s.polyOk t a) = true) (hz : Became s z t ((s.strand t).setCur y))
    (hzo : SMap.sorted z.strands = true) (hi : y.hasItem = (s.bank t).hasItem ∧ y.item = (s.bank t).item) (hbody : body (s.hookReady t) = m.withStrands z.strands) :
    ∃ u : State, exec c s = .next (u.stepDone t) ∧ u = { m with strands := u.strands } ∧ u.strand t = (s.strand t).withOp t y (latOut f func 0x00) ∧
      ∀ j, j ≠ t → u.strand j = s.strand j := by
  have taken := h.latTaken ho hb (func := func) hr hm
  have own := (became_hookReady ho taken.notBusy).2.1
  have good' : (addrs.all fun a => (s.hookReady t).polyOk t a) = true := by
    rw [← good]
    exact congrArg (List.all addrs) (funext fun a => State.polyOk_withStrands (s := s) (z := (s.hookReady t).strands) own a)
  refine taken.pushes hx hz hzo hi ((if_pos good').trans ?_)
  rw [hbody]
  rfl

end

section
variable {s : State} {t : Nat} {f : HFmt}

section
variable (ho : SMap.sorted s.strands = true) (hb : f.hb = 0#4) (h : HookRuns s t 0 0x10 f [f.hd.toNat, f.ha.toNat])
include ho hb h

/-- LAT_EXPAND from a SHAKE128 context stores the polynomial that it samples, and moves the context on by the bytes used (R178, R179). -/
theorem HookRuns.latExpand (hm : f.md = 0#4) (good : ([s.haLane t f 0].all fun a => s.polyOk t a) = true) (hc : (s.bank t).crypto.mode = .shake128) {r : List Nat × Nat}
    (hr : rejSample 1024 (keccakOut (s.bank t).crypto 3072) [] 0 = r) (full : r.1.length = 256) :
    ∃ u : State, exec (.latExpand t f) s = .next (u.stepDone t) ∧ u = { s.polyWrite t (s.haLane t f 0) r.1 with strands := u.strands } ∧
      u.strand t = (s.strand t).withOp t ((s.bank t).next.withCtx { (s.bank t).crypto with started := true, outPos := (s.bank t).crypto.outPos + r.2 }) (latOut f 0x13 0x00) ∧
      ∀ j, j ≠ t → u.strand j = s.strand j := by
  have seen : ctxRefuse (decide ((s.cctxSeen t).mode = .shake128)) = none := ctxRefuse_none (by rw [h.1.cctxSeen]; exact decide_eq_true hc)
  have taken := h.latTaken ho hb (func := 0x13) (md := false) (refuse := none) rfl (.inr hm)
  have ctx := taken.became_setCctx { (s.bank t).crypto with started := true, outPos := (s.bank t).crypto.outPos + r.2 }
  exact h.latStores ho hb (func := 0x13) (exec_latExpand s t f) seen (.inr hm) good ctx (State.sorted_setBank _ _ _ taken.sorted_hookReady) ⟨rfl, rfl⟩
    ((State.expandBody_full hr full).trans (ctx.polyWrite ⟨rfl, rfl⟩ _ _))

end

end

/-- The strand once the pc has moved: its running bank's item is the same. -/
theorem HookRuns.own {s : State} {t hook func : Nat} {f : HFmt} {hregs : List Nat} (h : HookRuns s t hook func f hregs) (ho : SMap.sorted s.strands = true) :
    (s.withStrands (s.hookReady t).strands).strand t = (s.strand t).setCur (s.bank t).next := (became_hookReady ho h.1.1.2.1).2.1

/-- Settles O24: the operations that store do so into a state that differs from the first in the strands alone, with every coefficient defined. -/
theorem hookLattice : Obligations.HookLattice := by
  intro s t f ho hb h lane a x y good ok bytes done
  have own := h.own ho
  have became := became_hookReady ho h.1.1.2.1
  have sorted : SMap.sorted (s.hookReady t).strands = true := State.sorted_setBank _ _ _ (State.sorted_setStrand _ _ _ ho)
  have reads (p : Nat) : (s.hookReady t).polyRead t p = s.polyRead t p := State.polyRead_withStrands own ⟨rfl, rfl⟩ p
  have writes (p : Nat) (w : List Nat) : (s.hookReady t).polyWrite t p w = (s.polyWrite t p w).withStrands (s.hookReady t).strands :=
    became.polyWrite ⟨rfl, rfl⟩ p w
  have all (h0 : ok 0) (h1 : ok 1) (h2 : ok 2) : ([lane 0, lane 1, lane 2].all fun p => s.polyOk t p) = true := by
    simp only [List.all_cons, List.all_nil, show s.polyOk t (lane 0) = true from h0, show s.polyOk t (lane 1) = true from h1, show s.polyOk t (lane 2) = true from h2, Bool.and_self]
  have one (h0 : ok 0) : ([lane 0].all fun p => s.polyOk t p) = true := by
    simp only [List.all_cons, List.all_nil, show s.polyOk t (lane 0) = true from h0, Bool.and_self]
  have point (op : Nat → Nat → Nat) (hx : good x) (hy : good y) :
      (s.hookReady t).latPoint t (lane 0) (lane 1) (lane 2) op = (s.polyWrite t (lane 0) (List.zipWith op x y)).withStrands (s.hookReady t).strands := by
    rw [State.latPoint_good _ _ _ _ _ _ (by rw [reads]; exact hx) (by rw [reads]; exact hy), reads, reads, writes]
  refine ⟨fun hm h0 hg => ?_, fun hm h0 h1 h2 hx hy => ?_, fun hm h0 h1 h2 hx hy => ?_, fun hm h0 hc => ?_, fun bad => ⟨fun hm => ⟨?_, ?_⟩, fun hm => ?_⟩⟩
  · refine h.latStores ho hb (func := 0x10) (exec_latNtt s t f) rfl (.inl ⟨rfl, hm⟩) (one h0) became sorted ⟨rfl, rfl⟩ ?_
    exact (State.nttBody_good (by rw [reads]; exact hg)).trans (by rw [reads, writes]; rfl)
  · refine h.latStores ho hb (func := 0x11) (exec_latPmul s t f) rfl (.inr hm) (all h0 h1 h2) became sorted ⟨rfl, rfl⟩ (point latMul hx hy)
  · refine h.latStores ho hb (func := 0x12) (exec_latPadd s t f) rfl (.inl ⟨rfl, hm⟩) (all h0 h1 h2) became sorted ⟨rfl, rfl⟩ (point (latAdd f.md) hx hy)
  · intro c r hr
    have sampled : rejSample 1024 (keccakOut c 3072) [] 0 = r := rfl
    clear_value r
    exact h.latExpand ho hb hm (one h0) hc sampled hr
  · exact h.latRange ho hb (exec_latNtt s t f) rfl (.inl ⟨rfl, hm⟩) (by simp only [List.all_cons, List.all_nil, Bool.and_true]; exact bad)
  · exact h.latRange ho hb (exec_latPadd s t f) rfl (.inl ⟨rfl, hm⟩) (by rw [List.all_cons]; exact Bool.and_eq_false_imp.2 fun ok => absurd ok (Bool.eq_false_iff.1 bad))
  · exact h.latRange ho hb (exec_latPmul s t f) rfl (.inr hm) (by rw [List.all_cons]; exact Bool.and_eq_false_imp.2 fun ok => absurd ok (Bool.eq_false_iff.1 bad))

end Sys2Proof.Machine
end

section
/-! PROOFS. Hook 5: buffers (R186, R233, R235, R236). -/

namespace Sys2Proof.Machine

/-- A register word reads as before when the word of another address is written, whether or not the words are in order. -/
theorem State.rd_setRd_ne (s : State) (d e : RegDesc) (p i j q k l : Nat) (v : Word) (hne : e.addr q k l ≠ d.addr p i j) :
    (s.setRd d p i j v).rd e q k l = s.rd e q k l := by
  rw [State.rd, State.setRd, SMap.find_set_ne _ _ _ hne, State.rd]

/-- The word that keeps the fewest buffers of a pool is none of those that describe one (R230). -/
theorem sknPcfg_ne_sknPlow (p : Nat) {n : Nat} (h : n < 32) : R.sknPcfg.addr 0 n ≠ R.sknPlow.addr 0 p := by
  show 0x00820000 + (0 + 16 * n + 4 * 0) ≠ 0x00820000 + (0x200 + 4 * p + 4 * 0)
  omega

theorem sknPbase_ne_sknPlow (p : Nat) {n : Nat} (h : n < 32) : R.sknPbase.addr 0 n ≠ R.sknPlow.addr 0 p := by
  show 0x00820000 + (8 + 16 * n + 4 * 0) ≠ 0x00820000 + (0x200 + 4 * p + 4 * 0)
  omega

/-- Keeping the fewest free buffers changes no pool's size or place. -/
theorem State.poolSize_noteLow (s : State) (p : Nat) {n : Nat} (h : n < 32) : (s.noteLow p).poolSize n = s.poolSize n := by
  unfold State.noteLow
  split
  · rw [State.poolSize, State.rf, State.rd_setRd_ne _ _ _ _ _ _ _ _ _ _ (sknPcfg_ne_sknPlow p h), State.poolSize, State.rf]
  · rfl

theorem State.poolBase_noteLow (s : State) (p : Nat) {n : Nat} (h : n < 32) : (s.noteLow p).poolBase n = s.poolBase n := by
  unfold State.noteLow
  split
  · rw [State.poolBase, State.rf, State.rd_setRd_ne _ _ _ _ _ _ _ _ _ _ (sknPbase_ne_sknPlow p h), State.poolBase, State.rf]
  · rfl

/-- A tag's write changes no register. -/
theorem State.devWrite_regs (s : State) (req a : Nat) (bs : List Byte) : (s.devWrite req a bs).regs = s.regs := by
  induction bs generalizing s a with
  | nil => rfl
  | cons b bs ih => rw [State.devWrite, ih, (State.devSet_frame s req a b).2.1]

theorem State.putTag_regs (s : State) (p i v : Nat) : (s.putTag p i v).regs = s.regs := State.devWrite_regs _ _ _ _

/-- The pool chosen is one of the 32. -/
theorem State.choosePool_lt {s : State} {g n p : Nat} (h : s.choosePool g n = some p) : p < 32 := by
  have inv (l : List Nat) (hl : ∀ q ∈ l, q < 32) (b : Option Nat) (hb : ∀ q, b = some q → q < 32) :
      ∀ q, l.foldl (fun best p => match best with
        | none => some p
        | some b => if s.poolSize p < s.poolSize b then some p else some b) b = some q → q < 32 := by
    induction l generalizing b with
    | nil => exact hb
    | cons p l ih =>
      have hp := hl p List.mem_cons_self
      refine ih (fun q hq => hl q (List.mem_cons_of_mem _ hq)) _ fun q hq => ?_
      cases b with
      | none => exact Option.some.inj hq ▸ hp
      | some b =>
        dsimp only at hq
        split at hq
        · exact Option.some.inj hq ▸ hp
        · exact Option.some.inj hq ▸ hb b rfl
  refine inv _ (fun q hq => ?_) none (fun q hq => nomatch hq) p h
  exact List.mem_range.1 (List.mem_of_mem_filter hq)

/-- The buffer that an allocation takes, charged to strand `t` (R233, R235). -/
def State.chargedBuf (s : State) (t p : Nat) : State :=
  let u := s.setPool p { s.pool p with next := (s.pool p).next + 1 }
  ({ u with skn := { u.skn with chg := SMap.set s.skn.chg 0 t (s.bufChg t + 1) } } : State)

/-- The state once strand `t` has the buffer at the front of pool `p` (R232, R233, R235). -/
def State.takenBuf (s : State) (t p : Nat) : State :=
  ((s.chargedBuf t p).putTag p (s.pool p).next (mkTag false (panelOf t) (kOf t))).noteLow p

theorem State.poolSize_takenBuf (s : State) (t : Nat) {p : Nat} (h : p < 32) : (s.takenBuf t p).poolSize p = s.poolSize p := by
  have regs : ((s.chargedBuf t p).putTag p (s.pool p).next (mkTag false (panelOf t) (kOf t))).regs = s.regs := State.putTag_regs _ _ _ _
  rw [State.takenBuf, State.poolSize_noteLow _ p h, State.poolSize, State.rf_congr regs, State.poolSize]

theorem State.poolBase_takenBuf (s : State) (t : Nat) {p : Nat} (h : p < 32) : (s.takenBuf t p).poolBase p = s.poolBase p := by
  have regs : ((s.chargedBuf t p).putTag p (s.pool p).next (mkTag false (panelOf t) (kOf t))).regs = s.regs := State.putTag_regs _ _ _ _
  rw [State.takenBuf, State.poolBase_noteLow _ p h, State.poolBase, State.rf_congr regs, State.poolBase]

/-- An allocation with a bad operand (R186). -/
theorem State.allocBuf_bad {s : State} {r : BufReq} {g n : Nat} {rsvd : Bool} (h : n = 0 ∨ 65536 < n ∨ rsvd = true) : s.allocBuf r g n rsvd = (5, 0, 0, s) :=
  if_pos (by simpa [or_assoc] using h)

/-- One that finds a free buffer at the front of its pool, within the strand's share (R233). -/
theorem State.allocBuf_takes {s : State} {t g n p : Nat} (h0 : 0 < n) (h1 : n ≤ 65536) (hp : s.choosePool g n = some p) (hc : s.canChargeBuf t = true)
    (hr : s.poolReach (panelOf t) p = true) (hn : (s.pool p).next < s.poolCount p) :
    s.allocBuf (.strand t false false) g n false = (0, s.poolBase p + (s.pool p).next * s.poolSize p, p, s.takenBuf t p) := by
  have good : (decide (n = 0) || decide (65536 < n) || false) = false := by
    rw [decide_eq_false (by omega), decide_eq_false (by omega)]
    rfl
  have gone : (s.pool p).gone = false := by
    simp only [State.poolReach, Bool.and_eq_true, Bool.not_eq_true'] at hr
    exact hr.1
  have taken : s.takeBuf p = some ((s.pool p).next, s.setPool p { s.pool p with next := (s.pool p).next + 1 }) := by
    simp only [State.takeBuf, gone, Bool.false_eq_true, if_false, hn, if_true]
  have lt := State.choosePool_lt hp
  rw [← State.poolSize_takenBuf s t lt, ← State.poolBase_takenBuf s t lt]
  simp only [State.allocBuf, good, hp, hc, State.reqPanel, hr, taken, Bool.not_true, Bool.false_eq_true, if_false]
  rfl

-- Buffers do not see the strands.

section
variable (s : State) (x : SMap Strand)

theorem State.choosePool_withStrands (g n : Nat) : (s.withStrands x).choosePool g n = s.choosePool g n := rfl
theorem State.poolSize_withStrands (p : Nat) : (s.withStrands x).poolSize p = s.poolSize p := rfl
theorem State.bufferAt_withStrands (a : Nat) : (s.withStrands x).bufferAt a = s.bufferAt a := rfl
theorem State.canChargeBuf_withStrands (t : Nat) : (s.withStrands x).canChargeBuf t = s.canChargeBuf t := rfl

theorem State.putTag_withStrands (p i v : Nat) : (s.withStrands x).putTag p i v = (s.putTag p i v).withStrands x := by
  have set : (s.withStrands x).setTag p i v = (s.setTag p i v).withStrands x := State.devWrite_withStrands _ _ _ _ _
  rw [State.putTag, set]
  exact State.askDram_withStrands _ x _ _ _ _ _

theorem State.noteLow_withStrands (p : Nat) : (s.withStrands x).noteLow p = (s.noteLow p).withStrands x := by
  have free : (s.withStrands x).poolFree p = s.poolFree p := rfl
  have word : (s.withStrands x).rd R.sknPlow 0 p = s.rd R.sknPlow 0 p := rfl
  rw [State.noteLow, State.noteLow, free, word]
  split <;> rfl

end

theorem State.takenBuf_withStrands (s : State) (x : SMap Strand) (t p : Nat) : (s.withStrands x).takenBuf t p = (s.takenBuf t p).withStrands x := by
  have charged : (s.withStrands x).chargedBuf t p = (s.chargedBuf t p).withStrands x := rfl
  have front : (s.withStrands x).pool p = s.pool p := rfl
  rw [State.takenBuf, charged, front, State.putTag_withStrands, State.noteLow_withStrands, State.takenBuf]

/-- The body of ALLOC (R186, R233). -/
def State.allocBody (s : State) (t : Nat) (f : HFmt) : State :=
  let v := (s.hval t f.ha.toNat).toNat
  let it := s.hookItem t
  let full := match it with | some k => decide (8 ≤ (s.ll k).tents.length) | none => false
  let r := s.allocBuf (.strand t it.isSome full) f.md.toNat (bits v 0 17) (decide (2 ^ 17 ≤ v))
  if r.1 = 0 then
    let u := match it with
      | some k => r.2.2.2.setLl k { r.2.2.2.ll k with tents := (r.2.2.2.ll k).tents ++ [(r.2.1, t)] }
      | none => r.2.2.2
    u.hookDone t 5 0 f.hd [f.ha.toNat] (hres 0x00 (r.2.1 % 2 ^ 32) (bits r.2.1 32 8) (u.poolSize r.2.2.1))
  else r.2.2.2.hookDone t 5 0 f.hd [f.ha.toNat] (hres r.1)

theorem exec_alloc (s : State) (t : Nat) (f : HFmt) :
    exec (.alloc t f) s = .next (s.hookIssue t f { hook := 5, func := 0, useMd := true, srcs := [f.ha.toNat] } fun s => s.allocBody t f) := rfl

theorem State.allocBody_refused {s : State} {t st : Nat} {f : HFmt} (hst : st ≠ 0)
    (h : ∀ full, s.allocBuf (.strand t (s.hookItem t).isSome full) f.md.toNat (bits (s.hval t f.ha.toNat).toNat 0 17) (decide (2 ^ 17 ≤ (s.hval t f.ha.toNat).toNat)) = (st, 0, 0, s)) :
    s.allocBody t f = s.hookDone t 5 0 f.hd [f.ha.toNat] (hres st) := by
  simp only [State.allocBody, h, hst, if_false]

theorem State.allocBody_takes {s u : State} {t a p : Nat} {f : HFmt} (hi : s.hookItem t = none)
    (h : s.allocBuf (.strand t false false) f.md.toNat (bits (s.hval t f.ha.toNat).toNat 0 17) (decide (2 ^ 17 ≤ (s.hval t f.ha.toNat).toNat)) = (0, a, p, u)) :
    s.allocBody t f = u.hookDone t 5 0 f.hd [f.ha.toNat] (hres 0x00 (a % 2 ^ 32) (bits a 32 8) (u.poolSize p)) := by
  simp only [State.allocBody, hi, Option.isSome_none, h, if_true]

/-- The body of FREE (R186, R236). -/
def State.freeBody (s : State) (t : Nat) (f : HFmt) : State :=
  let a := bits (s.hval t f.ha.toNat).toNat 0 40
  let done (s : State) (st : Nat) : State := s.hookDone t 5 1 f.hd [f.ha.toNat] (hres st)
  if (s.bufferAt a).isNone then done s 0x0A
  else match s.hookItem t with
    | none => done (s.freeBufAt (panelOf t) a).2 (freeStatus (s.freeBufAt (panelOf t) a).1)
    | some k =>
      if (s.ll k).state = .timedOut then done s 0x00
      else if 16 ≤ (s.ll k).log.length then done s 0x03
      else done (s.setLl k { s.ll k with log := (s.ll k).log ++ [{ op := .bufFree, target := a }] }) 0x00

theorem exec_freeBuf (s : State) (t : Nat) (f : HFmt) :
    exec (.freeBuf t f) s = .next (s.hookIssue t f { hook := 5, func := 1, srcs := [f.ha.toNat] } fun s => s.freeBody t f) := rfl

/-- Every operation of hooks 5 and 6 that is offered reaches its item (R12). -/
theorem HookOffered.reaches {s : State} {t hook func : Nat} {hregs : List Nat} (h : HookOffered s t hook func hregs) (h5 : 5 ≤ hook) (func' : Nat) :
    s.hookCut t hook func' (s.hookItem t) = false := by
  obtain ⟨-, -, -, -, -, -, -, reach⟩ := h
  have any (g : Nat) : (decide (hook = 3) || decide (5 ≤ hook) || (decide (hook = 1) && decide (g = 0x03)) || (decide (hook = 2) && decide (g = 0x05))) = true := by
    simp only [decide_eq_true h5, Bool.or_true, Bool.true_or]
  unfold State.hookCut at reach ⊢
  rw [any] at reach ⊢
  exact reach

section
variable {s : State} {t : Nat} {f : HFmt} (ho : SMap.sorted s.strands = true) (hb : f.hb = 0#4) (h : HookRuns s t 5 0 f [f.hd.toNat, f.ha.toNat])
include ho hb h

theorem HookRuns.allocTaken : HookTaken s t 5 f { hook := 5, func := 0, useMd := true, srcs := [f.ha.toNat] } false :=
  h.taken ho ⟨rfl, rfl, rfl⟩ ⟨rfl, .inl rfl, .inl rfl, .inr hb, .inl rfl, ha_lt_sixteen f⟩ (fun _ => h.hdArrived) (hookArrived_cons.1 h.1.arrived).2
    (h.1.reaches (Nat.le_refl 5) _) Bool.noConfusion

theorem HookRuns.freeTaken (hm : f.md = 0#4) : HookTaken s t 5 f { hook := 5, func := 1, srcs := [f.ha.toNat] } false :=
  h.taken ho ⟨rfl, rfl, rfl⟩ ⟨rfl, .inl rfl, .inl rfl, .inr hb, .inr hm, ha_lt_sixteen f⟩ (fun _ => h.hdArrived) (hookArrived_cons.1 h.1.arrived).2
    (h.1.reaches (Nat.le_refl 5) _) Bool.noConfusion

/-- ALLOC with a bad operand charges nothing (R186). -/
theorem HookRuns.alloc_bad (bad : bits (s.hval t f.ha.toNat).toNat 0 17 = 0 ∨ 65536 < (s.hval t f.ha.toNat).toNat) :
    OpBecomes (.alloc t f) s t (s.bank t).next { hook := 5, func := 0, hd := some f.hd.toNat, srcs := [f.ha.toNat], val := hres 0x05 } := by
  have taken := h.allocTaken ho hb
  have range : bits (s.hval t f.ha.toNat).toNat 0 17 = 0 ∨ 65536 < bits (s.hval t f.ha.toNat).toNat 0 17 ∨ decide (2 ^ 17 ≤ (s.hval t f.ha.toNat).toNat) = true := by
    rw [bits_zero_lo] at bad ⊢
    rw [decide_eq_true_eq]
    omega
  refine taken.becomes (exec_alloc s t f) (State.allocBody_refused (by decide) fun full => State.allocBuf_bad ?_)
  rw [taken.hval]
  exact range

/-- ALLOC without an item, of a pool with a free buffer that the strand may be charged for (R233, R235). -/
theorem HookRuns.alloc_takes {p : Nat} (hi : s.hookItem t = none) (h0 : 0 < (s.hval t f.ha.toNat).toNat) (h1 : (s.hval t f.ha.toNat).toNat ≤ 65536)
    (hp : s.choosePool f.md.toNat (s.hval t f.ha.toNat).toNat = some p) (hc : s.canChargeBuf t = true) (hr : s.poolReach (t / 416) p = true)
    (hn : (s.pool p).next < s.poolCount p) :
    let a := s.poolBase p + (s.pool p).next * s.poolSize p
    OpChanges (.alloc t f) s (s.takenBuf t p) t
      { hook := 5, func := 0, hd := some f.hd.toNat, srcs := [f.ha.toNat], val := hres 0x00 (a % 2 ^ 32) (bits a 32 8) (s.poolSize p) } := by
  intro a
  have taken := h.allocTaken ho hb
  have size : bits (s.hval t f.ha.toNat).toNat 0 17 = (s.hval t f.ha.toNat).toNat := by
    rw [bits_zero_lo]
    exact Nat.mod_eq_of_lt (by omega)
  have low : decide (2 ^ 17 ≤ (s.hval t f.ha.toNat).toNat) = false := decide_eq_false (by omega)
  have takes := State.allocBuf_takes (s := s.withStrands (s.hookReady t).strands) h0 h1 ((State.choosePool_withStrands s _ _ _).trans hp)
    ((State.canChargeBuf_withStrands s _ t).trans hc) hr hn
  rw [State.takenBuf_withStrands, ← State.hookReady_withStrands] at takes
  have body := State.allocBody_takes (s := s.hookReady t) (f := f) (taken.item.trans hi) (by rw [taken.hval, size, low]; exact takes)
  rw [State.poolSize_withStrands, State.poolSize_takenBuf s t (State.choosePool_lt hp)] at body
  exact taken.changes (exec_alloc s t f) body

section
variable (hm : f.md = 0#4)
include hm

/-- FREE of an address at which no buffer starts (R236). -/
theorem HookRuns.free_noBuffer (no : s.bufferAt (bits (s.hval t f.ha.toNat).toNat 0 40) = none) :
    OpBecomes (.freeBuf t f) s t (s.bank t).next { hook := 5, func := 1, hd := some f.hd.toNat, srcs := [f.ha.toNat], val := hres 0x0A } := by
  have taken := h.freeTaken ho hb hm
  have none : (s.hookReady t).bufferAt (bits (s.hval t f.ha.toNat).toNat 0 40) = none := (State.bufferAt_withStrands s _ _).trans no
  refine taken.becomes (exec_freeBuf s t f) ?_
  simp only [State.freeBody, taken.hval, none, Option.isNone_none, if_true]
  rfl

/-- FREE by an item is an entry of its stage log (R236). -/
theorem HookRuns.free_staged {q : Nat × Nat} {k : Nat} (at_ : s.bufferAt (bits (s.hval t f.ha.toNat).toNat 0 40) = some q) (hi : s.hookItem t = some k)
    (live : (s.ll k).state ≠ .timedOut) (room : (s.ll k).log.length < 16) :
    OpChanges (.freeBuf t f) s (s.setLl k { s.ll k with log := (s.ll k).log ++ [{ op := .bufFree, target := bits (s.hval t f.ha.toNat).toNat 0 40 }] }) t
      { hook := 5, func := 1, hd := some f.hd.toNat, srcs := [f.ha.toNat], val := hres 0x00 } := by
  have taken := h.freeTaken ho hb hm
  have some : (s.hookReady t).bufferAt (bits (s.hval t f.ha.toNat).toNat 0 40) = some q := (State.bufferAt_withStrands s _ _).trans at_
  have ll : (s.hookReady t).ll k = s.ll k := rfl
  refine taken.changes (exec_freeBuf s t f) ?_
  simp only [State.freeBody, taken.hval, taken.item, hi, some, ll, live, Nat.not_le.2 room, Option.isNone_some, Bool.false_eq_true, if_false]
  rfl

end

end

end Sys2Proof.Machine
end

section
/-! PROOFS. Hook 6: the bytes of an item's frame (R187). -/

namespace Sys2Proof.Machine

/-- What an operation of hook 6 leaves outstanding. -/
def pktOut (f : HFmt) (func : Nat) (srcs : List Nat) (v : HWord) : HookOp := { hook := 6, func := func, hd := some f.hd.toNat, srcs := srcs, val := v }

section
variable {s : State} {t k : Nat} {f : HFmt} {func : Nat} {srcs : List Nat} {edit : List Byte → Nat × Option (List Byte)}

theorem State.itemFrame_some (hi : s.hookItem t = some k) : s.itemFrame t = (s.ll k).frame.take (s.winLen k) := by
  rw [State.itemFrame, hi]

theorem State.pktEdit_noItem (hi : s.hookItem t = none) : s.pktEdit t f func srcs edit = s.pushOp t (pktOut f func srcs (hres 0x0C)) := by
  rw [State.pktEdit, hi]
  rfl

variable (hi : s.hookItem t = some k)
include hi

theorem State.pktEdit_refused {st : Nat} (he : edit (s.itemFrame t) = (st, none)) : s.pktEdit t f func srcs edit = s.pushOp t (pktOut f func srcs (hres st)) := by
  rw [State.itemFrame_some hi] at he
  simp only [State.pktEdit, hi, he]
  rfl

theorem State.pktEdit_edits {st : Nat} {fr : List Byte} (he : edit (s.itemFrame t) = (st, some fr)) (h0 : fr ≠ []) (h1 : fr.length ≤ 16383) :
    s.pktEdit t f func srcs edit = (s.setLl k { s.ll k with frame := fr }).pushOp t (pktOut f func srcs (hres st fr.length)) := by
  rw [State.itemFrame_some hi] at he
  have good : (decide (fr.length = 0) || decide (16383 < fr.length)) = false := by
    rw [decide_eq_false (mt List.length_eq_zero_iff.1 h0), decide_eq_false (Nat.not_lt.2 h1)]
    rfl
  simp only [State.pktEdit, hi, he, good, Bool.false_eq_true, if_false]
  rfl

end

theorem State.hookReady_ll (s : State) (t k : Nat) : (s.hookReady t).ll k = s.ll k := rfl
theorem State.hookReady_setLl (s : State) (t k : Nat) (l : Lifeline) : (s.hookReady t).setLl k l = (s.setLl k l).withStrands (s.hookReady t).strands := rfl

section
variable {s : State} {t : Nat} {f : HFmt} {d : HookDec} (h : HookTaken s t 6 f d false) {c : Instr} {func : Nat} {srcs : List Nat}
  {body : State → State} {edit : List Byte → Nat × Option (List Byte)} (hx : exec c s = .next (s.hookIssue t f d body))
  (hbody : body (s.hookReady t) = (s.hookReady t).pktEdit t f func srcs edit)
include h hx hbody

/-- An edit of no item's frame. -/
theorem HookTaken.edit_noItem (hi : s.hookItem t = none) : OpBecomes c s t (s.bank t).next (pktOut f func srcs (hres 0x0C)) :=
  h.becomes hx (hbody.trans (State.pktEdit_noItem (h.item.trans hi)))

variable {k : Nat} (hi : s.hookItem t = some k)
include hi

/-- An edit that its operands or the frame's length rule out changes nothing. -/
theorem HookTaken.edit_refused {st : Nat} (he : edit (s.itemFrame t) = (st, none)) : OpBecomes c s t (s.bank t).next (pktOut f func srcs (hres st)) :=
  h.becomes hx (hbody.trans (State.pktEdit_refused (h.item.trans hi) (by rw [h.itemFrame]; exact he)))

/-- An edit replaces the frame of the item's lifeline and nothing else. -/
theorem HookTaken.edit_changes {st : Nat} {fr : List Byte} (he : edit (s.itemFrame t) = (st, some fr)) (h0 : fr ≠ []) (h1 : fr.length ≤ 16383) :
    OpChanges c s (s.setLl k { s.ll k with frame := fr }) t (pktOut f func srcs (hres st fr.length)) := by
  have done := State.pktEdit_edits (s := s.hookReady t) (f := f) (func := func) (srcs := srcs) (h.item.trans hi) (by rw [h.itemFrame]; exact he) h0 h1
  rw [State.hookReady_ll, State.hookReady_setLl] at done
  exact h.changes hx (hbody.trans done)

end

-- The edits (R187): what they answer for a frame, and the frame that they leave.

def wrEdit (o : Nat) (bs : List Byte) (n : Nat) (fr : List Byte) : Nat × Option (List Byte) :=
  if fr.length < o + n then (0x0B, none) else (0x00, some (overlay fr bs o))

def insEdit (o n : Nat) (bs : List Byte) (fr : List Byte) : Nat × Option (List Byte) :=
  if n = 0 || 256 < n then (0x05, none)
  else if fr.length ≤ o then (0x0B, none)
  else (0x00, some (fr.take o ++ sliceZ bs 0 n ++ fr.drop o))

def stripEdit (o n : Nat) (fr : List Byte) : Nat × Option (List Byte) :=
  if fr.length < o + n then (0x0B, none) else (0x00, some (fr.take o ++ fr.drop (o + n)))

def moveEdit (d o n : Nat) (fr : List Byte) : Nat × Option (List Byte) :=
  if fr.length < o + n || fr.length < d + n then (0x0B, none) else (0x00, some (overlay fr ((fr.drop o).take n) d))

/-- What PKT_RD answers: bytes beyond the frame read as zero. -/
def State.pktRdVal (s : State) (t : Nat) (f : HFmt) : HWord :=
  match s.hookItem t with
  | none => hres 0x0C
  | some _ => ofHbytes (sliceZ (s.itemFrame t) (off14 (s.hval t f.ha.toNat) 0) (f.md.toNat + 1))

theorem exec_pktRd (s : State) (t : Nat) (f : HFmt) : exec (.pktRd t f) s = .next (s.hookIssue t f { hook := 6, func := 0, useMd := true, srcs := [f.ha.toNat] }
    fun s => s.pushOp t (pktOut f 0 [f.ha.toNat] (s.pktRdVal t f))) := by
  refine congrArg (fun b => Host.Outcome.next (s.hookIssue t f { hook := 6, func := 0, useMd := true, srcs := [f.ha.toNat] } b)) (funext fun u => ?_)
  unfold State.pktRdVal
  cases u.hookItem t <;> rfl

theorem exec_pktWr (s : State) (t : Nat) (f : HFmt) :
    exec (.pktWr t f) s = .next (s.hookIssue t f { hook := 6, func := 1, useHb := true, useMd := true, srcs := [f.ha.toNat, f.hb.toNat] } fun s =>
      s.pktEdit t f 1 [f.ha.toNat, f.hb.toNat] (wrEdit (off14 (s.hval t f.hb.toNat) 0) (s.hbytesOf t f.ha.toNat (f.md.toNat + 1)) (f.md.toNat + 1))) := rfl

theorem exec_pktIns (s : State) (t : Nat) (f : HFmt) :
    exec (.pktIns t f) s = .next (s.hookIssue t f { hook := 6, func := 2, useHb := true, srcs := [f.ha.toNat, f.hb.toNat] } fun s =>
      s.pktEdit t f 2 [f.ha.toNat, f.hb.toNat] (insEdit (off14 (s.hval t f.hb.toNat) 0) (bits (hlane (s.hval t f.hb.toNat) 1).toNat 0 9)
        (s.hbytesOf t f.ha.toNat (min (bits (hlane (s.hval t f.hb.toNat) 1).toNat 0 9) 16)))) := rfl

theorem exec_pktStrip (s : State) (t : Nat) (f : HFmt) :
    exec (.pktStrip t f) s = .next (s.hookIssue t f { hook := 6, func := 3, useHa := false, useHb := true, srcs := [f.hb.toNat] } fun s =>
      s.pktEdit t f 3 [f.hb.toNat] (stripEdit (off14 (s.hval t f.hb.toNat) 0) (off14 (s.hval t f.hb.toNat) 1))) := rfl

theorem exec_pktMove (s : State) (t : Nat) (f : HFmt) :
    exec (.pktMove t f) s = .next (s.hookIssue t f { hook := 6, func := 4, useHa := false, useHb := true, srcs := [f.hb.toNat] } fun s =>
      s.pktEdit t f 4 [f.hb.toNat] (moveEdit (off14 (s.hval t f.hb.toNat) 0) (off14 (s.hval t f.hb.toNat) 1) (off14 (s.hval t f.hb.toNat) 2))) := rfl

section
variable {s : State} {t : Nat} {f : HFmt} (ho : SMap.sorted s.strands = true) (h : HookRuns s t 6 0 f [f.hd.toNat])
include ho h

/-- An operation of hook 6 is taken at once. -/
theorem HookRuns.pktTaken {d : HookDec} (hd : d.hook = 6 ∧ d.refuse = none ∧ d.refDeps = []) (fits : d.Fits f) (hs : (s.strand t).hookArrived d.srcs = true) :
    HookTaken s t 6 f d false := by
  obtain ⟨unit, allowed, deps⟩ := hd
  exact h.taken ho ⟨unit, allowed, by rw [deps]; rfl⟩ fits (fun _ => h.hdArrived) hs (h.1.reaches (by decide) _) Bool.noConfusion

theorem HookRuns.pktRd (hb : f.hb = 0#4) (hs : (s.strand t).hookArrived [f.ha.toNat] = true) :
    OpBecomes (.pktRd t f) s t (s.bank t).next (pktOut f 0 [f.ha.toNat] (s.pktRdVal t f)) := by
  have taken := h.pktTaken ho (d := { hook := 6, func := 0, useMd := true, srcs := [f.ha.toNat] }) ⟨rfl, rfl, rfl⟩ ⟨rfl, .inl rfl, .inl rfl, .inr hb, .inl rfl, ha_lt_sixteen f⟩ hs
  refine taken.becomes (exec_pktRd s t f) ?_
  rw [State.pktRdVal, taken.item, taken.itemFrame, taken.hval, State.pktRdVal]

/-- The operations on HA and HB. -/
theorem HookRuns.pktWrTaken (hs : (s.strand t).hookArrived [f.ha.toNat, f.hb.toNat] = true) :
    HookTaken s t 6 f { hook := 6, func := 1, useHb := true, useMd := true, srcs := [f.ha.toNat, f.hb.toNat] } false :=
  h.pktTaken ho ⟨rfl, rfl, rfl⟩ ⟨rfl, .inl rfl, .inl rfl, .inl rfl, .inl rfl, two_lt_sixteen _ _⟩ hs

variable (hm : f.md = 0#4)
include hm

theorem HookRuns.pktPairTaken (func : Nat) (hs : (s.strand t).hookArrived [f.ha.toNat, f.hb.toNat] = true) :
    HookTaken s t 6 f { hook := 6, func := func, useHb := true, srcs := [f.ha.toNat, f.hb.toNat] } false :=
  h.pktTaken ho ⟨rfl, rfl, rfl⟩ ⟨rfl, .inl rfl, .inl rfl, .inl rfl, .inr hm, two_lt_sixteen _ _⟩ hs

/-- The operations on HB alone. -/
theorem HookRuns.pktOneTaken (func : Nat) (ha : f.ha = 0#4) (hs : (s.strand t).hookArrived [f.hb.toNat] = true) :
    HookTaken s t 6 f { hook := 6, func := func, useHa := false, useHb := true, srcs := [f.hb.toNat] } false :=
  h.pktTaken ho ⟨rfl, rfl, rfl⟩ ⟨rfl, .inl rfl, .inr ha, .inl rfl, .inr hm, fun r hr => two_lt_sixteen f.ha f.hb r (List.mem_cons_of_mem _ hr)⟩ hs

end

/-- ACF_UNPACK without an item (R187). -/
theorem HookRuns.acfUnpack_noItem {s : State} {t : Nat} {f : HFmt} (ho : SMap.sorted s.strands = true) (h : HookRuns s t 6 0 f [f.hd.toNat]) (hm : f.md = 0#4)
    (hs : (s.strand t).hookArrived [f.ha.toNat, f.hb.toNat] = true) (hi : s.hookItem t = none) :
    OpBecomes (.acfUnpack t f) s t (s.bank t).next (pktOut f 9 [f.ha.toNat, f.hb.toNat] (hres 0x0C)) := by
  have taken := h.pktPairTaken ho hm 9 hs
  have item : (s.hookReady t).hookItem t = none := taken.item.trans hi
  refine taken.becomes rfl ?_
  rw [item]
  rfl

-- The edits whose operands fit the frame, and those whose do not.

theorem wrEdit_fits {o n : Nat} {bs fr : List Byte} (h : o + n ≤ fr.length) : wrEdit o bs n fr = (0x00, some (overlay fr bs o)) := if_neg (Nat.not_lt.2 h)
theorem wrEdit_range {o n : Nat} {bs fr : List Byte} (h : fr.length < o + n) : wrEdit o bs n fr = (0x0B, none) := if_pos h

theorem insEdit_bad {o n : Nat} {bs fr : List Byte} (h : n = 0 ∨ 256 < n) : insEdit o n bs fr = (0x05, none) := if_pos (by simpa using h)
theorem insEdit_fits {o n : Nat} {bs fr : List Byte} (h0 : 0 < n) (h1 : n ≤ 256) (h : o < fr.length) :
    insEdit o n bs fr = (0x00, some (fr.take o ++ sliceZ bs 0 n ++ fr.drop o)) := by
  have good : (decide (n = 0) || decide (256 < n)) = false := by
    rw [decide_eq_false (by omega), decide_eq_false (by omega)]
    rfl
  rw [insEdit, good, if_neg Bool.false_ne_true, if_neg (Nat.not_le.2 h)]

theorem stripEdit_fits {o n : Nat} {fr : List Byte} (h : o + n ≤ fr.length) : stripEdit o n fr = (0x00, some (fr.take o ++ fr.drop (o + n))) := if_neg (Nat.not_lt.2 h)
theorem stripEdit_range {o n : Nat} {fr : List Byte} (h : fr.length < o + n) : stripEdit o n fr = (0x0B, none) := if_pos h

theorem moveEdit_range {d o n : Nat} {fr : List Byte} (h : fr.length < o + n ∨ fr.length < d + n) : moveEdit d o n fr = (0x0B, none) := if_pos (by simpa using h)
theorem moveEdit_fits {d o n : Nat} {fr : List Byte} (h1 : o + n ≤ fr.length) (h2 : d + n ≤ fr.length) :
    moveEdit d o n fr = (0x00, some (overlay fr ((fr.drop o).take n) d)) := by
  have good : (decide (fr.length < o + n) || decide (fr.length < d + n)) = false := by
    rw [decide_eq_false (Nat.not_lt.2 h1), decide_eq_false (Nat.not_lt.2 h2)]
    rfl
  rw [moveEdit, good, if_neg Bool.false_ne_true]

/-- Settles O31: what ALLOC and FREE do in each case, and each edit of the item's frame. -/
theorem hookBuffers : Obligations.HookBuffers := by
  intro s t f ho _ o a b ha hb arrived
  have charged : mkTag false (panelOf t) (kOf t) = 1 + 4 * (t / 416) + 8 * (t % 416) := by rw [mkTag, panelOf, kOf]; rfl
  refine ⟨fun hz h => ⟨fun bad => h.alloc_bad ho hz bad, fun p hi h0 h1 hp hc hr hn => ?_, fun hm no => h.free_noBuffer ho hz hm no,
    fun q k hm at_ hi live room => h.free_staged ho hz hm at_ hi live room⟩, fun h hi => ?_, fun k h hi => ?_⟩
  · have takes := h.alloc_takes ho hz hi h0 h1 hp hc hr hn
    rw [State.takenBuf, charged] at takes
    exact takes
  · have val : s.pktRdVal t f = hres 0x0C := by rw [State.pktRdVal, hi]
    refine ⟨fun hz hs => ?_, fun hs => (h.pktWrTaken ho hs).edit_noItem (exec_pktWr s t f) rfl hi,
      fun hm hs => ⟨(h.pktPairTaken ho hm 2 hs).edit_noItem (exec_pktIns s t f) rfl hi, h.acfUnpack_noItem ho hm hs hi⟩,
      fun hz hm hs => ⟨(h.pktOneTaken ho hm 3 hz hs).edit_noItem (exec_pktStrip s t f) rfl hi, (h.pktOneTaken ho hm 4 hz hs).edit_noItem (exec_pktMove s t f) rfl hi⟩⟩
    rw [← val]
    exact h.pktRd ho hz hs
  · have val : s.pktRdVal t f = ofHbytes (sliceZ (s.itemFrame t) (off14 a 0) (f.md.toNat + 1)) := by rw [State.pktRdVal, hi]
    intro fr p0 p1 p2 n edits
    refine ⟨fun hz hs => ?_, fun hs fits => ?_, fun hs range => ?_, fun hm hs => ?_, fun hz hm hs => ?_⟩
    · have read := h.pktRd ho hz hs
      rw [val] at read
      exact read
    · have taken := h.pktWrTaken ho hs
      exact taken.edit_changes (exec_pktWr s t f) rfl hi (by rw [taken.hval, taken.hbytesOf]; exact wrEdit_fits fits)
    · have taken := h.pktWrTaken ho hs
      exact taken.edit_refused (exec_pktWr s t f) rfl hi (by rw [taken.hval]; exact wrEdit_range range)
    · have taken := h.pktPairTaken ho hm 2 hs
      exact ⟨fun h0 h1 fits => taken.edit_changes (exec_pktIns s t f) rfl hi (by rw [taken.hval, taken.hbytesOf]; exact insEdit_fits h0 h1 fits),
        fun bad => taken.edit_refused (exec_pktIns s t f) rfl hi (by rw [taken.hval]; exact insEdit_bad bad)⟩
    · have strip := h.pktOneTaken ho hm 3 hz hs
      have move := h.pktOneTaken ho hm 4 hz hs
      exact ⟨fun fits => strip.edit_changes (exec_pktStrip s t f) rfl hi (by rw [strip.hval]; exact stripEdit_fits fits),
        fun range => strip.edit_refused (exec_pktStrip s t f) rfl hi (by rw [strip.hval]; exact stripEdit_range range),
        fun h1 h2 => move.edit_changes (exec_pktMove s t f) rfl hi (by rw [move.hval]; exact moveEdit_fits h1 h2),
        fun range => move.edit_refused (exec_pktMove s t f) rfl hi (by rw [move.hval]; exact moveEdit_range range)⟩

end Sys2Proof.Machine
end

section
/-! PROOFS. Hook 6: the AVTP PDUs of an item's envelope (R67–R69, R187). -/

namespace Sys2Proof.Machine

section
variable (s : State) (x : SMap Strand)

theorem State.acfTime_withStrands (p stamp : Nat) : (s.withStrands x).acfTime p stamp = s.acfTime p stamp := by
  have est (q n : Nat) : (s.withStrands x).est q n = s.est q n := State.est_congr (s := s) (u := s.withStrands x) rfl rfl rfl q n
  have dom (q n : Nat) : (s.withStrands x).dom q n = s.dom q n := rfl
  have src (n lo w : Nat) : (s.withStrands x).rf R.domSrc 0 n lo w = s.rf R.domSrc 0 n lo w := rfl
  have en (n : Nat) : (s.withStrands x).domEn n = s.domEn n := rfl
  have cyclic (n : Nat) : (s.withStrands x).domCyclic n = s.domCyclic n := rfl
  have now : (s.withStrands x).now = s.now := rfl
  simp only [State.acfTime, est, dom, src, en, cyclic, now]

theorem State.acfMessages_withStrands (p : Nat) (fr : List Byte) : (s.withStrands x).acfMessages p fr = s.acfMessages p fr := by
  have bus (q : Nat) : (s.withStrands x).busId q = s.busId q := rfl
  have vendor : (s.withStrands x).vendorId = s.vendorId := rfl
  have brief : (s.withStrands x).rb R.gwAcfcfg 0 0 0 = s.rb R.gwAcfcfg 0 0 0 := rfl
  simp only [State.acfMessages, State.acfTime_withStrands, bus, vendor, brief]

/-- Parsing a message depends on the vendor's identifier alone (R68). -/
theorem State.acfParse_congr {u : State} (h : u.vendorId = s.vendorId) (m : List Byte) (v : Nat) : u.acfParse m v = s.acfParse m v := by
  simp only [State.acfParse, State.acfVendorMsg, h]

end

/-- A free value has been taken. -/
def State.drawn (s : State) : State := { s with fresh := s.fresh + 1 }

theorem State.drawn_hookReady (s : State) (t : Nat) : (s.hookReady t).drawn = s.drawn.withStrands (s.hookReady t).strands := rfl
theorem State.drawn_ll (s : State) (k : Nat) : s.drawn.ll k = s.ll k := rfl
theorem State.drawn_setLl (s : State) (x : SMap Strand) (k : Nat) (l : Lifeline) : (s.drawn.withStrands x).setLl k l = (s.drawn.setLl k l).withStrands x := rfl

/-- The PDU around ACF messages takes one free value (log entry 30). -/
theorem State.acfPdu_state (s : State) (tscf : Bool) (ha : HWord) (body : List Byte) : (s.acfPdu tscf ha body).2 = s.drawn := by
  cases tscf <;> rfl

theorem State.acfPdu_withStrands (s : State) (x : SMap Strand) (tscf : Bool) (ha : HWord) (body : List Byte) :
    ((s.withStrands x).acfPdu tscf ha body).1 = (s.acfPdu tscf ha body).1 := by
  cases tscf <;> rfl

/-- What ACF_PACK makes of a frame (R187). -/
def packEdit (f : HFmt) (pdu fr : List Byte) : Nat × Option (List Byte) :=
  if !envValid fr then (0x14, none)
  else if envKind fr = 2 && f.md.toNat = 0 then (0x05, none)
  else (0x00, some pdu)

theorem packEdit_notEnv {f : HFmt} {pdu fr : List Byte} (h : envValid fr = false) : packEdit f pdu fr = (0x14, none) := by
  rw [packEdit, h]
  rfl

theorem packEdit_packs {f : HFmt} {pdu fr : List Byte} (h : envValid fr = true) (hk : envKind fr = 2 → f.md = 1#4) : packEdit f pdu fr = (0x00, some pdu) := by
  have kind : (decide (envKind fr = 2) && decide (f.md.toNat = 0)) = false := by
    by_cases h2 : envKind fr = 2
    · rw [hk h2]
      exact Bool.and_false _
    · rw [decide_eq_false h2, Bool.false_and]
  rw [packEdit, h, kind]
  rfl

/-- The PDU that ACF_PACK makes of the item's envelope. -/
def State.packPdu (s : State) (t : Nat) (f : HFmt) : List Byte :=
  (s.acfPdu (decide (f.md.toNat = 1)) (s.hval t f.ha.toNat) (s.acfMessages (panelOf t) (s.itemFrame t))).1

theorem exec_acfPack (s : State) (t : Nat) (f : HFmt) :
    exec (.acfPack t f) s = .next (s.hookIssue t f { hook := 6, func := 0x08, useMd := true, srcs := [f.ha.toNat], mdBad := decide (1 < f.md.toNat) } fun s =>
      s.drawn.pktEdit t f 0x08 [f.ha.toNat] (packEdit f (s.packPdu t f))) := by
  refine congrArg (fun b => Host.Outcome.next (s.hookIssue t f _ b)) (funext fun u => ?_)
  rw [← State.acfPdu_state u (decide (f.md.toNat = 1)) (u.hval t f.ha.toNat) (u.acfMessages (panelOf t) (u.itemFrame t))]
  rfl

theorem HookTaken.packPdu {s : State} {t : Nat} {f : HFmt} {d : HookDec} (h : HookTaken s t 6 f d false) : (s.hookReady t).packPdu t f = s.packPdu t f := by
  rw [State.packPdu, h.hval, h.itemFrame, State.hookReady_withStrands, State.acfMessages_withStrands, State.acfPdu_withStrands, State.packPdu]

section
variable {s : State} {t k : Nat} {f : HFmt} (ho : SMap.sorted s.strands = true) (h : HookRuns s t 6 8 f [f.hd.toNat, f.ha.toNat])
  (hb : f.hb = 0#4) (hm : f.md.toNat ≤ 1)
include ho h hb hm

theorem HookRuns.packTaken : HookTaken s t 6 f { hook := 6, func := 0x08, useMd := true, srcs := [f.ha.toNat], mdBad := decide (1 < f.md.toNat) } false :=
  h.taken ho ⟨rfl, rfl, rfl⟩ ⟨decide_eq_false (Nat.not_lt.2 hm), .inl rfl, .inl rfl, .inr hb, .inl rfl, ha_lt_sixteen f⟩ (fun _ => h.hdArrived)
    (hookArrived_cons.1 h.1.arrived).2 (h.1.reaches (by decide) _) Bool.noConfusion

variable (hi : s.hookItem t = some k)
include hi

/-- ACF_PACK of a valid envelope (R187). -/
theorem HookRuns.acfPack_packs (valid : envValid (s.itemFrame t) = true) (kind : envKind (s.itemFrame t) = 2 → f.md = 1#4) (h0 : s.packPdu t f ≠ [])
    (h1 : (s.packPdu t f).length ≤ 16383) :
    OpChanges (.acfPack t f) s (s.drawn.setLl k { s.ll k with frame := s.packPdu t f }) t (pktOut f 8 [f.ha.toNat] (hres 0x00 (s.packPdu t f).length)) := by
  have taken := h.packTaken ho hb hm
  have item : (s.hookReady t).drawn.hookItem t = some k := taken.item.trans hi
  have frame : (s.hookReady t).drawn.itemFrame t = s.itemFrame t := taken.itemFrame
  have done := State.pktEdit_edits (f := f) (func := 0x08) (srcs := [f.ha.toNat]) item (by rw [frame]; exact packEdit_packs valid kind) h0 h1
  rw [State.drawn_ll, State.hookReady_ll, State.drawn_hookReady, State.drawn_setLl, ← State.drawn_hookReady, ← taken.packPdu] at done
  rw [← taken.packPdu]
  exact taken.changes (exec_acfPack s t f) done

/-- Of what is not one. -/
theorem HookRuns.acfPack_notEnv (bad : envValid (s.itemFrame t) = false) :
    OpChanges (.acfPack t f) s s.drawn t (pktOut f 8 [f.ha.toNat] (hres 0x14)) := by
  have taken := h.packTaken ho hb hm
  have item : (s.hookReady t).drawn.hookItem t = some k := taken.item.trans hi
  have frame : (s.hookReady t).drawn.itemFrame t = s.itemFrame t := taken.itemFrame
  exact taken.changes (exec_acfPack s t f) (State.pktEdit_refused item (by rw [frame]; exact packEdit_notEnv bad))

end

/-- What ACF_UNPACK leaves of a message that it has parsed, for an item with frame `fr` (R187). -/
def State.unpackBody (s : State) (t : Nat) (f : HFmt) (fr : List Byte) (o a : Nat) (r : AcfRes) : State :=
  let done (s : State) (v : HWord) : State := s.hookDone t 6 0x09 f.hd [f.ha.toNat, f.hb.toNat] v
  if r.status ≠ 0x00 then
    let s := match acfCounter r.status with | some n => s.countP (panelOf t) n | none => s
    done s (hres r.status)
  else
    let room := match s.bufferAt a with | some (p, _) => s.poolSize p | none => 0
    if room < r.env.length then done s (hres 0x0B)
    else
      let next := if o + r.size + 4 ≤ fr.length then o + r.size else 0
      done (s.devWrite (panelOf t) a r.env) (hres 0x00 next r.bus r.env.length)

theorem exec_acfUnpack (s : State) (t : Nat) (f : HFmt) :
    exec (.acfUnpack t f) s = .next (s.hookIssue t f { hook := 6, func := 0x09, useHb := true, srcs := [f.ha.toNat, f.hb.toNat] } fun s =>
      match s.hookItem t with
      | none => s.hookDone t 6 0x09 f.hd [f.ha.toNat, f.hb.toNat] (hres 0x0C)
      | some _ => s.drawn.unpackBody t f (s.itemFrame t) (off14 (s.hval t f.ha.toNat) 0) (bits (s.hval t f.hb.toNat).toNat 0 40)
          (s.drawn.acfParse ((s.itemFrame t).drop (off14 (s.hval t f.ha.toNat) 0)) (Config.freeNat s.fresh))) := rfl

theorem State.unpackBody_writes {s : State} {t : Nat} {f : HFmt} {fr : List Byte} {o a q i : Nat} {r : AcfRes} (hr : r.status = 0)
    (hb : s.bufferAt a = some (q, i)) (hl : r.env.length ≤ s.poolSize q) : s.unpackBody t f fr o a r =
      (s.devWrite (panelOf t) a r.env).pushOp t (pktOut f 9 [f.ha.toNat, f.hb.toNat]
        (hres 0x00 (if o + r.size + 4 ≤ fr.length then o + r.size else 0) r.bus r.env.length)) := by
  simp only [State.unpackBody, hr, hb, ne_eq, not_true, if_false, Nat.not_lt.2 hl]
  rfl

/-- ACF_UNPACK of a good message (R187). -/
theorem HookRuns.acfUnpack_writes {s : State} {t k q i : Nat} {f : HFmt} {r : AcfRes} (ho : SMap.sorted s.strands = true)
    (h : HookRuns s t 6 8 f [f.hd.toNat, f.ha.toNat]) (hi : s.hookItem t = some k) (hm : f.md = 0#4) (hs : (s.strand t).hookArrived [f.hb.toNat] = true)
    (parsed : s.acfParse ((s.itemFrame t).drop (off14 (s.hval t f.ha.toNat) 0)) (Config.freeNat s.fresh) = r) (hr : r.status = 0)
    (hb : s.bufferAt (bits (s.hval t f.hb.toNat).toNat 0 40) = some (q, i)) (hl : r.env.length ≤ s.poolSize q) :
    OpChanges (.acfUnpack t f) s (s.drawn.devWrite (panelOf t) (bits (s.hval t f.hb.toNat).toNat 0 40) r.env) t
      (pktOut f 9 [f.ha.toNat, f.hb.toNat] (hres 0x00
        (if off14 (s.hval t f.ha.toNat) 0 + r.size + 4 ≤ (s.itemFrame t).length then off14 (s.hval t f.ha.toNat) 0 + r.size else 0) r.bus r.env.length)) := by
  have taken := h.taken (lookup := false) ho (d := { hook := 6, func := 0x09, useHb := true, srcs := [f.ha.toNat, f.hb.toNat] }) ⟨rfl, rfl, rfl⟩
    ⟨rfl, .inl rfl, .inl rfl, .inl rfl, .inr hm, two_lt_sixteen _ _⟩ (fun _ => h.hdArrived) (hookArrived_cons.2 ⟨(hookArrived_cons.1 h.1.arrived).2, hs⟩)
    (h.1.reaches (by decide) _) Bool.noConfusion
  have parse (m : List Byte) (v : Nat) : (s.hookReady t).drawn.acfParse m v = s.acfParse m v := State.acfParse_congr (s := s) (u := (s.hookReady t).drawn) rfl m v
  have fresh : (s.hookReady t).fresh = s.fresh := rfl
  have item : (s.hookReady t).hookItem t = some k := taken.item.trans hi
  refine taken.changes (exec_acfUnpack s t f) ?_
  rw [item]
  dsimp only
  rw [taken.hval, taken.hval, taken.itemFrame, parse, fresh, parsed, State.unpackBody_writes (s := (s.hookReady t).drawn) hr hb hl, State.drawn_hookReady,
    State.devWrite_withStrands]

end Sys2Proof.Machine
end

section
/-! PROOFS. A unit's results and waits: the arrival of a result, a decode that waits too long, and the operation that its unit holds (R172–R176). -/

namespace Sys2Proof.Machine

-- The search for the first operation that can execute.

theorem firstFrom_none {p : Nat → Bool} : ∀ {n k : Nat}, (∀ i, k ≤ i → i < k + n → p i = false) → firstFrom n k p = none
  | 0, _, _ => rfl
  | n + 1, k, h => by
    rw [firstFrom, h k (Nat.le_refl k) (by omega), if_neg Bool.false_ne_true]
    exact firstFrom_none fun i hi hn => h i (by omega) (by omega)

/-- The units execute nothing of a strand none of whose operations can execute. -/
theorem State.runHeld_stays {s : State} {t : Nat} (h : ∀ i, s.canRun t i = false) : ∀ n, s.runHeld t n = s
  | 0 => rfl
  | n + 1 => by
    have none : firstIdx (s.strand t).ops.length (s.canRun t) = none := firstFrom_none fun i _ _ => h i
    rw [State.runHeld, none]

/-- No operation that has not been held can execute. -/
theorem State.canRun_notHeld {s : State} {t : Nat} (h : ∀ q ∈ (s.strand t).ops, q.wait ≠ .held) (i : Nat) : s.canRun t i = false := by
  simp only [State.canRun]
  split
  · rfl
  · next o e => simp only [h o (List.mem_of_getElem? e), decide_false, Bool.false_and]

/-- A strand's state is what a held operation's turn reads. -/
theorem State.runHeld_runs {s : State} {t n : Nat} {o : HookOp} (h : (s.strand t).ops = [o]) (hc : s.canRun t 0 = true) :
    s.runHeld t (n + 1) = (s.runOp t 0).runHeld t n := by
  have first : firstIdx (s.strand t).ops.length (s.canRun t) = some 0 := by
    rw [h]
    exact if_pos hc
  rw [State.runHeld, first]

-- The strand that a result has reached.

theorem Strand.ops_setBk (x : Strand) (b : Bool) (y : Bank) : (x.setBk b y).ops = x.ops := by
  cases b <;> rfl

theorem Strand.running_setBk (x : Strand) (b : Bool) (y : Bank) : (x.setBk b y).running = x.running := by
  cases b <;> rfl

/-- A result is captured by held operations alone. -/
theorem Strand.capture_notHeld {x : Strand} (h : ∀ q ∈ x.ops, q.wait ≠ .held) (bank r : Nat) (v : HWord) : x.capture bank r v = x := by
  have same : (x.ops.map fun o =>
      if o.wait = .held && decide (o.bank = bank) && o.srcs.contains r && (SMap.find o.caps r).isNone then { o with caps := SMap.put o.caps r v } else o) = x.ops := by
    refine (List.map_congr_left fun o ho => ?_).trans (List.map_id _)
    rw [decide_eq_false (h o ho)]
    rfl
  rw [Strand.capture, same]

/-- Strand `x` once operation `i`, `o`, has delivered its result (R172). -/
def Strand.delivered (x : Strand) (i : Nat) (o : HookOp) : Strand :=
  let b := decide (o.bank = 1)
  let x := { x with ops := x.ops.eraseIdx i }
  match o.hd with
  | some r => (x.setBk b ((x.bk b).wh r o.val)).capture o.bank r o.val
  | none => x

/-- The result of an operation that has executed, behind none of its unit's, arrives (R173). -/
theorem exec_hookResultArrive {s : State} {t i : Nat} {o : HookOp} (ho : (s.strand t).ops[i]? = some o) (may : (s.strand t).opMayArrive i = true) (h1 : o.hook ≠ 1) :
    exec (.hookResultArrive t i) s = .next ((s.setStrand t ((s.strand t).delivered i o)).runHeld t 8) := by
  have lookup : (decide (o.hook = 1) && decide (o.off = 1)) = false := by rw [decide_eq_false h1, Bool.false_and]
  show execHookResultArrive t i s = _
  unfold execHookResultArrive
  dsimp only
  rw [ho]
  dsimp only
  rw [may, lookup]
  rfl

/-- It is written to its register, both copies, and is outstanding no longer; with no operation held that is all (R172). -/
theorem exec_hookResultArrive_notHeld {s : State} {t i : Nat} {o : HookOp} (hs : SMap.sorted s.strands = true) (ho : (s.strand t).ops[i]? = some o)
    (may : (s.strand t).opMayArrive i = true) (h1 : o.hook ≠ 1) (held : ∀ q ∈ (s.strand t).ops, q.wait ≠ .held) :
    let x := { s.strand t with ops := (s.strand t).ops.eraseIdx i }
    let b := decide (o.bank = 1)
    ∃ u, exec (.hookResultArrive t i) s = .next u ∧ Became s u t (match o.hd with
      | some r => x.setBk b { x.bk b with h := SMap.set (x.bk b).h 0#128 r o.val, hc := SMap.set (x.bk b).hc 0#128 r o.val }
      | none => x) := by
  intro x b
  have left : ∀ q ∈ x.ops, q.wait ≠ .held := fun q hq => held q (List.mem_of_mem_eraseIdx hq)
  have delivered : (s.strand t).delivered i o = match o.hd with
      | some r => x.setBk b { x.bk b with h := SMap.set (x.bk b).h 0#128 r o.val, hc := SMap.set (x.bk b).hc 0#128 r o.val }
      | none => x := by
    unfold Strand.delivered
    cases o.hd with
    | none => rfl
    | some r => exact Strand.capture_notHeld (by rw [Strand.ops_setBk]; exact left) _ _ _
  have ops : ((s.strand t).delivered i o).ops = x.ops := by
    rw [delivered]
    cases o.hd with
    | none => rfl
    | some r => exact Strand.ops_setBk _ _ _
  rw [← delivered]
  refine ⟨_, (exec_hookResultArrive ho may h1).trans (congrArg _ (State.runHeld_stays (State.canRun_notHeld ?_) 8)), became_setStrand _ _ _ hs⟩
  rw [State.strand_setStrand_self _ _ _ hs, ops]
  exact left

-- A decode that waits too long.

/-- Whether a strand may issue does not depend on what waits at its decode. -/
theorem State.mayIssue_unbusy {s : State} (hs : SMap.sorted s.strands = true) (t : Nat) : (s.setStrand t (s.strand t).unbusy).mayIssue t = s.mayIssue t := by
  simp only [State.mayIssue, State.strand_setStrand_self _ _ _ hs]
  rfl

theorem State.mayIssue_count (s : State) (g i j t : Nat) : (s.count g i j).mayIssue t = s.mayIssue t := rfl

/-- An opcode that decode refuses, at a strand that waits at no hook, traps (R123, R143). -/
theorem State.issue_emu {s : State} {t : Nat} {d : Dec} {e : Nat × Nat} {body : State → State} (hm : s.mayIssue t = true) (hb : (s.strand t).busy = none)
    (hc : (s.strand t).canFetch = true) (he : d.emu = some e) : s.issue t d body = s.trapHere t .emu e.1 e.2 d.word (s.bank t).pc ((s.bank t).pc + 4#32) := by
  simp only [State.issue, hm, hb, hc, he, Option.any_none, Bool.not_true, Bool.or_self, Bool.false_eq_true, if_false]
  rfl

section
variable {s : State} {t : Nat} {w : BusyWait} (hs : SMap.sorted s.strands = true) (hb : (s.strand t).busy = some w) (hm : s.mayIssue t = true)
  (hc : (s.strand t).canFetch = true) (late : w.since + s.rf R.hkCfg (panelOf t) (courseOf t % 4) 0 12 * cycleU s.part ≤ s.now)
include hs hm hc

/-- The refusal of an opcode that has waited, on a state that differs from `s` in nothing that decode reads. -/
theorem State.issue_refusesWait {u : State} (hu : u.strands = (s.setStrand t (s.strand t).unbusy).strands)
    (same : u.mayIssue t = (s.setStrand t (s.strand t).unbusy).mayIssue t) (word : Word) (e : Nat × Nat) :
    u.issue t { word := word, g := BitVec.ofNat 4 (bits word.toNat 28 4), emu := some e } id =
      u.trapHere t .emu e.1 e.2 word (s.bank t).pc ((s.bank t).pc + 4#32) := by
  have strand : u.strand t = (s.strand t).unbusy := by
    rw [State.strand, hu]
    exact State.strand_setStrand_self _ _ _ hs
  have bank : u.bank t = s.bank t := by
    rw [State.bank, strand]
    rfl
  rw [State.issue_emu (by rw [same, State.mayIssue_unbusy hs, hm]) (by rw [strand]; rfl) (by rw [strand]; exact hc) rfl, bank]

include hb late

/-- A unit that has been fenced (R176). -/
theorem exec_hookBusyTimeout_gone (gone : s.isFenced (panelOf t) 3 (courseOf t * 8 + w.hook) = true) :
    exec (.hookBusyTimeout t) s = .next ((s.setStrand t (s.strand t).unbusy).trapHere t .emu 3 1 w.word (s.bank t).pc ((s.bank t).pc + 4#32)) := by
  show execHookBusyTimeout t s = _
  simp only [execHookBusyTimeout, hb, hm, gone, Nat.not_lt.2 late, Bool.not_true, decide_false, Bool.or_self, Bool.false_eq_true, if_false, if_true]
  exact congrArg _ (State.issue_refusesWait hs hm hc rfl rfl _ _)

variable (here : s.isFenced (panelOf t) 3 (courseOf t * 8 + w.hook) = false)
include here

/-- One that still keeps it (R173). -/
theorem exec_hookBusyTimeout_refuses (kept : s.keptBusy t w.hook w.deps w.lookup = true) :
    exec (.hookBusyTimeout t) s = .next (((s.setStrand t (s.strand t).unbusy).count 5 (courseOf t) 2).trapHere t .emu 4 2 w.word
      (s.bank t).pc ((s.bank t).pc + 4#32)) := by
  show execHookBusyTimeout t s = _
  have refused := State.issue_refusesWait (u := (s.setStrand t (s.strand t).unbusy).count 5 (courseOf t) 2) hs hm hc rfl (State.mayIssue_count _ _ _ _ _) w.word (4, 2)
  simp only [execHookBusyTimeout, hb, hm, here, kept, Nat.not_lt.2 late, Bool.not_true, decide_false, Bool.or_self, Bool.false_eq_true, if_false]
  exact congrArg _ refused

omit hs hc in
/-- One that would take it now. -/
theorem exec_hookBusyTimeout_free (free : s.keptBusy t w.hook w.deps w.lookup = false) : exec (.hookBusyTimeout t) s = .next s := by
  show execHookBusyTimeout t s = _
  simp only [execHookBusyTimeout, hb, hm, here, free, Nat.not_lt.2 late, Bool.not_true, Bool.not_false, decide_false, Bool.or_self, Bool.false_eq_true, if_false,
    if_true]

end

end Sys2Proof.Machine
end

section
/-! PROOFS. An operation that its unit holds, and its execution when the last source arrives (R173). -/

namespace Sys2Proof.Machine

/-- A unit takes an operation and holds it (R173). -/
theorem State.hookIssue_held {s : State} {t : Nat} {f : HFmt} {d : HookDec} (hs : SMap.sorted s.strands = true) (h : Runs s t f.g [] [])
    (idle : (s.strand t).running = none) (emu : s.hookEmu t f d = none) (waits : s.hookWaits t f d = false) (kept : s.keptBusy t d.hook d.refDeps false = false)
    (hr : d.refuse = none) (hold : (s.hookReady t).mustHold t d = true) (body : State → State) :
    s.hookIssue t f d body = ((s.hookReady t).holdOp t f d).stepDone t := by
  have run := State.issue_runs (d := { word := f.word d.hook d.func, g := f.g }) (body := fun s => if s.mustHold t d then s.holdOp t f d else body s)
    (Runs.setStrand_unbusy hs h.1.2.1 h) rfl rfl rfl (fun _ => rfl) rfl
  have hold' : ((s.setStrand t (s.strand t).unbusy).advance t).mustHold t d = true := hold
  rw [hold', if_pos rfl] at run
  obtain ⟨⟨hm, hb, hc⟩, -⟩ := h
  have idle' : (s.strand t).running.isSome = false := by rw [idle, Option.isSome_none]
  simp only [State.hookIssue, idle', emu, hm, hb, hc, waits, kept, hr, Option.isSome_none, Option.any_none, Bool.not_true,
    Bool.or_self, Bool.false_eq_true, if_false]
  exact run

/-- An operation that becomes outstanding with no other effect. -/
theorem opBecomes_of_push {s : State} {t : Nat} {c : Instr} {o : HookOp} (hs : SMap.sorted s.strands = true) (hb : (s.strand t).busy = none)
    (hr : (s.strand t).running = none) (hx : exec c s = .next (((s.hookReady t).pushOp t o).stepDone t)) : OpBecomes c s t (s.bank t).next o := by
  obtain ⟨-, own, others⟩ := became_hookReady hs hb
  have item := State.hookItem_hookReady hs hb hr
  have order : SMap.sorted (s.hookReady t).strands = true := State.sorted_setBank _ _ _ (State.sorted_setStrand _ _ _ hs)
  refine ⟨_, hx, rfl, (State.strand_setStrand_self _ t _ order).trans ?_, fun j hj => ?_⟩
  · show Strand.pushed ((s.hookReady t).strand t) t ((s.hookReady t).hookItem t) o = _
    rw [own, item, Strand.pushed_setCur hb]
  · refine (State.strand_setStrand _ t j _ order).trans ?_
    rw [if_neg (Ne.symm hj)]
    exact others j hj

/-- What decode finds in a checksum operation over HD and HA (R181). -/
def sumDec (f : HFmt) (func : Nat) : HookDec := { hook := 2, func := func, useMd := true, srcs := [f.hd.toNat, f.ha.toNat] }

/-- A checksum operation that is held, with the sources that have arrived. -/
def heldSum (f : HFmt) (func : Nat) (caps : SMap HWord) : HookOp :=
  { hook := 2, func := func, hd := some f.hd.toNat, srcs := [f.hd.toNat, f.ha.toNat], wait := .held, fmt := some f, caps := caps }

theorem holdOp_sumDec (s : State) (t : Nat) (f : HFmt) (func : Nat) : s.holdOp t f (sumDec f func) = s.pushOp t (heldSum f func
    (([f.hd.toNat, f.ha.toNat].filter fun r => (s.strand t).hookArrived [r]).foldl (fun (m : SMap HWord) r => SMap.put m r ((s.strand t).cur.rh r)) [])) := rfl

section
variable {s : State} {t : Nat} {f : HFmt} (hs : SMap.sorted s.strands = true) (hz : f.hb = 0#4) (h : Runs s t f.g [] []) (idle : (s.strand t).running = none)
  (fence : s.isFenced (t / 416) 3 (t / 104 * 8 + 2) = false) (few : (s.strand t).ops.length < 8) (hd : (s.strand t).hookArrived [f.hd.toNat] = true)
  (room : s.hookLoad (t / 104) 2 < 16) {p : (Nat → HFmt → Instr) × Nat × (Nat → List Byte → Nat)} (hp : p ∈ sumOps)
include hs hz h idle fence few hd room hp

/-- A checksum operation that its unit holds keeps the sources `l` that have arrived. -/
theorem exec_sumOps_held {l : List Nat} (hl : ([f.hd.toNat, f.ha.toNat].filter fun r => (s.strand t).hookArrived [r]) = l)
    (hold : (s.strand t).hookArrived [f.hd.toNat, f.ha.toNat] = false ∨ ((s.strand t).ops.any fun o => !o.isReady && decide (o.hook = 2)) = true) :
    OpBecomes (p.1 t f) s t (s.bank t).next (heldSum f p.2.1 (l.foldl (fun m r => SMap.put m r ((s.bank t).rh r)) [])) := by
  have hb := h.1.2.1
  obtain ⟨-, own, -⟩ := became_hookReady hs hb
  have arrived (l : List Nat) : ((s.strand t).setCur (s.bank t).next).hookArrived l = (s.strand t).hookArrived l := by
    simp only [Strand.hookArrived, Strand.setCur_ops, Strand.setCur_inB1]
  have fits : (sumDec f p.2.1).Fits f := ⟨rfl, .inl rfl, .inl rfl, .inr hz, .inl rfl, two_lt_sixteen _ _⟩
  have waits : s.hookWaits t f (sumDec f p.2.1) = false := by
    simp only [State.hookWaits, sumDec, hd, Bool.not_true, Bool.and_false, Bool.or_false, decide_eq_false_iff_not]
    omega
  have kept : s.keptBusy t 2 [] false = false := by
    simp only [State.keptBusy, Bool.false_and, Bool.or_false, Bool.or_eq_false_iff, decide_eq_false_iff_not]
    exact ⟨Nat.not_le.2 room, rfl⟩
  have must : (s.hookReady t).mustHold t (sumDec f p.2.1) = true := by
    rcases hold with missing | waits
    · have missing : (s.strand t).hookArrived (sumDec f p.2.1).srcs = false := missing
      simp only [State.mustHold, own, arrived, missing, Bool.not_false, Bool.true_or]
    · have waits : ((s.strand t).ops.any fun o => !o.isReady && decide (o.hook = (sumDec f p.2.1).hook)) = true := waits
      simp only [State.mustHold, own, Strand.setCur_ops, waits, Bool.or_true, Bool.true_or]
  have issued := State.hookIssue_held hs h idle (fits.emu fence) waits kept rfl must (fun s => s.hookDone t 2 p.2.1 f.hd [f.hd.toNat, f.ha.toNat]
    (mkLanes (p.2.2 (s.hval t f.hd.toNat).toNat (s.hbytesOf t f.ha.toNat (f.md.toNat + 1))) 0 0 0))
  have held : (s.hookReady t).holdOp t f (sumDec f p.2.1) =
      (s.hookReady t).pushOp t (heldSum f p.2.1 (l.foldl (fun m r => SMap.put m r ((s.bank t).rh r)) [])) := by
    rw [holdOp_sumDec, own]
    simp only [arrived, hl, Strand.cur_setCur]
    rfl
  exact opBecomes_of_push hs hb idle ((exec_sumOps hp t f s).trans (congrArg _ (issued.trans (by rw [held]))))

end

-- The execution of a held operation.

/-- A held checksum operation at the head of strand `t`, of its bank `b`, that has what it needs. -/
structure HeldSum (s : State) (t b : Nat) (f : HFmt) (func : Nat) (caps : SMap HWord) : Prop where
  order : SMap.sorted s.strands = true
  only : (s.strand t).ops = [{ heldSum f func caps with bank := b, home := t / 416 }]
  lane : b < 2
  hd : (SMap.find caps f.hd.toNat).isSome = true
  ha : (SMap.find caps f.ha.toNat).isSome = true

/-- The checksum operation of row `p`, executed on the sources in `caps`. -/
def doneSum (t b : Nat) (f : HFmt) (p : (Nat → HFmt → Instr) × Nat × (Nat → List Byte → Nat)) (caps : SMap HWord) : HookOp :=
  { hook := 2, func := p.2.1, hd := some f.hd.toNat, srcs := [f.hd.toNat, f.ha.toNat], bank := b, home := t / 416,
    val := mkLanes (p.2.2 (SMap.get caps 0#128 f.hd.toNat).toNat ((hbytes (SMap.get caps 0#128 f.ha.toNat)).take (f.md.toNat + 1))) 0 0 0 }

/-- The meaning of its FUNC is its instruction's (R181). -/
theorem hookMeaning_sumOps {p : (Nat → HFmt → Instr) × Nat × (Nat → List Byte → Nat)} (hp : p ∈ sumOps) (t : Nat) (f : HFmt) (s : State) :
    hookMeaning 2 p.2.1 t f s = .next (s.sumOp t f p.2.1 fun v bs => p.2.2 v.toNat bs) := by
  rw [← exec_sumOps hp]
  simp only [sumOps, List.mem_cons, List.not_mem_nil, or_false] at hp
  obtain rfl | rfl | rfl | rfl | rfl := hp <;> rfl

/-- A source that has been kept is what the operation reads. -/
theorem State.hval_caps {s : State} {t r : Nat} {o : HookOp} (run : (s.strand t).running = some o) (h : (SMap.find o.caps r).isSome = true) :
    s.hval t r = SMap.get o.caps 0#128 r := by
  obtain ⟨v, e⟩ := Option.isSome_iff_exists.1 h
  simp only [State.hval, run, Option.bind_some, e, Option.getD_some, SMap.get]

/-- The bytes of one register. -/
theorem State.hbytesOf_one (s : State) (t r : Nat) {n : Nat} (h : n < 16) : s.hbytesOf t r (n + 1) = (hbytes (s.hval t r)).take (n + 1) := by
  have one : (n + 1 + 15) / 16 = 1 := by omega
  simp only [State.hbytesOf, one, List.range_one, List.flatMap_cons, List.flatMap_nil, List.append_nil, Nat.add_zero]

section
variable {s : State} {t b : Nat} {f : HFmt} {p : (Nat → HFmt → Instr) × Nat × (Nat → List Byte → Nat)} (hp : p ∈ sumOps) {caps : SMap HWord}
  (h : HeldSum s t b f p.2.1 caps)
include hp h

theorem HeldSum.canRun : s.canRun t 0 = true := by
  obtain ⟨-, only, -, hd, ha⟩ := h
  have cut (it : Option Nat) : s.hookCut t 2 p.2.1 it = false := sumOps_notCut hp s t it
  simp only [State.canRun, only, List.getElem?_cons_zero, heldSum, cut, List.all_cons, List.all_nil, hd, ha, List.take_zero]
  rfl

/-- The strand while its unit executes it. -/
def Strand.atWork (x : Strand) (b : Nat) (o : HookOp) : Strand := { x with ops := [], inB1 := decide (b = 1), running := some o }

/-- It executes on the sources that it has kept (R173). -/
theorem HeldSum.runOp : s.runOp t 0 = s.setStrand t { s.strand t with ops := [doneSum t b f p caps], running := none } := by
  obtain ⟨order, only, lane, hd, ha⟩ := h
  let o : HookOp := { heldSum f p.2.1 caps with bank := b, home := t / 416 }
  let x := (s.strand t).atWork b o
  have own : (s.setStrand t x).strand t = x := State.strand_setStrand_self _ _ _ order
  have run : ((s.setStrand t x).strand t).running = some o := by rw [own]; rfl
  have vd : (s.setStrand t x).hval t f.hd.toNat = SMap.get caps 0#128 f.hd.toNat := State.hval_caps run hd
  have va : (s.setStrand t x).hval t f.ha.toNat = SMap.get caps 0#128 f.ha.toNat := State.hval_caps run ha
  have item : (s.setStrand t x).hookItem t = none := by simp only [State.hookItem, run]; rfl
  have bank : b2n (decide (b = 1)) = b := by
    obtain rfl | rfl : b = 0 ∨ b = 1 := by omega
    · rfl
    · rfl
  have meaning : hookMeaning 2 p.2.1 t f (s.setStrand t x) = .next (s.setStrand t { x with ops := [doneSum t b f p caps] }) := by
    rw [hookMeaning_sumOps hp]
    simp only [State.sumOp, State.hookIssue, run, Option.isSome_some, if_true, State.hookDone, State.pushOp, item, vd, va, State.hbytesOf_one _ _ _ f.md.isLt]
    rw [State.setStrand_setStrand _ _ _ _ order, own]
    have lane' : b2n x.inB1 = b := bank
    rw [lane']
    rfl
  have done : (s.setStrand t { x with ops := [doneSum t b f p caps] }).strand t = { x with ops := [doneSum t b f p caps] } :=
    State.strand_setStrand_self _ _ _ order
  have lost : (s.strand t).lostItem o = false := rfl
  have head : (s.strand t).ops[0]? = some o := by rw [only]; rfl
  have rest : (s.strand t).ops.eraseIdx 0 = [] := by rw [only]; rfl
  have fmt : o.fmt = some f := rfl
  have acts : hookMeaning o.hook o.func t f (s.setStrand t { s.strand t with ops := [], inB1 := decide (o.bank = 1), running := some o }) =
    .next (s.setStrand t { x with ops := [doneSum t b f p caps] }) := meaning
  simp only [State.runOp, head, fmt, lost, rest, Bool.false_eq_true, if_false, acts, done]
  exact State.setStrand_setStrand _ _ _ _ order

/-- And then nothing more (R173). -/
theorem HeldSum.runHeld (n : Nat) : s.runHeld t (n + 1) = s.setStrand t { s.strand t with ops := [doneSum t b f p caps], running := none } := by
  rw [State.runHeld_runs h.only (h.canRun hp), h.runOp hp]
  refine State.runHeld_stays (State.canRun_notHeld ?_) n
  rw [State.strand_setStrand_self _ _ _ h.order]
  intro q hq
  rw [List.mem_singleton.1 hq]
  exact fun e => nomatch e

end

/-- The last source arrives, and the operation that waited for it executes (R172, R173). -/
theorem exec_hookResultArrive_runs {s : State} {t r : Nat} {f : HFmt} {o : HookOp} {c : SMap HWord} {p : (Nat → HFmt → Instr) × Nat × (Nat → List Byte → Nat)}
    (hp : p ∈ sumOps) (hs : SMap.sorted s.strands = true) (ready : o.isReady = true) (h1 : o.hook ≠ 1) (hd : o.hd = some r) (hc : SMap.sorted c = true)
    (new : SMap.find c r = none) (have_ : ∀ k, k = f.hd.toNat ∨ k = f.ha.toNat → (SMap.find c k).isSome = true ∨ k = r) (src : f.hd.toNat = r ∨ f.ha.toNat = r)
    (ops : (s.strand t).ops = [o, { heldSum f p.2.1 c with bank := o.bank, home := t / 416 }]) (lane : o.bank < 2) :
    ∃ u, exec (.hookResultArrive t 0) s = .next u ∧ u = { s with strands := u.strands } ∧ (∀ j, j ≠ t → u.strand j = s.strand j) ∧
      (u.strand t).ops = [doneSum t o.bank f p (SMap.put c r o.val)] := by
  have first : (s.strand t).ops[0]? = some o := by rw [ops]; rfl
  have may : (s.strand t).opMayArrive 0 = true := by
    simp only [Strand.opMayArrive, first, ready, List.take_zero, List.all_nil, Bool.and_self]
  let x := (s.strand t).delivered 0 o
  have put (k : Nat) : SMap.find (SMap.put c r o.val) k = if r = k then some o.val else SMap.find c k := SMap.find_put _ _ _ _ hc
  have kept {k : Nat} (hk : k = f.hd.toNat ∨ k = f.ha.toNat) : (SMap.find (SMap.put c r o.val) k).isSome = true := by
    rw [put]
    split
    · rfl
    · next ne => exact (have_ k hk).resolve_right (Ne.symm ne)
  have rest : (s.strand t).ops.eraseIdx 0 = [{ heldSum f p.2.1 c with bank := o.bank, home := t / 416 }] := by rw [ops]; rfl
  have waits : [f.hd.toNat, f.ha.toNat].contains r = true := by
    rcases src with rfl | rfl <;> simp only [List.contains_cons, beq_self_eq_true, Bool.true_or, Bool.or_true]
  have captured : x.ops = [{ heldSum f p.2.1 (SMap.put c r o.val) with bank := o.bank, home := t / 416 }] := by
    simp only [x, Strand.delivered, hd, Strand.capture, Strand.ops_setBk, rest, List.map_cons, List.map_nil, heldSum, waits, new, decide_true, Option.isNone_none,
      Bool.and_self, if_true]
  have strand : (s.setStrand t x).strand t = x := State.strand_setStrand_self _ _ _ hs
  have held : HeldSum (s.setStrand t x) t o.bank f p.2.1 (SMap.put c r o.val) :=
    ⟨State.sorted_setStrand _ _ _ hs, by rw [strand]; exact captured, lane, kept (.inl rfl), kept (.inr rfl)⟩
  have runs := held.runHeld hp 7
  rw [State.setStrand_setStrand _ _ _ _ hs] at runs
  refine ⟨_, (exec_hookResultArrive first may h1).trans (congrArg _ runs), rfl, fun j hj => ?_, ?_⟩
  · rw [State.strand_setStrand _ _ _ _ hs, if_neg (Ne.symm hj)]
  · rw [State.strand_setStrand_self _ _ _ hs]

/-- Settles O32: ACF_PACK and ACF_UNPACK of hook 6, the arrival of a result, the decode that waits too long, and the operation that is held. -/
theorem hookAcf : Obligations.HookAcf := by
  refine ⟨fun s t k f hs _ h hi => ?_, fun s t hs => ⟨fun i o ho may h1 held => ?_, fun w hb hm hc late => ?_, fun f p hp => ?_⟩⟩
  case refine_1 =>
    intro fr o
    refine ⟨fun hz hm => ?_, fun hm arrived => ?_⟩
    · intro r
      exact ⟨fun valid kind h0 h1 => h.acfPack_packs hs hz hm hi valid kind h0 h1, fun bad => h.acfPack_notEnv hs hz hm hi bad⟩
    · intro p a r q i hr at_ fits
      exact h.acfUnpack_writes hs hi hm arrived rfl hr at_ fits
  case refine_2 => exact exec_hookResultArrive_notHeld hs ho may h1 held
  case refine_3 =>
    intro m gone
    exact ⟨fun here kept => exec_hookBusyTimeout_refuses hs hb hm hc late here kept, fun here free => exec_hookBusyTimeout_free hb hm late here free,
      fun gone => exec_hookBusyTimeout_gone hs hb hm hc late gone⟩
  case refine_4 =>
    intro hd ha x
    refine ⟨fun hz h idle fence few arrived room => ⟨fun missing => ?_, fun both older => ?_⟩, fun o r c _ ready h1 dest hc new have_ src => ?_⟩
    · have source : ([hd, ha].filter fun r => x.hookArrived [r]) = [hd] := by simp only [List.filter_cons, List.filter_nil, arrived, missing, if_true, Bool.false_eq_true, if_false]
      exact exec_sumOps_held hs hz h idle fence few arrived room hp source (.inl (Bool.eq_false_iff.2 fun both => ne_true_of_eq_false missing (hookArrived_cons.1 both).2))
    · have source : ([hd, ha].filter fun r => x.hookArrived [r]) = [hd, ha] := by simp only [List.filter_cons, List.filter_nil, arrived, both, if_true]
      obtain ⟨o, ho, h2, wait⟩ := older
      have waits : (x.ops.any fun o => !o.isReady && decide (o.hook = 2)) = true :=
        List.any_eq_true.2 ⟨o, ho, by rw [wait, decide_eq_true h2]; rfl⟩
      exact exec_sumOps_held hs hz h idle fence few arrived room hp source (.inr waits)
    · intro q ops lane v
      have get (k : Nat) (hk : k = hd ∨ k = ha) : SMap.get (SMap.put c r o.val) 0#128 k = v k := by
        rw [SMap.get, SMap.find_put _ _ _ _ hc]
        split
        · next e => rw [← e]; simp only [v, new]; rfl
        · next ne =>
          obtain ⟨w, e⟩ := Option.isSome_iff_exists.1 ((have_ k hk).resolve_right (Ne.symm ne))
          simp only [v, e]; rfl
      obtain ⟨u, hx, same, others, own⟩ := exec_hookResultArrive_runs hp hs ready h1 dest hc new have_ src ops lane
      rw [doneSum, get _ (.inl rfl), get _ (.inr rfl)] at own
      exact ⟨u, hx, same, others, own⟩

end Sys2Proof.Machine
end

section
/-! PROOFS. What every step keeps (R173): the maps that statements read are in order, and no hook unit is in the middle of an operation. Its parts, and
what follows for the accessors that every command uses. -/

namespace Sys2Proof.Machine

/-- A bank lists its registers in order. -/
structure BankOk (y : Bank) : Prop where
  g : SMap.sorted y.g = true

/-- The banks of strand `t` do, and no unit is at work on one of its operations unless `t` is one of `X`. -/
structure StrandOk (X : Nat → Prop) (t : Nat) (x : Strand) : Prop where
  bank0 : BankOk x.bank0
  bank1 : BankOk x.bank1
  running : x.running = none ∨ X t

/-- An ordering domain lists its marker slots in order. -/
structure OdomOk (o : Odom) : Prop where
  slots : SMap.sorted o.slots = true

/-- A panel's flow state lists what it adopts in order. -/
structure FlwOk (f : FlwPanel) : Prop where
  adoptUsed : SMap.sorted f.adoptUsed = true

/-- A panel's search tables list their entries in order. -/
structure TblOk (x : TblPanel) : Prop where
  ents : SMap.sorted x.ents = true
  act : SMap.sorted x.act = true

/-- What every command keeps: the maps of `State.mapsOk` are in order, and the units are at work on strands of `X` alone. -/
structure InOrder (X : Nat → Prop) (s : State) : Prop where
  regs : SMap.sorted s.regs = true
  ctrs : SMap.sorted s.ctrs = true
  strands : SMap.sorted s.strands = true
  lls : SMap.sorted s.lls = true
  odoms : SMap.sorted s.odoms = true
  doms : SMap.sorted s.doms = true
  evDone : SMap.sorted s.evDone = true
  yarns : SMap.sorted s.yrn.yarns = true
  carLists : SMap.sorted s.car.lists = true
  carSpill : SMap.sorted s.car.spill = true
  fltSlots : SMap.sorted s.flt.slots = true
  fltFenced : SMap.sorted s.flt.fenced = true
  drmDue : SMap.sorted s.drm.due = true
  drmErrTrain : SMap.sorted s.drm.errTrain = true
  drmRate : SMap.sorted s.drm.rate = true
  drmReading : SMap.sorted s.drm.reading = true
  drmRows : SMap.sorted s.drm.rows = true
  hstJrnl : SMap.sorted s.hst.jrnl = true
  hstQps : SMap.sorted s.hst.qps = true
  hstRings : SMap.sorted s.hst.rings = true
  rcdHist : SMap.sorted s.rcd.hist = true
  secKeys : SMap.sorted s.sec.keys = true
  swaResults : SMap.sorted s.swa.results = true
  swaRun : SMap.sorted s.swa.run = true
  eachStrand : ∀ e ∈ s.strands, StrandOk X e.1 e.2
  eachOdom : ∀ e ∈ s.odoms, OdomOk e.2
  flwA : FlwOk s.flwA
  flwB : FlwOk s.flwB
  tblA : TblOk s.tbl.a
  tblB : TblOk s.tbl.b
  swtLink : SMap.sorted s.swt.link = true
  swtWentDown : SMap.sorted s.swt.wentDown = true
  swtRate : SMap.sorted s.swt.rate = true
  swtBound : SMap.sorted s.swt.bound = true
  swtParseQ : SMap.sorted s.swt.parseQ = true
  swtFrames : SMap.sorted s.swt.frames = true
  swtStreams : SMap.sorted s.swt.streams = true
  swtAdm : SMap.sorted s.swt.adm = true
  swtQs : SMap.sorted s.swt.qs = true
  swtFrer : SMap.sorted s.swt.frer = true
  swtVerified : SMap.sorted s.swt.verified = true
  swtCanTx : SMap.sorted s.swt.canTx = true
  tioPins : SMap.sorted s.tio.pins = true
  tioDead : SMap.sorted s.tio.dead = true
  tioSdmOut : SMap.sorted s.tio.sdmOut = true
  tioPeak : SMap.sorted s.tio.peak = true
  tioPhase : SMap.sorted s.tio.phase = true
  tioSeq : SMap.sorted s.tio.seq = true

/-- The same of an outcome, and of a state that there may be. -/
structure Steps (X : Nat → Prop) (o : Host.Outcome State Fault Refusal) : Prop where
  after : ∀ {u}, o = .next u → InOrder X u

structure OptInOrder (X : Nat → Prop) (o : Option State) : Prop where
  here : ∀ {u}, o = some u → InOrder X u

/-- What a state keeps is what `State.mapsOk` and `State.unitsIdle` ask for. -/
theorem InOrder.mapsOk {X : Nat → Prop} {s : State} (h : InOrder X s) : s.mapsOk = true := by
  have strands : (s.strands.all fun e => SMap.sorted e.2.bank0.g && SMap.sorted e.2.bank1.g) = true := by
    refine List.all_eq_true.2 fun e he => ?_
    rw [(h.eachStrand e he).bank0.g, (h.eachStrand e he).bank1.g]
    rfl
  have odoms : (s.odoms.all fun e => SMap.sorted e.2.slots) = true := List.all_eq_true.2 fun e he => (h.eachOdom e he).slots
  have inner : s.innerOk = true := by
    simp only [State.innerOk, strands, odoms, h.flwA.adoptUsed, h.flwB.adoptUsed, h.tblA.ents, h.tblA.act, h.tblB.ents, h.tblB.act, Bool.and_self]
  have ports : s.portsOk = true := by
    simp only [State.portsOk, h.swtLink, h.swtWentDown, h.swtRate, h.swtBound, h.swtParseQ, h.swtFrames, h.swtStreams, h.swtAdm, h.swtQs, h.swtFrer,
      h.swtVerified, h.swtCanTx, h.tioPins, h.tioDead, h.tioSdmOut, h.tioPeak, h.tioPhase, h.tioSeq, Bool.and_self]
  simp only [State.mapsOk, inner, ports, h.regs, h.ctrs, h.strands, h.lls, h.odoms, h.doms, h.evDone, h.yarns, h.carLists, h.carSpill, h.fltSlots,
    h.fltFenced, h.drmDue, h.drmErrTrain, h.drmRate, h.drmReading, h.drmRows, h.hstJrnl, h.hstQps, h.hstRings, h.rcdHist, h.secKeys, h.swaResults,
    h.swaRun, Bool.and_self]

theorem InOrder.of_mapsOk {X : Nat → Prop} {s : State} (h : s.mapsOk = true) (idle : ∀ e ∈ s.strands, e.2.running = none ∨ X e.1) : InOrder X s := by
  simp only [State.mapsOk, State.innerOk, State.portsOk, Bool.and_eq_true, and_assoc, List.all_eq_true] at h
  obtain ⟨regs, ctrs, strands, lls, odoms, doms, evDone, yarns, carLists, carSpill, fltSlots, fltFenced, drmDue, drmErrTrain, drmRate, drmReading,
    drmRows, hstJrnl, hstQps, hstRings, rcdHist, secKeys, swaResults, swaRun, strands', odoms', flwA, flwB, entsA, actA, entsB, actB, swtLink,
    swtWentDown, swtRate, swtBound, swtParseQ, swtFrames, swtStreams, swtAdm, swtQs, swtFrer, swtVerified, swtCanTx, tioPins, tioDead, tioSdmOut,
    tioPeak, tioPhase, tioSeq⟩ := h
  exact {
    regs, ctrs, strands, lls, odoms, doms, evDone, yarns, carLists, carSpill, fltSlots, fltFenced, drmDue, drmErrTrain, drmRate, drmReading, drmRows,
    hstJrnl, hstQps, hstRings, rcdHist, secKeys, swaResults, swaRun, swtLink, swtWentDown, swtRate, swtBound, swtParseQ, swtFrames, swtStreams,
    swtAdm, swtQs, swtFrer, swtVerified, swtCanTx, tioPins, tioDead, tioSdmOut, tioPeak, tioPhase, tioSeq
    eachStrand := fun e he => ⟨⟨(strands' e he).1⟩, ⟨(strands' e he).2⟩, idle e he⟩, eachOdom := fun e he => ⟨odoms' e he⟩
    flwA := ⟨flwA⟩, flwB := ⟨flwB⟩, tblA := ⟨entsA, actA⟩, tblB := ⟨entsB, actB⟩ }

end Sys2Proof.Machine
end

section
/-! PROOFS. What every step keeps: the forms of an outcome, and the accessors of strands, banks, domains and panels. -/

namespace Sys2Proof.Machine

-- The order of a map that is built from another.

theorem SMap.sorted_ite {β : Type} {p : Prop} [Decidable p] {m n : SMap β} (hm : SMap.sorted m = true) (hn : SMap.sorted n = true) :
    SMap.sorted (if p then m else n) = true := by
  split
  · exact hm
  · exact hn

/-- Entries that keep their keys keep their order. -/
theorem SMap.sorted_filterMapKeys {β γ : Type} {m : SMap β} {f : Nat × β → Option (Nat × γ)} (hf : ∀ e v, f e = some v → v.1 = e.1) (h : SMap.sorted m = true) :
    SMap.sorted (m.filterMap f : SMap γ) = true := by
  induction m with
  | nil => rfl
  | cons e m ih =>
    have tail := ih (SMap.sorted_tail h)
    rw [List.filterMap_cons]
    cases e1 : f e with
    | none => exact tail
    | some v =>
      refine SMap.sorted_cons tail fun x hx => ?_
      obtain ⟨y, hy, e2⟩ := List.mem_filterMap.1 hx
      rw [hf _ _ e1, hf _ _ e2]
      exact SMap.sorted_head h y hy

theorem SMap.sorted_mapKeys {β γ : Type} {m : SMap β} (f : Nat × β → γ) (h : SMap.sorted m = true) : SMap.sorted (m.map fun e => (e.1, f e) : SMap γ) = true := by
  rw [← List.filterMap_eq_map]
  refine SMap.sorted_filterMapKeys (fun e v hv => ?_) h
  rw [← Option.some.inj hv]

theorem SMap.sorted_mapKept {β γ : Type} {m : SMap β} {f : Nat × β → Nat × γ} (hf : ∀ e, (f e).1 = e.1) (h : SMap.sorted m = true) :
    SMap.sorted (m.map f : SMap γ) = true := by
  rw [← List.filterMap_eq_map]
  refine SMap.sorted_filterMapKeys (fun e v hv => ?_) h
  rw [← Option.some.inj hv]
  exact hf e

theorem foldl_keeps {α β : Type} {P : β → Prop} {f : β → α → β} (hf : ∀ b a, P b → P (f b a)) {l : List α} {b : β} (hb : P b) : P (l.foldl f b) := by
  induction l generalizing b with
  | nil => exact hb
  | cons a l ih => exact ih (hf _ _ hb)

theorem ite_keeps {α : Type} {P : α → Prop} {p : Prop} [Decidable p] {a b : α} (ha : P a) (hb : P b) : P (if p then a else b) := by
  split
  · exact ha
  · exact hb

/-- Every entry of a map is as `P` says after one is written that is. -/
theorem SMap.each_set {β : Type} [DecidableEq β] {P : Nat → β → Prop} {m : SMap β} {d : β} {k : Nat} {v : β} (h : ∀ e ∈ m, P e.1 e.2) (hv : P k v) :
    ∀ e ∈ SMap.set m d k v, P e.1 e.2 := by
  intro e he
  unfold SMap.set at he
  split at he
  · exact h e (SMap.mem_del he)
  · rcases SMap.mem_put he with rfl | he
    · exact hv
    · exact h e he

theorem SMap.get_keeps {β : Type} {P : Nat → β → Prop} {m : SMap β} {d : β} {k : Nat} (h : ∀ e ∈ m, P e.1 e.2) (hd : P k d) : P k (SMap.get m d k) := by
  unfold SMap.get
  cases e : SMap.find m k with
  | none => exact hd
  | some v => exact h _ (SMap.mem_of_find e)

section
variable {X : Nat → Prop} {s : State} {t : Nat} {x : Strand} {y : Bank} {o : Odom}

-- Outcomes.

theorem Steps.next {u : State} (h : InOrder X u) : Steps X (.next u) := ⟨fun e => by
  rw [← Host.Outcome.next.inj e]
  exact h⟩

theorem Steps.ite {p : Prop} [Decidable p] {a b : Host.Outcome State Fault Refusal} (ha : Steps X a) (hb : Steps X b) : Steps X (if p then a else b) :=
  ite_keeps ha hb

theorem OptInOrder.none : OptInOrder X none := ⟨fun e => nomatch e⟩

theorem OptInOrder.some {u : State} (h : InOrder X u) : OptInOrder X (some u) := ⟨fun e => by
  rw [← Option.some.inj e]
  exact h⟩

theorem OptInOrder.map {α : Type} {f : α → State} {a : Option α} (hf : ∀ x, InOrder X (f x)) : OptInOrder X (a.map f) := by
  cases a with
  | none => exact .none
  | some x => exact .some (hf x)

theorem OptInOrder.ite {p : Prop} [Decidable p] {a b : Option State} (ha : OptInOrder X a) (hb : OptInOrder X b) : OptInOrder X (if p then a else b) :=
  ite_keeps ha hb

theorem InOrder.ite {p : Prop} [Decidable p] {a b : State} (ha : InOrder X a) (hb : InOrder X b) : InOrder X (if p then a else b) := ite_keeps ha hb

/-- Branches that start from one state. -/
theorem InOrder.ite_of {p : Prop} [Decidable p] {a b : State} (h : InOrder X s) (ha : InOrder X s → InOrder X a) (hb : InOrder X s → InOrder X b) :
    InOrder X (if p then a else b) := .ite (ha h) (hb h)

theorem InOrder.if_then {p : Prop} [Decidable p] {a : State} (h : InOrder X s) (ha : InOrder X s → InOrder X a) : InOrder X (if p then a else s) :=
  .ite (ha h) h

theorem InOrder.if_else {p : Prop} [Decidable p] {a : State} (h : InOrder X s) (ha : InOrder X s → InOrder X a) : InOrder X (if p then s else a) :=
  .ite h (ha h)

theorem InOrder.getD {a : Option State} {b : State} (ha : OptInOrder X a) (hb : InOrder X b) : InOrder X (a.getD b) := by
  cases a with
  | none => exact hb
  | some u => exact ha.here rfl

theorem InOrder.foldl {α : Type} {f : State → α → State} {l : List α} (h : InOrder X s) (hf : ∀ u a, InOrder X u → InOrder X (f u a)) : InOrder X (l.foldl f s) :=
  foldl_keeps hf h

/-- What follows from a state `s` that a written state takes its part from. -/
theorem InOrder.base {part' now' pending' fresh' out' regs' ctrs' md' doms' evs' evDone' tio' odoms' car' lls' strands' yrn' flwA' flwB' skn' mem' flt' drm' rcd' chr' tbl'
    sec' sv' swa' flash' swt' hst'}
    (_ : part' = s.part) (h : InOrder X s)
    (hu : InOrder X s → InOrder X ⟨part', now', pending', fresh', out', regs', ctrs', md', doms', evs', evDone', tio', odoms', car', lls', strands', yrn', flwA', flwB', skn', mem',
      flt', drm', rcd', chr', tbl', sec', sv', swa', flash', swt', hst'⟩) :
    InOrder X ⟨part', now', pending', fresh', out', regs', ctrs', md', doms', evs', evDone', tio', odoms', car', lls', strands', yrn', flwA', flwB', skn', mem',
      flt', drm', rcd', chr', tbl', sec', sv', swa', flash', swt', hst'⟩ := hu h

-- A state that stands in an outcome or in a tuple.

theorem InOrder.of_next {a : Host.Outcome State Fault Refusal} (e : a = .next s) (h : Steps X a) : InOrder X s := h.after e

theorem InOrder.of_some {a : Option State} (e : a = some s) (h : OptInOrder X a) : InOrder X s := h.here e

theorem InOrder.snd {α : Type} {a : α} {p : α × State} (e : p = (a, s)) (h : InOrder X p.2) : InOrder X s := by
  rw [e] at h
  exact h

theorem InOrder.fourth {α β γ : Type} {a : α} {b : β} {c : γ} {p : α × β × γ × State} (e : p = (a, b, c, s)) (h : InOrder X p.2.2.2) : InOrder X s := by
  rw [e] at h
  exact h

theorem InOrder.pair {α : Type} {a : α} (h : InOrder X s) : InOrder X (a, s).2 := h
theorem InOrder.pair_fst {α : Type} {a : α} (h : InOrder X s) : InOrder X (s, a).1 := h
theorem InOrder.triple {α β : Type} {a : α} {b : β} (h : InOrder X s) : InOrder X (a, b, s).2.2 := h
theorem InOrder.quadruple {α β γ : Type} {a : α} {b : β} {c : γ} (h : InOrder X s) : InOrder X (a, b, c, s).2.2.2 := h

theorem InOrder.ite_snd {α : Type} {c : Prop} [Decidable c] {p q : α × State} (hp : InOrder X p.2) (hq : InOrder X q.2) : InOrder X (if c then p else q).2 :=
  ite_keeps (P := fun p : α × State => InOrder X p.2) hp hq

theorem InOrder.ite_fst {α : Type} {c : Prop} [Decidable c] {p q : State × α} (hp : InOrder X p.1) (hq : InOrder X q.1) : InOrder X (if c then p else q).1 :=
  ite_keeps (P := fun p : State × α => InOrder X p.1) hp hq

theorem InOrder.ite_third {α β : Type} {c : Prop} [Decidable c] {p q : α × β × State} (hp : InOrder X p.2.2) (hq : InOrder X q.2.2) :
    InOrder X (if c then p else q).2.2 := ite_keeps (P := fun p : α × β × State => InOrder X p.2.2) hp hq

theorem InOrder.ite_fourth {α β γ : Type} {c : Prop} [Decidable c] {p q : α × β × γ × State} (hp : InOrder X p.2.2.2) (hq : InOrder X q.2.2.2) :
    InOrder X (if c then p else q).2.2.2 := ite_keeps (P := fun p : α × β × γ × State => InOrder X p.2.2.2) hp hq

theorem InOrder.foldl_snd {α β : Type} {f : α × State → β → α × State} {l : List β} {p : α × State} (hp : InOrder X p.2)
    (hf : ∀ q a, InOrder X q.2 → InOrder X (f q a).2) : InOrder X (l.foldl f p).2 := foldl_keeps (P := fun p : α × State => InOrder X p.2) hf hp

theorem InOrder.foldl_fst {α β : Type} {f : State × α → β → State × α} {l : List β} {p : State × α} (hp : InOrder X p.1)
    (hf : ∀ q a, InOrder X q.1 → InOrder X (f q a).1) : InOrder X (l.foldl f p).1 := foldl_keeps (P := fun p : State × α => InOrder X p.1) hf hp

-- Banks and strands.

theorem BankOk.ite {p : Prop} [Decidable p] {a b : Bank} (ha : BankOk a) (hb : BankOk b) : BankOk (if p then a else b) := ite_keeps ha hb
theorem StrandOk.ite {p : Prop} [Decidable p] {a b : Strand} (ha : StrandOk X t a) (hb : StrandOk X t b) : StrandOk X t (if p then a else b) :=
  ite_keeps ha hb

theorem BankOk.of_eq {g' pred' h' hc' pc' exl' epc' ecause' einfo' eaddr' escr' wi' outbox' inbox' item' hasItem' pend' crypto' cryptoC' watchExempt'}
    (e : g' = y.g) (h : BankOk y) :
    BankOk ⟨g', pred', h', hc', pc', exl', epc', ecause', einfo', eaddr', escr', wi', outbox', inbox', item', hasItem', pend', crypto', cryptoC', watchExempt'⟩ :=
  ⟨by rw [e]; exact h.g⟩

theorem StrandOk.of_eq {bank0' bank1' inB1' restAt' idle' halt' tvbase' wpaddr' wpctl' knotp' block' busy' stepping' ops' running' fenceWait' dram' dispTime' deferred'
    shareBase' shareSize' wins' xmask'}
    (e0 : bank0' = x.bank0) (e1 : bank1' = x.bank1) (e2 : running' = x.running) (h : StrandOk X t x) :
    StrandOk X t ⟨bank0', bank1', inB1', restAt', idle', halt', tvbase', wpaddr', wpctl', knotp', block', busy', stepping', ops', running', fenceWait', dram',
      dispTime', deferred', shareBase', shareSize', wins', xmask'⟩ :=
  ⟨by rw [e0]; exact h.bank0, by rw [e1]; exact h.bank1, by rw [e2]; exact h.running⟩

theorem BankOk.wg {r : Nat} {v : Word} (h : BankOk y) : BankOk (y.wg r v) := .ite h { h with g := SMap.sorted_set _ _ _ h.g }

theorem BankOk.wgs {l : List Word} {r : Nat} (h : BankOk y) : BankOk (y.wgs r l) := by
  induction l generalizing y r with
  | nil => exact h
  | cons v l ih => exact ih h.wg

theorem BankOk.wp {r : Nat} {v : Bool} (h : BankOk y) : BankOk (y.wp r v) := .ite h { h with }
theorem BankOk.wh {r : Nat} {v : HWord} (h : BankOk y) : BankOk (y.wh r v) := { h with }
theorem BankOk.squash (h : BankOk y) : BankOk y.squash := { h with }
theorem BankOk.awaitDram (h : BankOk y) : BankOk y.awaitDram := { h with }
theorem BankOk.dropItem (h : BankOk y) : BankOk y.dropItem := { h with }

theorem StrandOk.bk {b : Bool} (h : StrandOk X t x) : BankOk (x.bk b) := .ite h.bank1 h.bank0
theorem StrandOk.cur (h : StrandOk X t x) : BankOk x.cur := h.bk
theorem StrandOk.setBk {b : Bool} (h : StrandOk X t x) (hy : BankOk y) : StrandOk X t (x.setBk b y) := .ite { h with bank1 := hy } { h with bank0 :=
  hy }
theorem StrandOk.setCur (h : StrandOk X t x) (hy : BankOk y) : StrandOk X t (x.setCur y) := h.setBk hy
theorem StrandOk.unwait (h : StrandOk X t x) : StrandOk X t x.unwait := { h with }
theorem StrandOk.haltAs {a : Halt} {n : Nat} (h : StrandOk X t x) : StrandOk X t (x.haltAs a n) := { h with }
theorem StrandOk.capture {b r : Nat} {v : HWord} (h : StrandOk X t x) : StrandOk X t (x.capture b r v) := { h with }

/-- A strand at reset. -/
theorem StrandOk.fresh : StrandOk X t {} := ⟨⟨rfl⟩, ⟨rfl⟩, .inl rfl⟩

theorem StrandOk.freshStrand : StrandOk X t (s.freshStrand t) := { StrandOk.fresh (X := X) (t := t) with }

theorem InOrder.strand (h : InOrder X s) : StrandOk X t (s.strand t) := SMap.get_keeps h.eachStrand .fresh
theorem InOrder.bank (h : InOrder X s) : BankOk (s.bank t) := h.strand.cur

theorem InOrder.setStrand (h : InOrder X s) (hx : StrandOk X t x) : InOrder X (s.setStrand t x) :=
  { h with strands := SMap.sorted_set _ _ _ h.strands, eachStrand := SMap.each_set h.eachStrand hx }

theorem InOrder.setBank (h : InOrder X s) (hy : BankOk y) : InOrder X (s.setBank t y) := h.setStrand (h.strand.setCur hy)

-- Ordering domains.

theorem OdomOk.ite {p : Prop} [Decidable p] {a b : Odom} (ha : OdomOk a) (hb : OdomOk b) : OdomOk (if p then a else b) := ite_keeps ha hb
theorem OdomOk.of_eq {head' next' slots' gens'}
    (e : slots' = o.slots) (h : OdomOk o) :
    OdomOk ⟨head', next', slots', gens'⟩ :=
  ⟨by rw [e]; exact h.slots⟩
theorem OdomOk.setSlot {m : Nat} {v : Slot} (h : OdomOk o) : OdomOk (o.setSlot m v) := { h with slots := SMap.sorted_set _ _ _ h.slots }
theorem OdomOk.pass (h : OdomOk o) : OdomOk o.pass := ⟨(h.setSlot (m := o.head) (v := .empty)).slots⟩

variable {p d : Nat}

theorem InOrder.od (h : InOrder X s) : OdomOk (s.od p d) := SMap.get_keeps (P := fun _ o => OdomOk o) h.eachOdom ⟨rfl⟩

theorem InOrder.setOd (h : InOrder X s) (ho : OdomOk o) : InOrder X (s.setOd p d o) :=
  { h with odoms := SMap.sorted_set _ _ _ h.odoms, eachOdom := SMap.each_set (P := fun _ o => OdomOk o) h.eachOdom ho }

-- The flow state and the search tables of a panel.

theorem FlwOk.of_eq {f : FlwPanel} {ovf' ctxs' used' rsvd' hand' missQ' served' servedUs' locks' lockWait' missWait' mirSlots' mirsync' adopted' adoptUsed'}
    (e : adoptUsed' = f.adoptUsed) (h : FlwOk f) :
    FlwOk ⟨ovf', ctxs', used', rsvd', hand', missQ', served', servedUs', locks', lockWait', missWait', mirSlots', mirsync', adopted', adoptUsed'⟩ :=
  ⟨by rw [e]; exact h.adoptUsed⟩
theorem TblOk.of_eq {x : TblPanel} {ents' act' stream' copyQ' learnQ' cdels' scan' scanDue'}
    (e0 : ents' = x.ents) (e1 : act' = x.act) (h : TblOk x) :
    TblOk ⟨ents', act', stream', copyQ', learnQ', cdels', scan', scanDue'⟩ :=
  ⟨by rw [e0]; exact h.ents, by rw [e1]; exact h.act⟩

theorem InOrder.flw (h : InOrder X s) : FlwOk (s.flw p) := ite_keeps h.flwA h.flwB
theorem InOrder.setFlw {f : FlwPanel} (h : InOrder X s) (hf : FlwOk f) : InOrder X (s.setFlw p f) := .ite { h with flwA := hf } { h with flwB := hf }

/-- A panel's flow state or search tables are written with their maps as they were. -/
theorem InOrder.updFlw {f : FlwPanel} (h : InOrder X s) (e : f.adoptUsed = (s.flw p).adoptUsed) : InOrder X (s.setFlw p f) :=
  h.setFlw ⟨by rw [e]; exact h.flw.adoptUsed⟩

theorem InOrder.tp (h : InOrder X s) : TblOk (s.tp p) := ite_keeps h.tblA h.tblB
theorem InOrder.setTp {x : TblPanel} (h : InOrder X s) (hx : TblOk x) : InOrder X (s.setTp p x) := .ite { h with tblA := hx } { h with tblB := hx }

theorem InOrder.updTp {x : TblPanel} (h : InOrder X s) (e0 : x.ents = (s.tp p).ents) (e1 : x.act = (s.tp p).act) : InOrder X (s.setTp p x) :=
  h.setTp ⟨by rw [e0]; exact h.tp.ents, by rw [e1]; exact h.tp.act⟩

theorem InOrder.setAdopt {u : SMap Bool} (h : InOrder X s) (hu : SMap.sorted u = true) : InOrder X (s.setAdopt p u) := h.setFlw ⟨hu⟩

-- A unit at work on an operation of strand `t`.

theorem InOrder.whileAt (h : InOrder X s) : InOrder (fun j => X j ∨ j = t) s :=
  { h with eachStrand := fun e he => { h.eachStrand e he with running := (h.eachStrand e he).running.imp_right .inl } }

theorem SMap.find_of_mem {β : Type} {m : SMap β} {e : Nat × β} (h : SMap.sorted m = true) (he : e ∈ m) : SMap.find m e.1 = some e.2 := by
  induction m with
  | nil => cases he
  | cons x m ih =>
    rcases List.mem_cons.1 he with rfl | hm
    · simp [SMap.find]
    · have lt := SMap.sorted_head h e hm
      simp [SMap.find, Nat.ne_of_lt lt, ih (SMap.sorted_tail h) hm]

/-- A key that is written holds what was written. -/
theorem SMap.eq_of_mem_set {β : Type} [DecidableEq β] {m : SMap β} {d v : β} {e : Nat × β} (h : SMap.sorted m = true) (he : e ∈ SMap.set m d e.1 v) : e.2 = v := by
  have hf := SMap.get_set m d e.1 e.1 v h
  rw [if_pos rfl] at hf
  rw [← hf, SMap.get, SMap.find_of_mem (SMap.sorted_set _ _ _ h) he]
  rfl

/-- When the unit has executed it, it is at rest there again. -/
theorem InOrder.atRest (h : InOrder (fun j => X j ∨ j = t) s) (hx : StrandOk X t x) : InOrder X (s.setStrand t x) := by
  refine { h with strands := SMap.sorted_set _ _ _ h.strands, eachStrand := fun e he => ?_ }
  by_cases et : e.1 = t
  · subst et
    rw [SMap.eq_of_mem_set h.strands he]
    exact hx
  · have others := SMap.each_set (P := fun j y => j ≠ t → StrandOk X j y) (m := s.strands) (d := {}) (k := t) (v := x)
      (fun f hf ne => { h.eachStrand f hf with running := (h.eachStrand f hf).running.imp_right fun k => k.resolve_right ne }) (fun ne => absurd rfl ne)
    exact others e he et

end

end Sys2Proof.Machine
end

section
/-! PROOFS. What every step keeps, in the operations that every family of commands shares: registers, counters, lists, events and traps (R7, R44,
R143). -/

namespace Sys2Proof.Machine

section
variable {X : Nat → Prop} {s : State}

theorem InOrder.freeN (h : InOrder X s) : InOrder X s.freeN.2 := .pair { h with }
theorem InOrder.freeW (h : InOrder X s) : InOrder X s.freeW.2 := .pair { h with }
theorem InOrder.freeB (h : InOrder X s) : InOrder X s.freeB.2 := .pair { h with }
theorem InOrder.emit {o} (h : InOrder X s) : InOrder X (s.emit o) := { h with }
theorem InOrder.setRd {d p i j v} (h : InOrder X s) : InOrder X (s.setRd d p i j v) := { h with regs := SMap.sorted_set _ _ _ h.regs }
theorem InOrder.count {set inst n} (h : InOrder X s) : InOrder X (s.count set inst n) := { h with ctrs := SMap.sorted_set _ _ _ h.ctrs }
theorem InOrder.countN {set inst n k} (h : InOrder X s) : InOrder X (s.countN set inst n k) := { h with ctrs := SMap.sorted_set _ _ _ h.ctrs }
theorem InOrder.countP {panel n} (h : InOrder X s) : InOrder X (s.countP panel n) := h.count
theorem InOrder.countPort {port n} (h : InOrder X s) : InOrder X (s.countPort port n) := h.count
theorem InOrder.setPan {p x} (h : InOrder X s) : InOrder X (s.setPan p x) := .ite { h with } { h with }
theorem InOrder.setLl {k l} (h : InOrder X s) : InOrder X (s.setLl k l) := { h with lls := SMap.sorted_set _ _ _ h.lls }

theorem InOrder.enterTrap {t c detail hookinfo info addr resume} (h : InOrder X s) : InOrder X (s.enterTrap t c detail hookinfo info addr resume) :=
  h.setStrand (h.strand.unwait.setCur { h.strand.unwait.cur.squash with })

theorem InOrder.stir {c} (h : InOrder X s) : InOrder X (s.stir c) := { h with }
theorem InOrder.setDom {panel n c} (h : InOrder X s) : InOrder X (s.setDom panel n c) := { h with doms := SMap.sorted_set _ _ _ h.doms }

theorem InOrder.complete {e status late} (h : InOrder X s) : InOrder X (s.complete e status late) :=
  .ite { h with evDone := SMap.sorted_set _ _ _ h.evDone } h.countP

theorem InOrder.cancelEvs {p status} (h : InOrder X s) : InOrder X (s.cancelEvs p status) := .foldl { h with } (fun _ _ h1 => h1.complete)
theorem InOrder.setPin {n p} (h : InOrder X s) : InOrder X (s.setPin n p) := { h with tioPins := SMap.sorted_set _ _ _ h.tioPins }
theorem InOrder.drive {n lvl} (h : InOrder X s) : InOrder X (s.drive n lvl) := h.setPin
theorem InOrder.noDead {n} (h : InOrder X s) : InOrder X (s.noDead n) := { h with tioDead := SMap.sorted_del _ h.tioDead }

theorem InOrder.losePin {n} (h : InOrder X s) : InOrder X (s.losePin n) :=
  .ite h.cancelEvs.noDead.setPin.drive (.if_then h.cancelEvs.noDead.setPin fun h1 => .if_then h1.drive fun h2 => h2.drive)

theorem InOrder.loseOwner {t dbg} (h : InOrder X s) : InOrder X (s.loseOwner t dbg) := h.foldl fun _ _ h1 => h1.losePin

theorem InOrder.haltStrand {t h'} (h : InOrder X s) : InOrder X (s.haltStrand t h') := by
  dsimp only [State.haltStrand]
  refine .loseOwner ?_
  split
  · exact .count (h.setStrand h.strand.haltAs)
  · exact .count (h.setStrand h.strand.haltAs)
  · exact h.setStrand h.strand.haltAs

theorem InOrder.takeTrap {t c detail hookinfo info addr resume} (h : InOrder X s) : InOrder X (s.takeTrap t c detail hookinfo info addr resume) := by
  dsimp only [State.takeTrap]
  refine .ite ?_ ?_
  · refine .haltStrand ?_
    split
    · exact h.count
    · exact h
  · refine .enterTrap ?_
    split
    · exact h.count
    · exact h

theorem InOrder.returnTrap {t} (h : InOrder X s) : InOrder X (s.returnTrap t) := h.setBank { h.bank with }

end

end Sys2Proof.Machine
end

section
/-! PROOFS. What every step keeps, in memory and its accesses (R128–R140), the issue of instructions (R151), buffer pools (ch. 11) and flow state (ch.
10). -/

namespace Sys2Proof.Machine

section
variable {X : Nat → Prop} {s : State}

theorem InOrder.devSet {req a v} (h : InOrder X s) : InOrder X (s.devSet req a v) := by
  dsimp only [State.devSet]
  split
  · exact .ite { h with } { h with }
  · exact { h with }

theorem InOrder.devWrite {req a a1} (h : InOrder X s) : InOrder X (s.devWrite req a a1) := by
  induction a1 generalizing a s with
  | nil => exact h
  | cons b bs ih => exact ih h.devSet

theorem InOrder.pushReqs {l} (h : InOrder X s) : InOrder X (s.pushReqs l) := { h with }
theorem InOrder.askDram {req port a n write} (h : InOrder X s) : InOrder X (s.askDram req port a n write) := h.pushReqs

theorem InOrder.memWrite {t a bs} (h : InOrder X s) : InOrder X (s.memWrite t a bs) := by
  dsimp only [State.memWrite]
  split
  · exact h
  · exact { h with }
  · split
    · exact h
    · exact h.setLl
  · split
    · exact h
    · exact h.setLl
  · exact { h with }
  · exact h.devWrite

theorem InOrder.stepDone {t} (h : InOrder X s) : InOrder X (s.stepDone t) :=
  .ite h (.ite (.loseOwner (h.setStrand { h.strand with })) (h.setStrand { h.strand with }))

theorem InOrder.trapHere {t c detail hookinfo info addr resume} (h : InOrder X s) : InOrder X (s.trapHere t c detail hookinfo info addr resume) :=
  h.takeTrap.stepDone

theorem InOrder.advance {t} (h : InOrder X s) : InOrder X (s.advance t) := h.setBank { h.bank with }

theorem InOrder.issue {t d body} (h : InOrder X s) (hbody : ∀ v1, InOrder X v1 → InOrder X (body v1)) : InOrder X (s.issue t d body) := by
  dsimp only [State.issue]
  refine .ite h ?_
  refine .ite h.trapHere ?_
  split
  · exact h.trapHere
  · refine .ite h.advance.stepDone ?_
    refine .ite h ?_
    split
    · exact h.trapHere
    · split
      · exact h.trapHere
      · exact .ite h.trapHere (.stepDone (hbody _ h.advance))

theorem InOrder.wreg {t r v} (h : InOrder X s) : InOrder X (s.wreg t r v) := h.setBank h.bank.wg
theorem InOrder.wpred {t p v} (h : InOrder X s) : InOrder X (s.wpred t p v) := h.setBank h.bank.wp
theorem InOrder.alu2 {t f minor op} (h : InOrder X s) : InOrder X (s.alu2 t f minor op) := h.issue (fun _ h1 => h1.wreg)
theorem InOrder.alu1 {t f minor op} (h : InOrder X s) : InOrder X (s.alu1 t f minor op) := h.issue (fun _ h1 => h1.wreg)
theorem InOrder.wpair {t n v} (h : InOrder X s) : InOrder X (s.wpair t n v) := h.wreg.wreg
theorem InOrder.alu64 {t f minor op} (h : InOrder X s) : InOrder X (s.alu64 t f minor op) := h.issue (fun _ h1 => h1.wpair)
theorem InOrder.execAdd {t f} (h : InOrder X s) : Steps X (execAdd t f s) := .next h.alu2
theorem InOrder.execSub {t f} (h : InOrder X s) : Steps X (execSub t f s) := .next h.alu2
theorem InOrder.execAndR {t f} (h : InOrder X s) : Steps X (execAndR t f s) := .next h.alu2
theorem InOrder.execOrR {t f} (h : InOrder X s) : Steps X (execOrR t f s) := .next h.alu2
theorem InOrder.execXorR {t f} (h : InOrder X s) : Steps X (execXorR t f s) := .next h.alu2
theorem InOrder.execAndn {t f} (h : InOrder X s) : Steps X (execAndn t f s) := .next h.alu2
theorem InOrder.execSll {t f} (h : InOrder X s) : Steps X (execSll t f s) := .next h.alu2
theorem InOrder.execSrl {t f} (h : InOrder X s) : Steps X (execSrl t f s) := .next h.alu2
theorem InOrder.execSra {t f} (h : InOrder X s) : Steps X (execSra t f s) := .next h.alu2
theorem InOrder.execRor {t f} (h : InOrder X s) : Steps X (execRor t f s) := .next h.alu2
theorem InOrder.execMul {t f} (h : InOrder X s) : Steps X (execMul t f s) := .next h.alu2
theorem InOrder.execMulhu {t f} (h : InOrder X s) : Steps X (execMulhu t f s) := .next h.alu2
theorem InOrder.execMulhs {t f} (h : InOrder X s) : Steps X (execMulhs t f s) := .next h.alu2
theorem InOrder.execMinS {t f} (h : InOrder X s) : Steps X (execMinS t f s) := .next h.alu2
theorem InOrder.execMaxS {t f} (h : InOrder X s) : Steps X (execMaxS t f s) := .next h.alu2
theorem InOrder.execMinu {t f} (h : InOrder X s) : Steps X (execMinu t f s) := .next h.alu2
theorem InOrder.execMaxu {t f} (h : InOrder X s) : Steps X (execMaxu t f s) := .next h.alu2
theorem InOrder.execClz {t f} (h : InOrder X s) : Steps X (execClz t f s) := .next h.alu1
theorem InOrder.execCtz {t f} (h : InOrder X s) : Steps X (execCtz t f s) := .next h.alu1
theorem InOrder.execPopc {t f} (h : InOrder X s) : Steps X (execPopc t f s) := .next h.alu1
theorem InOrder.execBswap {t f} (h : InOrder X s) : Steps X (execBswap t f s) := .next h.alu1
theorem InOrder.execAddd {t f} (h : InOrder X s) : Steps X (execAddd t f s) := .next h.alu64
theorem InOrder.execSubd {t f} (h : InOrder X s) : Steps X (execSubd t f s) := .next h.alu64
theorem InOrder.aluI {t f major op} (h : InOrder X s) : InOrder X (s.aluI t f major op) := h.issue (fun _ h1 => h1.wreg)
theorem InOrder.execAddi {t f} (h : InOrder X s) : Steps X (execAddi t f s) := .next h.aluI
theorem InOrder.execAndi {t f} (h : InOrder X s) : Steps X (execAndi t f s) := .next h.aluI
theorem InOrder.execOri {t f} (h : InOrder X s) : Steps X (execOri t f s) := .next h.aluI
theorem InOrder.execXori {t f} (h : InOrder X s) : Steps X (execXori t f s) := .next h.aluI
theorem InOrder.execShi {t f} (h : InOrder X s) : Steps X (execShi t f s) := .next (h.issue (fun _ h1 => h1.wreg))
theorem InOrder.execMovl {t f} (h : InOrder X s) : Steps X (execMovl t f s) := .next (h.issue (fun _ h1 => h1.wreg))
theorem InOrder.execMovh {t f} (h : InOrder X s) : Steps X (execMovh t f s) := .next (h.issue (fun _ h1 => h1.wreg))

theorem InOrder.bf {t f op val} (h : InOrder X s) : InOrder X (s.bf t f op val) := by
  dsimp only [State.bf]
  exact h.issue (fun _ h1 => h1.wreg)

theorem InOrder.execExtu {t f} (h : InOrder X s) : Steps X (execExtu t f s) := by
  dsimp only [Machine.execExtu]
  exact .next h.bf

theorem InOrder.execExts {t f} (h : InOrder X s) : Steps X (execExts t f s) := by
  dsimp only [Machine.execExts]
  exact .next h.bf

theorem InOrder.execIns {t f} (h : InOrder X s) : Steps X (execIns t f s) := by
  dsimp only [Machine.execIns]
  exact .next h.bf

theorem InOrder.cmpR {t f minor rel} (h : InOrder X s) : InOrder X (s.cmpR t f minor rel) := h.issue (fun _ h1 => h1.wpred)
theorem InOrder.execEq {t f} (h : InOrder X s) : Steps X (execEq t f s) := .next h.cmpR
theorem InOrder.execNe {t f} (h : InOrder X s) : Steps X (execNe t f s) := .next h.cmpR
theorem InOrder.execLt {t f} (h : InOrder X s) : Steps X (execLt t f s) := .next h.cmpR
theorem InOrder.execGe {t f} (h : InOrder X s) : Steps X (execGe t f s) := .next h.cmpR
theorem InOrder.execLtu {t f} (h : InOrder X s) : Steps X (execLtu t f s) := .next h.cmpR
theorem InOrder.execGeu {t f} (h : InOrder X s) : Steps X (execGeu t f s) := .next h.cmpR
theorem InOrder.execTst {t f} (h : InOrder X s) : Steps X (execTst t f s) := .next h.cmpR
theorem InOrder.cmpI {t f major rel} (h : InOrder X s) : InOrder X (s.cmpI t f major rel) := h.issue (fun _ h1 => h1.wpred)
theorem InOrder.execCmpeqi {t f} (h : InOrder X s) : Steps X (execCmpeqi t f s) := .next h.cmpI
theorem InOrder.execCmplti {t f} (h : InOrder X s) : Steps X (execCmplti t f s) := .next h.cmpI
theorem InOrder.execCmpltui {t f} (h : InOrder X s) : Steps X (execCmpltui t f s) := .next h.cmpI
theorem InOrder.plog {t f minor un op} (h : InOrder X s) : InOrder X (s.plog t f minor un op) := h.issue (fun _ h1 => h1.wpred)
theorem InOrder.execPand {t f} (h : InOrder X s) : Steps X (execPand t f s) := .next h.plog
theorem InOrder.execPor {t f} (h : InOrder X s) : Steps X (execPor t f s) := .next h.plog
theorem InOrder.execPxor {t f} (h : InOrder X s) : Steps X (execPxor t f s) := .next h.plog
theorem InOrder.execPandn {t f} (h : InOrder X s) : Steps X (execPandn t f s) := .next h.plog
theorem InOrder.execPnot {t f} (h : InOrder X s) : Steps X (execPnot t f s) := .next h.plog

theorem InOrder.execReservedMajor {t w} (h : InOrder X s) : Steps X (execReservedMajor t w s) :=
  .ite (.next (h.issue (fun _ h1 => h1))) (.ite (.next (h.issue (fun _ h1 => h1))) (.next h))

theorem InOrder.askWindow {t word addr n kind undo} (h : InOrder X s) : InOrder X (s.askWindow t word addr n kind undo) := by
  dsimp only [State.askWindow]
  split
  · exact h
  · exact .ite h (.pushReqs (.base rfl (h.setStrand (.of_eq rfl rfl rfl (.ite h.strand (h.strand.setCur h.strand.cur.awaitDram)))) fun h1 => { h1 with
                                                                                                                                                         }))

theorem InOrder.loadTo {t rd c a} (h : InOrder X s) : InOrder X (s.loadTo t rd c a) := .ite (h.setBank h.bank.wgs) (h.setBank { h.bank with })

theorem InOrder.load {t word g c rd regs emu addr upd} (h : InOrder X s) : InOrder X (s.load t word g c rd regs emu addr upd) := by
  dsimp only [State.load]
  refine h.issue ?_
  intro _ h1
  refine .askWindow ?_
  split
  · exact h1.loadTo.wreg
  · exact h1.loadTo

theorem InOrder.store {t word g c rt regs emu addr upd} (h : InOrder X s) : InOrder X (s.store t word g c rt regs emu addr upd) := by
  dsimp only [State.store]
  refine h.issue ?_
  intro _ h1
  refine .askWindow ?_
  split
  · exact h1.memWrite.wreg
  · exact h1.memWrite

theorem InOrder.loadI {t f major c} (h : InOrder X s) : InOrder X (s.loadI t f major c) := h.load
theorem InOrder.storeI {t f major c} (h : InOrder X s) : InOrder X (s.storeI t f major c) := h.store
theorem InOrder.execLdb {t f} (h : InOrder X s) : Steps X (execLdb t f s) := .next h.loadI
theorem InOrder.execLdbu {t f} (h : InOrder X s) : Steps X (execLdbu t f s) := .next h.loadI
theorem InOrder.execLdh {t f} (h : InOrder X s) : Steps X (execLdh t f s) := .next h.loadI
theorem InOrder.execLdhu {t f} (h : InOrder X s) : Steps X (execLdhu t f s) := .next h.loadI
theorem InOrder.execLdw {t f} (h : InOrder X s) : Steps X (execLdw t f s) := .next h.loadI
theorem InOrder.execLdd {t f} (h : InOrder X s) : Steps X (execLdd t f s) := .next h.loadI
theorem InOrder.execStb {t f} (h : InOrder X s) : Steps X (execStb t f s) := .next h.storeI
theorem InOrder.execSth {t f} (h : InOrder X s) : Steps X (execSth t f s) := .next h.storeI
theorem InOrder.execStw {t f} (h : InOrder X s) : Steps X (execStw t f s) := .next h.storeI
theorem InOrder.execStd {t f} (h : InOrder X s) : Steps X (execStd t f s) := .next h.storeI
theorem InOrder.execLdx {t f} (h : InOrder X s) : Steps X (execLdx t f s) := .next h.load
theorem InOrder.execStx {t f} (h : InOrder X s) : Steps X (execStx t f s) := .next h.store
theorem InOrder.execLdpi {t f} (h : InOrder X s) : Steps X (execLdpi t f s) := .next h.load
theorem InOrder.execStpi {t f} (h : InOrder X s) : Steps X (execStpi t f s) := .next h.store

theorem InOrder.amo {t f minor op} (h : InOrder X s) : InOrder X (s.amo t f minor op) := by
  dsimp only [State.amo]
  exact h.issue (fun _ h1 => .askWindow (h1.memWrite.setStrand (.of_eq rfl rfl rfl (h1.memWrite.strand.setCur (.of_eq rfl h1.memWrite.strand.cur)))))

theorem InOrder.execAmoSwap {t f} (h : InOrder X s) : Steps X (execAmoSwap t f s) := by
  dsimp only [Machine.execAmoSwap]
  exact .next h.amo

theorem InOrder.execAmoAdd {t f} (h : InOrder X s) : Steps X (execAmoAdd t f s) := by
  dsimp only [Machine.execAmoAdd]
  exact .next h.amo

theorem InOrder.execAmoAnd {t f} (h : InOrder X s) : Steps X (execAmoAnd t f s) := by
  dsimp only [Machine.execAmoAnd]
  exact .next h.amo

theorem InOrder.execAmoOr {t f} (h : InOrder X s) : Steps X (execAmoOr t f s) := by
  dsimp only [Machine.execAmoOr]
  exact .next h.amo

theorem InOrder.execAmoXor {t f} (h : InOrder X s) : Steps X (execAmoXor t f s) := by
  dsimp only [Machine.execAmoXor]
  exact .next h.amo

theorem InOrder.execAmoMinu {t f} (h : InOrder X s) : Steps X (execAmoMinu t f s) := by
  dsimp only [Machine.execAmoMinu]
  exact .next h.amo

theorem InOrder.execAmoMaxu {t f} (h : InOrder X s) : Steps X (execAmoMaxu t f s) := by
  dsimp only [Machine.execAmoMaxu]
  exact .next h.amo

theorem InOrder.execAmoCas {t f} (h : InOrder X s) : Steps X (execAmoCas t f s) := by
  dsimp only [Machine.execAmoCas]
  exact .next h.amo

theorem InOrder.execMemoryResultArrive {t bank i} (h : InOrder X s) : Steps X (execMemoryResultArrive t bank i s) := by
  dsimp only [Machine.execMemoryResultArrive]
  split
  · exact .next h
  · exact .ite (.next h) (.next (h.setStrand (.of_eq rfl rfl rfl (h.strand.setBk (.wgs (.of_eq rfl h.strand.bk))))))

theorem InOrder.execB {t f} (h : InOrder X s) : Steps X (execB t f s) := .next (h.issue (fun _ h1 => h1.setBank { h1.bank with }))
theorem InOrder.execBl {t f} (h : InOrder X s) : Steps X (execBl t f s) := .next (h.issue (fun _ h1 => h1.setBank { h1.bank.wg with }))
theorem InOrder.execJalr {t f} (h : InOrder X s) : Steps X (execJalr t f s) := .next (h.issue (fun _ h1 => h1.setBank { h1.bank.wg with }))
theorem InOrder.setQp {n q} (h : InOrder X s) : InOrder X (s.setQp n q) := { h with hstQps := SMap.sorted_set _ _ _ h.hstQps }
theorem InOrder.setRing {n r} (h : InOrder X s) : InOrder X (s.setRing n r) := { h with hstRings := SMap.sorted_set _ _ _ h.hstRings }

theorem InOrder.sendWqe {n w} (h : InOrder X s) : InOrder X (s.sendWqe n w) := by
  dsimp only [State.sendWqe]
  split
  · exact h.emit
  · exact h.emit
  · exact h.emit

theorem InOrder.qpPost {n w} (h : InOrder X s) : InOrder X (s.qpPost n w) := .ite h h.setQp.sendWqe

theorem InOrder.produce {r entry jrec} (h : InOrder X s) : InOrder X (s.produce r entry jrec) :=
  .ite h (.if_then h.setRing.qpPost fun h1 => h1.qpPost)

theorem InOrder.postEvent {kind count panel body} (h : InOrder X s) : InOrder X (s.postEvent kind count panel body) := by
  dsimp only [State.postEvent]
  split
  · exact h.count
  · exact .ite (.ite h.setRing.countP h.setRing) h.setRing.produce

theorem InOrder.setAttn {n} (h : InOrder X s) : InOrder X (s.setAttn n) := h.setRd
theorem InOrder.recAlert {cause seq} (h : InOrder X s) : InOrder X (s.recAlert cause seq) := h.setAttn.postEvent

theorem InOrder.place {r} (h : InOrder X s) : InOrder X (s.place r) := by
  dsimp only [State.place]
  refine .ite (.ite { h with } { h with rcdHist := ite_keeps (P := fun r : RecState => SMap.sorted r.hist = true) h.rcdHist h.rcdHist }) ?_
  refine .ite { h with } ?_
  split
  · exact { h with }
  · exact { h with }

theorem InOrder.record {kind sev part origin src body} (h : InOrder X s) : InOrder X (s.record kind sev part origin src body) :=
  .ite h (.if_then (.ite (.recAlert (.place { h with })) (.if_then (.place { h with }) fun h1 => h1.recAlert)) fun h1 => h1.recAlert)

theorem InOrder.histAdd {panel kind src bin k} (h : InOrder X s) : InOrder X (s.histAdd panel kind src bin k) :=
  { h with rcdHist := SMap.sorted_set _ _ _ h.rcdHist }

theorem InOrder.countUnit {panel unit word} (h : InOrder X s) : InOrder X (s.countUnit panel unit word) := { h with }
theorem InOrder.extreme {panel qty inst isMax v stamp} (h : InOrder X s) : InOrder X (s.extreme panel qty inst isMax v stamp) := .ite { h with } h

theorem InOrder.jrnlWritten {rec} (h : InOrder X s) : InOrder X (s.jrnlWritten rec) := by
  dsimp only [State.jrnlWritten]
  split
  · exact h
  · exact { h with hstJrnl := SMap.sorted_del _ h.hstJrnl }

theorem InOrder.finish {rec status result} (h : InOrder X s) : InOrder X (s.finish rec status result) := by
  dsimp only [State.finish]
  split
  · exact h
  · exact .ite (.produce (.setRing { h with hstJrnl := SMap.sorted_put _ _ h.hstJrnl })) (.jrnlWritten (.setRing { h with
      hstJrnl := SMap.sorted_put _ _ h.hstJrnl }))

theorem InOrder.setPool {n p} (h : InOrder X s) : InOrder X (s.setPool n p) := { h with }
theorem InOrder.setTag {p i v} (h : InOrder X s) : InOrder X (s.setTag p i v) := h.devWrite
theorem InOrder.putTag {p i v} (h : InOrder X s) : InOrder X (s.putTag p i v) := h.setTag.askDram
theorem InOrder.noteLow {p} (h : InOrder X s) : InOrder X (s.noteLow p) := .ite h.setRd h

theorem InOrder.takeBuf {p i} {u : State} (h : InOrder X s) (e : s.takeBuf p = some (i, u)) : InOrder X u := by
  unfold State.takeBuf at e
  extract_lets -underBinder q at e
  split at e
  · cases e
  · split at e
    · cases e
      exact h.setPool
    · split at e
      · cases e
      · cases e
        exact h.setPool

theorem InOrder.allocBuf {r g n rsvd} (h : InOrder X s) : InOrder X (s.allocBuf r g n rsvd).2.2.2 := by
  unfold State.allocBuf
  refine .ite_fourth h ?_
  split
  · exact h.freeN.count
  · extract_lets -underBinder full ok
    refine .ite_fourth h (.ite_fourth h (.ite_fourth h.count ?_))
    split
    · exact h.count
    · next i u e =>
      have hu := h.takeBuf e
      refine .quadruple (.noteLow (.putTag ?_))
      split
      · exact { hu with }
      · exact { hu with }

theorem InOrder.unchargeStrand {t} (h : InOrder X s) : InOrder X (s.unchargeStrand t) := { h with }
theorem InOrder.uncharge {tag} (h : InOrder X s) : InOrder X (s.uncharge tag) := .ite h.unchargeStrand { h with }
theorem InOrder.returnBuf {p i} (h : InOrder X s) : InOrder X (s.returnBuf p i) := .ite h.putTag.setPool h.putTag.count
theorem InOrder.putBuf {p i} (h : InOrder X s) : InOrder X (s.putBuf p i) := h.uncharge.returnBuf
theorem InOrder.freeError {panel a p kind} (h : InOrder X s) : InOrder X (s.freeError panel a p kind) := h.count.setRd.setRd.freeN.freeN.record

theorem InOrder.freeBufAt {panel a} (h : InOrder X s) : InOrder X (s.freeBufAt panel a).2 := by
  dsimp only [State.freeBufAt]
  split
  · exact .pair h
  · exact .ite_snd (.pair h.count) (.ite_snd (.ite_snd (.pair { h with }) (.pair h.count)) (.ite_snd (.pair h.count) (.ite_snd (.pair h.freeError)
      (.ite_snd (.pair h.freeError) (.pair h.putBuf)))))

theorem InOrder.dropTent {a t} (h : InOrder X s) : InOrder X (s.dropTent a t) := by
  dsimp only [State.dropTent]
  split
  · exact h.unchargeStrand
  · exact .ite_of h.unchargeStrand (fun h1 => h1.count) fun h1 => h1.returnBuf

theorem InOrder.confirmTent {a} (h : InOrder X s) : InOrder X (s.confirmTent a) := by
  dsimp only [State.confirmTent]
  split
  · exact h
  · exact h.putTag

theorem InOrder.resetPool {p} (h : InOrder X s) : InOrder X (s.resetPool p) :=
  .setRd (.setPool (h.foldl fun _ _ h1 => .ite h1.setTag.uncharge h1.setTag))

theorem InOrder.applyFrees (h : InOrder X s) : InOrder X s.applyFrees := .foldl { h with } (fun _ _ h1 => h1.freeBufAt)

theorem InOrder.setEntry {p l e} (h : InOrder X s) : InOrder X (s.setEntry p l e) := by
  dsimp only [State.setEntry]
  split
  · exact h.devWrite.askDram
  · exact h.setFlw { h.flw with }
  · exact h.devWrite.askDram

theorem InOrder.flowLookup {p key} (h : InOrder X s) : InOrder X (s.flowLookup p key).2 := .pair h.countN
theorem InOrder.setCtx {p slot c} (h : InOrder X s) : InOrder X (s.setCtx p slot c) := h.setFlw { h.flw with }
theorem InOrder.sweepAbsence {p} (h : InOrder X s) : InOrder X (s.sweepAbsence p) := h.foldl fun _ _ h1 => h1.setCtx
theorem InOrder.writeBack {p slot} (h : InOrder X s) : InOrder X (s.writeBack p slot) := .ite h.devWrite.askDram.setCtx.countP h

theorem InOrder.takeCtx {p} (h : InOrder X s) : InOrder X (s.takeCtx p).2 := by
  dsimp only [State.takeCtx]
  split
  · exact .pair h
  · exact .pair (.setCtx (h.writeBack.countP.updFlw rfl))

theorem InOrder.fillRecord {p slot ridx} (h : InOrder X s) : InOrder X (s.fillRecord p slot ridx) := h.setCtx
theorem InOrder.fillOnce {p slot ridx} (h : InOrder X s) : InOrder X (s.fillOnce p slot ridx) := .ite h.setCtx h.fillRecord

theorem InOrder.fillCtx {p slot} (h : InOrder X s) : InOrder X (s.fillCtx p slot) := by
  dsimp only [State.fillCtx]
  refine .ite h ?_
  refine .ite ?_ (.ite h.fillOnce h.setCtx)
  split
  · exact h.flowLookup.fillOnce
  · exact h.flowLookup.setCtx

theorem InOrder.loadCtx {p ridx} (h : InOrder X s) : InOrder X (s.loadCtx p ridx).2 := by
  dsimp only [State.loadCtx]
  split
  · exact .pair (.ite h.fillRecord h)
  · exact .pair h.takeCtx.fillRecord

theorem InOrder.mirrorRec {p ridx} (h : InOrder X s) : InOrder X (s.mirrorRec p ridx) := by
  dsimp only [State.mirrorRec]
  split
  · exact h
  · exact .ite h.devWrite.askDram (h.setFlw { h.flw with })

theorem InOrder.endCtx {p ridx inserted} (h : InOrder X s) : InOrder X (s.endCtx p ridx inserted) := h.loadCtx.setCtx.mirrorRec
theorem InOrder.applyRec {p ridx e} (h : InOrder X s) : InOrder X (s.applyRec p ridx e) := .ite h h.loadCtx.setCtx
theorem InOrder.pickRidx {p} (h : InOrder X s) : InOrder X (s.pickRidx p).2 := .ite_snd (.pair h.freeN) (.pair h.freeN)

theorem InOrder.reserve {p key} (h : InOrder X s) : InOrder X (s.reserve p key).2 := by
  dsimp only [State.reserve]
  split
  · exact .pair h.countP
  · split
    · exact .pair h.pickRidx.countP
    · exact .pair (h.pickRidx.setEntry.updFlw rfl)

theorem InOrder.unreserve {p loc ridx} (h : InOrder X s) : InOrder X (s.unreserve p loc ridx) := h.setEntry.updFlw rfl
theorem InOrder.makeRecord {p loc ridx key} (h : InOrder X s) : InOrder X (s.makeRecord p loc ridx key) := .setEntry (h.devWrite.askDram.updFlw rfl)

theorem InOrder.freeMirror {p ridx} (h : InOrder X s) : InOrder X (s.freeMirror p ridx) := by
  dsimp only [State.freeMirror]
  split
  · exact h
  · split
    · exact h.setFlw { h.flw with }
    · split
      · exact .devWrite (h.setFlw { h.flw with })
      · exact h.setFlw { h.flw with }

theorem InOrder.markGoneIf {p q} (h : InOrder X s) : InOrder X (s.markGoneIf p q) := { h with lls := SMap.sorted_mapKeys _ h.lls }
theorem InOrder.markGone {p ridx} (h : InOrder X s) : InOrder X (s.markGone p ridx) := h.markGoneIf

theorem InOrder.dropCtx {p ridx} (h : InOrder X s) : InOrder X (s.dropCtx p ridx) := by
  dsimp only [State.dropCtx]
  split
  · exact .ite h h.setCtx
  · exact h

theorem InOrder.deleteRecord {p ridx} (h : InOrder X s) : InOrder X (s.deleteRecord p ridx) := by
  unfold State.deleteRecord
  extract_lets -underBinder u v w f
  have hv : InOrder X v := by
    unfold v
    split
    · exact h.freeMirror.markGone.setEntry
    · exact h.freeMirror.markGone
  exact .ite (hv.dropCtx.setAdopt (SMap.sorted_set _ _ _ hv.dropCtx.flw.adoptUsed)) (hv.dropCtx.updFlw rfl)

theorem InOrder.emptyStash {p} (h : InOrder X s) : InOrder X (s.emptyStash p) := by
  dsimp only [State.emptyStash]
  exact .base rfl (h.markGoneIf.updFlw rfl) fun h1 => { h1 with }

theorem InOrder.takeLock {p onBucket key k} (h : InOrder X s) : InOrder X (s.takeLock p onBucket key k) := .ite h (h.setFlw { h.flw with })

theorem InOrder.freeLocks {k} (h : InOrder X s) : InOrder X (s.freeLocks k) := by
  dsimp only [State.freeLocks]
  exact .updFlw (h.setFlw (.of_eq rfl h.flw)) rfl

end

end Sys2Proof.Machine
end

section
/-! PROOFS. What every step keeps, in ordering domains, ready lists and lifelines (ch. 5), the ports and the switch core (ch. 3, 12) and the reads of
hook 3. -/

namespace Sys2Proof.Machine

section
variable {X : Nat → Prop} {s : State}

theorem InOrder.passHead {p d a} (h : InOrder X s) : InOrder X (s.passHead p d a) := by
  induction a generalizing s with
  | zero => exact h
  | succ n ih =>
    dsimp only [State.passHead]
    split
    · split
      · exact ih (.countP (h.setOd h.od.pass))
      · exact ih (h.setOd h.od.pass)
    · exact ih (h.setOd h.od.pass)
    · exact h

theorem InOrder.advanceHead {p d} (h : InOrder X s) : InOrder X (s.advanceHead p d) := h.passHead
theorem InOrder.setMark {w v} (h : InOrder X s) : InOrder X (s.setMark w v) := .ite (h.setOd h.od.setSlot) h
theorem InOrder.dropMark {w cause} (h : InOrder X s) : InOrder X (s.dropMark w cause) := .ite h.setMark.advanceHead h.countP
theorem InOrder.setItems {l x} (h : InOrder X s) : InOrder X (s.setItems l x) := { h with carLists := SMap.sorted_set _ _ _ h.carLists }
theorem InOrder.setSpilled {l x} (h : InOrder X s) : InOrder X (s.setSpilled l x) := { h with carSpill := SMap.sorted_set _ _ _ h.carSpill }
theorem InOrder.setHoldQ {p x} (h : InOrder X s) : InOrder X (s.setHoldQ p x) := .ite { h with } { h with }

theorem InOrder.spillTo {l w} (h : InOrder X s) : OptInOrder X (s.spillTo l w) :=
  .map fun _ => .askDram (.devWrite { h.setSpilled with })

theorem InOrder.storeItem {l w} (h : InOrder X s) : OptInOrder X (s.storeItem l w) := .ite h.spillTo (.ite (.some h.setItems) (.ite h.spillTo .none))

theorem InOrder.appendItem {w} (h : InOrder X s) : OptInOrder X (s.appendItem w) := by
  dsimp only [State.appendItem]
  refine .ite (.ite (.some h.setHoldQ) .none) ?_
  split
  · next u e =>
      have h1 : InOrder X u := .of_some e h.storeItem
      exact .some h1
  · exact .ite (.some h.setHoldQ) .none

theorem InOrder.requeue {w} (h : InOrder X s) : InOrder X (s.requeue w) := h.setItems
theorem InOrder.setHeldWork {l} (h : InOrder X s) : InOrder X (s.setHeldWork l) := { h with }

theorem InOrder.retryWork (h : InOrder X s) : InOrder X s.retryWork := by
  dsimp only [State.retryWork]
  refine .setHeldWork ?_
  refine .foldl_fst (.pair_fst h) ?_
  intro _ _ h1
  refine .ite_fst (.pair_fst h1) ?_
  split
  · next u e =>
      have h2 : InOrder X u := .of_some e h1.appendItem
      exact .pair_fst h2
  · exact .pair_fst h1

theorem InOrder.offerWork {ring w} (h : InOrder X s) : InOrder X (s.offerWork ring w) := by
  dsimp only [State.offerWork]
  refine .ite ?_ ?_
  · split
    · exact h.finish
    · exact h
  · refine .ite h.setHeldWork ?_
    split
    · next u e =>
        have h1 : InOrder X u := .of_some e h.appendItem
        exact h1
    · exact h.setHeldWork

theorem InOrder.retryHold {p} (h : InOrder X s) : InOrder X (s.retryHold p) := by
  dsimp only [State.retryHold]
  refine .retryWork ?_
  refine .setHoldQ ?_
  refine .foldl_fst (.pair_fst h) ?_
  intro _ _ h1
  refine .ite_fst (.pair_fst h1) ?_
  split
  · next u e =>
      have h2 : InOrder X u := .of_some e h1.storeItem
      exact .pair_fst h2
  · exact .pair_fst h1

theorem InOrder.pickLl {p} (h : InOrder X s) : InOrder X (s.pickLl p).2 := .ite_snd (.pair h.freeN) (.pair h.freeN)

theorem InOrder.discardAttempt {k} (h : InOrder X s) : InOrder X (s.discardAttempt k) := by
  dsimp only [State.discardAttempt]
  refine .sweepAbsence ?_
  refine .setLl ?_
  refine .freeLocks ?_
  refine .foldl (h.foldl fun _ _ h1 => h1.dropTent) ?_
  intro _ _ h1
  split
  · exact h1.unreserve
  · exact h1

theorem InOrder.freeLl {k} (h : InOrder X s) : InOrder X (s.freeLl k) := .sweepAbsence { h.freeLocks with lls := SMap.sorted_del _ h.freeLocks.lls }

theorem InOrder.endWork {w status result} (h : InOrder X s) : InOrder X (s.endWork w status result) := by
  dsimp only [State.endWork]
  split
  · exact h.finish
  · exact h

theorem InOrder.killQueued {k} (h : InOrder X s) : InOrder X (s.killQueued k) := { h with carLists := SMap.sorted_mapKeys _ h.carLists }

theorem InOrder.discardHead {w} (h : InOrder X s) : InOrder X (s.discardHead w) := by
  dsimp only [State.discardHead]
  refine .ite h ?_
  refine .dropMark ?_
  refine .endWork ?_
  split
  · exact h.discardAttempt.freeLl
  · exact h

theorem InOrder.releaseHeld {k} (h : InOrder X s) : InOrder X (s.releaseHeld k) :=
  .ite_of h.discardAttempt (fun h1 => h1.freeLl) fun h1 => h1.endWork.dropMark.freeLl

theorem InOrder.requeueLl {k attempt serial replay frogRsi} (h : InOrder X s) : InOrder X (s.requeueLl k attempt serial replay frogRsi) :=
  h.discardAttempt.setLl.requeue

theorem InOrder.frog {k frogRsi} (h : InOrder X s) : InOrder X (s.frog k frogRsi) := .requeueLl (.ite h.countP.countP h.countP)

theorem InOrder.replay {k} (h : InOrder X s) : InOrder X (s.replay k) := by
  dsimp only [State.replay]
  split
  · refine .requeueLl ?_
    split
    · exact h.setStrand { h.strand with bank0 := .ite h.strand.bank0.dropItem h.strand.bank0, bank1 := .ite h.strand.bank1.dropItem h.strand.bank1 }
    · exact h
  · exact h.setMark.requeueLl
  · exact { h.setLl with carLists := SMap.sorted_mapKeys _ h.setLl.carLists }
  · exact h

theorem InOrder.stirWork {u : State} (h : InOrder X s) : InOrder X (s.stirWork u) := h.foldl fun _ _ h1 => .ite h1.stir h1
theorem InOrder.countPc {port tc n} (h : InOrder X s) : InOrder X (s.countPc port tc n) := h.count
theorem InOrder.takeCells {p n} (h : InOrder X s) : InOrder X (s.takeCells p n).2 := .pair h.freeN
theorem InOrder.putCell {p c bs} (h : InOrder X s) : InOrder X (s.putCell p c bs) := { h with }

theorem InOrder.putFrameBytes {p bs a} (h : InOrder X s) : InOrder X (s.putFrameBytes p bs a) := by
  induction a generalizing bs s with
  | nil => exact h
  | cons c cs ih => exact ih h.putCell

theorem InOrder.storeFrame {p bs} (h : InOrder X s) : InOrder X (s.storeFrame p bs).2 := by
  dsimp only [State.storeFrame]
  exact h.takeCells.putFrameBytes

theorem InOrder.rewriteFrame {p bs cs} (h : InOrder X s) : InOrder X (s.rewriteFrame p bs cs).2 :=
  .pair (.putFrameBytes (.ite_snd h.takeCells (.pair h)))

theorem InOrder.putDescriptor {p w} (h : InOrder X s) : InOrder X (s.putDescriptor p w) := by
  dsimp only [State.putDescriptor]
  split
  · exact h
  · exact h.putCell

theorem InOrder.clearDeficit {k tc} (h : InOrder X s) : InOrder X (s.clearDeficit k tc) := { h with }

theorem InOrder.setQueue {p port tc l} (h : InOrder X s) : InOrder X (s.setQueue p port tc l) :=
  .if_then { h with swtQs := SMap.sorted_set _ _ _ h.swtQs } fun h1 => h1.clearDeficit

theorem InOrder.putFrame {n f} (h : InOrder X s) : InOrder X (s.putFrame n f) := { h with swtFrames := SMap.sorted_put _ _ h.swtFrames }
theorem InOrder.delFrame {n} (h : InOrder X s) : InOrder X (s.delFrame n) := { h with swtFrames := SMap.sorted_del _ h.swtFrames }
theorem InOrder.enqueue {p n f} (h : InOrder X s) : InOrder X (s.enqueue p n f) := h.putFrame.setQueue

theorem InOrder.meterFrame {p m l} (h : InOrder X s) : InOrder X (s.meterFrame p m l).2 := by
  have put y : InOrder X { s with swt := { s.swt with meters := SMap.set s.swt.meters {} (p * 256 + m) y } } := { h with }
  exact .ite_snd (.pair (put _)) (.ite_snd (.pair (put _)) (.pair (put _)))

/-- The filter's results are of the forms that its branches write; said for every `P`, so that no pair has to be computed. -/
theorem InOrder.psFilter_keeps {p f} {P : Option FabFrame × State → Prop} (h : InOrder X s) (hP : ∀ a u, InOrder X u → P (a, u)) : P (s.psFilter p f)
    := by
  unfold State.psFilter
  refine ite_keeps (hP _ _ h) ?_
  refine ite_keeps (hP _ _ h.count) ?_
  refine ite_keeps (hP _ _ (.count (.if_then h fun h1 => { h1 with }))) ?_
  refine ite_keeps (hP _ _ h.count) ?_
  refine ite_keeps (hP _ _ h) ?_
  extract_lets -underBinder m
  generalize e : s.meterFrame p m f.bytes.length = r
  obtain ⟨c, u⟩ := r
  have hu := InOrder.snd e h.meterFrame
  dsimp only
  split
  · exact hP _ _ hu
  · exact ite_keeps (hP _ _ hu.count) (hP _ _ hu)
  · exact hP _ _ hu.count

theorem InOrder.psFilter {p f} (h : InOrder X s) : InOrder X (s.psFilter p f).2 := h.psFilter_keeps (P := fun r => InOrder X r.2) fun _ _ hu => hu

theorem InOrder.frerGen {p f} (h : InOrder X s) : InOrder X (s.frerGen p f).2.2 := by
  dsimp only [State.frerGen]
  split
  · exact .triple h
  · exact .triple { h with }

theorem InOrder.setStream {k x} (h : InOrder X s) : InOrder X (s.setStream k x) := { h with swtStreams := SMap.sorted_set _ _ _ h.swtStreams }
theorem InOrder.enterStream {f} (h : InOrder X s) : InOrder X (s.enterStream f) := .ite h.countPc (.ite h.countPc (.setStream (.putFrame { h with })))

theorem InOrder.mirrorCopy {p x f} (h : InOrder X s) : InOrder X (s.mirrorCopy p x f).2 := by
  dsimp only [State.mirrorCopy]
  split
  · exact .pair h
  · exact .pair h.countPc

theorem InOrder.toFabric {f mir} (h : InOrder X s) : InOrder X (s.toFabric f mir) := by
  dsimp only [State.toFabric]
  split
  · exact h.psFilter
  · split
    · refine .enterStream ?_
      split
      · refine .enterStream ?_
        refine .ite ?_ ?_
        · split
          · refine .enterStream ?_
            split
            · exact h.psFilter.frerGen.mirrorCopy
            · exact .pair h.psFilter.frerGen
          · refine .countPc ?_
            split
            · exact h.psFilter.frerGen.mirrorCopy
            · exact .pair h.psFilter.frerGen
        · refine .enterStream ?_
          split
          · exact h.psFilter.frerGen.mirrorCopy
          · exact .pair h.psFilter.frerGen
      · refine .ite ?_ ?_
        · split
          · refine .enterStream ?_
            split
            · exact h.psFilter.frerGen.mirrorCopy
            · exact .pair h.psFilter.frerGen
          · refine .countPc ?_
            split
            · exact h.psFilter.frerGen.mirrorCopy
            · exact .pair h.psFilter.frerGen
        · refine .enterStream ?_
          split
          · exact h.psFilter.frerGen.mirrorCopy
          · exact .pair h.psFilter.frerGen
    · split
      · refine .enterStream ?_
        refine .ite ?_ ?_
        · split
          · refine .enterStream ?_
            split
            · exact h.psFilter.frerGen.mirrorCopy
            · exact .pair h.psFilter.frerGen
          · refine .countPc ?_
            split
            · exact h.psFilter.frerGen.mirrorCopy
            · exact .pair h.psFilter.frerGen
        · refine .enterStream ?_
          split
          · exact h.psFilter.frerGen.mirrorCopy
          · exact .pair h.psFilter.frerGen
      · refine .ite ?_ ?_
        · split
          · refine .enterStream ?_
            split
            · exact h.psFilter.frerGen.mirrorCopy
            · exact .pair h.psFilter.frerGen
          · refine .countPc ?_
            split
            · exact h.psFilter.frerGen.mirrorCopy
            · exact .pair h.psFilter.frerGen
        · refine .enterStream ?_
          split
          · exact h.psFilter.frerGen.mirrorCopy
          · exact .pair h.psFilter.frerGen

theorem InOrder.forgetFrame {n} (h : InOrder X s) : InOrder X (s.forgetFrame n) :=
  .foldl { h.delFrame with swtAdm := SMap.sorted_filter _ (SMap.sorted_mapKeys _ h.delFrame.swtAdm) } (fun _ _ h1 => h1.setQueue)

theorem InOrder.fabLoss {n} (h : InOrder X s) : InOrder X (s.fabLoss n) := by
  dsimp only [State.fabLoss]
  split
  · exact h
  · exact h.forgetFrame.countPc

theorem InOrder.dropQueued {n} (h : InOrder X s) : InOrder X (s.dropQueued n) := by
  dsimp only [State.dropQueued]
  split
  · exact h
  · exact h.forgetFrame.countPc

theorem InOrder.arriveCell {c} (h : InOrder X s) : InOrder X (s.arriveCell c) := by
  dsimp only [State.arriveCell]
  refine h.foldl ?_
  intro _ _ h1
  split
  · exact h1
  · exact .putFrame (.ite { h1 with swtAdm := SMap.sorted_set _ _ _ h1.swtAdm } h1)

theorem InOrder.forwardCell {c} (h : InOrder X s) : InOrder X (s.forwardCell c) := .ite h.arriveCell { h with }

theorem InOrder.resequence {k a} (h : InOrder X s) : InOrder X (s.resequence k a) := by
  induction a generalizing s with
  | zero => exact h
  | succ n ih =>
    dsimp only [State.resequence]
    split
    · exact h.setStream
    · exact ih h.setStream.forwardCell

theorem InOrder.deliverCell {c} (h : InOrder X s) : InOrder X (s.deliverCell c) := .ite h.setStream.resequence h

theorem InOrder.stageTwo {p t j} (h : InOrder X s) : InOrder X (s.stageTwo p t j) := by
  dsimp only [State.stageTwo]
  refine .ite h ?_
  split
  · exact h
  · exact .deliverCell { h with }

theorem InOrder.stageOne {p t i} (h : InOrder X s) : InOrder X (s.stageOne p t i) := by
  dsimp only [State.stageOne]
  refine .ite h ?_
  split
  · exact h
  · refine .foldl { h.setStream with } ?_
    intro _ _ h1
    refine .ite h1 ?_
    split
    · exact h1.putFrame
    · exact h1

theorem InOrder.bridgeLane {l} (h : InOrder X s) : InOrder X (s.bridgeLane l) := by
  dsimp only [State.bridgeLane]
  split
  · exact h
  · exact .ite (.arriveCell { h with }) h

theorem InOrder.sortArrivals {before} (h : InOrder X s) : InOrder X (s.sortArrivals before) := { h with swtAdm := SMap.sorted_mapKeys _ h.swtAdm }

theorem InOrder.panelSlot {p} (h : InOrder X s) : InOrder X (s.panelSlot p) := by
  dsimp only [State.panelSlot]
  exact .ite h (.ite_of (.if_then (.foldl (h.foldl fun _ _ h1 => h1.stageTwo) (fun _ _ h1 => h1.stageOne)) fun h1 => h1.foldl fun _ _ h2 =>
    h2.bridgeLane) (fun h1 => { h1 with }) fun h1 => { h1 with })

theorem InOrder.execFabricSlot (h : InOrder X s) : Steps X (execFabricSlot s) := .next h.panelSlot.panelSlot.sortArrivals

theorem InOrder.execResequenceTimeout {panel stream} (h : InOrder X s) : Steps X (execResequenceTimeout panel stream s) := by
  unfold Machine.execResequenceTimeout
  extract_lets -underBinder x
  split
  · exact .next h
  · refine .ite (.next h) ?_
    extract_lets -underBinder here gone u _ v w
    have hu : InOrder X u := by
      unfold u
      cases gone with
      | none => exact h
      | some c => exact h.foldl fun _ _ h1 => h1.fabLoss
    have hv : InOrder X v := { hu with }
    exact .next hv.setStream.resequence

theorem InOrder.loseReseq {st} (h : InOrder X s) : InOrder X (s.loseReseq st) :=
  .foldl { h.foldl fun _ _ h1 => h1.setStream.resequence with } (fun _ _ h1 => h1.foldl fun _ _ h2 => h2.fabLoss)

theorem InOrder.loseCell {j c} (h : InOrder X s) : InOrder X (s.loseCell j c) :=
  .foldl (.resequence (.setStream { h with })) (fun _ _ h1 => h1.fabLoss)

theorem InOrder.loseLane {st} (h : InOrder X s) : InOrder X (s.loseLane st) := h.foldl fun _ _ h1 => .ite h1.freeB.loseCell h1.freeB
theorem InOrder.endStream {k} (h : InOrder X s) : InOrder X (s.endStream k) := { h with swtStreams := SMap.sorted_filter _ h.swtStreams }

theorem InOrder.loseStation {st} (h : InOrder X s) : InOrder X (s.loseStation st) :=
  .foldl (.foldl (.foldl (h.foldl fun _ _ h1 => h1.loseCell) (fun _ _ h1 => .endStream (h1.foldl fun _ _ h2 => h2.dropQueued))) (fun _ _ h1 =>
    .endStream (h1.foldl fun _ _ h2 => h2.fabLoss))) (fun _ _ h1 => .setStream (h1.foldl fun _ _ h2 => h2.fabLoss))

theorem InOrder.loseCross (h : InOrder X s) : InOrder X s.loseCross :=
  { h.foldl fun _ _ h1 => h1.fabLoss with swtStreams := SMap.sorted_filter _ ((h.foldl fun _ _ h1 => h1.fabLoss).swtStreams) }

theorem InOrder.toRecirc {k f maxPass} (h : InOrder X s) : InOrder X (s.toRecirc k f maxPass) := by
  dsimp only [State.toRecirc]
  refine .ite h.freeLl.dropMark ?_
  split
  · exact .enqueue { h with }
  · exact .if_then h.freeLl.countPc fun h1 => h1.setMark.advanceHead

theorem InOrder.killRecirc {k} (h : InOrder X s) : InOrder X (s.killRecirc k) :=
  { h with swtParseQ := SMap.sorted_mapKeys _ h.swtParseQ, swtFrames := SMap.sorted_mapKeys _ h.swtFrames }

theorem InOrder.leaveLockWait {t p} (h : InOrder X s) : InOrder X (s.leaveLockWait t p) := h.setFlw { h.flw with }

theorem InOrder.finishRead {t o p slot} (h : InOrder X s) : InOrder X (s.finishRead t o p slot).2 := by
  dsimp only [State.finishRead]
  refine .ite_snd (.ite_snd (.pair h) (.pair h)) ?_
  split
  · exact .pair h.sweepAbsence
  · split
    · exact .pair h
    · exact .ite_snd (.pair h.sweepAbsence) (.ite_snd (.pair (h.setFlw { h.flw with })) (.pair (.setLl (.ite h.takeLock.leaveLockWait h))))

theorem InOrder.tryRead {t o} (h : InOrder X s) : InOrder X (s.tryRead t o).2 := by
  dsimp only [State.tryRead]
  refine .ite_snd (.pair (h.setFlw { h.flw with })) ?_
  refine .ite_snd (.pair h) ?_
  split
  · exact .ite_snd (.pair h) h.finishRead
  · exact .ite_snd (.pair (.countP (h.takeCtx.setCtx.updFlw rfl))) (.pair (h.setFlw { h.flw with }))

theorem InOrder.rerun {t p} (h : InOrder X s) : InOrder X (s.rerun t p) := by
  dsimp only [State.rerun]
  refine h.foldl ?_
  intro _ _ h1
  split
  · exact h1
  · exact .ite (h1.tryRead.setStrand { h1.tryRead.strand with }) h1

theorem InOrder.rerunLocks {t} (h : InOrder X s) : InOrder X (s.rerunLocks t) := h.rerun.leaveLockWait.leaveLockWait
theorem InOrder.rerunHome {p} (h : InOrder X s) : InOrder X (s.rerunHome p) := h.foldl fun _ _ h1 => h1.rerun

theorem InOrder.execLockGrant {t} (h : InOrder X s) : Steps X (execLockGrant t s) := by
  dsimp only [Machine.execLockGrant]
  split
  · exact .next h
  · split
    · exact .ite (.next h) (.next h.rerun)
    · exact .next h

theorem InOrder.execMissQueueAdmit {panel} (h : InOrder X s) : Steps X (execMissQueueAdmit panel s) := by
  dsimp only [Machine.execMissQueueAdmit]
  refine .ite (.next h) ?_
  split
  · exact .next h
  · exact .next (.rerun (h.setFlw { h.flw with }))

theorem InOrder.execMissServe {panel} (h : InOrder X s) : Steps X (execMissServe panel s) := by
  dsimp only [Machine.execMissServe]
  split
  · exact .next h
  · exact .ite (.next h) (.next (.foldl (.fillCtx (h.askDram.setFlw { h.flw with })) (fun _ _ h1 => .ite (h1.setStrand { h1.strand with }) h1.rerun)))

theorem InOrder.execAdoptConflict {panel} (h : InOrder X s) : Steps X (execAdoptConflict panel s) := by
  unfold Machine.execAdoptConflict
  extract_lets -underBinder p
  split
  · exact .next h
  · extract_lets -underBinder nb u
    have hu : InOrder X u := by
      unfold u
      split
      · exact h
      · refine h.foldl fun v _ h1 => ?_
        split
        · exact .ite h1.setEntry h1
        · exact h1
    exact .next (hu.markGone.setAdopt (SMap.sorted_set _ _ _ hu.flw.adoptUsed)).countP

end

end Sys2Proof.Machine
end

section
/-! PROOFS. What every step keeps, in the Carriage (R105–R116), yarns and knots (R134, R158–R165), the path of a hook operation (R171–R177) and hooks
1 and 2. -/

namespace Sys2Proof.Machine

section
variable {X : Nat → Prop} {s : State}

theorem InOrder.enterItem {t k b1} (h : InOrder X s) : InOrder X (s.enterItem t k b1) := by
  dsimp only [State.enterItem]
  exact h.setStrand (.of_eq rfl rfl rfl (h.strand.setBk (.of_eq rfl h.strand.bk)))

theorem InOrder.preempt {t k} (h : InOrder X s) : InOrder X (s.preempt t k) := .enterItem (h.setStrand h.strand.unwait)

theorem InOrder.giveItem {t k w} (h : InOrder X s) : InOrder X (s.giveItem t k w) := by
  unfold State.giveItem
  extract_lets -underBinder w' u x
  have hu : InOrder X u := by
    unfold u
    split
    · exact h.setLl
    · exact h.setLl
  exact .ite hu.enterItem (.ite (hu.setStrand { hu.strand with }) hu.preempt)

theorem InOrder.takeAt {l i} (h : InOrder X s) : InOrder X (s.takeAt l i) := h.setItems.stirWork

theorem InOrder.tryList {c pr l} {u : State} (h : InOrder X s) (e : s.tryList c pr l = .discarded u ∨ s.tryList c pr l = .sent u) : InOrder X u := by
  have mark {v : State} {m} (hv : InOrder X v) : InOrder X { v with car := { v.car with dispRr := m } } := { hv with }
  unfold State.tryList at e
  split at e
  · simp at e
  · split at e
    · simp at e
    · split at e
      · simp only [DispRes.discarded.injEq, reduceCtorEq, or_false] at e
        exact e ▸ h.takeAt.discardHead
      · split at e
        · simp at e
        · extract_lets -underBinder mark' at e
          split at e
          · simp only [DispRes.sent.injEq, reduceCtorEq, false_or] at e
            exact e ▸ mark h.takeAt.giveItem
          · split at e
            next r v ev =>
            split at e
            · simp at e
            · simp only [DispRes.sent.injEq, reduceCtorEq, false_or] at e
              exact e ▸ mark (InOrder.snd ev h.pickLl).takeAt.giveItem

theorem InOrder.roundStep {c pr acc l} (h : InOrder X acc.1) : InOrder X (State.roundStep c pr acc l).1 := by
  refine .ite_fst h ?_
  split
  · exact h
  · next e => exact h.tryList (.inl e)
  · next e => exact h.tryList (.inr e)

theorem InOrder.dispatchRound {c} (h : InOrder X s) : InOrder X (s.dispatchRound c) :=
  .foldl_fst (.pair_fst h) fun _ _ h1 => .ite_fst h1 (h1.foldl_fst fun _ _ h2 => h2.roundStep)

theorem InOrder.execDispatch {course} (h : InOrder X s) : Steps X (execDispatch course s) := .ite (.next h.dispatchRound) (.next h)
theorem InOrder.execHoldQueueRetry {panel} (h : InOrder X s) : Steps X (execHoldQueueRetry panel s) := .next h.retryHold

theorem InOrder.execSpillReturn {list} (h : InOrder X s) : Steps X (execSpillReturn list s) := by
  dsimp only [Machine.execSpillReturn]
  split
  · exact .next h
  · exact .ite (.ite (.next h.setSpilled.askDram.discardHead) (.next h.setSpilled.askDram.setItems)) (.next h)

theorem InOrder.bindoffItem {t} (h : InOrder X s) : InOrder X (s.bindoffItem t).2 := by
  dsimp only [State.bindoffItem]
  split
  · exact .pair (h.setBank h.bank.dropItem)
  · exact .ite_snd (.pair h) (.ite_snd (.pair (.freeLl (.discardAttempt (h.setBank h.bank.dropItem)))) (.pair (.setMark (.setLl (h.setBank
      h.bank.dropItem)))))

theorem InOrder.waitDispatch {t} (h : InOrder X s) : InOrder X (s.waitDispatch t) := by
  dsimp only [State.waitDispatch]
  refine .ite (.setStrand (.ite h.bindoffItem h) { InOrder.strand (.ite h.bindoffItem h) with }) ?_
  split
  · exact .enterItem (.ite h.bindoffItem h)
  · exact .setStrand (.ite h.bindoffItem h) { InOrder.strand (.ite h.bindoffItem h) with }

theorem InOrder.applyEntry {k e} (h : InOrder X s) : InOrder X (s.applyEntry k e) := by
  dsimp only [State.applyEntry]
  split
  · exact h.freeBufAt
  · exact h.makeRecord.setCtx
  · exact h.deleteRecord
  · exact h.applyRec

theorem InOrder.applyLog {k} (h : InOrder X s) : InOrder X (s.applyLog k) := h.foldl fun _ _ h1 => .ite h1 h1.applyEntry.setLl

theorem InOrder.leave {k parallel} (h : InOrder X s) : InOrder X (s.leave k parallel) := by
  unfold State.leave
  extract_lets -underBinder l w p egr ok v port done
  have hdone {u : State} (hu : InOrder X u) : InOrder X (done u) := by
    unfold done
    extract_lets -underBinder u1 u2 u3 u4
    have h1 : InOrder X u1 := .ite hu.setMark hu.setMark
    have h2 : InOrder X u2 := .if_then h1 fun h1 => h1.setOd h1.od.pass
    exact .if_then h2.endWork.freeLl fun h4 => h4.advanceHead
  refine .ite (hdone h) (.ite (hdone h.countP) (.ite (hdone h.countP) ?_))
  split
  next cs u e =>
  have hu := InOrder.snd e h.rewriteFrame
  exact .ite hu.setLl.freeLocks.setMark.toRecirc (hdone hu).toFabric

theorem InOrder.commit {k parallel} (h : InOrder X s) : InOrder X (s.commit k parallel) :=
  .sweepAbsence (.leave (.freeLocks (.foldl (.applyLog (h.setLl.foldl fun _ _ h1 => h1.confirmTent)) (fun _ _ h1 => .ite h1.endCtx h1))))

theorem InOrder.release {k} (h : InOrder X s) : InOrder X (s.release k) := by
  dsimp only [State.release]
  split
  · exact h.commit
  · exact .ite h.discardAttempt.endWork.freeLl.dropMark h.setMark.frog

theorem InOrder.execReleaseTurn {panel llid} (h : InOrder X s) : Steps X (execReleaseTurn panel llid s) := .ite (.next h.release) (.next h)

theorem InOrder.timeoutHeld {k} (h : InOrder X s) : InOrder X (s.timeoutHeld k) := by
  dsimp only [State.timeoutHeld]
  refine .ite h ?_
  split
  · refine .dropMark ?_
    split
    · exact h.discardAttempt.endWork.setLl.rerunLocks
    · exact h.discardAttempt.endWork.setLl
  · exact h.discardAttempt.endWork.killQueued.freeLl.dropMark
  · exact h.discardAttempt.killRecirc.freeLl.dropMark
  · exact h

theorem InOrder.timeoutListed {p d m} (h : InOrder X s) : InOrder X (s.timeoutListed p d m) := by
  dsimp only [State.timeoutListed]
  split
  · exact h
  · exact .ite h (.dropMark { h with carLists := SMap.sorted_mapKeys _ h.carLists, carSpill := SMap.sorted_mapKeys _ h.carSpill })

theorem InOrder.execBindTimeout {x} (h : InOrder X s) : Steps X (execBindTimeout x s) := by
  dsimp only [Machine.execBindTimeout]
  split
  · exact .next h.timeoutHeld
  · exact .next h.timeoutListed

theorem InOrder.setYarn {k y} (h : InOrder X s) : InOrder X (s.setYarn k y) := { h with yarns := SMap.sorted_set _ _ _ h.yarns }
theorem InOrder.doSend {t key} (h : InOrder X s) : InOrder X (s.doSend t key) := h.setYarn.setBank { h.setYarn.bank with }

theorem InOrder.doRecv {t key} (h : InOrder X s) : InOrder X (s.doRecv t key).2 := by
  dsimp only [State.doRecv]
  split
  · exact .pair h
  · exact .pair (h.setYarn.setBank { h.setYarn.bank with })

theorem InOrder.yarnResult {t rd v fence} (h : InOrder X s) : InOrder X (s.yarnResult t rd v fence) := by
  dsimp only [State.yarnResult]
  exact h.setStrand (.of_eq rfl rfl rfl (h.strand.setCur (.of_eq rfl h.strand.cur)))

theorem InOrder.blockYarn {t n rd timeout recv} (h : InOrder X s) : InOrder X (s.blockYarn t n rd timeout recv) := by
  dsimp only [State.blockYarn]
  exact .base rfl (h.setStrand (.of_eq rfl rfl rfl (h.strand.setCur (.of_eq rfl h.strand.cur)))) fun h1 => { h1 with }

theorem InOrder.execYput {t f} (h : InOrder X s) : Steps X (execYput t f s) := .next (h.issue (fun _ h1 => h1.setBank { h1.bank with }))

theorem InOrder.yarnOp {t n rd timeout recv} (h : InOrder X s) : InOrder X (s.yarnOp t n rd timeout recv) := by
  dsimp only [State.yarnOp]
  refine .ite h.yarnResult ?_
  split
  · exact h.yarnResult
  · exact .ite h.yarnResult (.ite h.yarnResult (.if_else (.ite h.yarnResult h.blockYarn) fun h1 => .ite h.doSend.yarnResult (.ite h.doRecv.yarnResult
      h1)))

theorem InOrder.execYsend {t f} (h : InOrder X s) : Steps X (execYsend t f s) := .next (h.issue (fun _ h1 => h1.yarnOp))
theorem InOrder.execYrecv {t f} (h : InOrder X s) : Steps X (execYrecv t f s) := .next (h.issue (fun _ h1 => h1.yarnOp))
theorem InOrder.execYget {t f} (h : InOrder X s) : Steps X (execYget t f s) := .next (h.issue (fun _ h1 => h1.wreg))
theorem InOrder.execYdrop {t f} (h : InOrder X s) : Steps X (execYdrop t f s) := .next (h.issue (fun _ h1 => h1.setBank { h1.bank with }))

theorem InOrder.unblock {t rd v} (h : InOrder X s) : InOrder X (s.unblock t rd v) := by
  dsimp only [State.unblock]
  exact .stepDone (.base rfl (h.setStrand (.of_eq rfl rfl rfl (h.strand.setCur (.of_eq rfl h.strand.cur.wg)))) fun h1 => { h1 with })

theorem InOrder.serveYarn {t key b} (h : InOrder X s) : InOrder X (s.serveYarn t key b) := .ite h.doRecv.unblock h.doSend.unblock

theorem InOrder.execYarnWaitServe {t} (h : InOrder X s) : Steps X (execYarnWaitServe t s) := by
  dsimp only [Machine.execYarnWaitServe]
  split
  · exact .next h
  · split
    · exact .ite (.next h.serveYarn) (.next h)
    · exact .next h

theorem InOrder.execYarnTimeout {t} (h : InOrder X s) : Steps X (execYarnTimeout t s) := by
  dsimp only [Machine.execYarnTimeout]
  split
  · exact .next h
  · refine .ite (.next h) ?_
    split
    · exact .ite (.next h.serveYarn) (.next h.unblock)
    · exact .next h.unblock

theorem InOrder.execYarnMessageArrive {course yarn} (h : InOrder X s) : Steps X (execYarnMessageArrive course yarn s) := by
  dsimp only [Machine.execYarnMessageArrive]
  split
  · exact .next h
  · exact .next h.setYarn.stir

theorem InOrder.restAll {ts} (h : InOrder X s) : InOrder X (s.restAll ts) := h.foldl fun _ _ h1 => .ite (h1.setStrand { h1.strand with }) h1

theorem InOrder.severLinks (h : InOrder X s) : InOrder X s.severLinks := by
  dsimp only [State.severLinks]
  refine .restAll ?_
  refine h.foldl ?_
  intro _ _ h1
  split
  · exact .ite h1 (.ite (.countN (.setYarn (.ite { h1 with } (.stir { h1 with })))) { h1 with })
  · exact h1

theorem InOrder.execKnot {course} (h : InOrder X s) : Steps X (execKnot course s) := by
  dsimp only [Machine.execKnot]
  exact .ite (.next h) (.next (.postEvent (.setStrand (.base rfl (.setRd (h.foldl fun _ _ h1 => h1.setRd)) fun h1 => { h1 with }) (.of_eq rfl rfl rfl
    (InOrder.strand (.base rfl (.setRd (h.foldl fun _ _ h1 => h1.setRd)) fun h1 => { h1 with }))))))

theorem InOrder.execKnotTrap {t} (h : InOrder X s) : Steps X (execKnotTrap t s) := .ite (.next h) (.next (.takeTrap (h.setStrand { h.strand with })))
theorem InOrder.execMth {t f} (h : InOrder X s) : Steps X (execMth t f s) := .next (h.issue (fun _ h1 => h1.setBank h1.bank.wh))
theorem InOrder.execMfh {t f} (h : InOrder X s) : Steps X (execMfh t f s) := .next (h.issue (fun _ h1 => h1.wreg))
theorem InOrder.execMthd {t f} (h : InOrder X s) : Steps X (execMthd t f s) := .next (h.issue (fun _ h1 => h1.setBank h1.bank.wh))
theorem InOrder.execHclr {t f} (h : InOrder X s) : Steps X (execHclr t f s) := .next (h.issue (fun _ h1 => h1.setBank h1.bank.wh))
theorem InOrder.execHcpy {t f} (h : InOrder X s) : Steps X (execHcpy t f s) := .next (h.issue (fun _ h1 => h1.setBank h1.bank.wh))
theorem InOrder.execHook7 {t g w} (h : InOrder X s) : Steps X (execHook7 t g w s) := .next (h.issue (fun _ h1 => h1))
theorem InOrder.execBrk {t f} (h : InOrder X s) : Steps X (execBrk t f s) := .next (h.issue (fun _ h1 => h1))

theorem InOrder.afterExl {t} (h : InOrder X s) : InOrder X (s.afterExl t) := by
  dsimp only [State.afterExl]
  split
  · exact h
  · refine .ite h ?_
    split
    · exact h.preempt
    · exact h

theorem InOrder.sys0 {t f minor hold body} (h : InOrder X s) (hbody : ∀ v1, InOrder X v1 → InOrder X (body v1)) : InOrder X (s.sys0 t f minor hold
    body) :=
  h.issue (fun _ h1 => hbody _ h1)

theorem InOrder.execEret {t f} (h : InOrder X s) : Steps X (execEret t f s) := .next (h.sys0 (fun _ h1 => h1.returnTrap.afterExl))
theorem InOrder.execWaitd {t f} (h : InOrder X s) : Steps X (execWaitd t f s) := .next (h.sys0 (fun _ h1 => h1.waitDispatch))
theorem InOrder.execBindoff {t f} (h : InOrder X s) : Steps X (execBindoff t f s) := .next (h.issue (fun _ h1 => h1.bindoffItem.wreg))
theorem InOrder.execHalt {t f} (h : InOrder X s) : Steps X (execHalt t f s) := .next (h.sys0 (fun _ h1 => h1.haltStrand))
theorem InOrder.execFence {t f} (h : InOrder X s) : Steps X (execFence t f s) := .next (h.sys0 (fun _ h1 => h1))
theorem InOrder.execHsync {t f} (h : InOrder X s) : Steps X (execHsync t f s) := .next (h.sys0 (fun _ h1 => h1))

theorem InOrder.writeSr {t bk n v} (h : InOrder X s) : InOrder X (s.writeSr t bk n v) := by
  dsimp only [State.writeSr]
  split
  · exact h.setStrand (h.strand.setBk { h.strand.bk with })
  · exact h.setStrand (h.strand.setBk { h.strand.bk with })
  · exact h.setStrand (h.strand.setBk { h.strand.bk with })
  · exact h.setStrand (h.strand.setBk { h.strand.bk with })
  · exact h.setStrand (h.strand.setBk { h.strand.bk with })
  · exact h.setStrand { h.strand with }
  · exact h.setStrand (h.strand.setBk { h.strand.bk with })
  · exact h.setStrand (h.strand.setBk { h.strand.bk with })
  · exact h.setStrand (h.strand.setBk { h.strand.bk with })
  · exact h.setStrand (h.strand.setBk { h.strand.bk with })
  · exact h.setStrand (h.strand.setBk { h.strand.bk with })
  · exact h.setStrand { h.strand with }
  · exact h.setStrand { h.strand with }
  · exact h

theorem InOrder.execMfsr {t f} (h : InOrder X s) : Steps X (execMfsr t f s) := .next (h.issue (fun _ h1 => h1.wreg))
theorem InOrder.execMtsr {t f} (h : InOrder X s) : Steps X (execMtsr t f s) := .ite (.next h) (.next (h.issue (fun _ h1 => h1.writeSr.afterExl)))

theorem InOrder.restart {t} (h : InOrder X s) : InOrder X (s.restart t) := by
  dsimp only [State.restart]
  exact .setStrand (.base rfl (h.foldl fun _ _ h1 => h1.releaseHeld) fun h1 => { h1 with }) (.of_eq rfl rfl rfl StrandOk.freshStrand)

theorem InOrder.dbg {code v} (h : InOrder X s) : InOrder X (s.dbg code v) := h.emit

theorem InOrder.dbgOp {t body rsv} (h : InOrder X s) (hbody : ∀ v1, InOrder X v1 → InOrder X (body v1)) : InOrder X (s.dbgOp t body rsv) :=
  .ite h.dbg (.ite h.dbg (.ite h.emit (.ite h.dbg (hbody _ h))))

theorem InOrder.execDebugHalt {t} (h : InOrder X s) : Steps X (execDebugHalt t s) := by
  dsimp only [Machine.execDebugHalt]
  exact .ite (.next h.dbg) (.ite (.next h.emit) (.ite (.next h.dbg) (.next (.dbg (.loseOwner (h.setStrand (.of_eq rfl rfl rfl h.strand.haltAs)))))))

theorem InOrder.execDebugResume {t} (h : InOrder X s) : Steps X (execDebugResume t s) :=
  .next (h.dbgOp (fun _ h1 => .dbg (h1.setStrand { h1.strand with })))

theorem InOrder.execDebugStep {t} (h : InOrder X s) : Steps X (execDebugStep t s) :=
  .next (h.dbgOp (fun _ h1 => .dbg (h1.setStrand { h1.strand with })))

theorem InOrder.dbgWrite {t bk sel v} (h : InOrder X s) : OptInOrder X (s.dbgWrite t bk sel v) :=
  .ite (.some (h.setStrand (h.strand.setBk h.strand.bk.wg))) (.ite (.ite (.some (h.setStrand (h.strand.setBk { h.strand.bk with }))) .none) (.ite
    (.ite .none (.some h.writeSr)) (.ite (.some (h.setStrand (h.strand.setBk h.strand.bk.wh))) (.ite (.some (h.setStrand (h.strand.setBk { h.strand.bk
    with }))) (.ite (.some (h.setStrand (h.strand.setBk { h.strand.bk with }))) .none)))))

theorem InOrder.execDebugRead {d} (h : InOrder X s) : Steps X (execDebugRead d s) := by
  dsimp only [Machine.execDebugRead]
  refine .next ?_
  refine h.dbgOp ?_
  intro _ h1
  split
  · exact h1.dbg
  · exact h1.dbg

theorem InOrder.execDebugWrite {d val} (h : InOrder X s) : Steps X (execDebugWrite d val s) := by
  dsimp only [Machine.execDebugWrite]
  refine .next ?_
  refine h.dbgOp ?_
  intro _ h1
  split
  · next u e =>
      have h2 : InOrder X u := .of_some e h1.dbgWrite
      exact h2.dbg
  · exact h1.dbg

theorem InOrder.execDebugTink {t bank} (h : InOrder X s) : Steps X (execDebugTink t bank s) :=
  .next (h.dbgOp (fun _ h1 => .ite (.dbg (h1.setStrand (h1.strand.setBk { h1.strand.bk with }))) h1.dbg))

theorem InOrder.pushOp {t o} (h : InOrder X s) : InOrder X (s.pushOp t o) := h.setStrand { h.strand with }
theorem InOrder.holdOp {t f d} (h : InOrder X s) : InOrder X (s.holdOp t f d) := h.pushOp

theorem InOrder.hookIssue {t f d body lookup} (h : InOrder X s) (hbody : ∀ v1, InOrder X v1 → InOrder X (body v1)) : InOrder X (s.hookIssue t f d body
    lookup) := by
  dsimp only [State.hookIssue]
  refine .ite (hbody _ h) ?_
  refine .ite h ?_
  refine .ite (h.issue (fun _ h1 => h1)) ?_
  refine .ite h ?_
  refine .ite (h.setStrand { h.strand with }) ?_
  split
  · exact .issue (.count (h.setStrand { h.strand with })) (fun _ h1 => h1)
  · exact .issue (h.setStrand { h.strand with }) (fun _ h1 => .ite h1.holdOp (hbody _ h1))

theorem InOrder.execHookBusyTimeout {t} (h : InOrder X s) : Steps X (execHookBusyTimeout t s) := by
  dsimp only [Machine.execHookBusyTimeout]
  split
  · exact .next h
  · exact .ite (.next h) (.ite (.next (.issue (h.setStrand { h.strand with }) (fun _ h1 => h1))) (.ite (.next h) (.next (.issue (.count (h.setStrand {
      h.strand with })) (fun _ h1 => h1)))))

theorem InOrder.hookDone {t hook func hd srcs v} (h : InOrder X s) : InOrder X (s.hookDone t hook func hd srcs v) := h.pushOp

theorem InOrder.putCopy {p h' e} (h : InOrder X s) : InOrder X (s.putCopy p h' e) := by
  dsimp only [State.putCopy]
  refine h.setTp ?_
  refine { h.tp with ents := ?_ }
  split
  · exact SMap.sorted_put _ _ h.tp.ents
  · exact SMap.sorted_del _ h.tp.ents

theorem InOrder.putEnt {home h' e jrec result} (h : InOrder X s) : InOrder X (s.putEnt home h' e jrec result) := by
  unfold State.putEnt
  extract_lets -underBinder u v
  have hv : InOrder X v := by
    unfold v
    split
    · exact h.putCopy.setTp { h.putCopy.tp with act := SMap.sorted_del _ h.putCopy.tp.act }
    · exact h.putCopy
  refine .ite (hv.updTp rfl rfl) ?_
  split
  · exact hv.finish
  · exact hv

theorem InOrder.applyHit {home h' pos epoch} (h : InOrder X s) : InOrder X (s.applyHit home h' pos epoch) :=
  h.setTp { h.tp with act := SMap.sorted_set _ _ _ h.tp.act }

theorem InOrder.hitEnt {p h' key} (h : InOrder X s) : InOrder X (s.hitEnt p h' key) := .ite h (.ite (.ite h.applyHit h) (h.setTp { h.tp with }))

theorem InOrder.newActivity {home h'} (h : InOrder X s) : InOrder X (s.newActivity home h') :=
  .ite (h.setTp { h.tp with act := SMap.sorted_set _ _ _ h.tp.act }) h

theorem InOrder.clearTable {n} (h : InOrder X s) : InOrder X (s.clearTable n) :=
  { h with
    tblA := ⟨SMap.sorted_filter _ h.tblA.ents, SMap.sorted_filter _ h.tblA.act⟩, tblB := ⟨SMap.sorted_filter _ h.tblB.ents, SMap.sorted_filter _
      h.tblB.act⟩ }

theorem InOrder.setBankW {slot w v} (h : InOrder X s) : InOrder X (s.setBankW slot w v) := { h with }

theorem TblOk.maskEnts {x : TblPanel} {f : Nat → Nat} (h : TblOk x) : TblOk (maskEnts x f) := by
  refine { h with ents := SMap.sorted_filterMapKeys (fun e v hv => ?_) h.ents, act := SMap.sorted_filter _ h.act }
  obtain ⟨y, -, rfl⟩ := Option.map_eq_some_iff.1 hv
  rfl

theorem InOrder.applySweep {w} (h : InOrder X s) : InOrder X (s.applySweep w) := by
  unfold State.applySweep
  split
  · exact { h with tblA := h.tblA.maskEnts, tblB := h.tblB.maskEnts }
  · exact { h with tblA := h.tblA.maskEnts, tblB := h.tblB.maskEnts }

theorem InOrder.execSweepPassEnd (h : InOrder X s) : Steps X (execSweepPassEnd s) := by
  dsimp only [Machine.execSweepPassEnd]
  split
  · exact .next h
  · exact .next { h.applySweep with }

theorem InOrder.abortChart (h : InOrder X s) : InOrder X s.abortChart := .ite { h with } h

theorem InOrder.lookup {t f d body} (h : InOrder X s) (hbody : ∀ v1, InOrder X v1 → InOrder X (body v1)) : InOrder X (s.lookup t f d body) :=
  h.hookIssue (fun _ h1 => hbody _ h1)

theorem InOrder.emLook {t func f ok srcs key} (h : InOrder X s) : InOrder X (s.emLook t func f ok srcs key) := by
  dsimp only [State.emLook]
  split
  · exact h.hookDone
  · refine .ite h.hookDone ?_
    split
    · exact h.pushOp
    · exact h.pushOp

theorem InOrder.execEmLookup {t f} (h : InOrder X s) : Steps X (execEmLookup t f s) := .next (h.lookup (fun _ h1 => h1.emLook))

theorem InOrder.execLpmLookup {t f} (h : InOrder X s) : Steps X (execLpmLookup t f s) := by
  dsimp only [Machine.execLpmLookup]
  refine .next ?_
  refine h.lookup ?_
  intro _ h1
  split
  · exact h1.hookDone
  · refine .ite h1.hookDone ?_
    split
    · exact h1.hookDone
    · exact h1.hookDone

theorem InOrder.execL2Lookup {t f} (h : InOrder X s) : Steps X (execL2Lookup t f s) := .next (h.lookup (fun _ h1 => h1.emLook))

theorem InOrder.execFlowFind {t f} (h : InOrder X s) : Steps X (execFlowFind t f s) := by
  dsimp only [Machine.execFlowFind]
  refine .next ?_
  refine h.lookup ?_
  intro _ h1
  split
  · exact .hookDone (.ite_snd h1.flowLookup (.pair h1))
  · exact .hookDone (.ite_snd h1.flowLookup (.pair h1))

theorem InOrder.sumOp {t f func op} (h : InOrder X s) : InOrder X (s.sumOp t f func op) := h.hookIssue (fun _ h1 => h1.hookDone)
theorem InOrder.execCsum {t f} (h : InOrder X s) : Steps X (execCsum t f s) := .next h.sumOp
theorem InOrder.execCrc32c {t f} (h : InOrder X s) : Steps X (execCrc32c t f s) := .next h.sumOp
theorem InOrder.execCrc32 {t f} (h : InOrder X s) : Steps X (execCrc32 t f s) := .next h.sumOp
theorem InOrder.execCrc8 {t f} (h : InOrder X s) : Steps X (execCrc8 t f s) := .next h.sumOp
theorem InOrder.execCrc16 {t f} (h : InOrder X s) : Steps X (execCrc16 t f s) := .next h.sumOp
theorem InOrder.execCsumPkt {t f} (h : InOrder X s) : Steps X (execCsumPkt t f s) := .next (h.hookIssue (fun _ h1 => h1.hookDone))
theorem InOrder.execHash64 {t f} (h : InOrder X s) : Steps X (execHash64 t f s) := .next (h.hookIssue (fun _ h1 => h1.hookDone))

end

end Sys2Proof.Machine
end

section
/-! PROOFS. What every step keeps, in hooks 3, 5 and 6 (R182–R187), learning and ageing (R202–R209) and the Chart Reader (ch. 4). -/

namespace Sys2Proof.Machine

section
variable {X : Nat → Prop} {s : State}

theorem InOrder.pushRead {t o} (h : InOrder X s) : InOrder X (s.pushRead t o) := h.tryRead.pushOp
theorem InOrder.execFlowRead {t f} (h : InOrder X s) : Steps X (execFlowRead t f s) := .next (h.hookIssue (fun _ h1 => h1.pushRead))
theorem InOrder.execFlowReadx {t f} (h : InOrder X s) : Steps X (execFlowReadx t f s) := .next (h.hookIssue (fun _ h1 => h1.pushRead))

theorem InOrder.execFlowGet {t f} (h : InOrder X s) : Steps X (execFlowGet t f s) :=
  .next (h.hookIssue (fun _ h1 => .ite (.ite h1.hookDone h1.pushRead) (.hookDone (.pair h1))))

theorem InOrder.applyBlind {p e} (h : InOrder X s) : InOrder X (s.applyBlind p e) := .ite h.applyRec.endCtx h

theorem InOrder.stage {k op rsi hb ha} (h : InOrder X s) : InOrder X (s.stage k op rsi hb ha).2.2 := by
  dsimp only [State.stage]
  split
  · split
    · exact .triple h.reserve
    · exact .triple h.reserve.setLl
  · exact .triple h.setLl

theorem InOrder.stageOp {t f func op} (h : InOrder X s) : InOrder X (s.stageOp t f func op) := by
  dsimp only [State.stageOp]
  refine h.hookIssue ?_
  intro _ h1
  split
  · split
    · exact h1.hookDone
    · exact h1.applyBlind.hookDone
  · refine .ite ?_ ?_
    · split
      · exact h1.hookDone
      · exact h1.hookDone
    · split
      · exact h1.hookDone
      · exact h1.stage.hookDone

theorem InOrder.execFlowAdd {t f} (h : InOrder X s) : Steps X (execFlowAdd t f s) := .next h.stageOp
theorem InOrder.execFlowSet {t f} (h : InOrder X s) : Steps X (execFlowSet t f s) := .next h.stageOp
theorem InOrder.execFlowCas {t f} (h : InOrder X s) : Steps X (execFlowCas t f s) := .next h.stageOp
theorem InOrder.execFlowInsert {t f} (h : InOrder X s) : Steps X (execFlowInsert t f s) := .next h.stageOp
theorem InOrder.execFlowDelete {t f} (h : InOrder X s) : Steps X (execFlowDelete t f s) := .next h.stageOp

theorem InOrder.execAlloc {t f} (h : InOrder X s) : Steps X (execAlloc t f s) := by
  dsimp only [Machine.execAlloc]
  refine .next ?_
  refine h.hookIssue ?_
  intro _ h1
  refine .ite ?_ h1.allocBuf.hookDone
  refine .hookDone ?_
  split
  · exact h1.allocBuf.setLl
  · exact h1.allocBuf

theorem InOrder.execFreeBuf {t f} (h : InOrder X s) : Steps X (execFreeBuf t f s) := by
  dsimp only [Machine.execFreeBuf]
  refine .next ?_
  refine h.hookIssue ?_
  intro _ h1
  refine .ite h1.hookDone ?_
  split
  · exact h1.freeBufAt.hookDone
  · exact .ite h1.hookDone (.ite h1.hookDone h1.setLl.hookDone)

theorem InOrder.pktEdit {t f func srcs edit} (h : InOrder X s) : InOrder X (s.pktEdit t f func srcs edit) := by
  dsimp only [State.pktEdit]
  split
  · exact h.hookDone
  · split
    · exact h.hookDone
    · exact .ite h.hookDone h.setLl.hookDone

theorem InOrder.execPktRd {t f} (h : InOrder X s) : Steps X (execPktRd t f s) := by
  dsimp only [Machine.execPktRd]
  refine .next ?_
  refine h.hookIssue ?_
  intro _ h1
  split
  · exact h1.hookDone
  · exact h1.hookDone

theorem InOrder.execPktWr {t f} (h : InOrder X s) : Steps X (execPktWr t f s) := .next (h.hookIssue (fun _ h1 => h1.pktEdit))
theorem InOrder.execPktIns {t f} (h : InOrder X s) : Steps X (execPktIns t f s) := .next (h.hookIssue (fun _ h1 => h1.pktEdit))
theorem InOrder.execPktStrip {t f} (h : InOrder X s) : Steps X (execPktStrip t f s) := .next (h.hookIssue (fun _ h1 => h1.pktEdit))
theorem InOrder.execPktMove {t f} (h : InOrder X s) : Steps X (execPktMove t f s) := .next (h.hookIssue (fun _ h1 => h1.pktEdit))
theorem InOrder.acfPdu {tscf ha body} (h : InOrder X s) : InOrder X (s.acfPdu tscf ha body).2 := .ite_snd (.pair h.freeN) (.pair h.freeN)
theorem InOrder.execAcfPack {t f} (h : InOrder X s) : Steps X (execAcfPack t f s) := .next (h.hookIssue (fun _ h1 => h1.acfPdu.pktEdit))

theorem InOrder.execAcfUnpack {t f} (h : InOrder X s) : Steps X (execAcfUnpack t f s) := by
  dsimp only [Machine.execAcfUnpack]
  refine .next ?_
  refine h.hookIssue ?_
  intro _ h1
  split
  · exact h1.hookDone
  · refine .ite ?_ (.ite h1.freeN.hookDone h1.freeN.devWrite.hookDone)
    refine .hookDone ?_
    split
    · exact h1.freeN.countP
    · exact h1.freeN

theorem InOrder.learnNotice {p h' key port prev code} (h : InOrder X s) : InOrder X (s.learnNotice p h' key port prev code) := h.postEvent

theorem InOrder.expireL2 {p} (h : InOrder X s) : InOrder X (s.expireL2 p) :=
  h.setTp { h.tp with ents := SMap.sorted_mapKept (fun e => ite_keeps (P := fun v : Nat × TblEntry => v.1 = e.1) rfl rfl) h.tp.ents }

theorem InOrder.putHome {p h' e} (h : InOrder X s) : InOrder X (s.putHome p h' e) := h.putEnt

theorem InOrder.learnNew {p n r} (h : InOrder X s) : InOrder X (s.learnNew p n r) := by
  dsimp only [State.learnNew]
  split
  · exact h.countP
  · exact h.putHome.newActivity.learnNotice

theorem InOrder.learnMove {p h' e port} (h : InOrder X s) : InOrder X (s.learnMove p h' e port) :=
  .if_then h.putHome.hitEnt.learnNotice fun h1 => h1.learnNotice.countP.countUnit

theorem InOrder.learn {p r} (h : InOrder X s) : InOrder X (s.learn p r) := by
  dsimp only [State.learn]
  split
  · exact h
  · split
    · exact h.learnNew
    · exact .ite (.ite h.hitEnt h.hitEnt.putHome) (.ite h.countP (.ite h.putHome.countP h.learnMove))

theorem InOrder.learnRequest {p r} (h : InOrder X s) : InOrder X (s.learnRequest p r) := by
  dsimp only [State.learnRequest]
  split
  · exact h
  · exact .ite (h.setTp { h.tp with }) h.countP

theorem InOrder.execActivityUpdate {panel} (h : InOrder X s) : Steps X (execActivityUpdate panel s) := by
  dsimp only [Machine.execActivityUpdate]
  split
  · exact .next h
  · refine .ite (.next h) ?_
    split
    · split
      · exact .ite (.next (.applyHit (h.setTp (.of_eq rfl rfl h.tp)))) (.next (h.setTp (.of_eq rfl rfl h.tp)))
      · exact .next (h.setTp (.of_eq rfl rfl h.tp))
    · exact .next (.updTp (h.setTp (.of_eq rfl rfl h.tp)) rfl rfl)

theorem InOrder.execRemoteCopyWrite {panel} (h : InOrder X s) : Steps X (execRemoteCopyWrite panel s) := by
  dsimp only [Machine.execRemoteCopyWrite]
  split
  · exact .next h
  · refine .ite (.next h) ?_
    split
    · exact .next (.if_else (.putCopy (h.setTp { h.tp with })) fun h1 => h1.finish)
    · exact .next (.putCopy (h.setTp { h.tp with }))

theorem InOrder.visit {p h'} (h : InOrder X s) : InOrder X (s.visit p h').2 := by
  dsimp only [State.visit]
  split
  · exact .pair h
  · exact .ite_snd (.pair h) (.ite_snd (.pair (h.setTp { h.tp with act := SMap.sorted_set _ _ _ h.tp.act })) (.pair h))

theorem InOrder.scanOn {p a a1} (h : InOrder X s) : InOrder X (s.scanOn p a a1) := by
  induction a generalizing a1 s with
  | nil => exact .ite (h.updTp rfl rfl) (.ite (h.updTp rfl rfl) (h.postEvent.updTp rfl rfl))
  | cons h' todo ih =>
    refine .ite (h.updTp rfl rfl) (ih (.visit ?_))
    exact .ite_fst h.postEvent h

theorem InOrder.execScanPass {panel} (h : InOrder X s) : Steps X (execScanPass panel s) := by
  dsimp only [Machine.execScanPass]
  split
  · exact .next h
  · exact .ite (.next h) (.ite (.next (.countP (h.setTp { h.tp with }))) (.next (.scanOn (h.setTp { h.tp with }))))

theorem InOrder.execScanResume {panel} (h : InOrder X s) : Steps X (execScanResume panel s) := by
  dsimp only [Machine.execScanResume]
  split
  · exact .next h
  · exact .ite (.next h) (.next h.scanOn)

theorem InOrder.startScans (h : InOrder X s) : InOrder X s.startScans := h.foldl fun _ _ h1 => h1.setTp { h1.tp with }
theorem InOrder.stopScans (h : InOrder X s) : InOrder X s.stopScans := h.foldl fun _ _ h1 => h1.setTp { h1.tp with }

theorem InOrder.cdelete {p c} (h : InOrder X s) : InOrder X (s.cdelete p c) := by
  dsimp only [State.cdelete]
  split
  · exact h.finish
  · exact .ite h.finish (.ite h.finish h.putEnt)

theorem InOrder.execCdeleteDecide {panel} (h : InOrder X s) : Steps X (execCdeleteDecide panel s) := by
  dsimp only [Machine.execCdeleteDecide]
  split
  · exact .next h
  · exact .next (.ite (.finish (h.setTp { h.tp with })) (.cdelete (h.setTp { h.tp with })))

theorem InOrder.startCdelete {p c} (h : InOrder X s) : InOrder X (s.startCdelete p c) := by
  dsimp only [State.startCdelete]
  exact .ite (.updTp (h.setTp (.of_eq rfl rfl h.tp)) rfl rfl) h.cdelete

theorem InOrder.insertEnt {rec n e} (h : InOrder X s) : InOrder X (s.insertEnt rec n e) := by
  dsimp only [State.insertEnt]
  split
  · exact h.finish
  · exact h.newActivity.putEnt

theorem InOrder.unversioned {o rec n key data} (h : InOrder X s) : InOrder X (s.unversioned o rec n key data) := by
  dsimp only [State.unversioned]
  split
  · exact .ite h.finish h.insertEnt
  · split
    · exact h.finish
    · exact .ite h.putEnt h.putEnt

theorem InOrder.queueL2 {n key w} (h : InOrder X s) : InOrder X (s.queueL2 n key w) := h.setTp { h.tp with }

theorem InOrder.l2Work {p n a} (h : InOrder X s) : InOrder X (s.l2Work p n a) := by
  dsimp only [State.l2Work]
  split
  · exact h.learn
  · exact .ite h.finish h.unversioned
  · exact .ite h.finish h.unversioned
  · exact .ite h.finish h.unversioned
  · exact .ite h.finish h.startCdelete

theorem InOrder.execLearn {panel} (h : InOrder X s) : Steps X (execLearn panel s) := by
  dsimp only [Machine.execLearn]
  split
  · exact .next h
  · split
    · exact .next h
    · exact .ite (.next (.l2Work (h.setTp { h.tp with }))) (.next h)

theorem InOrder.classify {p vgen ingress pass odom area} (h : InOrder X s) : InOrder X (s.classify p vgen ingress pass odom area).1 :=
  .pair_fst (h.foldl fun _ _ h1 => h1.hitEnt)

theorem InOrder.castLearn {p ingress area} (h : InOrder X s) : InOrder X (s.castLearn p ingress area) := by
  dsimp only [State.castLearn]
  refine .ite h ?_
  split
  · exact h
  · exact .ite h h.learnRequest

theorem InOrder.assignMarker {p d vgen v} (h : InOrder X s) : InOrder X (s.assignMarker p d vgen v).2 :=
  .ite_snd (.pair (h.setOd { h.od.setSlot with })) (.pair h)

theorem InOrder.castOn {p w early} (h : InOrder X s) : InOrder X (s.castOn p w early) := by
  dsimp only [State.castOn]
  refine .ite h.countP ?_
  split
  · next u e =>
      have h1 : InOrder X u := .snd e h.assignMarker
      exact h1.countP
  · next u e =>
      have h1 : InOrder X u := .snd e h.assignMarker
      refine .ite h1.advanceHead ?_
      split
      · exact h1.castLearn.dropMark
      · split
        · next u1 e1 =>
            have h2 : InOrder X u1 := .of_some e1 (InOrder.appendItem (.base rfl h1.castLearn fun h2 => { h2 with }))
            exact h2
        · exact .dropMark (.base rfl h1.castLearn fun h2 => { h2 with })

theorem InOrder.recircDrop {k cause} (h : InOrder X s) : InOrder X (s.recircDrop k cause) := h.freeLl.dropMark

theorem InOrder.castAgain {k frame area layers action} (h : InOrder X s) : InOrder X (s.castAgain k frame area layers action) := by
  dsimp only [State.castAgain]
  refine .ite h.recircDrop ?_
  split
  · exact h.recircDrop
  · exact .requeue (.setLl { h with })

theorem InOrder.parse {p x} (h : InOrder X s) : InOrder X (s.parse p x) := by
  dsimp only [State.parse]
  split
  · split
    · refine .recircDrop ?_
      split
      · exact h.finish
      · exact h
    · refine .countP ?_
      split
      · exact h.finish
      · exact h
  · split
    · refine .castAgain ?_
      refine .classify ?_
      split
      · exact h.finish
      · exact h
    · refine .castOn ?_
      refine .putDescriptor ?_
      refine .classify ?_
      split
      · exact h.finish
      · exact h

theorem InOrder.execParsePass {panel parser} (h : InOrder X s) : Steps X (execParsePass panel parser s) := by
  dsimp only [Machine.execParsePass]
  split
  · exact .next h
  · exact .ite (.next h) (.ite (.next { h with swtParseQ := SMap.sorted_set _ _ _ h.swtParseQ }) (.next (.parse { h with
      swtParseQ := SMap.sorted_set _ _ _ h.swtParseQ })))

end

end Sys2Proof.Machine
end

section
/-! PROOFS. What every step keeps, in the external ports and egress (ch. 3, 12), scheduled events (R39–R46), hook 0 and the hook units at work
(R172–R174). -/

namespace Sys2Proof.Machine

section
variable {X : Nat → Prop} {s : State}

theorem InOrder.setCond {p v} (h : InOrder X s) : InOrder X (s.setCond p v) := { h with swtLink := SMap.sorted_set _ _ _ h.swtLink }

theorem InOrder.dropQueues {port} (h : InOrder X s) : InOrder X (s.dropQueues port) := by
  dsimp only [State.dropQueues]
  refine .foldl ?_ (fun _ _ h1 => h1.dropQueued)
  split
  · exact h
  · exact { h.forgetFrame.countPort with swtCanTx := SMap.sorted_del _ h.forgetFrame.countPort.swtCanTx }

theorem InOrder.leaveUp {p} (h : InOrder X s) : InOrder X (s.leaveUp p) :=
  h.foldl fun _ _ h1 => .ite { h1.dropQueues with
    swtWentDown := SMap.sorted_set false _ true h1.dropQueues.swtWentDown, swtVerified := SMap.sorted_set false _ false h1.dropQueues.swtVerified } h1

theorem InOrder.condDown {p} (h : InOrder X s) : InOrder X (s.condDown p) := h.leaveUp.setCond
theorem InOrder.execPortLinkDown {port} (h : InOrder X s) : Steps X (execPortLinkDown port s) := .ite (.next h) (.next h.condDown)

theorem InOrder.execPortLinkUp {port rate} (h : InOrder X s) : Steps X (execPortLinkUp port rate s) :=
  .ite (.next h) (.next (.ite { h.setCond with swtRate := SMap.sorted_set _ _ _ h.setCond.swtRate } h.setCond))

theorem InOrder.execLinDominantTimeout {port} (h : InOrder X s) : Steps X (execLinDominantTimeout port s) := .ite (.next h) (.next h.condDown)
theorem InOrder.execLinRecessiveRecovery {port} (h : InOrder X s) : Steps X (execLinRecessiveRecovery port s) := .ite (.next h) (.next h.setCond)
theorem InOrder.execCanBusoffRecovery {port} (h : InOrder X s) : Steps X (execCanBusoffRecovery port s) := .ite (.next h) (.next h.setCond)
theorem InOrder.setBound {p i a} (h : InOrder X s) : InOrder X (s.setBound p i a) := { h with swtBound := SMap.sorted_set _ _ _ h.swtBound }
theorem InOrder.spoofEvent {p q src} (h : InOrder X s) : InOrder X (s.spoofEvent p q src) := .ite h (.postEvent { h with })

theorem InOrder.bindCheck {p bs} (h : InOrder X s) : InOrder X (s.bindCheck p bs).1 := by
  dsimp only [State.bindCheck]
  refine .ite_fst (.pair_fst h.countPort) ?_
  refine .ite_fst (.pair_fst h) ?_
  split
  · exact .pair_fst h.countPort.spoofEvent
  · refine .ite_fst (.pair_fst h) ?_
    split
    · exact .pair_fst h.setBound
    · exact .pair_fst h.countPort

theorem InOrder.limpPass {port} (h : InOrder X s) : InOrder X (s.limpPass port).2 := .pair h.freeN

theorem InOrder.rxTail {port bs stamp} (h : InOrder X s) : InOrder X (s.rxTail port bs stamp) := by
  dsimp only [State.rxTail]
  refine .ite (.countPort (.ite_snd h.limpPass (.pair h))) ?_
  split
  · exact .countPort (.ite_snd h.limpPass (.pair h))
  · exact { InOrder.storeFrame (.ite_snd h.limpPass (.pair h)) with
      swtParseQ := SMap.sorted_set _ _ _ ((InOrder.storeFrame (.ite_snd h.limpPass (.pair h))).swtParseQ) }

theorem InOrder.t1sCredit {seg opp ok} (h : InOrder X s) : InOrder X (s.t1sCredit seg opp ok).2 :=
  .ite_snd (.pair h.countPort) (.ite_snd (.pair h.countPort) (.pair h))

theorem InOrder.rxEth {f bs} (h : InOrder X s) : InOrder X (s.rxEth f bs).2 := by
  dsimp only [State.rxEth]
  split
  · exact .pair (.ite_snd h.t1sCredit (.pair h))
  · exact .ite_snd (.pair (.countPort (.ite_snd h.t1sCredit (.pair h)))) (.ite_snd (.pair (.countPort (.ite_snd h.t1sCredit (.pair h)))) (.ite_snd
      (.pair (.bindCheck (.ite_snd h.t1sCredit (.pair h)))) (.pair (.ite_snd h.t1sCredit (.pair h)))))

theorem InOrder.rxCan {port kind env stamp} (h : InOrder X s) : InOrder X (s.rxCan port kind env stamp) := by
  dsimp only [State.rxCan]
  split
  · exact h
  · exact .ite h.countPort h.rxTail

theorem InOrder.execLinHeaderReceive {port fid response} (h : InOrder X s) : Steps X (execLinHeaderReceive port fid response s) := by
  dsimp only [Machine.execLinHeaderReceive]
  refine .ite (.next h) ?_
  split
  · exact .next h.emit.rxTail
  · exact .next h.freeB.rxTail

theorem InOrder.putCbs {p q x} (h : InOrder X s) : InOrder X (s.putCbs p q x) := { h with }

theorem InOrder.wakeCbs {p port tc} (h : InOrder X s) : InOrder X (s.wakeCbs p port tc) := by
  dsimp only [State.wakeCbs]
  split
  · exact .ite h.putCbs h
  · exact h

theorem InOrder.startCbs {p port tc start stop} (h : InOrder X s) : InOrder X (s.startCbs p port tc start stop) := by
  dsimp only [State.startCbs]
  split
  · exact h.putCbs
  · exact h

theorem InOrder.execPreemptionVerification {port ok} (h : InOrder X s) : Steps X (execPreemptionVerification port ok s) :=
  .ite (.next h) (.ite (.next { h with swtVerified := SMap.sorted_set false _ true h.swtVerified }) (.next h.countPort))

theorem InOrder.popQueue {p port tc} (h : InOrder X s) : InOrder X (s.popQueue p port tc) := h.setQueue
theorem InOrder.addTx {m x} (h : InOrder X s) : InOrder X (s.addTx m x) := { h with }

theorem InOrder.noteLatency {p f} (h : InOrder X s) : InOrder X (s.noteLatency p f) := by
  dsimp only [State.noteLatency]
  split
  · exact h
  · exact .ite h h.histAdd.extreme

theorem InOrder.gateTx {port mask} (h : InOrder X s) : InOrder X (s.gateTx port mask) := .ite h (.foldl { h with } (fun _ _ h1 => h1.startCbs))
theorem InOrder.sent {f} (h : InOrder X s) : InOrder X (s.sent f).2 := .ite_snd (.pair h) (.ite_snd (.pair h.freeN) (.pair h.freeN.countPc))

theorem InOrder.startTx {m port tc} (h : InOrder X s) : InOrder X (s.startTx m port tc) := by
  dsimp only [State.startTx]
  split
  · exact h
  · exact .emit (.noteLatency (.addTx (.delFrame (.popQueue { InOrder.startCbs (h.sent.foldl fun _ _ h1 => h1.startCbs) with }))))

theorem InOrder.ethTx {port} (h : InOrder X s) : InOrder X (s.ethTx port) := by
  dsimp only [State.ethTx]
  refine .ite h ?_
  split
  · exact h
  · refine .startTx ?_
    split
    · exact { h with }
    · exact h

theorem InOrder.setBurst {seg n} (h : InOrder X s) : InOrder X (s.setBurst seg n) := { h with }

theorem InOrder.t1sTx {port newOpp} (h : InOrder X s) : InOrder X (s.t1sTx port newOpp) := by
  dsimp only [State.t1sTx]
  refine .ite (.ite h.setBurst h) ?_
  split
  · exact .setBurst (.ite h.setBurst h)
  · split
    · exact .ite h.setBurst h
    · exact { InOrder.startTx (.setBurst (.ite h.setBurst h)) with }

theorem InOrder.canUse {port tc} (h : InOrder X s) : InOrder X (s.canUse port tc) := { h with }

theorem InOrder.canTxTry {port} (h : InOrder X s) : InOrder X (s.canTxTry port) := by
  unfold State.canTxTry
  extract_lets -underBinder p u
  have hu : InOrder X u := by
    unfold u
    split
    · exact h
    · split
      · exact h
      · split
        · exact h
        · exact .canUse { h with swtCanTx := SMap.sorted_put _ _ h.swtCanTx }
  clear_value u
  refine .ite h ?_
  split
  · exact hu
  · split
    next ok v e =>
    have hv := InOrder.snd e hu.freeB
    refine .ite hv ?_
    extract_lets -underBinder bs w
    have hw : InOrder X w := hv.popQueue.delFrame
    clear_value w
    exact .emit { hw with swtCanTx := SMap.sorted_del _ hw.swtCanTx }

theorem InOrder.execTxAbandon {port} (h : InOrder X s) : Steps X (execTxAbandon port s) := by
  dsimp only [Machine.execTxAbandon]
  split
  · exact .next h
  · exact .ite (.next h) (.next { h.popQueue.delFrame.countPort with swtCanTx := SMap.sorted_del _ h.popQueue.delFrame.countPort.swtCanTx })

theorem InOrder.linTx {port} (h : InOrder X s) : InOrder X (s.linTx port) := by
  dsimp only [State.linTx]
  split
  · exact h
  · split
    · exact h
    · exact .if_then h.popQueue.delFrame fun h1 => { h1 with }

theorem InOrder.recircTx {p port} (h : InOrder X s) : InOrder X (s.recircTx p port) := by
  dsimp only [State.recircTx]
  refine .ite h ?_
  split
  · exact h
  · exact .base rfl h.popQueue.delFrame.addTx fun h1 => { h1 with swtParseQ := SMap.sorted_set ([]) _ _ h1.swtParseQ }

theorem InOrder.hostTx {port} (h : InOrder X s) : InOrder X (s.hostTx port) := by
  dsimp only [State.hostTx]
  refine .ite h ?_
  split
  · exact h
  · exact h.popQueue.delFrame.qpPost

theorem InOrder.mboxTx (h : InOrder X s) : InOrder X s.mboxTx := by
  dsimp only [State.mboxTx]
  split
  · exact h
  · exact .ite_of h.popQueue.delFrame (fun h1 => h1.count) fun h1 => .setAttn { h1 with }

theorem InOrder.execEgressTransmit {x} (h : InOrder X s) : Steps X (execEgressTransmit x s) :=
  .ite (.next h) (.ite (.next h.ethTx) (.ite (.next h.t1sTx) (.ite (.next h.canTxTry) (.ite (.next h.linTx) (.ite (.next h.recircTx.recircTx) (.ite
    (.next h.hostTx) (.ite (.next h.mboxTx) (.next h))))))))

theorem InOrder.refuse {f count} (h : InOrder X s) (hcount : ∀ v1, InOrder X v1 → InOrder X (count v1)) : InOrder X (s.refuse f count) := by
  dsimp only [State.refuse]
  split
  · exact h.count
  · exact hcount _ h

theorem InOrder.frerRecover {p f} (h : InOrder X s) : InOrder X (s.frerRecover p f).2 := by
  dsimp only [State.frerRecover]
  split
  · exact .pair h
  · refine .ite_snd ?_ (.ite_snd (.pair (.count { h with swtFrer := SMap.sorted_put _ _ h.swtFrer })) (.pair { h with
      swtFrer := SMap.sorted_put _ _ h.swtFrer }))
    refine .pair ?_
    refine .count ?_
    split
    · exact { h with swtFrer := SMap.sorted_put _ _ h.swtFrer }
    · exact h

theorem InOrder.noteDepth {p port tc} (h : InOrder X s) : InOrder X (s.noteDepth p port tc) := .ite h.histAdd.extreme h
theorem InOrder.offerEp {port} (h : InOrder X s) : InOrder X (s.offerEp port) := .ite { h with } h

theorem InOrder.schedLines {p port len} (h : InOrder X s) : InOrder X (s.schedLines p port len).2 :=
  .ite_snd (.pair h) (.ite_snd (.pair h.freeB.freeN.freeN) (.pair h.freeB.freeN.freeN))

theorem InOrder.admitFrame {n f} (h : InOrder X s) : InOrder X (s.admitFrame n f) := by
  dsimp only [State.admitFrame]
  split
  · exact h.forgetFrame.refuse (fun _ h1 => h1.countPc)
  · exact h.forgetFrame.refuse (fun _ h1 => h1.countPort)
  · refine .ite (h.forgetFrame.refuse (fun _ h1 => h1.offerEp.countPc)) ?_
    refine .ite (h.forgetFrame.refuse (fun _ h1 => h1.countPc)) ?_
    split
    · exact h.frerRecover.forgetFrame.refuse (fun _ h1 => h1)
    · split
      · exact h.frerRecover.forgetFrame.refuse (fun _ h1 => h1.countPc)
      · exact .ite_of h.frerRecover.schedLines (fun h1 => h1.forgetFrame.refuse (fun _ h2 => h2.countPc)) fun h1 => h1.wakeCbs.enqueue.noteDepth

theorem InOrder.execEgressAdmission {panel} (h : InOrder X s) : Steps X (execEgressAdmission panel s) := by
  dsimp only [Machine.execEgressAdmission]
  split
  · exact .next h
  · split
    · exact .next { h with swtAdm := SMap.sorted_set _ _ _ h.swtAdm }
    · exact .next (.admitFrame { h with swtAdm := SMap.sorted_set _ _ _ h.swtAdm })

theorem InOrder.execFrerReset {panel entry} (h : InOrder X s) : Steps X (execFrerReset panel entry s) := by
  dsimp only [Machine.execFrerReset]
  split
  · exact .next h
  · exact .ite (.next h) (.next (.count { h with swtFrer := SMap.sorted_del _ h.swtFrer }))

theorem InOrder.setTioStore {p x} (h : InOrder X s) : InOrder X (s.setTioStore p x) := .ite { h with } { h with }

theorem InOrder.capture {p st kind level src data stamp} (h : InOrder X s) : InOrder X (s.capture p st kind level src data stamp) := by
  dsimp only [State.capture]
  refine .ite ?_ (.ite (.setTioStore { h with tioSeq := SMap.sorted_set _ _ _ h.tioSeq }) (.count { h with
    tioSeq := SMap.sorted_set _ _ _ h.tioSeq }))
  split
  · next u e =>
      have h1 : InOrder X u := .of_some e (.ite (InOrder.appendItem (.ite (.setTioStore { h with tioSeq := SMap.sorted_set _ _ _ h.tioSeq }) (.count {
        h with tioSeq := SMap.sorted_set _ _ _ h.tioSeq }))) .none)
      exact h1
  · exact .count (.ite (.setTioStore { h with tioSeq := SMap.sorted_set _ _ _ h.tioSeq }) (.count { h with
      tioSeq := SMap.sorted_set _ _ _ h.tioSeq }))

theorem InOrder.setDead {hi pin dom copy target} (h : InOrder X s) : InOrder X (s.setDead hi pin dom copy target) :=
  { h with tioDead := SMap.sorted_put _ _ h.tioDead }

theorem InOrder.placeEdge {pin action dom copy target} (h : InOrder X s) : InOrder X (s.placeEdge pin action dom copy target) :=
  .ite (.ite h.noDead.drive.setDead h.noDead.drive.setDead) (.ite h.drive h.drive)

theorem InOrder.setGate {panel operand} (h : InOrder X s) : InOrder X (s.setGate panel operand) := .ite h.setRd (.gateTx { h with })

theorem InOrder.trigger {panel dom operand tag} (h : InOrder X s) : InOrder X (s.trigger panel dom operand tag) :=
  .ite (.ite { h with } h.count) h.capture

theorem InOrder.setEv {e r} (h : InOrder X s) : InOrder X (s.setEv e r) := { h with }

theorem InOrder.offerWake {e} (h : InOrder X s) : InOrder X (s.offerWake e).1 := by
  dsimp only [State.offerWake]
  refine .ite_fst (.pair_fst h.countP) ?_
  split
  · next u e1 =>
      have h1 : InOrder X u := .of_some e1 h.appendItem
      exact .pair_fst h1
  · exact .pair_fst h

theorem InOrder.placeBefore {pin nat_} (h : InOrder X s) : InOrder X (s.placeBefore pin nat_) := h.foldl fun _ _ h1 => h1.setEv.placeEdge

theorem InOrder.fire {e status late quiet} (h : InOrder X s) : InOrder X (s.fire e status late quiet) := by
  dsimp only [State.fire]
  split
  · exact .ite (.ite { h with } h.setEv) h.setEv.offerWake
  · exact .if_else (.if_else h.placeBefore.setEv fun h1 => h1.placeEdge) fun h1 => h1.complete
  · exact .if_else h.setEv.trigger fun h1 => h1.complete
  · exact .if_else h.setEv.setGate fun h1 => h1.complete

theorem InOrder.endEv {e status} (h : InOrder X s) : InOrder X (s.endEv e status) := h.setEv.complete

theorem InOrder.judge {e fresh} (h : InOrder X s) : InOrder X (s.judge e fresh) := by
  dsimp only [State.judge]
  refine .ite h ?_
  split
  · exact h.endEv
  · exact h.setEv
  · exact .ite (.ite h.endEv h.fire) h.setEv

theorem InOrder.judgeAll {p n} (h : InOrder X s) : InOrder X (s.judgeAll p n) := h.foldl fun _ _ h1 => h1.judge

theorem InOrder.stepEvents {p n step} (h : InOrder X s) : InOrder X (s.stepEvents p n step) := by
  dsimp only [State.stepEvents]
  refine .foldl ?_ (fun _ _ h1 => h1.judge)
  refine h.foldl ?_
  intro _ _ h1
  refine .ite h1 ?_
  split
  · exact h1.setEv
  · exact h1.setEv
  · exact h1.endEv

theorem InOrder.fireNow {e} (h : InOrder X s) : InOrder X (s.fireNow e) := h.fire
theorem InOrder.fireDue {p} (h : InOrder X s) : InOrder X (s.fireDue p) := h.foldl fun _ _ h1 => h1.fireNow

theorem InOrder.execEventFire {i} (h : InOrder X s) : Steps X (execEventFire i s) := by
  dsimp only [Machine.execEventFire]
  split
  · exact .next h
  · exact .ite (.next h.fireNow) (.next h)

theorem InOrder.execWakeRetry {i} (h : InOrder X s) : Steps X (execWakeRetry i s) := by
  dsimp only [Machine.execWakeRetry]
  split
  · exact .next h
  · exact .ite (.next h) (.ite (.next h) (.next h.setEv.offerWake))

theorem InOrder.schedule {t d} (h : InOrder X s) : InOrder X (s.schedule t d).2 := by
  have post {v : List Ev} : InOrder X { s with evs := v } := { h with }
  unfold State.schedule
  extract_lets -underBinder
  split
  · exact h
  · refine .ite_snd h (.ite_snd h ?_)
    extract_lets -underBinder
    refine .ite_snd h (.ite_snd h (.ite_snd h (.ite_snd h (.ite_snd h ?_))))
    split
    · exact h
    · exact post
    · exact .ite_snd (.ite_snd (.pair h) (.pair h.fire)) (.pair post)

theorem InOrder.execPosRead {t f} (h : InOrder X s) : Steps X (execPosRead t f s) := .next (h.hookIssue (fun _ h1 => h1.hookDone))
theorem InOrder.execPosAdd {t f} (h : InOrder X s) : Steps X (execPosAdd t f s) := .next (h.hookIssue (fun _ h1 => h1.hookDone))
theorem InOrder.execPosCmp {t f} (h : InOrder X s) : Steps X (execPosCmp t f s) := .next (h.hookIssue (fun _ h1 => h1.hookDone))
theorem InOrder.execEvtSched {t f} (h : InOrder X s) : Steps X (execEvtSched t f s) := .next (h.hookIssue (fun _ h1 => h1.schedule.hookDone))
theorem InOrder.execEvtCancel {t f} (h : InOrder X s) : Steps X (execEvtCancel t f s) := .next (h.hookIssue (fun _ h1 => .hookDone { h1 with }))

theorem InOrder.execEvtPoll {t f} (h : InOrder X s) : Steps X (execEvtPoll t f s) := by
  dsimp only [Machine.execEvtPoll]
  refine .next ?_
  refine h.hookIssue ?_
  intro _ h1
  split
  · exact h1.hookDone
  · exact .hookDone { h1 with evDone := SMap.sorted_set _ _ _ h1.evDone }

theorem InOrder.setCctx {t c} (h : InOrder X s) : InOrder X (s.setCctx t c) := h.setBank { h.bank with }
theorem InOrder.cryptoDone {t func srcs} (h : InOrder X s) : InOrder X (s.cryptoDone t func srcs) := h.pushOp
theorem InOrder.execCtxInit {t f} (h : InOrder X s) : Steps X (execCtxInit t f s) := .next (h.hookIssue (fun _ h1 => h1.setCctx.cryptoDone))
theorem InOrder.execAad {t f} (h : InOrder X s) : Steps X (execAad t f s) := .next (h.hookIssue (fun _ h1 => h1.setCctx.cryptoDone))
theorem InOrder.execEnc {t f} (h : InOrder X s) : Steps X (execEnc t f s) := .next (h.hookIssue (fun _ h1 => h1.setCctx.hookDone))
theorem InOrder.execDec {t f} (h : InOrder X s) : Steps X (execDec t f s) := .next (h.hookIssue (fun _ h1 => h1.setCctx.hookDone))
theorem InOrder.execMac {t f} (h : InOrder X s) : Steps X (execMac t f s) := .next (h.hookIssue (fun _ h1 => h1.setCctx.cryptoDone))
theorem InOrder.execTag {t f} (h : InOrder X s) : Steps X (execTag t f s) := .next (h.hookIssue (fun _ h1 => h1.setCctx.hookDone))
theorem InOrder.execTagchk {t f} (h : InOrder X s) : Steps X (execTagchk t f s) := .next (h.hookIssue (fun _ h1 => h1.hookDone))
theorem InOrder.execAbsorb {t f} (h : InOrder X s) : Steps X (execAbsorb t f s) := .next (h.hookIssue (fun _ h1 => h1.setCctx.cryptoDone))
theorem InOrder.execSqueeze {t f} (h : InOrder X s) : Steps X (execSqueeze t f s) := .next (h.hookIssue (fun _ h1 => h1.setCctx.hookDone))
theorem InOrder.aesOp {t f func op} (h : InOrder X s) : InOrder X (s.aesOp t f func op) := h.hookIssue (fun _ h1 => h1.hookDone)
theorem InOrder.execAesEnc {t f} (h : InOrder X s) : Steps X (execAesEnc t f s) := .next h.aesOp
theorem InOrder.execAesDec {t f} (h : InOrder X s) : Steps X (execAesDec t f s) := .next h.aesOp
theorem InOrder.polyWrite {t a w} (h : InOrder X s) : InOrder X (s.polyWrite t a w) := h.memWrite

theorem InOrder.freeWhere {bad w} (h : InOrder X s) : InOrder X (s.freeWhere bad w).2 :=
  .foldl_snd (.pair h) (fun _ _ h1 => .ite_snd (.pair h1.freeW) (.pair h1))

theorem InOrder.latOp {t f func md refuse addrs body} (h : InOrder X s) (hbody : ∀ v1, InOrder X v1 → InOrder X (body v1)) : InOrder X (s.latOp t f
    func md refuse addrs body) :=
  h.hookIssue (fun _ h1 => .ite (.hookDone (hbody _ h1)) h1.hookDone)

theorem InOrder.execLatNtt {t f} (h : InOrder X s) : Steps X (execLatNtt t f s) := by
  dsimp only [Machine.execLatNtt]
  exact .next (h.latOp (fun _ h1 => h1.freeWhere.polyWrite))

theorem InOrder.latPoint {t a b c op} (h : InOrder X s) : InOrder X (s.latPoint t a b c op) := by
  dsimp only [State.latPoint]
  exact h.freeWhere.polyWrite

theorem InOrder.execLatPmul {t f} (h : InOrder X s) : Steps X (execLatPmul t f s) := by
  dsimp only [Machine.execLatPmul]
  exact .next (h.latOp (fun _ h1 => h1.latPoint))

theorem InOrder.execLatPadd {t f} (h : InOrder X s) : Steps X (execLatPadd t f s) := by
  dsimp only [Machine.execLatPadd]
  exact .next (h.latOp (fun _ h1 => h1.latPoint))

theorem InOrder.execLatExpand {t f} (h : InOrder X s) : Steps X (execLatExpand t f s) := .next (h.latOp (fun _ h1 => h1.freeWhere.setCctx.polyWrite))

theorem InOrder.hookMeaning {hook func t f} (h : InOrder X s) : Steps X (hookMeaning hook func t f s) := by
  dsimp only [Machine.hookMeaning]
  split
  · exact h.execCtxInit
  · exact h.execAad
  · exact h.execEnc
  · exact h.execDec
  · exact h.execMac
  · exact h.execTag
  · exact h.execTagchk
  · exact h.execAbsorb
  · exact h.execSqueeze
  · exact h.execAesEnc
  · exact h.execAesDec
  · exact h.execLatNtt
  · exact h.execLatPmul
  · exact h.execLatPadd
  · exact h.execLatExpand
  · exact h.execEmLookup
  · exact h.execLpmLookup
  · exact h.execL2Lookup
  · exact h.execFlowFind
  · exact h.execCsum
  · exact h.execCrc32c
  · exact h.execCrc32
  · exact h.execCrc8
  · exact h.execCrc16
  · exact h.execCsumPkt
  · exact h.execHash64
  · exact h.execFlowRead
  · exact h.execFlowReadx
  · exact h.execFlowGet
  · exact h.execFlowAdd
  · exact h.execFlowSet
  · exact h.execFlowCas
  · exact h.execFlowInsert
  · exact h.execFlowDelete
  · exact h.execPosRead
  · exact h.execPosAdd
  · exact h.execPosCmp
  · exact h.execEvtSched
  · exact h.execEvtCancel
  · exact h.execEvtPoll
  · exact h.execAlloc
  · exact h.execFreeBuf
  · exact h.execPktRd
  · exact h.execPktWr
  · exact h.execPktIns
  · exact h.execPktStrip
  · exact h.execPktMove
  · exact h.execAcfPack
  · exact h.execAcfUnpack
  · exact .next h

theorem InOrder.runOp {t i} (h : InOrder X s) : InOrder X (s.runOp t i) := by
  unfold State.runOp
  extract_lets -underBinder x
  split
  · exact h
  · split
    · exact h
    · refine .ite (h.setStrand { h.strand with }) ?_
      extract_lets -underBinder rest u
      have hu : InOrder (fun j => X j ∨ j = t) u := (h.whileAt (t := t)).setStrand { (h.whileAt (t := t)).strand with running := .inr (.inr rfl) }
      split
      · next v e =>
        have hv := InOrder.of_next e hu.hookMeaning
        exact hv.atRest ⟨hv.strand.bank0, hv.strand.bank1, .inl rfl⟩
      · exact h

theorem InOrder.runHeld {t a} (h : InOrder X s) : InOrder X (s.runHeld t a) := by
  induction a generalizing s with
  | zero => exact h
  | succ n ih =>
    dsimp only [State.runHeld]
    split
    · exact h
    · exact ih h.runOp

theorem InOrder.runAllHeld (h : InOrder X s) : InOrder X s.runAllHeld := h.foldl fun _ _ h1 => h1.runHeld

theorem InOrder.execHookResultArrive {t i} (h : InOrder X s) : Steps X (execHookResultArrive t i s) := by
  dsimp only [Machine.execHookResultArrive]
  split
  · exact .next h
  · refine .ite (.next h) ?_
    refine .next ?_
    refine .runHeld ?_
    refine .ite ?_ ?_
    · refine .hitEnt ?_
      refine h.setStrand ?_
      split
      · exact .capture (.setBk { h.strand with } (.wh (StrandOk.bk { h.strand with })))
      · exact { h.strand with }
    · refine h.setStrand ?_
      split
      · exact .capture (.setBk { h.strand with } (.wh (StrandOk.bk { h.strand with })))
      · exact { h.strand with }

theorem InOrder.commitChart {expect} (h : InOrder X s) : InOrder X (s.commitChart expect) :=
  .ite { h with } (.ite { h with } (.ite { h with } (.ite { h with } (.ite { h with } { h with }))))

theorem InOrder.execGenerationRetire (h : InOrder X s) : Steps X (execGenerationRetire s) := by
  dsimp only [Machine.execGenerationRetire]
  split
  · exact .next h
  · exact .ite (.next h) (.next { h with })

theorem InOrder.execEndpointDelivery {e} (h : InOrder X s) : Steps X (execEndpointDelivery e s) := by
  dsimp only [Machine.execEndpointDelivery]
  refine .ite (.next h) ?_
  split
  · exact .next h
  · split
    · next u e1 =>
        have h1 : InOrder X u := .fourth e1 h.popQueue.delFrame.offerEp.allocBuf
        exact .next h1.devWrite.setYarn
    · next u _ e1 =>
        have h1 : InOrder X u := .fourth e1 h.popQueue.delFrame.offerEp.allocBuf
        exact .next h1.count

end

end Sys2Proof.Machine
end

section
/-! PROOFS. What every step keeps, in the host engine (R300–R316), the Row Counter (ch. 21), position domains (R22–R38) and a panel that is reset
(R335). -/

namespace Sys2Proof.Machine

section
variable {X : Nat → Prop} {s : State}

theorem InOrder.qpError {n cause} (h : InOrder X s) : InOrder X (s.qpError n cause) := h.setQp.postEvent
theorem InOrder.resendAll {n} (h : InOrder X s) : InOrder X (s.resendAll n) := h.foldl fun _ _ h1 => h1.sendWqe
theorem InOrder.retransmit {n} (h : InOrder X s) : InOrder X (s.retransmit n) := .ite h.qpError h.setQp.resendAll

theorem InOrder.acked {n psn} (h : InOrder X s) : InOrder X (s.acked n psn) := by
  dsimp only [State.acked]
  refine h.setQp.foldl ?_
  intro _ _ h1
  split
  · exact h1.jrnlWritten
  · exact h1

theorem InOrder.readDone {n psn} (h : InOrder X s) : OptInOrder X (s.readDone n psn) := by
  dsimp only [State.readDone]
  split
  · exact .ite (.some h.acked.setQp) .none
  · exact .none

theorem InOrder.noteCe {n ce} (h : InOrder X s) : InOrder X (s.noteCe n ce) := .ite h.setQp.emit h

theorem InOrder.execAckReceive {qp psn syndrome ce} (h : InOrder X s) : Steps X (execAckReceive qp psn syndrome ce s) := by
  dsimp only [Machine.execAckReceive]
  refine .ite (.next h) ?_
  refine .next ?_
  split
  · exact h.noteCe.acked
  · exact .if_else h.noteCe.acked fun h1 => h1.setQp
  · exact .ite (.if_else h.noteCe.acked fun h1 => h1.retransmit) h.noteCe.qpError
  · exact h.noteCe

theorem InOrder.execAckTimeout {qp} (h : InOrder X s) : Steps X (execAckTimeout qp s) := .ite (.next h.retransmit) (.next h)
theorem InOrder.execRnrRetry {qp} (h : InOrder X s) : Steps X (execRnrRetry qp s) := .ite (.ite (.next h.qpError) (.next h.setQp.resendAll)) (.next h)
theorem InOrder.execCnpReceive {qp} (h : InOrder X s) : Steps X (execCnpReceive qp s) := .ite (.next h.setQp) (.next h)
theorem InOrder.execRateIncrease {qp} (h : InOrder X s) : Steps X (execRateIncrease qp s) := .ite (.next h.setQp) (.next h)
theorem InOrder.ringDoorbell {n off bs} (h : InOrder X s) : InOrder X (s.ringDoorbell n off bs) := .ite h.count h.setRing

theorem InOrder.hostWrite {n rkey va bs} (h : InOrder X s) : OptInOrder X (s.hostWrite n rkey va bs) := by
  dsimp only [State.hostWrite]
  refine .ite (.ite (.some h.ringDoorbell) .none) ?_
  split
  · exact .none
  · refine .ite .none ?_
    split
    · exact .none
    · exact .ite (.some h.devWrite.askDram) .none

theorem InOrder.askRead {rkey va len} (h : InOrder X s) : InOrder X (s.askRead rkey va len) := by
  dsimp only [State.askRead]
  split
  · exact h.askDram
  · exact h

theorem InOrder.ackMsg {n psn k} (h : InOrder X s) : InOrder X (s.ackMsg n psn k) := .emit (h.foldl fun _ _ h1 => h1.emit)

theorem InOrder.respondWrite {n psn rkey va bs ce} (h : InOrder X s) : InOrder X (s.respondWrite n psn rkey va bs ce) := by
  dsimp only [State.respondWrite]
  refine .ite h ?_
  refine .ite ?_ (.ite h.noteCe.ackMsg h.noteCe.emit)
  split
  · exact h.noteCe.emit
  · next u e =>
      have h1 : InOrder X u := .of_some e h.noteCe.hostWrite
      exact h1.setQp.ackMsg

theorem InOrder.execRdmaWrite {qp psn rkey va bytes ce} (h : InOrder X s) : Steps X (execRdmaWrite qp psn rkey va bytes ce s) := .next h.respondWrite
theorem InOrder.execDoorbell {qp psn rkey off bytes ce} (h : InOrder X s) : Steps X (execDoorbell qp psn rkey off bytes ce s) := .next h.respondWrite

theorem InOrder.execRdmaRead {qp psn rkey va len ce} (h : InOrder X s) : Steps X (execRdmaRead qp psn rkey va len ce s) := by
  dsimp only [Machine.execRdmaRead]
  refine .ite (.next h) ?_
  refine .ite ?_ (.next h.noteCe.emit)
  split
  · exact .next h.noteCe.emit
  · exact .next (.emit (.askRead (.ite h.noteCe.setQp h.noteCe)))

theorem InOrder.fetchStart {r} (h : InOrder X s) : InOrder X (s.fetchStart r) := .ite h h.qpPost

theorem InOrder.execCommandFetch {ring ans} (h : InOrder X s) : Steps X (execCommandFetch ring ans s) := by
  dsimp only [Machine.execCommandFetch]
  refine .ite (.next h) ?_
  split
  · exact .next h.fetchStart
  · split
    · exact .next h.fetchStart
    · exact .next h.fetchStart.noteCe.qpError
    · split
      · exact .next h.fetchStart.noteCe
      · next u e =>
          have h1 : InOrder X u := .of_some e h.fetchStart.noteCe.readDone
          exact .ite (.next h1.setRing) (.next h1)

theorem InOrder.enableRing {r} (h : InOrder X s) : InOrder X (s.enableRing r) := .setRing (h.foldl fun _ _ h1 => h1.jrnlWritten)

theorem InOrder.setQpState {n v} (h : InOrder X s) : OptInOrder X (s.setQpState n v) :=
  .ite (.some h) (.ite (.some h.setQp) (.ite (.some h.setQp) .none))

theorem InOrder.resumeJournal (h : InOrder X s) : InOrder X s.resumeJournal := h.foldl fun _ _ h1 => .ite h1.qpPost h1

theorem InOrder.moveQps {port2} (h : InOrder X s) : InOrder X (s.moveQps port2) :=
  .resumeJournal (.foldl { h with } (fun _ _ h1 => .ite h1.setQp.resendAll h1))

theorem InOrder.takeOver (h : InOrder X s) : InOrder X s.takeOver := .ite h.moveQps h
theorem InOrder.execFailover (h : InOrder X s) : Steps X (execFailover s) := .next h.takeOver
theorem InOrder.failBack (h : InOrder X s) : InOrder X s.failBack := .ite h.moveQps h

theorem InOrder.histRecords {panel kind src origin} (h : InOrder X s) : InOrder X (s.histRecords panel kind src origin) :=
  .ite h (h.foldl fun _ _ h1 => h1.record)

theorem InOrder.stageRecords {p n} (h : InOrder X s) : InOrder X (s.stageRecords p n) := .askDram (.devWrite { h with })

theorem InOrder.endInterval {p} (h : InOrder X s) : InOrder X (s.endInterval p) := by
  dsimp only [State.endInterval]
  exact .base rfl (.ite h (.if_else (.foldl (.foldl (h.foldl fun _ _ h1 => h1.foldl fun _ _ h2 => h2.histRecords) (fun _ _ h1 => .ite h1 h1.record))
    (fun _ _ h1 => h1.record)) fun h1 => h1.stageRecords)) fun h1 => { h1 with rcdHist := SMap.sorted_filter _ h1.rcdHist }

theorem InOrder.endAonInterval (h : InOrder X s) : InOrder X s.endAonInterval := { h.foldl fun _ _ h1 => h1.record with }

theorem InOrder.execIntervalEnd (h : InOrder X s) : Steps X (execIntervalEnd s) := by
  have stamp {v : State} {n : Nat} (hv : InOrder X v) : InOrder X { v with rcd := { v.rcd with intervalAt := n } } := { hv with }
  exact .ite (.next (stamp h.endInterval.endInterval.endAonInterval)) (.next h)

theorem InOrder.execLifeSample {temps volts} (h : InOrder X s) : Steps X (execLifeSample temps volts s) := by
  dsimp only [Machine.execLifeSample]
  refine .next ?_
  refine .foldl ?_ ?_
  · refine h.foldl ?_
    intro _ _ h1
    split
    · exact .ite h1.histAdd.extreme.extreme h1
    · exact h1
  · intro _ _ h1
    split
    · exact .ite h1.histAdd.extreme.extreme h1
    · exact h1

theorem InOrder.progRec {n bs} (h : InOrder X s) : InOrder X (s.progRec n bs) := { h with }
theorem InOrder.writeHeader {k bad} (h : InOrder X s) : InOrder X (s.writeHeader k bad) := .progRec (.freeN { h with })

theorem InOrder.openSector {k} (h : InOrder X s) : InOrder X (s.openSector k) := by
  dsimp only [State.openSector]
  exact .foldl (.base rfl (.writeHeader { h with }) fun h1 => { h1 with }) (fun _ _ h1 => .base rfl h1.progRec fun h2 => { h2 with })

theorem InOrder.advanceLog {bad} (h : InOrder X s) : InOrder X (s.advanceLog bad) := by
  dsimp only [State.advanceLog]
  exact .ite h.writeHeader.recAlert.openSector h.openSector

theorem InOrder.logRec {bs} (h : InOrder X s) : InOrder X (s.logRec bs) := by
  dsimp only [State.logRec]
  split
  · exact .base rfl (.progRec (.ite h h.advanceLog)) fun h1 => { h1 with }
  · exact .ite h h.advanceLog

theorem InOrder.fatalRec {seq bs} (h : InOrder X s) : InOrder X (s.fatalRec seq bs) := by
  dsimp only [State.fatalRec]
  exact .ite (.recAlert { h with }) (.base rfl (.progRec (.ite h.writeHeader h)) fun h1 => { h1 with })

theorem InOrder.lifeRecords (h : InOrder X s) : InOrder X s.lifeRecords :=
  .foldl (h.foldl fun _ _ h1 => h1.histRecords) (fun _ _ h1 => h1.histRecords)

theorem InOrder.flushRing {bad} (h : InOrder X s) : InOrder X (s.flushRing bad) := by
  unfold State.flushRing
  extract_lets -underBinder s1 near _ s2 s3 recs s4 _
  have reserve {v : State} {n : Nat} (hv : InOrder X v) : InOrder X { v with rcd := { v.rcd with reserve := n } } := { hv with }
  have h2 : InOrder X s2 := .ite (reserve h.lifeRecords) h.lifeRecords
  have h3 : InOrder X s3 := .ite h2.advanceLog h2
  have h4 : InOrder X s4 := h3.foldl fun _ _ h1 => .ite h1.fatalRec h1.logRec
  exact { h4 with }

theorem InOrder.execFlush {bad} (h : InOrder X s) : Steps X (execFlush bad s) := .ite (.next h.flushRing) (.next h)

theorem InOrder.flashProg {a a1} (h : InOrder X s) : InOrder X (s.flashProg a a1) := by
  induction a1 generalizing a s with
  | nil => exact h
  | cons b bs ih => exact ih (s := { s with flash := SMap.set s.flash 0xFF#8 a (s.flashGet a &&& b) }) { h with }

theorem InOrder.flashErase {a} (h : InOrder X s) : InOrder X (s.flashErase a) := { h with }

theorem InOrder.loadLife (h : InOrder X s) : InOrder X s.loadLife := by
  dsimp only [State.loadLife]
  refine .foldl { h with rcdHist := SMap.sorted_filter _ h.rcdHist } ?_
  intro _ _ h1
  refine h1.foldl ?_
  intro _ _ h2
  refine h2.foldl ?_
  intro _ _ h3
  split
  · exact h3.foldl fun _ _ h4 => h4.histAdd
  · exact h3

theorem InOrder.bootRecorder (h : InOrder X s) : InOrder X s.bootRecorder := by
  dsimp only [State.bootRecorder]
  exact .advanceLog (.loadLife { h with rcdHist := rfl })

theorem InOrder.stepCopy {p n c pos t step cause} (h : InOrder X s) : InOrder X (s.stepCopy p n c pos t step cause) :=
  .stepEvents (.if_then h.fireDue.setDom fun h1 => h1.record)

theorem InOrder.moveCopy {p n c} (h : InOrder X s) : InOrder X (s.moveCopy p n c) := h.fireDue.setDom.judgeAll
theorem InOrder.autoSwitch {p n unc} (h : InOrder X s) : InOrder X (s.autoSwitch p n unc) := .ite h.stepCopy h
theorem InOrder.coastCopy {p n cause unc} (h : InOrder X s) : InOrder X (s.coastCopy p n cause unc) := .ite h.moveCopy.autoSwitch h
theorem InOrder.coastAll {p n cause} (h : InOrder X s) : InOrder X (s.coastAll p n cause) := h.freeN.foldl fun _ _ h1 => h1.coastCopy
theorem InOrder.faultCopy {p n cause} (h : InOrder X s) : InOrder X (s.faultCopy p n cause) := h.moveCopy
theorem InOrder.dropObs {p n sec cause unc} (h : InOrder X s) : InOrder X (s.dropObs p n sec cause unc) := .ite h.setDom.coastCopy h.setDom
theorem InOrder.noteCorrection {p n c} (h : InOrder X s) : InOrder X (s.noteCorrection p n c) := h.histAdd.extreme

theorem InOrder.applyObs {p n sec t unc} (h : InOrder X s) : InOrder X (s.applyObs p n sec t unc) := by
  dsimp only [State.applyObs]
  refine .ite (.ite h.coastCopy h.autoSwitch) ?_
  split
  · exact .ite h.noteCorrection.moveCopy (.ite_of h.noteCorrection (fun h1 => h1.stepCopy) fun h1 => h1.moveCopy)
  · exact .ite h.noteCorrection.moveCopy (.ite_of h.noteCorrection (fun h1 => h1.stepCopy) fun h1 => h1.moveCopy)
  · exact .ite h h.stepCopy
  · exact .ite h (.ite_of h.noteCorrection (fun h1 => h1.stepCopy) fun h1 => .ite h1.moveCopy h1.moveCopy)

theorem InOrder.takeObs {p n sec t unc d val fixedV ok} (h : InOrder X s) : InOrder X (s.takeObs p n sec t unc d val fixedV ok) :=
  .ite h.dropObs (.ite h.setDom.dropObs h.setDom.setDom.applyObs)

theorem InOrder.indexObs {p n sec t} (h : InOrder X s) : InOrder X (s.indexObs p n sec t) := .ite h.setDom (.ite h.stepCopy h.moveCopy)

theorem InOrder.observeCopy {p n sec x t unc first} (h : InOrder X s) : InOrder X (s.observeCopy p n sec x t unc first) := by
  dsimp only [State.observeCopy]
  split
  · exact .takeObs (.ite h.setDom h)
  · exact h.takeObs
  · exact h.indexObs
  · exact .ite h.dropObs (.ite h.setDom (.ite h.setDom.takeObs (.ite h.setDom.takeObs (.ite h.setDom.count h.setDom))))
  · exact .ite h h.takeObs
  · exact h.takeObs
  · exact h.takeObs

theorem InOrder.observe {n sec x t} (h : InOrder X s) : InOrder X (s.observe n sec x t) := .ite h (h.freeN.foldl fun _ _ h1 => h1.observeCopy)
theorem InOrder.overrateAt {n sec} (h : InOrder X s) : InOrder X (s.overrateAt n sec) := h.freeN.foldl fun _ _ h1 => h1.dropObs

theorem InOrder.execSourceObservation {n secondary x} (h : InOrder X s) : Steps X (execSourceObservation n secondary x s) := by
  dsimp only [Machine.execSourceObservation]
  split
  · exact .ite (.next h) (.next (.ite (.observe { h with }) { h with }))
  · exact .next h.observe

theorem InOrder.execSourceLost {panel n} (h : InOrder X s) : Steps X (execSourceLost panel n s) := by
  dsimp only [Machine.execSourceLost]
  split
  · exact .ite (.next h.coastAll) (.next h)
  · exact .next h

theorem InOrder.stopCopy {p n} (h : InOrder X s) : InOrder X (s.stopCopy p n) := h.moveCopy
theorem InOrder.stopAll {p n} (h : InOrder X s) : InOrder X (s.stopAll p n) := h.foldl fun _ _ h1 => h1.stopCopy
theorem InOrder.faultAll {p n cause} (h : InOrder X s) : InOrder X (s.faultAll p n cause) := h.foldl fun _ _ h1 => h1.faultCopy

theorem InOrder.execEdgeOverdue {panel n} (h : InOrder X s) : Steps X (execEdgeOverdue panel n s) := by
  dsimp only [Machine.execEdgeOverdue]
  split
  · exact .ite (.next h) (.ite (.next h.coastAll) (.ite (.next (.ite h.stopAll h.coastAll)) (.ite (.next h.stopAll) (.next h.coastAll))))
  · exact .next h

theorem InOrder.execUncLimit {panel n} (h : InOrder X s) : Steps X (execUncLimit panel n s) := .ite (.next h.faultAll) (.next h)
theorem InOrder.execCoastLimit {panel n} (h : InOrder X s) : Steps X (execCoastLimit panel n s) := .ite (.next h.faultAll) (.next h)
theorem InOrder.enableDom {n} (h : InOrder X s) : InOrder X (s.enableDom n) := h.setDom.setDom
theorem InOrder.disableDom {n} (h : InOrder X s) : InOrder X (s.disableDom n) := h.fireDue.fireDue.cancelEvs.setDom.setDom
theorem InOrder.resumePrimary {n} (h : InOrder X s) : InOrder X (s.resumePrimary n) := h.foldl fun _ _ h1 => .ite h1 h1.stepCopy
theorem InOrder.splitDomains (h : InOrder X s) : InOrder X s.splitDomains := h.freeN.foldl fun _ _ h1 => .ite h1 h1.setDom.moveCopy.autoSwitch

theorem InOrder.rejoinDomains {keep lost} (h : InOrder X s) : InOrder X (s.rejoinDomains keep lost) :=
  h.foldl fun _ _ h1 => .ite h1 (.ite_of (.ite h1.setDom h1) (fun h2 => h2.setDom.setDom) fun h2 => h2.stepCopy.stepCopy)

theorem InOrder.decoderEdge {d line t} (h : InOrder X s) : InOrder X (s.decoderEdge d line t) := by
  dsimp only [State.decoderEdge]
  split
  · exact h
  · exact h.foldl fun _ _ h1 => h1.observe

theorem InOrder.sourceEdge {e n t} (h : InOrder X s) : InOrder X (s.sourceEdge e n t) := .ite (.ite h.observe h) (.ite h h.observe)

theorem InOrder.captureEdge {n t stamp} (h : InOrder X s) : InOrder X (s.captureEdge n t stamp) := by
  dsimp only [State.captureEdge]
  refine .ite ?_ ?_
  · refine .capture ?_
    refine .setPin ?_
    split
    · exact .pair h
    · exact .pair h.freeN
  · refine .setPin ?_
    split
    · exact .pair h
    · exact .pair h.freeN

theorem InOrder.acceptEdge {n t raw} (h : InOrder X s) : InOrder X (s.acceptEdge n t raw) :=
  .ite (h.setPin.count.foldl fun _ _ h1 => h1.overrateAt) (.captureEdge (.foldl (h.setPin.foldl fun _ _ h1 => h1.decoderEdge) (fun _ _ h1 =>
    h1.sourceEdge)))

theorem InOrder.execPinEdgeAccept {pin} (h : InOrder X s) : Steps X (execPinEdgeAccept pin s) := by
  dsimp only [Machine.execPinEdgeAccept]
  split
  · exact .next h
  · exact .ite (.next h.acceptEdge) (.next h)

theorem InOrder.rawChange {n level} (h : InOrder X s) : InOrder X (s.rawChange n level) := by
  dsimp only [State.rawChange]
  refine .ite ?_ ?_
  · refine .foldl ?_ (fun _ _ h1 => h1.sourceEdge)
    refine .count ?_
    refine .setPin ?_
    refine .setPin ?_
    split
    · exact .ite h.acceptEdge h
    · exact h
  · refine .setPin ?_
    refine .setPin ?_
    split
    · exact .ite h.acceptEdge h
    · exact h

theorem InOrder.execPinTransition {pin level} (h : InOrder X s) : Steps X (execPinTransition pin level s) := .ite (.next h) (.next h.rawChange)
theorem InOrder.clearSafe {n} (h : InOrder X s) : InOrder X (s.clearSafe n) := .ite h h.setPin
theorem InOrder.safeLevel {n} (h : InOrder X s) : InOrder X (s.safeLevel n) := h.drive

theorem InOrder.safePins {p} (h : InOrder X s) : InOrder X (s.safePins p) :=
  .foldl { h with tioDead := SMap.sorted_filter _ h.tioDead } (fun _ _ h1 => h1.safeLevel)

theorem InOrder.runPins {pins} (h : InOrder X s) : InOrder X (s.runPins pins) := h.foldl fun _ _ h1 => .ite (.ite h1.setPin h1) h1.setPin
theorem InOrder.limpPins {pins} (h : InOrder X s) : InOrder X (s.limpPins pins) := h.foldl fun _ _ h1 => .ite h1 h1.losePin

theorem InOrder.dropPins {p} (h : InOrder X s) : InOrder X (s.dropPins p) :=
  { h with tioPins := SMap.sorted_filter _ h.tioPins, tioDead := SMap.sorted_filter _ h.tioDead }

theorem InOrder.execDeadTimeExpire {panel pair} (h : InOrder X s) : Steps X (execDeadTimeExpire panel pair s) := by
  dsimp only [Machine.execDeadTimeExpire]
  split
  · exact .next h
  · exact .ite (.next (.drive { h with tioDead := SMap.sorted_del _ h.tioDead })) (.next h)

theorem InOrder.execSentFrame {receiver sync status data tail sinceNs} (h : InOrder X s) : Steps X (execSentFrame receiver sync status data tail
    sinceNs s) :=
  .ite (.next h) (.next (.capture { h.freeN.freeN with }))

theorem InOrder.mainsSample {input code} (h : InOrder X s) : InOrder X (s.mainsSample input code) := by
  dsimp only [State.mainsSample]
  exact .if_else (.base rfl h.freeN fun h1 => { h1 with
    tioPeak := SMap.sorted_set 0 _ _ h1.tioPeak, tioPhase := SMap.sorted_set 0 _ (_ + 1) h1.tioPhase }) fun h1 => .if_else (.base rfl h.freeN fun h2
    => { h2 with tioPeak := SMap.sorted_set 0 _ _ h2.tioPeak, tioPhase := SMap.sorted_set 0 _ (_ + 1) h2.tioPhase }) fun h2 => h2.foldl fun _ _ h3 =>
    h3.observe

theorem InOrder.execSourceSample {input a b} (h : InOrder X s) : Steps X (execSourceSample input a b s) :=
  .ite (.next h) (.next (.foldl (.ite h.mainsSample h) (fun _ _ h1 => h1.observe)))

theorem InOrder.execSarConversion {converter codes} (h : InOrder X s) : Steps X (execSarConversion converter codes s) := by
  dsimp only [Machine.execSarConversion]
  split
  · exact .next h
  · exact .ite (.next h) (.next (.foldl { h with } (fun _ _ h1 => h1.capture)))

theorem InOrder.execSdmOutput {input bitstream} (h : InOrder X s) : Steps X (execSdmOutput input bitstream s) :=
  .ite (.next h) (.next (.if_then { h with tioSdmOut := SMap.sorted_set _ _ _ h.tioSdmOut } fun h1 => h1.capture))

theorem InOrder.putSched {key r} (h : InOrder X s) : InOrder X (s.putSched key r) := { h with }

theorem InOrder.execCanScheduleEntry {panel entry} (h : InOrder X s) : Steps X (execCanScheduleEntry panel entry s) := by
  dsimp only [Machine.execCanScheduleEntry]
  exact .ite (.next h) (.next (.ite h.putSched (.base rfl h.putSched fun h1 => { h1 with })))

theorem InOrder.execLinSlotStart {port} (h : InOrder X s) : Steps X (execLinSlotStart port s) := by
  dsimp only [Machine.execLinSlotStart]
  refine .ite (.next h) ?_
  split
  · exact .next h
  · exact .ite (.next h) (.ite (.next h.putSched.countPort) (.next (.emit (.base rfl h.putSched.freeN fun h1 => { h1 with }))))

theorem InOrder.resetSwitch {p} (h : InOrder X s) : InOrder X (s.resetSwitch p) := by
  dsimp only [State.resetSwitch]
  exact .base rfl h.loseCross fun h1 => { h1 with
    swtLink := SMap.sorted_filter _ h1.swtLink, swtWentDown := SMap.sorted_filter _ h1.swtWentDown, swtRate := SMap.sorted_filter _ h1.swtRate,
    swtBound := SMap.sorted_filter _ h1.swtBound, swtParseQ := SMap.sorted_filter _ h1.swtParseQ, swtFrames := SMap.sorted_filter _ h1.swtFrames,
    swtStreams := SMap.sorted_filter _ h1.swtStreams, swtAdm := SMap.sorted_filter _ h1.swtAdm, swtQs := SMap.sorted_filter _ h1.swtQs, swtFrer :=
      SMap.sorted_filter _ h1.swtFrer, swtVerified := SMap.sorted_filter _ h1.swtVerified, swtCanTx := SMap.sorted_filter _ h1.swtCanTx }

theorem InOrder.resetTio {p} (h : InOrder X s) : InOrder X (s.resetTio p) :=
  { h.dropPins with
    tioSdmOut := SMap.sorted_filter _ h.dropPins.tioSdmOut, tioPeak := SMap.sorted_filter _ h.dropPins.tioPeak, tioPhase := SMap.sorted_filter _
      h.dropPins.tioPhase, tioSeq := SMap.sorted_filter _ h.dropPins.tioSeq }

theorem InOrder.shareMap {p} (h : InOrder X s) : InOrder X (s.shareMap p) := h.setRd.setRd

theorem InOrder.resetPanel {p} (h : InOrder X s) : InOrder X (s.resetPanel p) := by
  unfold State.resetPanel
  extract_lets -underBinder st s1 s2 _ s3 held _ _ _ _ _ _ _ _ s4 s5
  have h1 : InOrder X s1 := { h with ctrs := SMap.sorted_filter _ h.ctrs }
  have h2 : InOrder X s2 := h1.resetSwitch.resetTio
  clear_value s2
  have h3 : InOrder X s3 := { h2 with }
  clear_value s3
  have h4 : InOrder X s4 := { h3 with
    regs := SMap.sorted_filter _ h3.regs, doms := SMap.sorted_filter _ h3.doms, evDone := SMap.sorted_filter _ h3.evDone
    odoms := SMap.sorted_filter _ h3.odoms, eachOdom := fun e he => h3.eachOdom e (List.mem_of_mem_filter he)
    lls := foldl_keeps (P := fun m => SMap.sorted m = true) (fun _ _ hm => SMap.sorted_put _ _ hm) (SMap.sorted_filter _ h3.lls)
    strands := SMap.sorted_filter _ h3.strands, eachStrand := fun e he => h3.eachStrand e (List.mem_of_mem_filter he)
    carLists := SMap.sorted_filter _ h3.carLists, carSpill := SMap.sorted_filter _ h3.carSpill, yarns := SMap.sorted_filter _ h3.yarns
    fltFenced := SMap.sorted_filter _ h3.fltFenced, fltSlots := SMap.sorted_filter _ h3.fltSlots
    drmErrTrain := SMap.sorted_filter _ h3.drmErrTrain, drmReading := SMap.sorted_filter _ h3.drmReading, drmRows := SMap.sorted_filter _ h3.drmRows
    drmRate := SMap.sorted_filter _ h3.drmRate, drmDue := SMap.sorted_filter _ h3.drmDue, secKeys := SMap.sorted_filter _ h3.secKeys
    rcdHist := SMap.sorted_filter _ h3.rcdHist, swaRun := SMap.sorted_filter _ h3.swaRun, swaResults := SMap.sorted_filter _ h3.swaResults }
  have h5 : InOrder X s5 := ((h4.markGoneIf.setFlw ⟨rfl⟩).setTp ⟨rfl, rfl⟩).rerunHome
  exact .ite h5.shareMap h5

theorem InOrder.allocMirror {p ridx} (h : InOrder X s) : OptInOrder X (s.allocMirror p ridx) := by
  dsimp only [State.allocMirror]
  refine .ite .none ?_
  split
  · exact .none
  · split
    · exact .some (.mirrorRec (.devWrite (h.freeN.updFlw rfl)))
    · exact .none

theorem InOrder.setMs {p ridx v} (h : InOrder X s) : InOrder X (s.setMs p ridx v) := by
  dsimp only [State.setMs]
  split
  · exact h.setEntry
  · exact h

theorem InOrder.rewriteMirrors {p} (h : InOrder X s) : InOrder X (s.rewriteMirrors p) := by
  dsimp only [State.rewriteMirrors]
  exact .updFlw (h.foldl fun _ _ h1 => h1.mirrorRec) rfl

theorem InOrder.remakeMirrors {p} (h : InOrder X s) : InOrder X (s.remakeMirrors p) := by
  refine .updFlw (h.foldl fun u e h1 => ?_) rfl
  split
  · exact .ite (.getD h1.allocMirror h1) h1
  · exact h1

theorem InOrder.absentRec {p ridx key} (h : InOrder X s) : InOrder X (s.absentRec p ridx key) := by
  dsimp only [State.absentRec]
  refine .ite (.countP (.dropCtx (h.markGone.setAdopt (SMap.sorted_set false _ false h.markGone.flw.adoptUsed)))) ?_
  refine .countP ?_
  refine .dropCtx ?_
  refine .foldl (h.markGone.updFlw rfl) ?_
  intro _ _ h1
  split
  · exact .ite h1.setEntry h1
  · exact h1

theorem InOrder.rebuildRec {p ridx key} (h : InOrder X s) : InOrder X (s.rebuildRec p ridx key) := by
  dsimp only [State.rebuildRec]
  split
  · exact h
  · split
    · exact .countP (h.setFlw { h.flw with })
    · split
      · next u e =>
          have h1 : InOrder X u := .snd e h.reserve
          exact .countP (h1.setFlw { h1.flw with })
      · next u e =>
          have h1 : InOrder X u := .snd e h.reserve
          exact .setMs (h1.makeRecord.devWrite.updFlw rfl)

theorem InOrder.finishCopies {l} (h : InOrder X s) : InOrder X (s.finishCopies l) := h.foldl fun _ _ h1 => h1.finish

theorem InOrder.adoptTables {q} (h : InOrder X s) : InOrder X (s.adoptTables q) :=
  .expireL2 (.finishCopies (.foldl (h.setTp { h.tp with }) (fun _ _ h1 => h1.putCopy)))

theorem InOrder.redoCdels {q l} (h : InOrder X s) : InOrder X (s.redoCdels q l) := h.foldl fun _ _ h1 => h1.cdelete

theorem InOrder.rewriteTables (h : InOrder X s) : InOrder X s.rewriteTables :=
  .finishCopies (h.foldl fun _ _ h1 => h1.setTp ⟨foldl_keeps (P := fun m => SMap.sorted m = true) (fun _ _ h2 => SMap.sorted_put _ _ h2)
    (SMap.sorted_filter _ h.tp.ents), SMap.sorted_filter _ h1.tp.act⟩)

theorem InOrder.copyTables {q} (h : InOrder X s) : InOrder X (s.copyTables q) :=
  .setTp (h.setTp ⟨h.tp.ents, SMap.sorted_filter _ h.tp.act⟩) { h.tp with act := SMap.sorted_filter _ h.tp.act }

theorem InOrder.copyMirror {src q} (h : InOrder X s) : InOrder X (s.copyMirror src q) := { h with }

theorem InOrder.endResync (h : InOrder X s) : InOrder X s.endResync := by
  unfold State.endResync
  extract_lets -underBinder u
  have hu : InOrder X u := by
    unfold u
    split
    · exact h.copyMirror
    · exact h.foldl fun _ _ h1 => .ite h1.copyMirror.countP h1.copyMirror
  exact { hu with }

end

end Sys2Proof.Machine
end

section
/-! PROOFS. What every step keeps, in the swatch and the mode controller (ch. 17, 20), fail-operational behaviour (ch. 19), DRAM (ch. 14) and the root
of trust. -/

namespace Sys2Proof.Machine

section
variable {X : Nat → Prop} {s : State}

theorem InOrder.setResults {q r} (h : InOrder X s) (hr : SMap.sorted r = true) : InOrder X { s with swa := { s.swa with seq := q, results := r } } :=
  { h with swaResults := hr }

theorem InOrder.putResult {p n outcome origin sa tr dur pat misr cause} (h : InOrder X s) : InOrder X (s.putResult p n outcome origin sa tr dur pat
    misr cause) :=
  .if_else (.countP (h.setResults (foldl_keeps (P := fun m => SMap.sorted m = true) (fun _ _ hm => SMap.sorted_set _ _ _ hm) h.swaResults))) fun h1 =>
    h1.record

theorem InOrder.beginCycle {p t} (h : InOrder X s) : InOrder X (s.beginCycle p t) := .ite { h with } { h with }

theorem InOrder.nextSlice {p n} (h : InOrder X s) : InOrder X (s.nextSlice p n) :=
  .ite { h with } (.ite (.beginCycle (.countP { h with })) { h with })

theorem InOrder.cutRun {p r cause} (h : InOrder X s) : InOrder X (s.cutRun p r cause) := by
  dsimp only [State.cutRun]
  exact h.freeN.freeN.freeN.freeN.putResult

theorem InOrder.cutSlice {p cause} (h : InOrder X s) : InOrder X (s.cutSlice p cause) := by
  dsimp only [State.cutSlice]
  split
  · exact h
  · exact .nextSlice (.cutRun { h with swaRun := SMap.sorted_del _ h.swaRun })

theorem InOrder.cutAon {cause} (h : InOrder X s) : InOrder X (s.cutAon cause) := by
  dsimp only [State.cutAon]
  split
  · exact h
  · exact .cutRun { h with }

theorem InOrder.startSwatchOn {p} (h : InOrder X s) : InOrder X (s.startSwatchOn p) := .ite (.beginCycle { h with }) h
theorem InOrder.startSwatch (h : InOrder X s) : InOrder X s.startSwatch := h.startSwatchOn.startSwatchOn
theorem InOrder.stopSwatch (h : InOrder X s) : InOrder X s.stopSwatch := { h.cutSlice.cutSlice.cutAon with }
theorem InOrder.enterMode {m c} (h : InOrder X s) : InOrder X (s.enterMode m c) := .postEvent (.setAttn { h with })
theorem InOrder.holdBoot {c dev} (h : InOrder X s) : InOrder X (s.holdBoot c dev) := .setAttn { h.enterMode with }
theorem InOrder.leaveService (h : InOrder X s) : InOrder X s.leaveService := h.stopSwatch.stopScans

theorem InOrder.toRun {c} (h : InOrder X s) : InOrder X (s.toRun c) :=
  .if_then (.if_then h.enterMode.runPins fun h1 => h1.startScans.startSwatch) fun h1 => h1.enterMode

theorem InOrder.toLimp {c} (h : InOrder X s) : InOrder X (s.toLimp c) := h.stopSwatch.enterMode.limpPins.setAttn
theorem InOrder.toService {c} (h : InOrder X s) : InOrder X (s.toService c) := h.enterMode.safePins.safePins
theorem InOrder.toSleep {c} (h : InOrder X s) : InOrder X (s.toSleep c) := { h.leaveService with }
theorem InOrder.noteSel (h : InOrder X s) : InOrder X s.noteSel := { h with }

theorem InOrder.modeCommand {target selvage} (h : InOrder X s) : InOrder X (s.modeCommand target selvage).2 := by
  dsimp only [State.modeCommand]
  refine .ite_snd (.pair h) ?_
  split
  · exact .ite_snd (.pair (.toRun (.ite h.noteSel h))) (.pair (.ite h.noteSel h))
  · exact .ite_snd (.pair (.toLimp (.ite h.noteSel h))) (.pair (.ite h.noteSel h))
  · exact .ite_snd (.pair (.toSleep (.ite h.noteSel h))) (.pair (.ite h.noteSel h))
  · exact .ite_snd (.pair (.toService (.ite h.noteSel h))) (.pair (.ite h.noteSel h))
  · exact .pair (.ite h.noteSel h)

theorem InOrder.offPanel {p} (h : InOrder X s) : InOrder X (s.offPanel p) := h.setPan
theorem InOrder.signCert (h : InOrder X s) : InOrder X s.signCert := { h with }

theorem InOrder.resetDevice (h : InOrder X s) : InOrder X s.resetDevice := by
  unfold State.resetDevice
  extract_lets -underBinder s1 _ _ _ s2
  have h1 : InOrder X s1 := h.resetPanel.resetPanel
  clear_value s1
  have h2 : InOrder X s2 := { h1 with
    regs := SMap.sorted_filter _ h1.regs, ctrs := SMap.sorted_filter _ h1.ctrs, doms := rfl, evDone := rfl, odoms := rfl, eachOdom := fun _ he =>
      nomatch he
    lls := rfl, carLists := rfl, carSpill := rfl, yarns := rfl, drmErrTrain := rfl, drmReading := rfl, drmRows := rfl, drmRate := rfl, drmDue := rfl
    tblA := ⟨rfl, rfl⟩, tblB := ⟨rfl, rfl⟩, swtFrames := rfl, swtStreams := rfl, hstJrnl := rfl, hstQps := rfl, hstRings := rfl }
  exact h2.offPanel.offPanel.signCert

theorem InOrder.bootAfresh {c} (h : InOrder X s) : InOrder X (s.bootAfresh c) := { h.resetDevice.enterMode.foldl fun _ _ h1 => h1.setPan with }
theorem InOrder.bootHeld {c dev} (h : InOrder X s) : InOrder X (s.bootHeld c dev) := h.resetDevice.holdBoot
theorem InOrder.fault {p r action slot} (h : InOrder X s) : InOrder X (s.fault p r action slot) := h.postEvent
theorem InOrder.writeError {p r} (h : InOrder X s) : InOrder X (s.writeError p r).2 := .pair (.ite h.record.setAttn h.record)
theorem InOrder.readLog (h : InOrder X s) : InOrder X s.readLog := { h with }

theorem InOrder.logRepair {p unit index kind addr spare} (h : InOrder X s) : InOrder X (s.logRepair p unit index kind addr spare) :=
  .ite (.flashProg (.flashProg { h with })) { h with }

theorem InOrder.markFenced {p unit index} (h : InOrder X s) : InOrder X (s.markFenced p unit index) :=
  { h with fltFenced := SMap.sorted_set false _ true h.fltFenced }

theorem InOrder.dropLl {k} (h : InOrder X s) : InOrder X (s.dropLl k) := by
  dsimp only [State.dropLl]
  split
  · refine .dropMark ?_
    split
    · exact h.discardAttempt.endWork.setLl.rerunLocks
    · exact h.discardAttempt.endWork.setLl
  · exact h.discardAttempt.endWork.killQueued.freeLl.dropMark
  · exact h.discardAttempt.killRecirc.freeLl.dropMark
  · exact h.discardAttempt.freeLl.dropMark
  · exact h.discardAttempt.freeLl.dropMark
  · exact h

theorem InOrder.replayAll {l} (h : InOrder X s) : InOrder X (s.replayAll l).2 := .pair (h.foldl fun _ _ h1 => h1.replay)

theorem InOrder.loseCells {p i} (h : InOrder X s) : InOrder X (s.loseCells p i) :=
  .foldl (.foldl (.foldl (.setHoldQ (.foldl (.foldl (.foldl { h with swtParseQ := SMap.sorted_set _ _ _ h.swtParseQ } (fun _ _ h1 => h1.countPort))
    (fun _ _ h1 => h1.setItems.foldl fun _ _ h2 => h2.discardHead)) (fun _ _ h1 => h1.setSpilled.foldl fun _ _ h2 => h2.discardHead))) (fun _ _ h1 =>
    h1.discardHead)) (fun _ _ h1 => h1.dropLl)) (fun _ _ h1 => .ite (.ite h1.freeB.fabLoss h1.freeB) (.ite h1.fabLoss h1))

theorem InOrder.loseSomeItems {l} (h : InOrder X s) : InOrder X (s.loseSomeItems l).2 :=
  .foldl_snd (.pair h) (fun _ _ h1 => .ite_snd (.pair h1.freeB.discardHead) (.pair h1.freeB))

theorem InOrder.loseStore {p} (h : InOrder X s) : InOrder X (s.loseStore p) := h.foldl fun _ _ h1 => h1.loseSomeItems.setItems.stirWork

theorem InOrder.moveSupv {c} (h : InOrder X s) : InOrder X (s.moveSupv c) := by
  dsimp only [State.moveSupv]
  refine .ite h ?_
  split
  · exact .setRd (.ite h h.stir)
  · exact h

theorem InOrder.fenceNeedle {p n} (h : InOrder X s) : InOrder X (s.fenceNeedle p n).2 :=
  .ite_snd (.pair { h.markFenced with }) (.pair (.moveSupv (.foldl (.replayAll (.stirWork (.markFenced { h with }))) (fun _ _ h1 => h1.loseOwner))))

theorem InOrder.fenceHook {p i} (h : InOrder X s) : InOrder X (s.fenceHook p i).2 :=
  .replayAll (h.markFenced.foldl fun _ _ h1 => h1.setStrand { h1.strand with })

theorem InOrder.fenceSearch {p e} (h : InOrder X s) : InOrder X (s.fenceSearch p e).2 := h.markFenced.replayAll
theorem InOrder.fenceCourse {c} (h : InOrder X s) : InOrder X (s.fenceCourse c).2 := .pair (h.replayAll.foldl fun _ _ h1 => h1.loseOwner)

theorem InOrder.fenceBasket {p sl} (h : InOrder X s) : InOrder X (s.fenceBasket p sl) := by
  dsimp only [State.fenceBasket]
  refine h.foldl ?_
  intro _ _ h1
  refine .ite ?_ h1.setCtx.markGoneIf
  split
  · exact h1.setCtx.markGoneIf.absentRec.rebuildRec
  · exact h1.setCtx.markGoneIf.absentRec

theorem InOrder.poisonPools (h : InOrder X s) : InOrder X s.poisonPools := h.foldl fun _ _ h1 => .ite h1 (.ite h1 h1.setPool.noteLow.countN)

theorem InOrder.accDone {t id} (h : InOrder X s) : InOrder X (s.accDone t id) := by
  dsimp only [State.accDone]
  split
  · exact h
  · exact .ite h (.ite (h.setStrand (.of_eq rfl rfl rfl h.strand)) (h.setStrand (.of_eq rfl rfl rfl (h.strand.setBk (.of_eq rfl h.strand.bk)))))

theorem InOrder.accPoison {t id} (h : InOrder X s) : InOrder X (s.accPoison t id) := by
  dsimp only [State.accPoison]
  split
  · exact h
  · next d _ =>
    refine .ite h ?_
    have undo {b : Bank} (hb : BankOk b) : BankOk (match d.undo with | some (r, v) => b.wg r v | none => b) := by
      split
      · exact hb.wg
      · exact hb
    have back {b : Bank} {o o' : Bool} (hb : BankOk b) : StrandOk X t { (s.strand t).setBk o b with dram := none, inB1 := o' } :=
      { h.strand.setBk hb with }
    have trap := (h.setStrand (back (o := decide (d.bank = 1)) (o' := decide (d.bank = 1))
      (undo (b := { (s.strand t).bk (decide (d.bank = 1)) with pend := ((s.strand t).bk (decide (d.bank = 1))).pend.filter fun p => !p.dram }) {
        h.strand.bk with }))).takeTrap
        (t := t) (c := .access) (detail := 4) (hookinfo := 0) (info := d.word) (addr := d.addr) (resume := d.pc)
    exact trap.setStrand { trap.strand with }

theorem InOrder.failReq {r} (h : InOrder X s) : InOrder X (s.failReq r) := by
  dsimp only [State.failReq]
  split
  · split
    · exact h.fabLoss
    · exact h
  · split
    · refine .accPoison ?_
      split
      · exact h.fabLoss
      · exact h
    · refine .ite ?_ ?_
      · refine .accDone ?_
        split
        · exact h.fabLoss
        · exact h
      · refine .pushReqs ?_
        split
        · exact h.fabLoss
        · exact h

theorem InOrder.loseSched (h : InOrder X s) : InOrder X s.loseSched := h.foldl fun _ _ h1 => h1.fabLoss
theorem InOrder.loseCaptures {p} (h : InOrder X s) : InOrder X (s.loseCaptures p) := h.setTioStore.foldl fun _ _ h1 => h1.count

theorem InOrder.failReqs {p c} (h : InOrder X s) : InOrder X (s.failReqs p c) :=
  .loseCaptures (.loseSched (.foldl { h with drmReading := SMap.sorted_del _ h.drmReading } (fun _ _ h1 => h1.failReq)))

theorem InOrder.fenceChannel {p c} (h : InOrder X s) : InOrder X (s.fenceChannel p c) := by
  dsimp only [State.fenceChannel]
  exact .poisonPools (.failReqs (.base rfl (h.markFenced.setRd.foldl fun _ _ h1 => h1.absentRec.rebuildRec) fun h1 => { h1 with
    drmDue := SMap.sorted_del _ h1.drmDue }))

theorem InOrder.fenceSram {p m i} (h : InOrder X s) : InOrder X (s.fenceSram p m i).2 := by
  dsimp only [State.fenceSram]
  split
  · exact .pair h.markFenced.loseCells
  · exact .pair h.markFenced.fenceBasket
  · exact h.markFenced.fenceSearch
  · exact .pair (h.markFenced.countN.foldl fun _ _ h1 => h1.dropLl)
  · exact h.markFenced.fenceCourse
  · exact h.markFenced.fenceNeedle
  · exact .pair h.markFenced.loseStore
  · exact .pair { h.markFenced with }
  · exact .pair h.markFenced

theorem InOrder.fenceStation {p st} (h : InOrder X s) : InOrder X (s.fenceStation p st) :=
  .loseStation (.loseReseq (.markFenced (.foldl (h.foldl fun _ _ h1 => h1.leaveUp) (fun _ _ h1 => h1.dropQueued))))

theorem InOrder.fenceUnit {p unit index} (h : InOrder X s) : InOrder X (s.fenceUnit p unit index).2 := by
  dsimp only [State.fenceUnit]
  split
  · exact h.fenceNeedle
  · exact h.fenceSram
  · exact h.fenceHook
  · exact h.fenceSearch
  · exact .pair h.fenceChannel
  · exact .pair h.leaveUp.markFenced
  · exact .pair h.fenceStation
  · exact .pair h.leaveUp.markFenced
  · exact .pair h.markFenced

theorem InOrder.degrade (h : InOrder X s) : InOrder X s.degrade := .ite h.enterMode h
theorem InOrder.setSlot {p i r} (h : InOrder X s) : InOrder X (s.setSlot p i r) := { h with fltSlots := SMap.sorted_put _ _ h.fltSlots }
theorem InOrder.clearSlot {p i} (h : InOrder X s) : InOrder X (s.clearSlot p i) := { h with fltSlots := SMap.sorted_del _ h.fltSlots }

theorem InOrder.suspendBelow {p sev} (h : InOrder X s) : InOrder X (s.suspendBelow p sev) := by
  dsimp only [State.suspendBelow]
  refine h.foldl ?_
  intro _ _ h1
  split
  · exact .ite h1.setSlot h1
  · exact h1

theorem InOrder.holdSlot {p i r} (h : InOrder X s) : InOrder X (s.holdSlot p i r) := h.suspendBelow.setSlot

theorem InOrder.deviceError (h : InOrder X s) : InOrder X s.deviceError := by
  dsimp only [State.deviceError]
  split
  · exact .ite_of h.cutSlice.cutSlice.cutAon (fun h1 => h1.toLimp) fun h1 => h1.bootAfresh
  · exact h.cutSlice.cutSlice.cutAon.bootAfresh
  · exact .ite_of h.cutSlice.cutSlice.cutAon (fun h1 => h1.toLimp) fun h1 => h1.bootHeld
  · exact .ite_of h.cutSlice.cutSlice.cutAon (fun h1 => h1.toLimp) fun h1 => h1.bootHeld
  · exact h.cutSlice.cutSlice.cutAon.bootHeld
  · exact h.cutSlice.cutSlice.cutAon

theorem InOrder.redoWork {recs} (h : InOrder X s) : InOrder X (s.redoWork recs) := by
  dsimp only [State.redoWork]
  refine h.foldl ?_
  intro _ _ h1
  split
  · exact h1
  · exact h1.offerWork

theorem InOrder.losePanel {p detect} (h : InOrder X s) : InOrder X (s.losePanel p detect) := by
  unfold State.losePanel
  extract_lets -underBinder q
  split
  next r u0 e =>
  extract_lets -underBinder s1 s2 s3 _ s4 s5 s6 s7 cdels s8 lost used _ s9 s10 _ s11 mine s12 work s13 s14 s15 s16 _ s17 s18
  have h3 : InOrder X s3 := .if_then (InOrder.snd e h.writeError).countUnit.cutSlice fun h1 => h1.cutAon
  have h6 : InOrder X s6 := h3.setPan.fault.holdSlot.degrade.splitDomains
  have h7 : InOrder X s7 := { h6 with doms := SMap.sorted_filter _ h6.doms }
  have h9 : InOrder X s9 := h7.adoptTables.redoCdels.updFlw rfl
  have h10 : InOrder X s10 := h9.setAdopt (foldl_keeps (P := fun m => SMap.sorted m = true) (fun _ _ hm => SMap.sorted_put _ _ hm) h9.flw.adoptUsed)
  have h11 : InOrder X s11 := { h10 with }
  have h16 : InOrder X s16 := h11.replayAll.setHeldWork.severLinks.resetPanel.foldl fun _ _ h1 => .if_then h1 fun h2 => h2.setPool.noteLow
  have h17 : InOrder X s17 := .ite h16.takeOver (.ite { h16 with hstQps := rfl } h16)
  exact h17.resumeJournal.redoWork

theorem InOrder.takePanel {p detect} (h : InOrder X s) : InOrder X (s.takePanel p detect) := by
  dsimp only [State.takePanel]
  refine .ite h ?_
  refine .ite ?_ ?_
  · split
    · exact h.writeError.countUnit.bootAfresh
    · exact h.writeError.countUnit.bootAfresh
    · exact h.losePanel
    · exact h.losePanel
    · exact h.losePanel
    · exact h
  · split
    · exact h
    · exact h
    · exact h
    · exact h.writeError.setPan.deviceError

theorem InOrder.failBridge {detect} (h : InOrder X s) : InOrder X (s.failBridge detect) := by
  unfold State.failBridge
  refine .ite h ?_
  split
  next ra u e =>
  split
  next rb v e' =>
  have hv : InOrder X v := InOrder.snd e' (InOrder.snd e h.writeError).writeError
  extract_lets -underBinder w
  split
  · exact hv.countUnit.countUnit.bootAfresh
  · exact hv.countUnit.countUnit.bootAfresh
  · extract_lets -underBinder s1 s2 _ s3 s4 _ s5 _ s6 _ s7 i j
    have h2 : InOrder X s2 := hv.countUnit.countUnit.cutSlice.cutSlice.cutAon.loseCross
    clear_value s2
    have h3 : InOrder X s3 := { h2 with }
    have h6 : InOrder X s6 := .updFlw (.updFlw h3.splitDomains.severLinks rfl) rfl
    have h7 : InOrder X s7 := { h6 with }
    exact h7.fault.holdSlot.fault.holdSlot.degrade

theorem InOrder.rejoinBridge (h : InOrder X s) : InOrder X s.rejoinBridge := by
  unfold State.rejoinBridge
  extract_lets -underBinder _ s1 s2 s3 _ s4 s5 r
  have h1 : InOrder X s1 := { h with }
  have h3 : InOrder X s3 := h1.rejoinDomains.rewriteTables.rewriteMirrors.rewriteMirrors
  clear_value s3
  have h4 : InOrder X s4 := { h3 with }
  exact h4.applyFrees.runAllHeld.fault.fault

theorem InOrder.setErrQueue {p l} (h : InOrder X s) : InOrder X (s.setErrQueue p l) := { h with }
theorem InOrder.useRow {p index col} (h : InOrder X s) : InOrder X (s.useRow p index col) := .ite { h with } { h with }

theorem InOrder.dropRows {p unit row} (h : InOrder X s) : InOrder X (s.dropRows p unit row) :=
  h.setTp { h.tp with ents := SMap.sorted_filter _ h.tp.ents }

theorem InOrder.dropSome {p unit} (h : InOrder X s) : InOrder X (s.dropSome p unit) :=
  h.foldl fun _ _ h1 => .ite (h1.freeB.setTp { h1.freeB.tp with ents := SMap.sorted_del _ h1.freeB.tp.ents }) h1.freeB

theorem InOrder.rebuildRows {p unit} (h : InOrder X s) : InOrder X (s.rebuildRows p unit) :=
  .ite h (h.setTp { h.tp with ents := foldl_keeps (P := fun m => SMap.sorted m = true) (fun _ _ h1 => SMap.sorted_put _ _ h1) h.tp.ents })

theorem InOrder.beginDarn {p r} (h : InOrder X s) : InOrder X (s.beginDarn p r).2 := by
  dsimp only [State.beginDarn]
  split
  · exact .pair { h with }
  · exact .pair (.ite h.useRow.dropSome h.useRow)
  · exact .pair h.dropRows
  · exact .pair (.condDown { h with })
  · exact .pair (.loseLane { h with })
  · exact .pair h.condDown
  · exact .pair h

theorem InOrder.asNeedle {p r} (h : InOrder X s) : InOrder X (s.asNeedle p r).2 := .ite_snd (.pair h.markFenced.logRepair) (.pair h)

theorem InOrder.begin {p i r} (h : InOrder X s) : InOrder X (s.begin p i r) := by
  dsimp only [State.begin]
  refine .ite ?_ (.ite_of (.ite h.asNeedle.cutSlice h.asNeedle) (fun h1 => h1.beginDarn.setSlot) fun h1 => h1.fenceUnit.setSlot.degrade)
  split
  · exact h.setSlot
  · exact .ite h.dropLl.setSlot h.replay.setSlot

theorem InOrder.fenceNow {p r} (h : InOrder X s) : InOrder X (s.fenceNow p r) := h.fenceUnit.degrade.fault.logRepair

theorem InOrder.mendItem {r} (h : InOrder X s) : InOrder X (s.mendItem r) := by
  dsimp only [State.mendItem]
  split
  · exact h
  · exact .ite (.ite h.dropLl h.replay) h

theorem InOrder.admitError {p r} (h : InOrder X s) : InOrder X (s.admitError p r) := by
  dsimp only [State.admitError]
  split
  · exact h.suspendBelow.begin
  · exact .ite h.setErrQueue h.countP.mendItem.fenceNow

theorem InOrder.severe {p sev detect} (h : InOrder X s) : InOrder X (s.severe p sev detect) := .ite h.deviceError h.takePanel

theorem InOrder.escalate {p nat_ old r} (h : InOrder X s) : InOrder X (s.escalate p nat_ old r) := by
  dsimp only [State.escalate]
  refine .ite ?_ (.fault (.if_then h.countP.writeError fun h1 => h1.cutSlice))
  refine .ite ?_ ?_
  · refine .severe ?_
    split
    · exact .clearSlot (.fault (.if_then h.countP.writeError fun h1 => h1.cutSlice))
    · exact .setErrQueue (.fault (.if_then h.countP.writeError fun h1 => h1.cutSlice))
  · refine .admitError ?_
    split
    · exact .clearSlot (.fault (.if_then h.countP.writeError fun h1 => h1.cutSlice))
    · exact .setErrQueue (.fault (.if_then h.countP.writeError fun h1 => h1.cutSlice))

theorem InOrder.raiseError {p r} (h : InOrder X s) : InOrder X (s.raiseError p r) := by
  dsimp only [State.raiseError]
  refine .ite h.countUnit ?_
  split
  · split
    · exact h.countUnit.escalate
    · exact h.countUnit.failBridge
  · exact h.countUnit.takePanel
  · exact h.countUnit.writeError.deviceError
  · exact .ite (.deviceError (.writeError (.base rfl h.countUnit fun h1 => { h1 with }))) (.ite (.admitError (.base rfl (.writeError (.base rfl
      h.countUnit fun h1 => { h1 with })) fun h1 => { h1 with })) (.base rfl (.writeError (.base rfl h.countUnit fun h1 => { h1 with })) fun h1 => {
      h1 with }))
  · refine .ite (.deviceError (.writeError (.ite h.countUnit.countP h.countUnit))) ?_
    refine .ite (.takePanel (.writeError (.ite h.countUnit.countP h.countUnit))) ?_
    split
    · exact .escalate (.if_then (.ite h.countUnit.countP h.countUnit) fun h1 => h1.cutSlice)
    · refine .ite ?_ (.admitError (.if_then (.writeError (.if_then (.ite h.countUnit.countP h.countUnit) fun h1 => h1.cutSlice)) fun h1 => { h1 with
                                                                                                                                                       }))
      split
      · exact .degrade (.setSlot (.fenceUnit (.if_then (.writeError (.if_then (.ite h.countUnit.countP h.countUnit) fun h1 => h1.cutSlice)) fun h1 =>
          { h1 with })))
      · exact .fenceNow (.if_then (.writeError (.if_then (.ite h.countUnit.countP h.countUnit) fun h1 => h1.cutSlice)) fun h1 => { h1 with })

theorem InOrder.execErrorDetected {e} (h : InOrder X s) : Steps X (execErrorDetected e s) := .ite (.next h) (.next h.raiseError)

theorem InOrder.close {p i r action} (h : InOrder X s) : InOrder X (s.close p i r action) :=
  .if_then (.if_then (.ite h.clearSlot.fault h.clearSlot) fun h1 => .ite h1.logRepair.fault h1.logRepair) fun h1 => h1.logRepair

theorem InOrder.stopUnread {n mask} (h : InOrder X s) : InOrder X (s.stopUnread n mask) := h.foldl fun _ _ h1 => .ite h1.replayAll.haltStrand h1

theorem InOrder.execRecoveryClose {panel slot outcome} (h : InOrder X s) : Steps X (execRecoveryClose panel slot outcome s) := by
  unfold Machine.execRecoveryClose
  extract_lets -underBinder p i
  split
  · exact .next h
  · refine .ite (.next h) (.ite (.next h.clearSlot) (.ite (.next h.close) (.ite (.next h.close) (.ite ?_ ?_))))
    · split
      next n u e =>
      have hu := InOrder.snd e h.fenceUnit
      exact .ite (.next hu.degrade.setSlot) (.next hu.degrade.close)
    · extract_lets -underBinder _ _ u
      have hu : InOrder X u := .ite (.stopUnread { h with }) (.ite h.rebuildRows (.ite h.rebuildRows (.ite { h with } h)))
      exact .next hu.close

theorem InOrder.execRecoveryStart {panel} (h : InOrder X s) : Steps X (execRecoveryStart panel s) := by
  dsimp only [Machine.execRecoveryStart]
  split
  · exact .next h.setErrQueue.suspendBelow.begin
  · exact .next h

theorem InOrder.execRecoveryResume {panel} (h : InOrder X s) : Steps X (execRecoveryResume panel s) := by
  dsimp only [Machine.execRecoveryResume]
  refine .next ?_
  refine h.foldl ?_
  intro _ _ h1
  split
  · exact .ite h1 (.ite h1.clearSlot.countP.fault h1.setSlot)
  · exact h1

theorem InOrder.restoreUnit {p unit index} (h : InOrder X s) : InOrder X (s.restoreUnit p unit index) :=
  { h with fltFenced := SMap.sorted_del _ h.fltFenced }

theorem InOrder.retestResult {p unit index pass} (h : InOrder X s) : InOrder X (s.retestResult p unit index pass) := by
  dsimp only [State.retestResult]
  split
  · exact h
  · exact h.freeN.freeN.freeN.putResult

theorem InOrder.execRetestComplete {panel unit index pass} (h : InOrder X s) : Steps X (execRetestComplete panel unit index pass s) := by
  dsimp only [Machine.execRetestComplete]
  split
  · exact .next h
  · split
    · exact .next h
    · exact .ite (.next (.close (.if_then h.retestResult.restoreUnit fun h1 => h1.rebuildRows))) (.next h.retestResult.close)

theorem InOrder.execPanelLoss {x} (h : InOrder X s) : Steps X (execPanelLoss x s) := .ite (.next h) (.next h.takePanel)
theorem InOrder.execBridgeFailure (h : InOrder X s) : Steps X (execBridgeFailure s) := .next h.failBridge

theorem InOrder.execBridgeRetrain {pass} (h : InOrder X s) : Steps X (execBridgeRetrain pass s) :=
  .ite (.next h) (.next (.ite (.rejoinBridge { h with }) { h with }))

theorem InOrder.execCrystalFail {ok} (h : InOrder X s) : Steps X (execCrystalFail ok s) :=
  .ite (.next { h with }) (.ite (.next h) (.next (.deviceError (.writeError { h with }))))

theorem InOrder.setCstat {c lo w v} (h : InOrder X s) : InOrder X (s.setCstat c lo w v) := h.setRd

theorem InOrder.notePassed {c x} (h : InOrder X s) : InOrder X (s.notePassed c x) := by
  dsimp only [State.notePassed]
  split
  · exact { h with }
  · exact h.setTioStore
  · split
    · exact h.putFrame
    · exact h

theorem InOrder.noteDram {p port since} (h : InOrder X s) : InOrder X (s.noteDram p port since) := h.histAdd.extreme

theorem InOrder.reqDone {p r} (h : InOrder X s) : InOrder X (s.reqDone p r) := by
  dsimp only [State.reqDone]
  split
  · refine .putFrame ?_
    split
    · exact .accDone (.ite h.noteDram h)
    · exact .ite h.noteDram h
  · split
    · exact .accDone (.ite h.noteDram h)
    · exact .ite h.noteDram h

theorem InOrder.writeCapture {p i e} (h : InOrder X s) : InOrder X (s.writeCapture p i e) :=
  .ite_of h.setTioStore.noteDram (fun h1 => h1.devWrite) fun h1 => h1.count

theorem InOrder.noteActs {k n} (h : InOrder X s) : InOrder X (s.noteActs k n) := { h with }
theorem InOrder.calmBank {k} (h : InOrder X s) : InOrder X (s.calmBank k) := { h with drmRows := SMap.sorted_set 0 _ 0 h.drmRows }
theorem InOrder.refreshBank {c} (h : InOrder X s) : InOrder X (s.refreshBank c) := .calmBank { h with }

theorem InOrder.issueNeighbour {c} (h : InOrder X s) : OptInOrder X (s.issueNeighbour c) := by
  dsimp only [State.issueNeighbour]
  split
  · exact .none
  · exact .some (.noteActs { h with drmRows := SMap.sorted_set 0 _ 0 h.drmRows })

theorem InOrder.issueRefresh {c} (h : InOrder X s) : OptInOrder X (s.issueRefresh c) := by
  dsimp only [State.issueRefresh]
  refine .ite (.some (.refreshBank { h with drmDue := SMap.sorted_set _ _ _ h.drmDue })) ?_
  refine .ite (.some h.setCstat.refreshBank) ?_
  split
  · exact .some h.calmBank
  · exact h.issueNeighbour

theorem InOrder.activate {c ca} (h : InOrder X s) : InOrder X (s.activate c ca).2 := by
  dsimp only [State.activate]
  exact .ite_snd (.pair h) (.ite_snd (.pair (.noteActs { h with drmRows := SMap.sorted_set 0 _ (_ + 1) h.drmRows })) (.ite_snd (.pair (.noteActs
    (.base rfl h.freeN fun h1 => { h1 with drmRows := SMap.sorted_set 0 _ (_ + 1) h1.drmRows }))) (.pair (.noteActs (.base rfl (.ite (.getD
    h.freeN.count.issueNeighbour h.freeN.count) h.freeN) fun h1 => { h1 with drmRows := SMap.sorted_set 0 _ (_ + 1) h1.drmRows })))))

theorem InOrder.serveCol {c x} (h : InOrder X s) : InOrder X (s.serveCol c x) := by
  dsimp only [State.serveCol]
  split
  · split
    · exact h
    · exact .ite (.reqDone { h with }) { h with drmReading := SMap.sorted_set _ _ _ h.drmReading }
  · split
    · exact h.writeCapture
    · exact h
  · split
    · exact h
    · exact { h.putFrame with drmReading := SMap.sorted_set _ _ _ h.putFrame.drmReading }

theorem InOrder.serveLevel {c l} (h : InOrder X s) : OptInOrder X (s.serveLevel c l) :=
  .map fun _ => .ite_of (.activate (h.foldl fun _ _ h1 => h1.notePassed)) (fun h1 => h1.serveCol) fun h1 => h1

theorem InOrder.scrubNext {c} (h : InOrder X s) : InOrder X (s.scrubNext c) :=
  .ite h (.ite h.activate { h.activate with drmReading := SMap.sorted_set _ _ _ h.activate.drmReading })

theorem InOrder.execDramCommandIssue {panel channel} (h : InOrder X s) : Steps X (execDramCommandIssue panel channel s) := by
  dsimp only [Machine.execDramCommandIssue]
  refine .ite (.next h) ?_
  refine .ite (.next (.getD h.issueRefresh h)) ?_
  refine .ite (.next h) ?_
  refine .ite (.next h.setCstat.refreshBank) ?_
  split
  · next u e =>
      have h1 : InOrder X u := .of_some e h.serveLevel
      exact .next h1
  · split
    · next u e =>
        have h1 : InOrder X u := .of_some e h.issueRefresh
        exact .next h1
    · split
      · next u e =>
          have h1 : InOrder X u := .of_some e h.serveLevel
          exact .next h1
      · exact .next h.scrubNext

theorem InOrder.execRefreshDue {panel channel} (h : InOrder X s) : Steps X (execRefreshDue panel channel s) := by
  dsimp only [Machine.execRefreshDue]
  exact .ite (.next h) (.ite (.next (.count (.setCstat { h with }))) (.next { h with drmDue := SMap.sorted_set 0 _ (_ + 1) h.drmDue }))

theorem InOrder.execMr4Read {panel channel rate rfm} (h : InOrder X s) : Steps X (execMr4Read panel channel rate rfm s) :=
  .ite (.next h) (.next (.setCstat { h with drmRate := SMap.sorted_set _ _ _ h.drmRate }))

theorem InOrder.startTrain {c} (h : InOrder X s) : InOrder X (s.startTrain c) := by
  unfold State.startTrain
  extract_lets -underBinder u
  have hu : InOrder X u := by
    unfold u
    split
    · exact h
    · exact .refreshBank { h with drmDue := SMap.sorted_set 0 _ _ h.drmDue }
  exact .setCstat { hu with }

theorem InOrder.execRetrain {panel channel trigger temp} (h : InOrder X s) : Steps X (execRetrain panel channel trigger temp s) :=
  .ite (.next h) (.ite (.next (.ite { h with } h)) (.next h.startTrain))

theorem InOrder.trained {c temp} (h : InOrder X s) : InOrder X (s.trained c temp) := .setCstat { h with }

theorem InOrder.execRetrainComplete {panel channel pass temp} (h : InOrder X s) : Steps X (execRetrainComplete panel channel pass temp s) :=
  .ite (.next h) (.ite (.next h.trained) (.next (.setCstat { h with })))

theorem InOrder.loseChannel {c detect} (h : InOrder X s) : InOrder X (s.loseChannel c detect) := h.fenceChannel.raiseError

theorem InOrder.execWideSearchComplete {panel channel pass temp} (h : InOrder X s) : Steps X (execWideSearchComplete panel channel pass temp s) :=
  .ite (.next h) (.ite (.next h.trained.count) (.next h.loseChannel))

theorem InOrder.execDramReadComplete {panel channel err} (h : InOrder X s) : Steps X (execDramReadComplete panel channel err s) := by
  unfold Machine.execDramReadComplete
  extract_lets -underBinder p c
  split
  · exact .next h
  · refine .ite (.next h) ?_
    extract_lets -underBinder again _ u done
    have hu : InOrder X u := { h with drmErrTrain := SMap.sorted_set false c _ h.drmErrTrain }
    have hdone {v : State} (hv : InOrder X v) : InOrder X (done v) := .reqDone { hv with drmReading := SMap.sorted_set _ _ _ hv.drmReading }
    split
    · exact .next (hdone hu)
    · exact .next (hdone hu.count.countUnit)
    · exact .ite (.next hu.loseChannel) (.next hu.startTrain)

theorem InOrder.execResyncComplete (h : InOrder X s) : Steps X (execResyncComplete s) := .ite (.next h.endResync) (.next h)

theorem InOrder.execTokenVerifyComplete (h : InOrder X s) : Steps X (execTokenVerifyComplete s) :=
  .ite (.next h) (.ite (.next { h with }) (.next { h with }))

theorem InOrder.advanceArb {cls} (h : InOrder X s) : InOrder X (s.advanceArb cls) := .ite { h with } (.ite { h with } { h with })

theorem InOrder.xferOwner (h : InOrder X s) : InOrder X s.xferOwner := by
  dsimp only [State.xferOwner]
  split
  · exact h
  · exact .ite { h with } { h with }

theorem InOrder.execAttestComplete (h : InOrder X s) : Steps X (execAttestComplete s) := by
  dsimp only [Machine.execAttestComplete]
  split
  · exact .next h
  · exact .ite (.next h) (.next (.setAttn { h with }))

theorem InOrder.putSa {tx port an sa} (h : InOrder X s) : InOrder X (s.putSa tx port an sa) := .ite { h with } { h with }

theorem InOrder.installRaf {img} (h : InOrder X s) : InOrder X (s.installRaf img) := by
  dsimp only [State.installRaf]
  split
  · exact h
  · exact .putSa (.putSa { h with })

theorem InOrder.extendDigest {addr v} (h : InOrder X s) : InOrder X (s.extendDigest addr v) := .ite { h with } h

end

end Sys2Proof.Machine
end

section
/-! PROOFS. What every step keeps, in the boot sequence and SLEEP (R335–R341), register writes (R404–R407) and the commands of a ring (R309–R312). -/

namespace Sys2Proof.Machine

section
variable {X : Nat → Prop} {s : State}

theorem InOrder.reset : InOrder X ({} : State) := by
  constructor
  case eachStrand => exact fun _ he => nomatch he
  case eachOdom => exact fun _ he => nomatch he
  case flwA => exact ⟨rfl⟩
  case flwB => exact ⟨rfl⟩
  case tblA => exact ⟨rfl, rfl⟩
  case tblB => exact ⟨rfl, rfl⟩
  all_goals rfl

theorem InOrder.aonReset (_ : InOrder X s) : InOrder X s.aonReset := { InOrder.reset (X := X) with }

theorem InOrder.execPowerOn {fuseOk} (h : InOrder X s) : Steps X (execPowerOn fuseOk s) := by
  dsimp only [Machine.execPowerOn]
  refine .ite (.next (.holdBoot (.enterMode (.base rfl h.aonReset fun h1 => { h1 with })))) ?_
  split
  · exact .next (.holdBoot (.signCert (.bootRecorder (.enterMode (.base rfl h.aonReset fun h1 => { h1 with })))))
  · exact .next (.base rfl (.signCert (.bootRecorder (.enterMode (.base rfl h.aonReset fun h1 => { h1 with })))) fun h1 => { h1 with })

theorem InOrder.execPowerLoss (h : InOrder X s) : Steps X (execPowerLoss s) := .next { h.aonReset with }
theorem InOrder.execPanelStart {panel} (h : InOrder X s) : Steps X (execPanelStart panel s) := .ite (.next h) (.next h.setPan)
theorem InOrder.failPanel {p cause} (h : InOrder X s) : InOrder X (s.failPanel p cause) := .if_then h.resetPanel.setPan fun h1 => h1.holdBoot

theorem InOrder.execPanelNotPowered {panel} (h : InOrder X s) : Steps X (execPanelNotPowered panel s) := by
  dsimp only [Machine.execPanelNotPowered]
  split
  · exact .next h
  · exact .ite (.next h.failPanel) (.next h)

theorem InOrder.bootUnit {p u} (h : InOrder X s) : InOrder X (s.bootUnit p u) := by
  unfold State.bootUnit
  split
  next r v e =>
  have hv := InOrder.snd e h.asNeedle
  extract_lets -underBinder w spare
  refine .ite ?_ hv.fenceUnit
  split
  next r' v' e' =>
  have hv' := InOrder.snd e' hv.beginDarn
  extract_lets -underBinder _ v1 _ v2
  have h1 : InOrder X v1 := { hv' with }
  clear_value v1
  have h2 : InOrder X v2 := .if_then h1 fun h1 => { h1 with swtLink := SMap.sorted_del _ h1.swtLink }
  exact h2.logRepair

theorem InOrder.testResults {p origin found} (h : InOrder X s) : InOrder X (s.testResults p origin found) :=
  h.foldl fun _ _ h1 => h1.freeN.freeN.freeN.putResult

theorem InOrder.bootUnits {p found} (h : InOrder X s) : InOrder X (s.bootUnits p found) :=
  .foldl (h.foldl fun _ _ h1 => h1.bootUnit) (fun _ _ h1 => h1.bootUnit)

theorem InOrder.pokeReg {a v} (h : InOrder X s) : InOrder X (s.pokeReg a v) := by
  dsimp only [State.pokeReg]
  split
  · exact h.setRd
  · exact h

theorem InOrder.loadDevice {img} (h : InOrder X s) : InOrder X (s.loadDevice img) :=
  .foldl (.foldl (.foldl { h.foldl fun _ _ h1 => h1.pokeReg with } (fun _ _ h1 => h1.setTp { h1.tp with
    ents := foldl_keeps (P := fun m => SMap.sorted m = true) (fun _ _ h2 => SMap.sorted_put _ _ h2) rfl })) (fun _ _ h1 => .ite h1.enableDom h1)) (fun
    _ _ h1 => .ite (.getD h1.setQpState h1) h1)

theorem InOrder.loadPanel {p img} (h : InOrder X s) : InOrder X (s.loadPanel p img) := by
  dsimp only [State.loadPanel]
  exact .safePins (.ite (.shareMap (.foldl (.foldl (.foldl (h.foldl fun _ _ h1 => h1.pokeReg) (fun _ _ h1 => { h1 with })) (fun _ _ h1 => h1.setRd))
    (fun _ _ h1 => h1.setStrand StrandOk.freshStrand))) (.foldl (.foldl (.foldl (h.foldl fun _ _ h1 => h1.pokeReg) (fun _ _ h1 => { h1 with })) (fun _
    _ h1 => h1.setRd)) (fun _ _ h1 => h1.setStrand StrandOk.freshStrand)))

theorem InOrder.joinPanel {p q} (h : InOrder X s) : InOrder X (s.joinPanel p q) := by
  dsimp only [State.joinPanel]
  exact .ite (.ite (.limpPins (.fault (.foldl (.applyFrees (.base rfl (.remakeMirrors (.rejoinDomains (.setFlw (.copyTables { h with }) (.of_eq rfl
    (InOrder.flw { h with }))))) fun h1 => { h1 with })) (fun _ _ h1 => .ite h1.resetPool h1)))) (.startSwatchOn (.runPins (.fault (.foldl
    (.applyFrees (.base rfl (.remakeMirrors (.rejoinDomains (.setFlw (.copyTables { h with }) (.of_eq rfl (InOrder.flw { h with }))))) fun h1 => { h1
    with })) (fun _ _ h1 => .ite h1.resetPool h1)))))) (.copyMirror (.setFlw (.copyTables { h with }) (.of_eq rfl (InOrder.flw { h with }))))

theorem InOrder.passPanel {p o img temp} (h : InOrder X s) : InOrder X (s.passPanel p o img temp) := by
  dsimp only [State.passPanel]
  exact .if_then (.if_then (.if_else (.ite (.joinPanel (.foldl (.base rfl (.ite (.base rfl h.setPan fun h1 => { h1 with }) (.base rfl h.setPan fun h1
    => { h1 with })) fun h1 => { h1 with }) (fun _ _ h1 => .ite h1 h1.trained))) (.updFlw (.foldl (.base rfl (.ite (.base rfl h.setPan fun h1 => { h1
    with }) (.base rfl h.setPan fun h1 => { h1 with })) fun h1 => { h1 with }) (fun _ _ h1 => .ite h1 h1.trained)) rfl)) fun h1 => { h1 with }) fun h1
    => h1.enterMode) fun h1 => h1.installRaf

theorem InOrder.bootFence {p e} (h : InOrder X s) : InOrder X (s.bootFence p e) := .if_then (.ite h.fenceNeedle h.markFenced) fun h1 => h1.setRd

theorem InOrder.applyRepairs {p found} (h : InOrder X s) : InOrder X (s.applyRepairs p found) := by
  dsimp only [State.applyRepairs]
  refine .foldl { h.readLog with } ?_
  intro _ _ h1
  split
  · exact h1.useRow
  · exact h1.useRow
  · exact .ite { h1 with } { h1 with }
  · exact .ite (.markFenced { h1 with }) { h1 with }
  · exact h1.bootFence
  · exact h1

theorem InOrder.execPanelBootDone {panel found repairOk temp} (h : InOrder X s) : Steps X (execPanelBootDone panel found repairOk temp s) := by
  dsimp only [Machine.execPanelBootDone]
  refine .ite (.next h) ?_
  refine .ite (.next h.failPanel) ?_
  refine .ite (.next h.applyRepairs.bootUnits.testResults.failPanel) ?_
  refine .ite (.next h.applyRepairs.bootUnits.testResults.failPanel) ?_
  split
  · exact .next h.applyRepairs.bootUnits.testResults.failPanel
  · exact .ite (.next h.applyRepairs.bootUnits.testResults.failPanel) (.ite (.next h.applyRepairs.bootUnits.testResults.failPanel) (.next (.passPanel
      (.foldl (.loadPanel (.if_else h.applyRepairs.bootUnits.testResults fun h1 => h1.loadDevice)) (fun _ _ h1 => h1.moveSupv)))))

theorem InOrder.restartPanel {p} (h : InOrder X s) : InOrder X (s.restartPanel p) := h.resetPanel.offPanel.setPan

theorem InOrder.leavePanel {p byReset} (h : InOrder X s) : InOrder X (s.leavePanel p byReset) := by
  dsimp only [State.leavePanel]
  split
  · exact h
  · exact h
  · exact .ite (.ite h.bootAfresh h) h.restartPanel
  · exact .ite h.bootAfresh h.restartPanel
  · exact .ite h.bootAfresh h.restartPanel
  · exact .ite h.restartPanel (.ite h.losePanel (.ite h.bootAfresh h.takePanel))

theorem InOrder.execPanelReset {panel pin} (h : InOrder X s) : Steps X (execPanelReset panel pin s) := by
  dsimp only [Machine.execPanelReset]
  split
  · exact .next (.if_then (.ite h.setPan (.ite h.setPan.dropPins h.setPan)) fun h1 => h1.leavePanel)
  · exact .next (.ite h.setPan.leavePanel h.setPan)
  · exact .next h.setPan

theorem InOrder.wake (h : InOrder X s) : InOrder X s.wake := { h.dropPins.dropPins.enterMode.setAttn with }

theorem InOrder.execSleepEntryComplete (h : InOrder X s) : Steps X (execSleepEntryComplete s) := by
  unfold Machine.execSleepEntryComplete
  refine .ite (.next h) ?_
  extract_lets -underBinder c s1 ports mask held s2 _ s3 _ _ _ s4 s5
  have h2 : InOrder X s2 := h.flushRing.safePins.safePins.resetDevice
  clear_value s2 ports mask held
  have pins : SMap.sorted (held.foldl (fun (m : SMap Pin) (e : Nat × Pin) => SMap.set m {} e.1 e.2) []) = true :=
    foldl_keeps (P := fun m => SMap.sorted m = true) (fun _ _ hm => SMap.sorted_set {} _ _ hm) rfl
  have h3 : InOrder X s3 := { h2 with tioPins := pins }
  clear_value s3
  have h4 : InOrder X s4 := { h3 with }
  exact .next (.ite h4.enterMode.wake h4.enterMode)

theorem InOrder.wakeBy {w} (h : InOrder X s) : InOrder X (s.wakeBy w) := by
  dsimp only [State.wakeBy]
  refine .ite ?_ ?_
  · refine .ite h ?_
    split
    · exact { h with }
    · exact h
  · refine .ite ?_ h
    split
    · exact .wake { h with }
    · exact h

theorem InOrder.execWakeEvent {w} (h : InOrder X s) : Steps X (execWakeEvent w s) := .next h.wakeBy
theorem InOrder.execVidStep {panel up} (h : InOrder X s) : Steps X (execVidStep panel up s) := .ite (.next h) (.next h.setPan)
theorem InOrder.execSwatchCycleStart {panel} (h : InOrder X s) : Steps X (execSwatchCycleStart panel s) := .ite (.next h) (.next h.beginCycle)

theorem InOrder.execSliceStart {panel} (h : InOrder X s) : Steps X (execSliceStart panel s) :=
  .ite (.next h) (.ite (.next h.nextSlice) (.ite (.next h) (.ite (.next (.nextSlice (.putResult { h with }))) (.next { h with
    swaRun := SMap.sorted_put _ _ h.swaRun }))))

theorem InOrder.sliceFailed {p n} (h : InOrder X s) : InOrder X (s.sliceFailed p n) := by
  dsimp only [State.sliceFailed]
  split
  · exact h
  · exact .ite (.close { h.countUnit.writeError with }) (.ite (.close { h.freeN.countUnit.writeError with }) h.raiseError)

theorem InOrder.sliceDone {p r pass patterns misr} (h : InOrder X s) : InOrder X (s.sliceDone p r pass patterns misr) :=
  .ite h.putResult h.putResult.sliceFailed

theorem InOrder.execSliceComplete {panel pass patterns misr} (h : InOrder X s) : Steps X (execSliceComplete panel pass patterns misr s) := by
  dsimp only [Machine.execSliceComplete]
  refine .ite ?_ ?_
  · split
    · exact .next h
    · exact .next (.sliceDone { h with })
  · split
    · exact .next h
    · exact .next (.nextSlice (.sliceDone { h with swaRun := SMap.sorted_del _ h.swaRun }))

theorem InOrder.readReg {via a} (h : InOrder X s) : InOrder X (s.readReg via a).2 := by
  dsimp only [State.readReg]
  split
  · exact .pair h
  · exact .ite_snd (.pair h.setDom) (.pair h)

theorem InOrder.putWord {r v} (h : InOrder X s) : InOrder X (s.putWord r v) := by
  dsimp only [State.putWord]
  split
  · exact h.setRd.setRd
  · exact h.setRd.setRd
  · exact h.setRd

theorem InOrder.serr {b p o n} (h : InOrder X s) : InOrder X (s.serr b p o n) := h.setRd
theorem InOrder.clearDomStat {n v} (h : InOrder X s) : InOrder X (s.clearDomStat n v) := h.foldl fun _ _ h1 => h1.setDom

theorem InOrder.domCtlEffect {u : State} {n v} (h : InOrder X s) : InOrder X (u.domCtlEffect s n v) := by
  dsimp only [State.domCtlEffect]
  split
  · exact h.enableDom
  · exact h.disableDom
  · exact .ite h.resumePrimary h
  · exact h

theorem InOrder.disablePort {p} (h : InOrder X s) : InOrder X (s.disablePort p) := by
  dsimp only [State.disablePort]
  exact h.foldl fun _ _ h1 => .ite (.base rfl h1.dropQueues fun h2 => { h2 with
    swtWentDown := SMap.sorted_set false _ true h2.swtWentDown, swtVerified := SMap.sorted_set false _ false h2.swtVerified }) h1.dropQueues

theorem InOrder.remakePool {r v n} (h : InOrder X s) : InOrder X (s.remakePool r v n) :=
  .ite_of (.putWord (.ite h.resetPool h)) (fun h1 => h1.resetPool) fun h1 => h1.setPool.setRd

theorem InOrder.resetStrand {t} (h : InOrder X s) : InOrder X (s.resetStrand t) := by
  dsimp only [State.resetStrand]
  exact h.restart.loseOwner

theorem InOrder.remakePin {n} (h : InOrder X s) : InOrder X (s.remakePin n) := .ite h.safeLevel h
theorem InOrder.clearPstat {n v} (h : InOrder X s) : InOrder X (s.clearPstat n v) := .setPin (.ite h.clearSafe h)
theorem InOrder.loadFbuf {n} (h : InOrder X s) : InOrder X (s.loadFbuf n) := .setRd (h.foldl fun _ _ h1 => h1.setRd)
theorem InOrder.lowReset {v} (h : InOrder X s) : InOrder X (s.lowReset v) := h.foldl fun _ _ h1 => h1.setRd
theorem InOrder.extTest {p found} (h : InOrder X s) : InOrder X (s.extTest p found) := .if_then h.bootUnits.testResults fun h1 => h1.failPanel

theorem InOrder.takeWord {r v found} (h : InOrder X s) : InOrder X (s.takeWord r v found) := by
  dsimp only [State.takeWord]
  split
  · exact .ite h.putWord (.ite { h.putWord with } { h.putWord with })
  · exact .if_then (.ite h.advanceArb h) fun h1 => h1.xferOwner
  · exact .ite { h with } h
  · exact h.putWord.loadFbuf
  · exact h.commitChart
  · exact .ite h.abortChart h
  · exact h.setBankW
  · exact h.putWord.clearTable
  · exact h.putWord.clearTable
  · exact h.remakePool
  · exact h.remakePool
  · exact h.remakePool
  · exact h.lowReset
  · exact .ite h.putWord.failBack h.putWord
  · exact .getD h.setQpState h
  · exact .ite h.putWord.enableRing h.putWord
  · exact h.putWord.domCtlEffect
  · exact h.clearDomStat
  · exact .ite h.disablePort.putWord h.putWord
  · exact .ite { h with swtWentDown := SMap.sorted_set false _ false h.swtWentDown } h
  · exact h.resetStrand
  · exact .ite { h.putWord with } h.putWord
  · exact h.putWord.emptyStash
  · exact h.putWord.emptyStash
  · exact h.putWord.emptyStash
  · exact { h.putWord with }
  · exact .ite { h.putWord with tioSeq := SMap.sorted_del _ h.putWord.tioSeq } h.putWord
  · exact h.putWord.remakePin
  · exact h.clearPstat
  · exact .ite h.extTest h
  · exact h.putWord

theorem InOrder.applyWord {who b p o v found} (h : InOrder X s) : InOrder X (s.applyWord who b p o v found).2 := by
  dsimp only [State.applyWord]
  split
  · exact .pair h
  · exact .ite_snd (.ite_snd (.pair h.extendDigest.modeCommand) (.pair (.serr { h.extendDigest.modeCommand with secKeys := h.secKeys }))) (.pair
      h.extendDigest.takeWord)

theorem InOrder.discardWord {b p o x} (h : InOrder X s) : InOrder X (s.discardWord b p o x) := h.serr

theorem InOrder.resolve {b p o h' v found} (h : InOrder X s) : InOrder X (s.resolve b p o h' v found).2.2 := by
  dsimp only [State.resolve]
  exact .ite_third (.triple h.applyWord.serr) (.ite_third (.triple h.applyWord.discardWord) (.triple h.applyWord.discardWord))

theorem InOrder.writeWord {who size a v rival found} (h : InOrder X s) : InOrder X (s.writeWord who size a v rival found).2 := by
  dsimp only [State.writeWord]
  refine .ite_snd (.pair h) ?_
  split
  · exact .pair h
  · split
    · split
      · exact h.applyWord
      · exact .pair h.discardWord
    · refine .ite_snd (.pair h.resolve) ?_
      refine .pair ?_
      split
      · refine .applyWord ?_
        split
        · exact h.applyWord
        · exact .pair h.discardWord
      · refine .pair ?_
        refine .discardWord ?_
        split
        · exact h.applyWord
        · exact .pair h.discardWord

theorem InOrder.writeWords {who a rivals a1 a12} (h : InOrder X s) : InOrder X (s.writeWords who a rivals a1 a12).2 := by
  induction a12 generalizing a a1 s with
  | nil => exact h
  | cons v l ih => exact ih h.writeWord

theorem InOrder.execRegisterWrite {a} (h : InOrder X s) : Steps X (execRegisterWrite a s) := .next h.writeWord
theorem InOrder.rowWrite {w d p i v found} (h : InOrder X s) : InOrder X (s.rowWrite w d p i v found) := h.writeWord
theorem InOrder.execDomainEnable {w n val} (h : InOrder X s) : Steps X (execDomainEnable w n val s) := .next h.rowWrite
theorem InOrder.execDomainDisable {w n val} (h : InOrder X s) : Steps X (execDomainDisable w n val s) := .next h.rowWrite
theorem InOrder.execPrimaryResume {w n val} (h : InOrder X s) : Steps X (execPrimaryResume w n val s) := .next h.rowWrite
theorem InOrder.execChartCommit {w val} (h : InOrder X s) : Steps X (execChartCommit w val s) := .next h.rowWrite
theorem InOrder.execChartAbort {w val} (h : InOrder X s) : Steps X (execChartAbort w val s) := .next h.rowWrite
theorem InOrder.execNdlRst {w panel val} (h : InOrder X s) : Steps X (execNdlRst w panel val s) := .next h.rowWrite
theorem InOrder.execSafeClear {w pin val} (h : InOrder X s) : Steps X (execSafeClear w pin val s) := .next h.rowWrite
theorem InOrder.execQpStateWrite {w qp val} (h : InOrder X s) : Steps X (execQpStateWrite w qp val s) := .next h.rowWrite
theorem InOrder.execRingEnable {w ring val} (h : InOrder X s) : Steps X (execRingEnable w ring val s) := .next h.rowWrite
theorem InOrder.execFailback {w val} (h : InOrder X s) : Steps X (execFailback w val s) := .next h.rowWrite
theorem InOrder.execAttnClear {w val} (h : InOrder X s) : Steps X (execAttnClear w val s) := .next h.rowWrite
theorem InOrder.execModCmdWrite {w val} (h : InOrder X s) : Steps X (execModCmdWrite w val s) := .next h.rowWrite
theorem InOrder.execTokenGo {w val} (h : InOrder X s) : Steps X (execTokenGo w val s) := .next h.rowWrite
theorem InOrder.execArbAdvance {w val} (h : InOrder X s) : Steps X (execArbAdvance w val s) := .next h.rowWrite
theorem InOrder.execOwnerXfer {w val} (h : InOrder X s) : Steps X (execOwnerXfer w val s) := .next h.rowWrite
theorem InOrder.execExtendedSelftest {w panel val found} (h : InOrder X s) : Steps X (execExtendedSelftest w panel val found s) := .next h.rowWrite
theorem InOrder.execFlushGo {w val} (h : InOrder X s) : Steps X (execFlushGo w val s) := .next h.rowWrite
theorem InOrder.execRecFselWrite {w val} (h : InOrder X s) : Steps X (execRecFselWrite w val s) := .next h.rowWrite
theorem InOrder.execLowrst {w val} (h : InOrder X s) : Steps X (execLowrst w val s) := .next h.rowWrite

theorem InOrder.startCmd {r op c} (h : InOrder X s) : InOrder X (s.startCmd r op c).2 :=
  .pair (.setRing { h with hstJrnl := SMap.sorted_put _ _ h.hstJrnl })

theorem InOrder.refuseCmd {rec status result} (h : InOrder X s) : InOrder X (s.refuseCmd rec status result) := by
  dsimp only [State.refuseCmd]
  split
  · exact h
  · exact .finish { h with hstJrnl := SMap.sorted_put _ _ h.hstJrnl }

theorem InOrder.command {op c rsv run} (h : InOrder X s) (hrun : ∀ v1 v2, InOrder X v2 → InOrder X (run v1 v2)) : Steps X (s.command op c rsv run) :=
  .ite (.next h) (.ite (.next h.startCmd.refuseCmd) (.ite (.next h.startCmd.refuseCmd) (.ite (.next h.startCmd.refuseCmd) (.ite (.next
    h.startCmd.setRing.finish) (.next (hrun _ _ h.startCmd.setRing))))))

theorem InOrder.stagedEm {o rec n key data} (h : InOrder X s) : InOrder X (s.stagedEm o rec n key data) := by
  dsimp only [State.stagedEm]
  split
  · exact h.finish
  · exact .ite h.finish h.insertEnt
  · exact h.finish
  · exact h.putEnt
  · split
    · exact h.finish
    · exact .insertEnt (.ite h.putEnt h.putEnt)

theorem InOrder.stagedLpm {o rec n plen addr data} (h : InOrder X s) : InOrder X (s.stagedLpm o rec n plen addr data) := by
  dsimp only [State.stagedLpm]
  split
  · exact .ite h.finish (.ite h.finish (.finish { h with }))
  · exact .ite h.finish (.ite h.finish (.finish { h with }))

theorem InOrder.tblRun {o staged c rec} (h : InOrder X s) : InOrder X (s.tblRun o staged c rec) :=
  .ite h.finish (.ite h.finish (.ite h.finish (.ite h.stagedLpm (.ite h.stagedEm (.ite h.queueL2 h.unversioned)))))

theorem InOrder.tblCommand {op o staged c} (h : InOrder X s) : Steps X (s.tblCommand op o staged c) := h.command (fun _ _ h1 => h1.tblRun)
theorem InOrder.execStagedInsert {c} (h : InOrder X s) : Steps X (execStagedInsert c s) := h.tblCommand
theorem InOrder.execUnversionedInsert {c} (h : InOrder X s) : Steps X (execUnversionedInsert c s) := h.tblCommand
theorem InOrder.execStagedDelete {c} (h : InOrder X s) : Steps X (execStagedDelete c s) := h.tblCommand
theorem InOrder.execUnversionedDelete {c} (h : InOrder X s) : Steps X (execUnversionedDelete c s) := h.tblCommand
theorem InOrder.execStagedModify {c} (h : InOrder X s) : Steps X (execStagedModify c s) := h.tblCommand
theorem InOrder.execUnversionedModify {c} (h : InOrder X s) : Steps X (execUnversionedModify c s) := h.tblCommand

theorem InOrder.cdelRun {c rec} (h : InOrder X s) : InOrder X (s.cdelRun c rec) := by
  dsimp only [State.cdelRun]
  exact .ite h.finish (.ite h.finish (.ite h.finish (.ite h.finish (.ite h.queueL2 h.startCdelete))))

theorem InOrder.execTblCdelete {c} (h : InOrder X s) : Steps X (execTblCdelete c s) := h.command (fun _ _ h1 => h1.cdelRun)

theorem InOrder.hostTouch {p ridx f} (h : InOrder X s) : InOrder X (s.hostTouch p ridx f) := by
  dsimp only [State.hostTouch]
  refine .mirrorRec ?_
  split
  · exact h.loadCtx.setCtx.setEntry
  · exact h.loadCtx.setCtx

theorem InOrder.flowNamed {p c} (h : InOrder X s) : InOrder X (s.flowNamed p c).2 := .ite_snd (.pair h) (.ite_snd (.pair h) (.pair h.flowLookup))

theorem InOrder.flowInsert {p c rec} (h : InOrder X s) : InOrder X (s.flowInsert p c rec) := by
  dsimp only [State.flowInsert]
  refine .ite h.flowNamed.finish ?_
  split
  · exact h.flowNamed.reserve.finish
  · refine .finish ?_
    refine .hostTouch ?_
    split
    · exact .if_then h.flowNamed.reserve.makeRecord fun h1 => h1.setCtx
    · exact h.flowNamed.reserve.makeRecord

theorem InOrder.flowSetMs {p i rec ms} (h : InOrder X s) : InOrder X (s.flowSetMs p i rec ms) := by
  dsimp only [State.flowSetMs]
  split
  · exact h.finish
  · next u e =>
      have h1 : InOrder X u := .of_some e (.ite h.allocMirror (.some (.ite h h.freeMirror)))
      exact h1.setMs.hostTouch.finish

theorem InOrder.flowRun {o c rec} (h : InOrder X s) : InOrder X (s.flowRun o c rec) := by
  dsimp only [State.flowRun]
  refine .ite h.finish ?_
  refine .ite h.finish ?_
  refine .ite h.flowInsert ?_
  split
  · exact h.flowNamed.finish
  · split
    · exact h.flowNamed.deleteRecord.finish
    · exact h.flowNamed.hostTouch.finish
    · exact h.flowNamed.flowSetMs
    · exact h.flowNamed.finish

theorem InOrder.flowCommand {op o c} (h : InOrder X s) : Steps X (s.flowCommand op o c) := h.command (fun _ _ h1 => h1.flowRun)
theorem InOrder.execHostFlowInsert {c} (h : InOrder X s) : Steps X (execHostFlowInsert c s) := h.flowCommand
theorem InOrder.execHostFlowDelete {c} (h : InOrder X s) : Steps X (execHostFlowDelete c s) := h.flowCommand
theorem InOrder.execFlowWrite {c} (h : InOrder X s) : Steps X (execFlowWrite c s) := h.flowCommand
theorem InOrder.execHostFlowRead {c} (h : InOrder X s) : Steps X (execHostFlowRead c s) := h.flowCommand
theorem InOrder.execFlowSetms {c} (h : InOrder X s) : Steps X (execFlowSetms c s) := h.flowCommand

end

end Sys2Proof.Machine
end

section
/-! PROOFS. What every step keeps, in the other commands of a ring (R314), reception (R426) and the Selvage port (ch. 16). -/

namespace Sys2Proof.Machine

section
variable {X : Nat → Prop} {s : State}

theorem InOrder.execNop {x} (h : InOrder X s) : Steps X (execNop x s) := .ite (.next h) (h.command (fun _ _ h1 => h1.finish))
theorem InOrder.bindRun {c rec} (h : InOrder X s) : InOrder X (s.bindRun c rec) := .ite h.finish (.ite h.finish h.setBound.setBound.finish)
theorem InOrder.execBindSet {c} (h : InOrder X s) : Steps X (execBindSet c s) := h.command (fun _ _ h1 => h1.bindRun)

theorem InOrder.clearCtrs {set inst first n} (h : InOrder X s) : InOrder X (s.clearCtrs set inst first n) :=
  { h with ctrs := foldl_keeps (P := fun m => SMap.sorted m = true) (fun _ _ h1 => SMap.sorted_set (0#32) _ (0#32) h1) h.ctrs }

theorem InOrder.statsRun {c rec} (h : InOrder X s) : InOrder X (s.statsRun c rec) := .ite h.finish (.finish (.ite h.clearCtrs h))
theorem InOrder.execStats {c} (h : InOrder X s) : Steps X (execStats c s) := h.command (fun _ _ h1 => h1.statsRun)

theorem InOrder.readAny {via a} (h : InOrder X s) : InOrder X (s.readAny via a).2 := by
  dsimp only [State.readAny]
  refine .ite_snd h.readReg ?_
  refine .pair ?_
  split
  · exact h.discardWord
  · exact h

theorem InOrder.readMany {via a a1} (h : InOrder X s) : InOrder X (s.readMany via a a1).2 := by
  induction a1 generalizing a s with
  | zero => exact h
  | succ n ih => exact ih h.readAny

theorem InOrder.regReadRun {c rec} (h : InOrder X s) : InOrder X (s.regReadRun c rec) := .ite h.finish (.ite h.finish h.readMany.finish)
theorem InOrder.execRegRead {c} (h : InOrder X s) : Steps X (execRegRead c s) := h.command (fun _ _ h1 => h1.regReadRun)

theorem InOrder.regWriteRun {c rivals rec} (h : InOrder X s) : InOrder X (s.regWriteRun c rivals rec) :=
  .ite h.finish (.ite h.finish h.writeWords.finish)

theorem InOrder.execRegWrite {x} (h : InOrder X s) : Steps X (execRegWrite x s) := h.command (fun _ _ h1 => h1.regWriteRun)
theorem InOrder.execModeCmd {c} (h : InOrder X s) : Steps X (execModeCmd c s) := h.command (fun _ _ h1 => h1.modeCommand.finish)

theorem InOrder.keySlot {erase c ps rec} (h : InOrder X s) : InOrder X (s.keySlot erase c ps rec) :=
  .ite h.finish (.finish { h with
    secKeys := foldl_keeps (P := fun m => SMap.sorted m = true) (fun _ _ h1 => SMap.sorted_ite (SMap.sorted_del _ h1) (SMap.sorted_put _ _ h1))
      h.secKeys })

theorem InOrder.keySa {erase c rec} (h : InOrder X s) : InOrder X (s.keySa erase c rec) :=
  .ite (.ite h.putSa.finish h.finish) (.ite h.finish h.putSa.finish)

theorem InOrder.keyRun {erase c rec} (h : InOrder X s) : InOrder X (s.keyRun erase c rec) :=
  .ite h.finish (.ite h.finish (.ite h.finish (.ite h.keySa h.keySlot)))

theorem InOrder.execKeyLoad {c} (h : InOrder X s) : Steps X (execKeyLoad c s) := h.command (fun _ _ h1 => h1.keyRun)
theorem InOrder.execKeyErase {c} (h : InOrder X s) : Steps X (execKeyErase c s) := h.command (fun _ _ h1 => h1.keyRun)

theorem InOrder.execWork {c} (h : InOrder X s) : Steps X (execWork c s) := by
  dsimp only [Machine.execWork]
  refine h.command ?_
  intro _ _ h1
  split
  · exact h1
  · exact h1.offerWork

theorem InOrder.inject {p port bs work} (h : InOrder X s) : OptInOrder X (s.inject p port bs work) := by
  dsimp only [State.inject]
  split
  · exact .none
  · exact .some { h.storeFrame with swtParseQ := SMap.sorted_set _ _ _ h.storeFrame.swtParseQ }

theorem InOrder.txArrive {rec w ans} (h : InOrder X s) : InOrder X (s.txArrive rec w ans) := by
  dsimp only [State.txArrive]
  split
  · exact h
  · split
    · exact h
    · exact .finish (.getD h.noteCe.readDone h.noteCe)
    · split
      · exact h.noteCe
      · next u e =>
          have h1 : InOrder X u := .of_some e h.noteCe.readDone
          split
          · exact h1.finish
          · next u1 e1 =>
              have h2 : InOrder X u1 := .of_some e1 h1.inject
              exact h2

theorem InOrder.txRun {c ans rec} (h : InOrder X s) : InOrder X (s.txRun c ans rec) := by
  dsimp only [State.txRun]
  refine .ite h.finish ?_
  split
  · exact h.qpPost
  · exact h.qpPost.txArrive

theorem InOrder.execTxFrame {c ans} (h : InOrder X s) : Steps X (execTxFrame c ans s) := by
  dsimp only [Machine.execTxFrame]
  split
  · exact .next h.txArrive
  · exact h.command (fun _ _ h1 => h1.txRun)

theorem InOrder.hostFrame {bs} (h : InOrder X s) : InOrder X (s.hostFrame bs) := .ite (.ite h.count h) (.ite h.noteCe.emit h)

theorem InOrder.rafRun {p rivals} (h : InOrder X s) : InOrder X (s.rafRun p rivals).2 :=
  .ite_snd (.pair h) (.ite_snd (.pair h) (.ite_snd (.pair h.readMany) (.pair h.writeWords)))

theorem InOrder.raf {f bs rivals} (h : InOrder X s) : InOrder X (s.raf f bs rivals) := .ite h.count (.ite h.emit (.emit { h.rafRun with }))
theorem InOrder.rxHost {f port bs rivals} (h : InOrder X s) : InOrder X (s.rxHost f port bs rivals) := .ite h.hostFrame (.ite h.raf (.ite h.rxTail h))

theorem InOrder.receive {f rivals} (h : InOrder X s) : InOrder X (s.receive f rivals) := by
  dsimp only [State.receive]
  refine .ite h ?_
  split
  · refine .ite h ?_
    split
    · exact h.rxEth
    · exact h.rxEth.rxHost
  · exact .ite h h.rxCan
  · exact .ite h h.rxTail

theorem InOrder.execFrameReceive {f} (h : InOrder X s) : Steps X (execFrameReceive f s) := .next h.receive
theorem InOrder.execRafRead {f} (h : InOrder X s) : Steps X (execRafRead f s) := .next h.receive
theorem InOrder.execRafWrite {x} (h : InOrder X s) : Steps X (execRafWrite x s) := .next h.receive
theorem InOrder.sendResp {early ws} (h : InOrder X s) : InOrder X (s.sendResp early ws) := .ite { h with } (.emit { h with })
theorem InOrder.respond {r op status payload} (h : InOrder X s) : InOrder X (s.respond r op status payload) := h.sendResp

theorem InOrder.request {op r rsv badLen run} (h : InOrder X s) (hrun : ∀ v1, InOrder X v1 → InOrder X (run v1).2.2) : Steps X (s.request op r rsv
    badLen run) :=
  .ite (.next h) (.ite (.next h.respond) (.ite (.next h.respond) (.next (.respond (hrun _ h)))))

theorem InOrder.plainReq {op r run} (h : InOrder X s) (hrun : ∀ v1, InOrder X v1 → InOrder X (run v1).2.2) : Steps X (s.plainReq op r run) :=
  h.request (fun _ h1 => hrun _ h1)

theorem InOrder.execSvNop {x} (h : InOrder X s) : Steps X (execSvNop x s) :=
  .ite (h.plainReq (fun _ h1 => .triple h1)) (.ite (.next h) (h.request (fun _ h1 => .triple h1)))

theorem InOrder.execSetpage {r} (h : InOrder X s) : Steps X (execSetpage r s) := h.request (fun _ h1 => .triple { h1 with })
theorem InOrder.execRdS {r} (h : InOrder X s) : Steps X (execRdS r s) := h.request (fun _ h1 => .ite_third (.triple h1) (.triple h1.readMany))

theorem InOrder.execWrS {x} (h : InOrder X s) : Steps X (execWrS x s) := by
  dsimp only [Machine.execWrS]
  exact h.request (fun _ h1 => .ite_third (.triple h1) (.triple h1.writeWords))

theorem InOrder.execMbxSend {r} (h : InOrder X s) : Steps X (execMbxSend r s) := by
  dsimp only [Machine.execMbxSend]
  refine h.request ?_
  intro _ h1
  split
  · exact .triple h1
  · exact .ite_third (.triple h1) (.triple (.getD h1.inject h1))

theorem InOrder.execMbxRecv {r} (h : InOrder X s) : Steps X (execMbxRecv r s) := by
  dsimp only [Machine.execMbxRecv]
  refine h.plainReq ?_
  intro _ h1
  split
  · exact .triple h1
  · exact .triple { h1 with }

theorem InOrder.modeReq {r run} (h : InOrder X s) (hrun : ∀ v1, InOrder X v1 → InOrder X (run v1).2) : Steps X (s.modeReq r run) :=
  h.request (fun _ h1 => .triple (hrun _ h1.noteSel))

theorem InOrder.execResetA {r} (h : InOrder X s) : Steps X (execResetA r s) := h.modeReq (fun _ h1 => .pair h1.leavePanel)
theorem InOrder.execResetB {r} (h : InOrder X s) : Steps X (execResetB r s) := h.modeReq (fun _ h1 => .pair h1.leavePanel)
theorem InOrder.execSvLimp {r} (h : InOrder X s) : Steps X (execSvLimp r s) := h.modeReq (fun _ h1 => h1.modeCommand)
theorem InOrder.execSvSleep {r} (h : InOrder X s) : Steps X (execSvSleep r s) := h.modeReq (fun _ h1 => h1.modeCommand)
theorem InOrder.execSvWake {r} (h : InOrder X s) : Steps X (execSvWake r s) := h.modeReq (fun _ h1 => .ite_snd (.pair h1.wakeBy) (.pair h1))
theorem InOrder.execRecRead {r} (h : InOrder X s) : Steps X (execRecRead r s) := h.request (fun _ h1 => .triple h1)

theorem InOrder.flashOp {a n good} (h : InOrder X s) (hgood : ∀ v1, InOrder X v1 → InOrder X (good v1)) : InOrder X (s.flashOp a n good).2.2 :=
  .ite_third (.triple (hgood _ h.freeB)) (.triple { h.freeB with })

theorem InOrder.execFlashRd {r} (h : InOrder X s) : Steps X (execFlashRd r s) :=
  h.request (fun _ h1 => .ite_third (.triple h1) (.ite_third (.triple h1.freeB) (.triple h1.freeB)))

theorem InOrder.execFlashWr {r} (h : InOrder X s) : Steps X (execFlashWr r s) :=
  h.request (fun _ h1 => .ite_third (.triple h1) (h1.flashOp (fun _ h2 => h2.flashProg)))

theorem InOrder.execFlashErase {r} (h : InOrder X s) : Steps X (execFlashErase r s) :=
  h.request (fun _ h1 => .ite_third (.triple h1) (h1.flashOp (fun _ h2 => h2.flashErase)))

theorem InOrder.execAttest {r} (h : InOrder X s) : Steps X (execAttest r s) := by
  dsimp only [Machine.execAttest]
  refine h.request ?_
  intro _ h1
  split
  · exact .triple h1
  · exact .triple { h1 with }

theorem InOrder.execAttestRd {r} (h : InOrder X s) : Steps X (execAttestRd r s) := by
  dsimp only [Machine.execAttestRd]
  refine h.request ?_
  intro _ h1
  refine .ite_third (.triple h1) ?_
  split
  · exact .triple h1
  · exact .ite_third (.triple h1) (.triple h1)

theorem InOrder.execResend {r} (h : InOrder X s) : Steps X (execResend r s) := by
  dsimp only [Machine.execResend]
  refine .ite (.next h) ?_
  refine .ite (.next h.respond) ?_
  refine .ite (.next h.respond) ?_
  split
  · exact .next h.sendResp
  · exact .next h.respond

theorem InOrder.execFrameAbort (h : InOrder X s) : Steps X (execFrameAbort s) := .ite (.next h) (.next h.count)
theorem InOrder.execCrcErr (h : InOrder X s) : Steps X (execCrcErr s) := .ite (.next h) (.next h.count.emit)

end

end Sys2Proof.Machine
end

section
/-! PROOFS. What every command keeps, and with it every step (R173): the maps in order, and no hook unit in the middle of an operation. -/

namespace Sys2Proof.Machine

section
variable {X : Nat → Prop} {s : State}

theorem InOrder.exec (h : InOrder X s) (i : Instr) : Steps X (exec i s) :=
  match i with
  | .registerWrite .. => h.execRegisterWrite
  | .domainEnable .. => h.execDomainEnable
  | .domainDisable .. => h.execDomainDisable
  | .primaryResume .. => h.execPrimaryResume
  | .sourceObservation .. => h.execSourceObservation
  | .sourceLost .. => h.execSourceLost
  | .edgeOverdue .. => h.execEdgeOverdue
  | .uncLimit .. => h.execUncLimit
  | .coastLimit .. => h.execCoastLimit
  | .eventFire .. => h.execEventFire
  | .frameReceive .. => h.execFrameReceive
  | .portLinkDown .. => h.execPortLinkDown
  | .portLinkUp .. => h.execPortLinkUp
  | .linDominantTimeout .. => h.execLinDominantTimeout
  | .linRecessiveRecovery .. => h.execLinRecessiveRecovery
  | .canBusoffRecovery .. => h.execCanBusoffRecovery
  | .egressTransmit .. => h.execEgressTransmit
  | .txAbandon .. => h.execTxAbandon
  | .linHeaderReceive .. => h.execLinHeaderReceive
  | .linSlotStart .. => h.execLinSlotStart
  | .canScheduleEntry .. => h.execCanScheduleEntry
  | .parsePass .. => h.execParsePass
  | .chartCommit .. => h.execChartCommit
  | .chartAbort .. => h.execChartAbort
  | .sweepPassEnd => h.execSweepPassEnd
  | .generationRetire => h.execGenerationRetire
  | .holdQueueRetry .. => h.execHoldQueueRetry
  | .spillReturn .. => h.execSpillReturn
  | .dispatch .. => h.execDispatch
  | .releaseTurn .. => h.execReleaseTurn
  | .bindTimeout .. => h.execBindTimeout
  | .lockGrant .. => h.execLockGrant
  | .reservedMajor .. => h.execReservedMajor
  | .add .. => h.execAdd
  | .sub .. => h.execSub
  | .andR .. => h.execAndR
  | .orR .. => h.execOrR
  | .xorR .. => h.execXorR
  | .andn .. => h.execAndn
  | .sll .. => h.execSll
  | .srl .. => h.execSrl
  | .sra .. => h.execSra
  | .ror .. => h.execRor
  | .mul .. => h.execMul
  | .mulhu .. => h.execMulhu
  | .mulhs .. => h.execMulhs
  | .minS .. => h.execMinS
  | .maxS .. => h.execMaxS
  | .minu .. => h.execMinu
  | .maxu .. => h.execMaxu
  | .clz .. => h.execClz
  | .ctz .. => h.execCtz
  | .popc .. => h.execPopc
  | .bswap .. => h.execBswap
  | .addd .. => h.execAddd
  | .subd .. => h.execSubd
  | .addi .. => h.execAddi
  | .andi .. => h.execAndi
  | .ori .. => h.execOri
  | .xori .. => h.execXori
  | .shi .. => h.execShi
  | .movl .. => h.execMovl
  | .movh .. => h.execMovh
  | .extu .. => h.execExtu
  | .exts .. => h.execExts
  | .ins .. => h.execIns
  | .eq .. => h.execEq
  | .ne .. => h.execNe
  | .lt .. => h.execLt
  | .ge .. => h.execGe
  | .ltu .. => h.execLtu
  | .geu .. => h.execGeu
  | .tst .. => h.execTst
  | .cmpeqi .. => h.execCmpeqi
  | .cmplti .. => h.execCmplti
  | .cmpltui .. => h.execCmpltui
  | .pand .. => h.execPand
  | .por .. => h.execPor
  | .pxor .. => h.execPxor
  | .pandn .. => h.execPandn
  | .pnot .. => h.execPnot
  | .ldb .. => h.execLdb
  | .ldbu .. => h.execLdbu
  | .ldh .. => h.execLdh
  | .ldhu .. => h.execLdhu
  | .ldw .. => h.execLdw
  | .ldd .. => h.execLdd
  | .stb .. => h.execStb
  | .sth .. => h.execSth
  | .stw .. => h.execStw
  | .std .. => h.execStd
  | .ldx .. => h.execLdx
  | .stx .. => h.execStx
  | .ldpi .. => h.execLdpi
  | .stpi .. => h.execStpi
  | .amoSwap .. => h.execAmoSwap
  | .amoAdd .. => h.execAmoAdd
  | .amoAnd .. => h.execAmoAnd
  | .amoOr .. => h.execAmoOr
  | .amoXor .. => h.execAmoXor
  | .amoMinu .. => h.execAmoMinu
  | .amoMaxu .. => h.execAmoMaxu
  | .amoCas .. => h.execAmoCas
  | .b .. => h.execB
  | .bl .. => h.execBl
  | .jalr .. => h.execJalr
  | .yput .. => h.execYput
  | .ysend .. => h.execYsend
  | .yrecv .. => h.execYrecv
  | .yget .. => h.execYget
  | .ydrop .. => h.execYdrop
  | .yarnWaitServe .. => h.execYarnWaitServe
  | .yarnTimeout .. => h.execYarnTimeout
  | .yarnMessageArrive .. => h.execYarnMessageArrive
  | .mth .. => h.execMth
  | .mfh .. => h.execMfh
  | .mthd .. => h.execMthd
  | .hclr .. => h.execHclr
  | .hcpy .. => h.execHcpy
  | .hook7 .. => h.execHook7
  | .brk .. => h.execBrk
  | .eret .. => h.execEret
  | .waitd .. => h.execWaitd
  | .bindoff .. => h.execBindoff
  | .halt .. => h.execHalt
  | .fence .. => h.execFence
  | .hsync .. => h.execHsync
  | .mfsr .. => h.execMfsr
  | .mtsr .. => h.execMtsr
  | .memoryResultArrive .. => h.execMemoryResultArrive
  | .hookResultArrive .. => h.execHookResultArrive
  | .hookBusyTimeout .. => h.execHookBusyTimeout
  | .knot .. => h.execKnot
  | .knotTrap .. => h.execKnotTrap
  | .ndlRst .. => h.execNdlRst
  | .debugHalt .. => h.execDebugHalt
  | .debugResume .. => h.execDebugResume
  | .debugStep .. => h.execDebugStep
  | .debugRead .. => h.execDebugRead
  | .debugWrite .. => h.execDebugWrite
  | .debugTink .. => h.execDebugTink
  | .endpointDelivery .. => h.execEndpointDelivery
  | .ctxInit .. => h.execCtxInit
  | .aad .. => h.execAad
  | .enc .. => h.execEnc
  | .dec .. => h.execDec
  | .mac .. => h.execMac
  | .tag .. => h.execTag
  | .tagchk .. => h.execTagchk
  | .absorb .. => h.execAbsorb
  | .squeeze .. => h.execSqueeze
  | .aesEnc .. => h.execAesEnc
  | .aesDec .. => h.execAesDec
  | .latNtt .. => h.execLatNtt
  | .latPmul .. => h.execLatPmul
  | .latPadd .. => h.execLatPadd
  | .latExpand .. => h.execLatExpand
  | .emLookup .. => h.execEmLookup
  | .lpmLookup .. => h.execLpmLookup
  | .l2Lookup .. => h.execL2Lookup
  | .flowFind .. => h.execFlowFind
  | .csum .. => h.execCsum
  | .crc32c .. => h.execCrc32c
  | .crc32 .. => h.execCrc32
  | .crc8 .. => h.execCrc8
  | .crc16 .. => h.execCrc16
  | .csumPkt .. => h.execCsumPkt
  | .hash64 .. => h.execHash64
  | .flowRead .. => h.execFlowRead
  | .flowReadx .. => h.execFlowReadx
  | .flowGet .. => h.execFlowGet
  | .flowAdd .. => h.execFlowAdd
  | .flowSet .. => h.execFlowSet
  | .flowCas .. => h.execFlowCas
  | .flowInsert .. => h.execFlowInsert
  | .flowDelete .. => h.execFlowDelete
  | .posRead .. => h.execPosRead
  | .posAdd .. => h.execPosAdd
  | .posCmp .. => h.execPosCmp
  | .evtSched .. => h.execEvtSched
  | .evtCancel .. => h.execEvtCancel
  | .evtPoll .. => h.execEvtPoll
  | .alloc .. => h.execAlloc
  | .freeBuf .. => h.execFreeBuf
  | .pktRd .. => h.execPktRd
  | .pktWr .. => h.execPktWr
  | .pktIns .. => h.execPktIns
  | .pktStrip .. => h.execPktStrip
  | .pktMove .. => h.execPktMove
  | .acfPack .. => h.execAcfPack
  | .acfUnpack .. => h.execAcfUnpack
  | .learn .. => h.execLearn
  | .activityUpdate .. => h.execActivityUpdate
  | .remoteCopyWrite .. => h.execRemoteCopyWrite
  | .scanPass .. => h.execScanPass
  | .scanResume .. => h.execScanResume
  | .cdeleteDecide .. => h.execCdeleteDecide
  | .missQueueAdmit .. => h.execMissQueueAdmit
  | .missServe .. => h.execMissServe
  | .adoptConflict .. => h.execAdoptConflict
  | .resequenceTimeout .. => h.execResequenceTimeout
  | .egressAdmission .. => h.execEgressAdmission
  | .frerReset .. => h.execFrerReset
  | .pinTransition .. => h.execPinTransition
  | .pinEdgeAccept .. => h.execPinEdgeAccept
  | .safeClear .. => h.execSafeClear
  | .deadTimeExpire .. => h.execDeadTimeExpire
  | .sentFrame .. => h.execSentFrame
  | .sourceSample .. => h.execSourceSample
  | .sarConversion .. => h.execSarConversion
  | .sdmOutput .. => h.execSdmOutput
  | .dramCommandIssue .. => h.execDramCommandIssue
  | .dramReadComplete .. => h.execDramReadComplete
  | .refreshDue .. => h.execRefreshDue
  | .mr4Read .. => h.execMr4Read
  | .retrain .. => h.execRetrain
  | .retrainComplete .. => h.execRetrainComplete
  | .wideSearchComplete .. => h.execWideSearchComplete
  | .resyncComplete => h.execResyncComplete
  | .doorbell .. => h.execDoorbell
  | .rdmaWrite .. => h.execRdmaWrite
  | .rdmaRead .. => h.execRdmaRead
  | .ackReceive .. => h.execAckReceive
  | .ackTimeout .. => h.execAckTimeout
  | .rnrRetry .. => h.execRnrRetry
  | .cnpReceive .. => h.execCnpReceive
  | .rateIncrease .. => h.execRateIncrease
  | .commandFetch .. => h.execCommandFetch
  | .qpStateWrite .. => h.execQpStateWrite
  | .ringEnable .. => h.execRingEnable
  | .failback .. => h.execFailback
  | .failover => h.execFailover
  | .nop .. => h.execNop
  | .stagedInsert .. => h.execStagedInsert
  | .unversionedInsert .. => h.execUnversionedInsert
  | .stagedDelete .. => h.execStagedDelete
  | .unversionedDelete .. => h.execUnversionedDelete
  | .stagedModify .. => h.execStagedModify
  | .unversionedModify .. => h.execUnversionedModify
  | .tblCdelete .. => h.execTblCdelete
  | .hostFlowInsert .. => h.execHostFlowInsert
  | .hostFlowDelete .. => h.execHostFlowDelete
  | .flowWrite .. => h.execFlowWrite
  | .hostFlowRead .. => h.execHostFlowRead
  | .flowSetms .. => h.execFlowSetms
  | .bindSet .. => h.execBindSet
  | .stats .. => h.execStats
  | .regRead .. => h.execRegRead
  | .regWrite .. => h.execRegWrite
  | .modeCmd .. => h.execModeCmd
  | .keyLoad .. => h.execKeyLoad
  | .keyErase .. => h.execKeyErase
  | .work .. => h.execWork
  | .txFrame .. => h.execTxFrame
  | .rafRead .. => h.execRafRead
  | .rafWrite .. => h.execRafWrite
  | .svNop .. => h.execSvNop
  | .setpage .. => h.execSetpage
  | .rdS .. => h.execRdS
  | .wrS .. => h.execWrS
  | .mbxSend .. => h.execMbxSend
  | .mbxRecv .. => h.execMbxRecv
  | .resetA .. => h.execResetA
  | .resetB .. => h.execResetB
  | .svLimp .. => h.execSvLimp
  | .svSleep .. => h.execSvSleep
  | .svWake .. => h.execSvWake
  | .recRead .. => h.execRecRead
  | .flashRd .. => h.execFlashRd
  | .flashWr .. => h.execFlashWr
  | .flashErase .. => h.execFlashErase
  | .attest .. => h.execAttest
  | .attestComplete => h.execAttestComplete
  | .attestRd .. => h.execAttestRd
  | .resend .. => h.execResend
  | .frameAbort => h.execFrameAbort
  | .crcErr => h.execCrcErr
  | .attnClear .. => h.execAttnClear
  | .modCmdWrite .. => h.execModCmdWrite
  | .powerOn .. => h.execPowerOn
  | .powerLoss => h.execPowerLoss
  | .panelBootDone .. => h.execPanelBootDone
  | .panelNotPowered .. => h.execPanelNotPowered
  | .panelReset .. => h.execPanelReset
  | .sleepEntryComplete => h.execSleepEntryComplete
  | .wakeEvent .. => h.execWakeEvent
  | .tokenGo .. => h.execTokenGo
  | .tokenVerifyComplete => h.execTokenVerifyComplete
  | .arbAdvance .. => h.execArbAdvance
  | .ownerXfer .. => h.execOwnerXfer
  | .errorDetected .. => h.execErrorDetected
  | .recoveryStart .. => h.execRecoveryStart
  | .recoveryResume .. => h.execRecoveryResume
  | .retestComplete .. => h.execRetestComplete
  | .panelLoss .. => h.execPanelLoss
  | .bridgeFailure => h.execBridgeFailure
  | .bridgeRetrain .. => h.execBridgeRetrain
  | .crystalFail .. => h.execCrystalFail
  | .swatchCycleStart .. => h.execSwatchCycleStart
  | .sliceStart .. => h.execSliceStart
  | .sliceComplete .. => h.execSliceComplete
  | .extendedSelftest .. => h.execExtendedSelftest
  | .intervalEnd => h.execIntervalEnd
  | .lifeSample .. => h.execLifeSample
  | .flush .. => h.execFlush
  | .flushGo .. => h.execFlushGo
  | .recFselWrite .. => h.execRecFselWrite
  | .lowrst .. => h.execLowrst
  | .vidStep .. => h.execVidStep
  | .fabricSlot => h.execFabricSlot
  | .preemptionVerification .. => h.execPreemptionVerification
  | .panelStart .. => h.execPanelStart
  | .recoveryClose .. => h.execRecoveryClose
  | .wakeRetry .. => h.execWakeRetry

theorem InOrder.step (h : InOrder X s) : Steps X (step s) := by
  unfold Machine.step
  split
  · exact .next { h with }
  · next c cs _ => exact InOrder.exec (s := { s with pending := cs }) { h with } c

end

/-- Settles O59: each command keeps the order of the maps and has its units at work on no strand but those that they were at work on. -/
theorem everyStepKeepsMaps : Obligations.EveryStepKeepsMaps := by
  intro s u maps e
  refine ⟨?_, fun idle => ?_⟩
  · have h : InOrder (fun _ => True) s := .of_mapsOk maps fun _ _ => .inr trivial
    exact (h.step.after e).mapsOk
  · have none : ∀ x ∈ s.strands, x.2.running = none ∨ False := fun x hx => .inl (Option.isNone_iff_eq_none.1 (List.all_eq_true.1 idle x hx))
    have h : InOrder (fun _ => False) s := .of_mapsOk maps none
    refine List.all_eq_true.2 fun x hx => ?_
    rw [((h.step.after e).eachStrand x hx).running.resolve_right id]
    rfl

end Sys2Proof.Machine
end
